-- ==== Sys2Proof/Word.lean ====
section
/-! DEFINITION. The words the spec treats as bits, and how fields are read from and placed into them. -/

namespace Sys2Proof

abbrev Byte := BitVec 8
abbrev Half := BitVec 16
abbrev Word := BitVec 32

/-- A memory of bytes: addresses strictly rising, no byte 0 listed, an unlisted byte reads 0. -/
abbrev Mem := List Host.Cell

/-- A sparse table of `w`-bit cells in the same canonical form. -/
abbrev Cells (w : Nat) := List (Nat × BitVec w)


/-- What a host command carries beside its arguments (03 R73, R74): the ring it stands in, its index there, its TAG
and its IRQ flag. -/
structure CmdHdr where
  /-- [03 R74] RING -/
  ring : Fin 24
  /-- [03 R74] INDEX -/
  index : BitVec 16
  /-- [03 R73] TAG -/
  tag : BitVec 16
  /-- [03 R73] FLAGS bit 0, IRQ -/
  irq : Bool
  deriving DecidableEq, Repr

end Sys2Proof
end

