-- ==== Sys2Proof/Config.lean ====
section
/-! DEFINITION. What an implementation fixes and what the spec leaves open: constants with no body. No proof can see
their values, so a statement that holds here holds whatever they are. Each names its entry of the assumption log. -/

namespace Sys2Proof

/-- DESIGN CHOICE (log 10): the number of a completion status of R77, which the spec never gives, by the order of R77's table. -/
opaque Config.statusCode : Nat → Byte

/-- DESIGN CHOICE (log 5): the random draws of the device's generator (17 R498, 16 R489), by draw number. -/
opaque Config.random : Nat → BitVec 128

/-- DESIGN CHOICE (log 11): the factory code of each trim DAC in OTP (14 R423). -/
opaque Config.factoryTrim : Fin 48 → BitVec 10

/-- DESIGN CHOICE (log 11): the factory test temperature in OTP (14 R437). -/
opaque Config.factoryTemp : BitVec 16

/-- DESIGN CHOICE (log 12): the 64-bit die identifier in OTP (17 R511). -/
opaque Config.dieId : BitVec 64

/-- DESIGN CHOICE (log 12): the device key KD in OTP (17 R511). -/
opaque Config.deviceKey : BitVec 256

/-- DESIGN CHOICE (log 12): the hash of the Erdeuk image key in slot 0 of OTP (17 R512). -/
opaque Config.erdeukKey : BitVec 256

/-- DESIGN CHOICE (log 14): what the Ridge's 24-iteration CORDIC rotation (11 R332) adds to the azimuth and the elevation by
its rounding, of which the spec states nothing, in 1/65536 degree: of the direction `x`, `y` after a tilt and a pan of
`tilt / den` and `pan / den`. -/
opaque Config.cordicError : (x y tilt pan : Int) → (den : Nat) → BitVec 4 × BitVec 4

/-- DESIGN CHOICE (log 14): whether a register shows a fraction `num / den` between two of its values as the upper one, where
the spec states no rounding (11 R369, 10 R301, R313). -/
opaque Config.roundsUp : (num : Int) → (den : Nat) → Bool

/-- DESIGN CHOICE (log 113): the current command of a SUPPLY channel's voltage loop, whose law the spec does not give
(10 R292), in codes of STR_c_IREF: by channel, draw, target and ball voltage in millivolts. -/
opaque Config.voltageLoop : (ch draw target vsn : Nat) → BitVec 10

/-- DESIGN CHOICE (log 15): the bytes on the wire of a Purlin payload whose content the spec lists without a layout
(16 R474, R482, 06 R189): from the TYPE and the content in the order the spec lists it. -/
opaque Config.cellPayload : Byte → List Byte → List Byte

/-- DESIGN CHOICE (log 16): whether a register that shows remaining seconds shows a part of a second of so many
microseconds as one more (11 R368, 17 R514), of which the spec states no rounding. -/
opaque Config.roundUpSeconds : Nat → Bool

/-- DESIGN CHOICE (log 17): the cycles beyond the least count of 04 R122 that an instruction of a T or P core takes, by
draw number: contention, cache misses and access times that the spec leaves open. -/
opaque Config.extraCycles : Nat → BitVec 16

/-- DESIGN CHOICE (log 18): how many command frames wait on the barrier link before SOFX answers that the stream is full
(04 R113), of which the spec states no number. -/
opaque Config.sofxCapacity : Nat

/-- DESIGN CHOICE (log 19): which of nine words the outgoing input frame loses when the F program appends a ninth to a
frame that holds at most eight (13 R397), of which the spec says nothing. -/
opaque Config.bftxDrops : Fin 9

/-- DESIGN CHOICE (log 20): whether a core that BRK halts stands at the next instruction (04 R120), of which the spec says
nothing. -/
opaque Config.brkAdvances : Bool

/-- DESIGN CHOICE (log 21): RESULT0 of a SAFETY_CHANGE that fails because the change-log counter is spent (11 R357), of
which the spec states no number. -/
opaque Config.exhaustedResult : Word

/-- DESIGN CHOICE (log 22): RESULT0 of an IMAGE_LOAD that finds all 64 handles in use (03 R80), where the spec names no
object in conflict. -/
opaque Config.handlesBusy : Word

/-- DESIGN CHOICE (log 106): CAUSE of SYS_IMG_CHECK after an IMAGE_LOAD that ended before the checks of 04 R131, of which the
spec says nothing. -/
opaque Config.uncheckedCause : Fin 13

/-- DESIGN CHOICE (log 106): OFFSET of SYS_IMG_CHECK_OFF after an IMAGE_LOAD that ended before the checks of 04 R131, where
CAUSE is not 0. -/
opaque Config.uncheckedOffset : BitVec 25

/-- DESIGN CHOICE (log 107): whether an engine's instruction cache still holds line `line` after a fill (05 R140), whose
replacement rule the spec does not state; the first argument is the draw. -/
opaque Config.lineKept : (draw line : Nat) → Bool

/-- DESIGN CHOICE (log 111): the running disparity of a Batten lane at a SOF (08 R223), which the number of IDLE symbols
before it decides: by the transfer's frame and the chain. -/
opaque Config.idleDisparity : (frame chain : Nat) → Bool

end Sys2Proof
end

