-- ==== Sys2Proof/Machine/Device.lean ====
section
/-! DEFINITION. The state of every block of the device as the spec gives it, and its value at reset. Each field's
docstring names the chapter and rule of the spec, what the field is, and after the bar its reset value. -/

namespace Sys2Proof.Machine

open Sys2Proof

/-! ### Host port, interrupts, the Loft (02) -/

/-- SYS_HP_CFG, SYS_HP_STATUS, SYS_HP_ERR_ADDR and what the last access drove out (02 R40 to R43). -/
structure HostPort where
  /-- [02 R40] SYS_HP_CFG.PROTO, the protocol in force | 0 -/
  proto : BitVec 2
  /-- [02 R40] SYS_HP_CFG.DUMMY | 8 -/
  dummy : BitVec 5
  /-- [02 R42] SYS_HP_STATUS[6:0]: UNMAPPED PROTECT ALIGN RD_LATE BAD_CMD ECC_UE ABORT | 0 -/
  flags : BitVec 7
  /-- [02 R43] SYS_HP_ERR_ADDR | 0 -/
  errAddr : Word
  /-- [02 R35] the bytes the device drove during the last access (the model's own view of HP_IO) | empty -/
  out : List Byte
  deriving DecidableEq, Repr

/-- SYS_INT_STATUS, SYS_INT_EN and SYS_INT_RING (02 R44, R45). HP_INT_N is computed from the first two. -/
structure Interrupts where
  /-- [02 R44] SYS_INT_STATUS: CMPL EVENT FLASH_OUT PURLIN_OUT HP_ERR MODE LOFT_UE | 0 -/
  status : BitVec 7
  /-- [02 R44] SYS_INT_EN | 0 -/
  enable : BitVec 7
  /-- [02 R45] SYS_INT_RING | 0 -/
  ring : Word
  deriving DecidableEq, Repr

/-- The Loft and its error registers (02 R54 to R61). -/
structure Loft where
  /-- [02 R46] the 24 MiB of bytes, canonical list, an unlisted byte reads 0 | nothing listed; contents at power-up DESIGN CHOICE 0 (log 1) -/
  cells : Mem
  /-- [02 R59] 8-byte word indices marked uncorrectable | empty -/
  ue : List Nat
  /-- [02 R57] 8-byte word indices holding a single-bit error | empty -/
  ce : List Nat
  /-- [02 R61] SYS_LOFT_ECC.CE_COUNT | 0 -/
  ceCount : BitVec 16
  /-- [02 R61] SYS_LOFT_ECC.UE_COUNT | 0 -/
  ueCount : BitVec 16
  /-- [02 R61] SYS_LOFT_UE_ADDR.ADDR | 0 -/
  ueAddr : BitVec 25
  /-- [02 R61] SYS_LOFT_UE_ADDR.VALID | 0 -/
  ueValid : Bool
  /-- [02 R61] SYS_LOFT_SCRUB.PASS_COUNT | 0 -/
  scrubPass : Word
  /-- [02 R60] the granule of every bank that the scrub reads next, 0 to 49151 | 0 DESIGN CHOICE (log 2) -/
  scrubPos : Nat
  /-- [02 R57] house time of the last event 0x0110 | none -/
  lastCeEvent : Option Nat
  deriving DecidableEq, Repr

/-- A soft error: bits of a memory that change by themselves, and what its code makes of them (02 R57, R58, 04 R110,
11 R321). -/
inductive SoftError where
  /-- a single bit of an 8-byte word of the Loft -/
  | loftSingle (w : Nat)
  /-- two bits of an 8-byte word of the Loft: the word as it then stands differs by `mask` -/
  | loftDouble (w : Nat) (mask : BitVec 64)
  /-- the same in the memory of a Truss, a Gable or the Soffit -/
  | trussDouble (w : Nat) (mask : BitVec 64)
  | gableDouble (w : Nat) (mask : BitVec 64)
  | soffitDouble (w : Nat) (mask : BitVec 64)
  /-- bits of an entry of the static ceiling map -/
  | ridgeStatic (entry : Nat) (mask : BitVec 2)
  /-- bits of an entry of a cell-map buffer -/
  | ridgeCell (buf : Bool) (cell : Nat) (mask : BitVec 2)
  /-- an odd number of bits in another memory of the Ridge -/
  | ridgeOther
  deriving DecidableEq, Repr

/-- A long command in service on its ring: its header, OPCODE and ARG0 to ARG6 (03 R73, R78). -/
structure LongCommand where
  /-- [03 R73] ring, index, TAG, IRQ | - -/
  hdr : CmdHdr
  /-- [03 R73] OPCODE | - -/
  opcode : Byte
  /-- [03 R73] ARG0 to ARG6 | - -/
  args : Vector Word 7
  deriving DecidableEq, Repr

/-! ### Rings, regions and scheduled effects (03) -/

/-- The completion statuses of R77; their numbers are not in the spec (Config.statusCode). -/
inductive CmdStatus where
  | ok | deferred | badOpcode | denied | wrongMode | noopZero | badArg | busy | authFail | fault
  deriving DecidableEq, Repr

/-- A completion as R74 lays it out, before its status is turned into a number. -/
structure Completion where
  /-- [03 R74] TAG | - -/
  tag : BitVec 16
  /-- [03 R74] STATUS | - -/
  status : CmdStatus
  /-- [03 R74] OPCODE | - -/
  opcode : Byte
  /-- [03 R74] INDEX | - -/
  index : BitVec 16
  /-- [03 R74] RING | - -/
  ring : Fin 24
  /-- [03 R74] RESULT0 | - -/
  result0 : Word
  /-- [03 R74] RESULT1 | - -/
  result1 : Word
  deriving DecidableEq, Repr

/-- One ring's register set (R66) and the counts R68, R71 and R88 give it. -/
structure Ring where
  /-- [03 R66] RING_n_BASE.ADDR | 0 -/
  base : BitVec 25
  /-- [03 R66] RING_n_CPL_BASE.ADDR | 0 -/
  cplBase : BitVec 25
  /-- [03 R66] RING_n_SIZE.LOG2 | 0 -/
  log2 : BitVec 4
  /-- [03 R66] RING_n_PROD | 0 -/
  prod : BitVec 16
  /-- [03 R66] RING_n_CONS | 0 -/
  cons : BitVec 16
  /-- [03 R66] RING_n_CPL_PROD | 0 -/
  cplProd : BitVec 16
  /-- [03 R66] RING_n_CPL_CONS | 0 -/
  cplCons : BitVec 16
  /-- [03 R66] RING_n_CFG.PRIO | 0 -/
  prio : BitVec 2
  /-- [03 R66] RING_n_CFG.IRQ_COUNT | 1 -/
  irqCount : BitVec 8
  /-- [03 R66] RING_n_CFG.IRQ_TIME | 0 -/
  irqTime : BitVec 16
  /-- [03 R66] RING_n_CLASS.MASK, event classes 1 to 14 at bits 0 to 13 | ring 24 0x3FFF, others 0 -/
  classMask : BitVec 14
  /-- [03 R66] RING_n_STATUS.ENABLED | 0 -/
  enabled : Bool
  /-- [03 R66] RING_n_STATUS.CFG_ERR | 0 -/
  cfgErr : Bool
  /-- [03 R66] RING_n_STATUS.BAD_INDEX | 0 -/
  badIndex : Bool
  /-- [03 R66] RING_n_STATUS.OVERFLOW | 0 -/
  overflow : Bool
  /-- [03 R66] RING_n_STATUS.STALLED | 0 -/
  stalled : Bool
  /-- [03 R66] RING_n_DROP.COUNT | 0 -/
  drop : BitVec 16
  /-- [03 R71] writes not yet signalled | 0 -/
  unsignalled : Nat
  /-- [03 R71] house time of the oldest unsignalled write | none -/
  oldest : Option Nat
  /-- [03 R68] LOG2 was written 0 and ENABLED is not clear yet | 0 -/
  stopping : Bool
  /-- [03 R88] entries lost since the last event 0x0201 about this ring | 0 -/
  lost : Nat
  /-- [03 R83] the long command fetched and not yet complete: its header and its 32 bytes | none -/
  inService : Option LongCommand
  deriving DecidableEq, Repr

/-- A declared region (R82): its kind 0 to 4, base and length. -/
structure Region where
  /-- [03 R82] kind: 0 source, 1 library, 2 program, 3 uniformity, 4 table | - -/
  kind : Nat
  /-- [03 R82] base Loft address | - -/
  base : Nat
  /-- [03 R82] length in bytes | - -/
  length : Nat
  deriving DecidableEq, Repr

/-! ### Thatch cores and images (04) -/

/-- The flags of R101 and R112. -/
structure Flg where
  /-- [04 R112] Z | 0 -/
  z : Bool
  /-- [04 R112] N | 0 -/
  n : Bool
  /-- [04 R112] C | 0 -/
  c : Bool
  /-- [04 R112] V | 0 -/
  v : Bool
  /-- [04 R112] Q, sticky | 0 -/
  q : Bool
  deriving DecidableEq, Repr

/-- One entry of the loop stack (R105). -/
structure LoopEntry where
  /-- [04 R105] start address of the body | - -/
  start : Word
  /-- [04 R105] address of the last instruction of the body | - -/
  last : Word
  /-- [04 R105] remaining count | - -/
  left : Word
  /-- [04 R105] return-stack depth at the push | - -/
  depth : Nat
  deriving DecidableEq, Repr

/-- What a core is doing. -/
inductive CoreMode where
  /-- not started, or a G or F core between tasks -/
  | stopped
  /-- executes the instruction at PC -/
  | running
  /-- a Truss in WFI, with its destination register and its mask (R115) -/
  | waiting (dst : BitVec 5) (mask : Word)
  /-- halted by a trap (R119) -/
  | halted
  deriving DecidableEq, Repr

/-- The programmer's model of one Thatch core (R91), the same record for the four profiles. -/
structure Core where
  /-- [04 R91] s0 to s31 (F: s0 to s15; s0 reads 0) | 0 -/
  s : Vector Word 32
  /-- [04 R91] PC | 0 -/
  pc : Word
  /-- [04 R91] FLG | 0 -/
  flg : Flg
  /-- [04 R91] return stack, newest first | empty -/
  rstack : List Word
  /-- [04 R91] loop stack, innermost first | empty -/
  lstack : List LoopEntry
  /-- [04 R111] TCAUSE[7:0] | 0 -/
  tcause : Byte
  /-- [04 R111] TPC | 0 -/
  tpc : Word
  /-- [04 R111] TVAL | 0 -/
  tval : Word
  /-- [04 R111] CYCLE and CYCLEH; in G and F also TASKCYC | 0 -/
  cycle : BitVec 64
  /-- [04 R111] SIGNAT (G) | 0 -/
  signat : Word
  /-- [04 R111] TASKID (G, F) | 0 -/
  taskId : BitVec 3
  /-- [04 R115] TPEND (T) | 0 -/
  tpend : BitVec 7
  /-- [04 R111] TTIMER (T) | 0 -/
  ttimer : Word
  /-- [04 R119] the core executes its trap handler (T) | 0 -/
  inHandler : Bool
  /-- [04 R93] stopped, running, waiting or halted | stopped -/
  mode : CoreMode
  /-- [17 R506] a debugger holds the core | 0 -/
  dbgHalt : Bool
  /-- [17 R506] the core executes one instruction and is held again | 0 -/
  dbgStep : Bool
  deriving DecidableEq, Repr

/-- A section of a loaded image (R128). -/
structure Section where
  /-- [04 R128] TYPE 1 code, 2 read-only data, 3 data, 4 zero-filled | - -/
  kind : Nat
  /-- [04 R128] ADDR | - -/
  addr : Nat
  /-- [04 R128] LENGTH | - -/
  length : Nat
  deriving DecidableEq, Repr

/-- A task entry of a loaded image (R129). -/
structure Task where
  /-- [04 R129] ENTRY | - -/
  entry : Word
  /-- [04 R129] WCET_BOUND | - -/
  wcet : Word
  /-- [04 R129] SIG_EXPECT | - -/
  sig : Word
  /-- [04 R129] TRIGGER | - -/
  trigger : Byte
  deriving DecidableEq, Repr

/-- A loaded image (R126 to R131). -/
structure Image where
  /-- [04 R128] sections | - -/
  sections : List Section
  /-- [04 R129] tasks | - -/
  tasks : List Task
  /-- [04 R127] ENTRY | - -/
  entry : Word
  /-- [04 R127] TRAP_ENTRY | - -/
  trapEntry : Word
  /-- [04 R130] the image hash | - -/
  hash : BitVec 256
  /-- [04 R127] BUILD_ID | - -/
  buildId : Word
  /-- [03 R82] Loft address of the image | - -/
  base : Nat
  /-- [03 R82] length of the image | - -/
  length : Nat
  deriving DecidableEq, Repr

/-- Truss, Gable and Soffit memory with its uncorrectable words. -/
structure CoreMem where
  /-- [04 R109] bytes, an unlisted byte reads 0 | nothing listed; contents at power-up DESIGN CHOICE 0 (log 1) -/
  cells : Mem
  /-- [04 R110] 8-byte word indices with an uncorrectable error | empty -/
  ue : List Nat
  deriving DecidableEq, Repr

/-- The three fixed cores, their memories and images, and SYS_IMG_CHECK (R132). -/
structure Thatch where
  /-- [04 R91] the Truss's core | R95 state -/
  truss : Core
  /-- [04 R91] the Gable's core | R95 state -/
  gable : Core
  /-- [04 R91] the Soffit sequencer's core | R95 state -/
  soffit : Core
  /-- [04 R109] Truss memory, 128 KiB | see CoreMem -/
  trussMem : CoreMem
  /-- [04 R109] Gable memory, 128 KiB | see CoreMem -/
  gableMem : CoreMem
  /-- [04 R109] Soffit memory, 8 KiB | see CoreMem -/
  soffitMem : CoreMem
  /-- [04 R126] T image running | none -/
  trussImage : Option Image
  /-- [04 R126] G image loaded | none -/
  gableImage : Option Image
  /-- [04 R126] F image loaded | none -/
  soffitImage : Option Image
  /-- [04 R123] G tasks triggered and not started, by index | empty -/
  gableWait : List Nat
  /-- [04 R123] F tasks triggered and not started, by index | empty -/
  soffitWait : List Nat
  /-- [03 R80] P images by handle; handle h is entry h - 1 | none -/
  handles : Vector (Option Image) 64
  /-- [04 R132] SYS_IMG_CHECK.CAUSE | 0 -/
  imgCause : BitVec 4
  /-- [04 R132] SYS_IMG_CHECK.PROFILE | 0 -/
  imgProfile : BitVec 2
  /-- [04 R132] SYS_IMG_CHECK_OFF.OFFSET | 0 -/
  imgOffset : BitVec 25
  /-- [04 R122] cycle counts drawn so far for T and P cores (the model's own index into Config.extraCycles) | 0 DESIGN CHOICE (log 17) -/
  draws : Nat
  deriving DecidableEq, Repr

/-! ### Video input (07) -/

/-- One segment of an input descriptor (R201). -/
structure Segment where
  /-- [07 R201] OFFSET | - -/
  offset : Nat
  /-- [07 R201] STRIDE | - -/
  stride : Nat
  /-- [07 R201] LINE_BYTES | - -/
  lineBytes : Nat
  /-- [07 R201] LINES | - -/
  lines : Nat
  deriving DecidableEq, Repr

/-- An input descriptor (R201) with its present segments only. -/
structure StreamDesc where
  /-- [07 R201] VC | - -/
  vc : BitVec 2
  /-- [07 R201] NBUF, 0 to 3 | - -/
  nbuf : BitVec 2
  /-- [07 R201] POLICY.KEEP | - -/
  keep : Bool
  /-- [07 R201] POLICY.AUTO | - -/
  auto : Bool
  /-- [07 R201] LOSS_MS | - -/
  lossMs : BitVec 16
  /-- [07 R201] BASE0 to BASE2 | - -/
  bases : Vector Nat 3
  /-- [07 R201] present segments in order | - -/
  segments : List Segment
  deriving DecidableEq, Repr

/-- The buffer states of R205. -/
inductive BufState where
  | free | filling | ready | held
  deriving DecidableEq, Repr

/-- The frame in progress on a stream (R203 to R206). -/
structure InFrame where
  /-- [07 R205] the buffer being filled; none when the frame is dropped | - -/
  buf : Option (Fin 3)
  /-- [07 R203] payload bytes received | - -/
  bytes : Nat
  /-- [07 R200] marked errored | - -/
  errored : Bool
  /-- [07 R204] frame-size bytes were received | - -/
  complete : Bool
  /-- [07 R204] counted in LONG | - -/
  longCounted : Bool
  /-- [07 R200] event 0x0402 was raised for this frame | - -/
  crcEvent : Bool
  deriving DecidableEq, Repr

/-- One input stream (R201, R217). -/
structure Stream where
  /-- [07 R211] the descriptor in force, none when disabled | none -/
  desc : Option StreamDesc
  /-- [07 R211] counts descriptors taking effect, so that a source's holding names its buffer | 0 -/
  gen : Nat
  /-- [07 R217] VIN_n_STATE.LOST | 0 -/
  lost : Bool
  /-- [07 R217] VIN_n_STATE.BUF | FREE -/
  bufs : Vector BufState 3
  /-- [07 R217] stream frame number stored in each buffer | 0 -/
  bufFrame : Vector (BitVec 16) 3
  /-- [07 R217] house time of the start of the frame in each buffer | 0 -/
  bufTime : Vector Word 3
  /-- [07 R217] VIN_n_STATE.FRAME | 0 -/
  frame : BitVec 16
  /-- [07 R217] VIN_n_BYTES | 0 -/
  bytes : BitVec 24
  /-- [07 R204] the frame in progress | none -/
  inFrame : Option InFrame
  /-- [07 R204] a frame has started since the descriptor took effect | 0 -/
  started : Bool
  /-- [07 R212] house time of the last complete frame or of the descriptor taking effect | 0 -/
  since : Nat
  /-- [07 R212] number of the last complete frame | 0 -/
  lastComplete : BitVec 16
  /-- [07 R217] VIN_n_CNT0.COMPLETE | 0 -/
  cComplete : BitVec 16
  /-- [07 R217] VIN_n_CNT0.ERRORED | 0 -/
  cErrored : BitVec 16
  /-- [07 R217] VIN_n_CNT1.SHORT | 0 -/
  cShort : BitVec 16
  /-- [07 R217] VIN_n_CNT1.LONG | 0 -/
  cLong : BitVec 16
  /-- [07 R217] VIN_n_CNT2.DROPPED | 0 -/
  cDropped : BitVec 16
  /-- [07 R217] VIN_n_CNT2.OVERWRITTEN | 0 -/
  cOverwritten : BitVec 16
  /-- [07 R217] VIN_n_CNT3.CRC | 0 -/
  cCrc : BitVec 16
  /-- [07 R217] VIN_n_CNT3.ORPHAN | 0 -/
  cOrphan : BitVec 16
  deriving DecidableEq, Repr

/-- A source descriptor (R208) whose W and H are nonzero. -/
structure SourceDesc where
  /-- [07 R208] FORMAT.FMT | - -/
  fmt : BitVec 4
  /-- [07 R208] FORMAT.RANGE | - -/
  range : Bool
  /-- [07 R208] W | - -/
  width : BitVec 16
  /-- [07 R208] H | - -/
  height : BitVec 16
  /-- [07 R208] LINK: the linked stream, none when static | - -/
  link : Option (Fin 4)
  /-- [07 R208] PBASE0 to PBASE2 | - -/
  bases : Vector Nat 3
  /-- [07 R208] PSTRIDE0 to PSTRIDE2 | - -/
  strides : Vector Nat 3
  deriving DecidableEq, Repr

/-- The buffer a linked source holds (R207, R209). -/
structure Hold where
  /-- [07 R209] stream | - -/
  stream : Fin 4
  /-- [07 R211] generation of the stream's descriptor | - -/
  gen : Nat
  /-- [07 R218] buffer | - -/
  buf : Fin 3
  /-- [07 R203] Loft address of the buffer | - -/
  base : Nat
  /-- [07 R201] buffer extent | - -/
  extent : Nat
  /-- [07 R218] stream frame number | - -/
  frame : BitVec 16
  /-- [07 R207] the buffer is of a stream with one buffer and is never HELD | - -/
  single : Bool
  deriving DecidableEq, Repr

/-- One source index (R208, R218). -/
structure Source where
  /-- [07 R218] the valid descriptor in force | none -/
  desc : Option SourceDesc
  /-- [07 R218] what a linked source holds | none -/
  hold : Option Hold
  /-- [07 R218] VIN_SRC_s_REPEAT | 0 -/
  repeats : BitVec 16
  deriving DecidableEq, Repr

/-- The DSI receiver (R198, R216). -/
structure Vin where
  /-- [07 R198] LANES | 0 -/
  lanes : BitVec 2
  /-- [07 R198] EN | 0 -/
  en : Bool
  /-- [07 R198] DPOL | 0 -/
  dpol : BitVec 4
  /-- [07 R198] CPOL | 0 -/
  cpol : Bool
  /-- [07 R216] VIN_STATUS.HS | 0 -/
  hs : Bool
  /-- [07 R200] a high-speed burst is in progress on the data lanes | 0 -/
  burst : Bool
  /-- [07 R200] the rest of that burst is being discarded | 0 -/
  discard : Bool
  /-- [07 R216] VIN_STATUS.ULPS | 0 -/
  ulps : Bool
  /-- [07 R216] VIN_STATUS.CFG_ERR | 0 -/
  cfgErr : Bool
  /-- [07 R216] VIN_ERR.ECC_CE | 0 -/
  eccCe : BitVec 16
  /-- [07 R216] VIN_ERR.ECC_UE | 0 -/
  eccUe : BitVec 16
  /-- [07 R216] VIN_ERR2.SOT | 0 -/
  sot : BitVec 16
  /-- [07 R216] VIN_ERR2.UNROUTED | 0 -/
  unrouted : BitVec 16
  /-- [07 R201] streams | disabled -/
  streams : Vector Stream 4
  /-- [07 R208] sources | invalid -/
  sources : Vector Source 16
  deriving DecidableEq, Repr

/-- What a patch run reads of one source: its descriptor and the committed buffer (05 R148). -/
structure RunSource where
  /-- [05 R148] descriptor | - -/
  desc : SourceDesc
  /-- [05 R148] buffer held, of a linked source | - -/
  hold : Option Hold
  deriving DecidableEq, Repr

/-- What a boundary command schedules (03 R80, R84), with what it copied from the Loft at fetch. -/
inductive EffectOp where
  | ctxBind (ctx : Fin 64) (handle : BitVec 7) (entry src : Word) (mask : BitVec 256) (params : BitVec 2048)
      (rank : BitVec 6) (ls : Bool)
  | ctxSwap (ctx : Fin 64) (handle : BitVec 7) (entry : Word)
  | ctxParam (ctx : Fin 64) (params : BitVec 2048)
  | ctxPlace (ctx : Fin 64) (mask : BitVec 256) (rank : BitVec 6)
  | ctxSuspend (ctx : Fin 64)
  | ctxResume (ctx : Fin 64)
  | ctxRetire (ctx : Fin 64)
  | ctxMigrate (ctx : Fin 64) (engine : Fin 8) (frame : BitVec 16)
  | finishSet (handle : BitVec 7) (entry : Word) (params : BitVec 2048)
  | engRetire (engine : Fin 8)
  | engReturn (engine : Fin 8)
  | vinDesc (stream : Fin 4) (desc : Option StreamDesc)
  | srcDesc (index : Fin 16) (desc : Option SourceDesc)
  | srcCommit (mask : BitVec 16)
  | tmodeSelect (slot : Fin 8)
  | frameCommit (buf : Bool)
  | zonesetSelect (zoneSet : BitVec 3)
  | twinYield
  deriving DecidableEq, Repr

/-! ### Course engines, contexts and the patch run (05, 06) -/

/-- The context states of R164. -/
inductive CtxState where
  | idle | ready | running | draining | suspended | retired
  deriving DecidableEq, Repr

/-- Where a context's local store and saved registers are being copied from (R185, R188, R165). -/
inductive CopySource where
  /-- a slot of an engine -/
  | slot (engine : Fin 8) (slot : Fin 8)
  /-- the area of R169 in the Truss-reserved Loft -/
  | area
  /-- the transfer of a Purlin migration -/
  | purlin
  deriving DecidableEq, Repr

/-- A migration of one context over Purlin, on its source or target device (R189, R190). -/
structure Migration where
  /-- [06 R189] 1: this device is the source | - -/
  source : Bool
  /-- [06 R189] roof position of the other device | - -/
  peer : BitVec 3
  /-- [06 R189] switch frame S | - -/
  frame : BitVec 16
  /-- [06 R189] announce sent (source) or accepted (target) | - -/
  announced : Bool
  /-- [06 R189] acceptance received (source) | - -/
  accepted : Bool
  /-- [06 R189] refusal received (source) | - -/
  refused : Bool
  /-- [06 R189] the transfer has been sent (source) | - -/
  sent : Bool
  /-- [06 R189] the decide LAT has passed | - -/
  decided : Bool
  /-- [06 R189] the new epoch | - -/
  epoch : Byte
  /-- [06 R189] rank reserved on the target | - -/
  rank : BitVec 6
  /-- [06 R189] local-store flag announced | - -/
  ls : Bool
  /-- [06 R189] engine reserved on the target | - -/
  engine : Fin 8
  /-- [06 R189] slot reserved on the target | - -/
  slot : Fin 8
  /-- [06 R189] handle, lowest with the announced digest | - -/
  handle : BitVec 7
  /-- [06 R189] entry announced | - -/
  entry : Word
  /-- [06 R189] patch mask announced | - -/
  mask : BitVec 256
  /-- [06 R189] source bindings announced | - -/
  src : Word
  /-- [06 R189] parameter block announced | - -/
  params : BitVec 2048
  deriving DecidableEq, Repr

/-- One of the 63 contexts (R161, R193). -/
structure Context where
  /-- [06 R193] CTX_n_STATE.STATE | IDLE -/
  state : CtxState
  /-- [06 R193] LS | 0 -/
  ls : Bool
  /-- [06 R193] SCAUSE | 0 -/
  scause : BitVec 4
  /-- [06 R193] EPOCH | 0 -/
  epoch : Byte
  /-- [06 R193] RANK | 0 -/
  rank : BitVec 6
  /-- [06 R193] CTX_n_PLACE.ENGINE | 0 -/
  engine : Fin 8
  /-- [06 R193] SLOT | 0 -/
  slot : Fin 8
  /-- [06 R193] SLOT_VALID | 0 -/
  slotValid : Bool
  /-- [06 R193] SWITCH | 0 -/
  switchFrame : BitVec 16
  /-- [06 R193] CTX_n_PROG.HANDLE | 0 -/
  handle : BitVec 7
  /-- [06 R193] CTX_n_ENTRY | 0 -/
  entry : Word
  /-- [06 R193] CTX_n_SRC | 0 -/
  src : Word
  /-- [06 R161] patch mask, CTX_n_MASK0 to 7 | 0 -/
  mask : BitVec 256
  /-- [06 R163] the parameter block, byte k at bits 8k+7 to 8k | 0 -/
  params : BitVec 2048
  /-- [06 R162] saved registers s1 to s31 (entry 0 unused) | 0 -/
  regs : Vector Word 32
  /-- [06 R193] CTX_n_CYCLES of the last completed run | 0 -/
  cycles : Word
  /-- [06 R193] CTX_n_TRAP.TCAUSE | 0 -/
  tcause : Byte
  /-- [06 R193] CTX_n_TRAP.PATCH | 0 -/
  tpatch : Byte
  /-- [06 R193] CTX_n_TRAP.FRAME | 0 -/
  tframe : BitVec 16
  /-- [06 R193] CTX_n_TPC | 0 -/
  tpc : Word
  /-- [06 R176] an invocation trapped; SUSPENDED is due at the next patch-run start | 0 -/
  trapped : Bool
  /-- [06 R185] the copy that a DRAINING context waits for | none -/
  copy : Option CopySource
  /-- [06 R188] the copy due is that of a CTX_MIGRATE within the device, not of a re-placement or a resume | 0 -/
  moving : Bool
  /-- [06 R189] the Purlin migration in progress | none -/
  migration : Option Migration
  deriving DecidableEq, Repr

/-- What a patch run keeps of a context from its own start (R163). -/
structure RunContext where
  /-- [06 R163] context ID | - -/
  id : Fin 64
  /-- [06 R163] rank | - -/
  rank : BitVec 6
  /-- [06 R163] handle | - -/
  handle : BitVec 7
  /-- [06 R163] entry | - -/
  entry : Word
  /-- [06 R163] source bindings | - -/
  src : Word
  /-- [06 R163] mask | - -/
  mask : BitVec 256
  /-- [06 R163] parameter block | - -/
  params : BitVec 2048
  /-- [06 R163] local store | - -/
  ls : Bool
  /-- [06 R163] home engine at the run's start | - -/
  engine : Fin 8
  /-- [06 R163] slot at the run's start | - -/
  slot : Fin 8
  deriving DecidableEq, Repr

/-- The finish program (R181, R195): handle 0 is none. -/
structure Finish where
  /-- [06 R195] ENG_FINISH.HANDLE | 0 -/
  handle : BitVec 7
  /-- [06 R195] ENG_FINISH_ENTRY | 0 -/
  entry : Word
  /-- [06 R181] its parameter block | 0 -/
  params : BitVec 2048
  deriving DecidableEq, Repr

/-- One patch run with what it started with (R163, R171, R195). -/
structure Run where
  /-- [06 R195] ENG_RUN_STATUS.FRAME | 0 -/
  frame : BitVec 16
  /-- [01 R14] output frame rendered into: 0 at 0x0140_0000, 1 at 0x0160_0000 | 0 -/
  outFrame : Bool
  /-- [06 R171] patches the run renders | 0 -/
  patches : BitVec 256
  /-- [06 R175] ENG_PATCH_DONE | 0 -/
  done : BitVec 256
  /-- [06 R171] the shared queue | empty -/
  shared : List (Fin 256)
  /-- [06 R171] each engine's own queue | empty -/
  own : Vector (List (Fin 256)) 8
  /-- [06 R163] contexts in ascending rank | empty -/
  contexts : List RunContext
  /-- [06 R176] contexts excluded by a trap | empty -/
  excluded : List (Fin 64)
  /-- [06 R172] finish program | handle 0 -/
  finish : Finish
  /-- [05 R148] sources in force | none -/
  sources : Vector (Option RunSource) 16
  /-- [05 R141] DEPTH | 0 -/
  depth : BitVec 5
  /-- [05 R158] ENG_PATCH_LIMIT in force | 0xFF_FFFF -/
  limit : BitVec 24
  /-- [06 R177] the finish-trap event of this run was raised | 0 -/
  finishTrap : Bool
  /-- [06 R193] cycles of each context's invocations in this run | 0 -/
  cycles : Vector Nat 64
  /-- [06 R194] patches that each engine rendered in this run | 0 -/
  rendered : Vector Nat 8
  /-- [06 R194] cycles of each engine's invocations in this run | 0 -/
  busy : Vector Nat 8
  deriving DecidableEq, Repr

/-- One invocation in progress on an engine (R156, R157). -/
structure Invocation where
  /-- [05 R141] PROG: context ID, 0 the finish program | - -/
  ctx : Fin 64
  /-- [05 R141] rank | - -/
  rank : BitVec 6
  /-- [05 R140] handle of the image | - -/
  handle : BitVec 7
  /-- [05 R139] parameter block | - -/
  params : BitVec 2048
  /-- [05 R148] source bindings | - -/
  src : Word
  /-- [05 R139] bound with local store | - -/
  ls : Bool
  /-- [05 R139] engine that holds the local store | - -/
  home : Fin 8
  /-- [05 R139] slot of the local store | - -/
  slot : Fin 8
  /-- [05 R141] INVCYC | - -/
  cycles : Nat
  deriving DecidableEq, Repr

/-- A patch on an engine, from stage 1 to the end of stage 3 (R156). -/
structure Work where
  /-- [05 R141] PATCH | - -/
  patch : Fin 256
  /-- [05 R141] FRAMENO | - -/
  frame : BitVec 16
  /-- [05 R156] the accumulator buffer, entry 16 j + k is lane k of vector j; unlisted 0 | 0 -/
  acc : Cells 32
  /-- [05 R155] words written by VOUT, entry 16 j + k | none -/
  words : List (Nat × BitVec 16)
  /-- [06 R172] contexts still to invoke, ascending rank | - -/
  rest : List RunContext
  /-- [06 R172] the finish program is still to be invoked | - -/
  finishDue : Bool
  /-- [06 R187] epochs recorded by the invocations | - -/
  epochs : List (Fin 64 × Byte)
  /-- [05 R157] the invocation in progress | - -/
  inv : Option Invocation
  deriving DecidableEq, Repr

/-- A patch that drains into the output frame (R156 stage 4, R187). -/
structure Drain where
  /-- [05 R156] patch | - -/
  patch : Fin 256
  /-- [05 R156] frame | - -/
  frame : BitVec 16
  /-- [05 R155] words written by VOUT | - -/
  words : List (Nat × BitVec 16)
  /-- [06 R187] epochs recorded | - -/
  epochs : List (Fin 64 × Byte)
  deriving DecidableEq, Repr

/-- One Course engine (R133, R194). -/
structure Engine where
  /-- [04 R91] scalar core | R95 state -/
  core : Core
  /-- [05 R133] v0 to v15 | 0 -/
  v : Vector (Vector Word 16) 16
  /-- [05 R133] p0 to p7 | 0xFFFF -/
  p : Vector (BitVec 16) 8
  /-- [05 R133] M, halfword 4e + c | 0 -/
  m : Vector (BitVec 16) 16
  /-- [05 R133] VIDX | 0 -/
  vidx : Byte
  /-- [06 R194] ENG_e_STATUS.SVC | 0 -/
  svc : BitVec 2
  /-- [06 R194] FCAUSE | 0 -/
  fcause : BitVec 2
  /-- [06 R194] BIST_FAIL | 0 -/
  bistFail : Bool
  /-- [06 R194] BIST_FRAME | 0 -/
  bistFrame : BitVec 16
  /-- [06 R194] ENG_e_BIST_SIG | 0 -/
  bistSig : Word
  /-- [06 R182] the BIST of the current run is in progress | 0 -/
  bistBusy : Bool
  /-- [06 R194] ENG_e_PATCHES of the last completed run | 0 -/
  patches : BitVec 9
  /-- [06 R194] ENG_e_CYCLES of the last completed run | 0 -/
  busy : Word
  /-- [06 R194] ENG_e_TRAPS | 0 -/
  traps : BitVec 16
  /-- [01 R10, 05 R140] instruction cache, 512 lines of 32 bytes: the lines it holds, by Loft address over 32 | contents at
  power-up DESIGN CHOICE none (log 1) -/
  icache : List Nat
  /-- [06 R194] ENG_e_STATUS.SLOTS: the context in each slot | none -/
  slots : Vector (Option (Fin 64)) 8
  /-- [05 R139] slot contents, 4 KiB each | nothing listed; contents at power-up DESIGN CHOICE 0 (log 1) -/
  slotMem : Vector Mem 8
  /-- [05 R156] the patch in stages 1 to 3 | none -/
  work : Option Work
  /-- [05 R156] the patch in stage 4 | none -/
  drain : Option Drain
  deriving DecidableEq, Repr

/-- Contexts, engines and runs (R161 to R195). -/
structure Course where
  /-- [06 R161] contexts 1 to 63 (entry 0 unused) | IDLE -/
  ctx : Vector Context 64
  /-- [06 R194] engines | in service -/
  eng : Vector Engine 8
  /-- [06 R181] finish program | none -/
  finish : Finish
  /-- [06 R195] ENG_RUN_CFG.LATE_POLICY as written | 0 -/
  latePolicy : Bool
  /-- [06 R195] ENG_RUN_CFG.AUTOCOMMIT as written | 1 -/
  autocommit : Bool
  /-- [06 R195] LATE_POLICY in force | 0 -/
  lateForce : Bool
  /-- [06 R195] AUTOCOMMIT in force | 1 -/
  autoForce : Bool
  /-- [05 R158] ENG_PATCH_LIMIT.LIMIT as written | 0xFF_FFFF -/
  limit : BitVec 24
  /-- [06 R195] the current run, or the last one | frame 0 -/
  run : Run
  /-- [06 R195] ACTIVE | 0 -/
  active : Bool
  /-- [06 R195] LATE | 0 -/
  late : Bool
  /-- [06 R174] late runs with patches still to complete, oldest first | empty -/
  lateRun : List Run
  /-- [06 R195] ENG_LATE.LATE_RUNS | 0 -/
  lateRuns : BitVec 16
  /-- [06 R195] ENG_LATE.DROPPED | 0 -/
  dropped : BitVec 16
  /-- [06 R195] ENG_DISCARD.COUNT | 0 -/
  discard : BitVec 16
  deriving DecidableEq, Repr

/-! ### Scan-out and the Batten chain (08) -/

/-- A timing-mode slot (R245, R259). -/
structure TMode where
  /-- [08 R259] PERIOD in LCLK cycles | R246 table -/
  period : BitVec 24
  /-- [08 R259] DEPTH | R246 table -/
  depth : BitVec 5
  /-- [08 R259] PWMPER, 1 to 16 | R246 table -/
  pwmper : BitVec 5
  /-- [08 R259] DIV | 1 -/
  div : BitVec 4
  /-- [08 R259] G | 8 -/
  g : BitVec 7
  deriving DecidableEq, Repr

/-- The CMD values of R227. -/
inductive BattenCmd where
  | normal | dark | enum | retrain
  deriving DecidableEq, Repr

/-- The Degraded ceiling (11 R343). -/
inductive DegCeiling where
  /-- no Degraded ceiling in force -/
  | none
  /-- the whole array at the cap word -/
  | cap
  /-- the super-cells of the bitmap dark, the rest free -/
  | coarse (dark : BitVec 256)
  deriving DecidableEq, Repr

/-- Every ceiling of R22 that one transfer is checked against. -/
structure Ceilings where
  /-- [08 R251] the cell map the Ridge applies (11 R323) | - -/
  map : Mem
  /-- [01 R22] rung 4 | - -/
  degraded : DegCeiling
  /-- [01 R22] rung 5, the service cap, when in force | - -/
  service : Option (BitVec 16)
  /-- [11 R327] cap word in force | - -/
  capWord : BitVec 16
  deriving DecidableEq, Repr

/-- One transfer, and later the light it became (R226, R265, R274). -/
structure Transfer where
  /-- [08 R226] FRAME | - -/
  frame : BitVec 16
  /-- [08 R226] CMD | - -/
  cmd : BattenCmd
  /-- [08 R226] DEPTH | - -/
  depth : BitVec 5
  /-- [08 R226] NDEPTH | - -/
  ndepth : BitVec 5
  /-- [08 R226] SLOT | - -/
  slot : BitVec 3
  /-- [08 R226] PERIOD | - -/
  period : BitVec 24
  /-- [08 R226] PWMPER field, periods minus 1 | - -/
  pwmper : BitVec 4
  /-- [08 R226] G | - -/
  g : BitVec 7
  /-- [08 R226] SHADOW | - -/
  shadow : Bool
  /-- [08 R253] output frame read | - -/
  buf : Bool
  /-- [08 R221] DIV of the lanes that carry it | - -/
  div : BitVec 4
  /-- [08 R233] house time at which its SOF left | - -/
  start : Nat
  /-- [08 R254] underrun words on port A | - -/
  underA : Nat
  /-- [08 R254] underrun words on port B | - -/
  underB : Nat
  /-- [09 R274] ceilings it was checked against | - -/
  ceil : Ceilings
  /-- [08 R233] its EOF has left | - -/
  closed : Bool
  deriving DecidableEq, Repr

/-- What one chain's RX lane returned in E2 or E3 (R238). -/
structure ChainEnum where
  /-- [08 R238] nothing but IDLE throughout the window | - -/
  empty : Bool
  /-- [08 R240] the stream failed in length, code, SOF, EOF or echo | - -/
  failed : Bool
  /-- [08 R238] its 64-byte blocks, byte k at bits 8k+7 to 8k; none for one that a code error touches | - -/
  blocks : List (Option (BitVec 512))
  deriving DecidableEq, Repr

/-- One TX lane: what it sends of a transfer (R223, R225, R228). -/
structure LaneOut where
  /-- [08 R223] code groups of the current or last transfer in the order sent, bit 9 of each first | empty -/
  codes : List (BitVec 10)
  /-- [08 R223] running disparity after them: 1 positive | 0 -/
  rd : Bool
  /-- [08 R225] SOF has left and neither EOF nor ABORT | 0 -/
  busy : Bool
  /-- [08 R225] tiles whose segments have still to leave, the one in progress first | empty -/
  todo : List Nat
  /-- [08 R228] words of the segment in progress that have left | 0 -/
  next : Nat
  /-- [08 R254] the last word that left the lane in the transfer | 0 -/
  last : BitVec 16
  /-- [08 R228] CRC-32 of the segment in progress, before the final inversion | 0 -/
  crc : Word
  deriving DecidableEq, Repr

/-- One tile ordinal (R239, R241, R261). -/
structure Tile where
  /-- [08 R261] BAT_TILE_t_ORG.X | 0 -/
  x : BitVec 16
  /-- [08 R261] BAT_TILE_t_ORG.Y | 0 -/
  y : BitVec 16
  /-- [08 R241] origin X of the last valid enumeration | 0 -/
  ex : BitVec 16
  /-- [08 R241] origin Y of the last valid enumeration | 0 -/
  ey : BitVec 16
  /-- [08 R261] PRESENT at the last valid enumeration | 0 -/
  present : Bool
  /-- [08 R239] descriptor of the last valid enumeration | 0 -/
  desc : BitVec 512
  /-- [08 R261] TEL0.TEMP | 0 -/
  temp : BitVec 16
  /-- [08 R261] TEL0.VSUP | 0 -/
  vsup : BitVec 16
  /-- [08 R261] TEL1.FLAGS | 0 -/
  flags : BitVec 5
  /-- [08 R261] TEL1.ERRS | 0 -/
  errs : BitVec 16
  /-- [10 R304] frames since TEMP was updated, none when never | none -/
  tempAge : Option Nat
  /-- [09 R265] ACTIVE of the latest capture that passed since the enumeration | none -/
  side : Option Bool
  deriving DecidableEq, Repr

/-- One chain's error counters (R260). -/
structure ChainErr where
  /-- [08 R260] CAPCRC | 0 -/
  capCrc : BitVec 8
  /-- [08 R260] LENGTH | 0 -/
  length : BitVec 8
  /-- [08 R260] CODE | 0 -/
  code : BitVec 8
  /-- [08 R260] MISSING | 0 -/
  missing : BitVec 8
  deriving DecidableEq, Repr

/-- The stages of R238; `done` is any time outside an enumeration. -/
inductive EnumStep where
  | done
  /-- PROOF entered, E1's LAT is next -/
  | begun
  /-- E1 to E4 in transfer -/
  | e1 | e2 | e3 | e4
  /-- a check failed: DARK transfers at the enumeration timing -/
  | failed
  deriving DecidableEq, Repr

/-- A timing-mode change between its L0 and its last event (R248, R249). -/
structure TChange where
  /-- [08 R248] RESULT0 of the selection | - -/
  result0 : BitVec 16
  /-- [08 R249] DIV changes | - -/
  retrain : Bool
  /-- [08 R248] the depth before L0 | - -/
  oldDepth : BitVec 5
  /-- [08 R249] DIV before L0 | - -/
  oldDiv : BitVec 4
  deriving DecidableEq, Repr

/-- A word that left a Batten port, with the ceiling it was checked against (01 R12, R21). -/
structure SentWord where
  /-- [01 R12] port: 0 A, 1 B | - -/
  port : Bool
  /-- [08 R243] emitter index of the word | - -/
  index : Nat
  /-- [11 R324] its entry of the static ceiling map | - -/
  static : BitVec 2
  /-- [01 R22] the lowest ceiling in force for it | - -/
  ceil : BitVec 16
  /-- [01 R21] the word as sent | - -/
  word : BitVec 16
  deriving DecidableEq, Repr

/-- The scan-out unit and its view of the chains (R258 to R261). -/
structure Scan where
  /-- [08 R258] SCO_CTRL.SPLIT | 0 -/
  split : Bool
  /-- [08 R258] SCO_STATUS.STATE | 0 -/
  state : BitVec 3
  /-- [08 R258] SCO_STATUS.SLOT | 0 -/
  slot : Fin 8
  /-- [08 R258] SCO_STATUS.SHADOW | 0 -/
  shadow : Bool
  /-- [08 R258] SCO_STATUS.CFG_ERR | 0 -/
  cfgErr : Bool
  /-- [08 R221] Batten frame number | 0 -/
  frame : BitVec 16
  /-- [08 R221] no LAT yet since RST_N or STANDBY exit | 1 -/
  firstLat : Bool
  /-- [08 R250] CK runs and LATs are sent | 0 -/
  lats : Bool
  /-- [08 R250] house time before which no LAT is sent | 20000 -/
  latFrom : Nat
  /-- [08 R233] house time of the last LAT | 0 -/
  latAt : Nat
  /-- [08 R258] SCO_COMMIT_STATUS.FRAME while a commit is pending | 0 -/
  commitFrame : BitVec 16
  /-- [08 R258] SCO_COMMIT_STATUS.FRAME otherwise: the transfer at which CBUF took effect | 0 -/
  cbufFrame : BitVec 16
  /-- [08 R258] SCO_COMMIT_STATUS.PENDING | 0 -/
  pending : Bool
  /-- [08 R258] SCO_COMMIT_STATUS.PBUF | 0 -/
  pbuf : Bool
  /-- [08 R258] SCO_COMMIT_STATUS.CBUF | 0 -/
  cbuf : Bool
  /-- [08 R252] bitmap of each output frame | 0 -/
  bitmap : Vector (BitVec 256) 2
  /-- [08 R258] run that last targeted each output frame (SCO_XFER.SRCFRAME) | 0 -/
  srcFrame : Vector (BitVec 16) 2
  /-- [08 R258] SCO_XFER.SRCFRAME of the transfer | 0 -/
  xferSrc : BitVec 16
  /-- [08 R258] SCO_XFER.REPEAT | 0 -/
  xferRepeat : Bool
  /-- [08 R258] SCO_UNDERRUN.PORT_A | 0 -/
  underA : BitVec 16
  /-- [08 R258] SCO_UNDERRUN.PORT_B | 0 -/
  underB : BitVec 16
  /-- [08 R258] SCO_LATE0 to 7 | 0 -/
  late : BitVec 256
  /-- [08 R258] SCO_ENUM.VALID | 0 -/
  enumValid : Bool
  /-- [08 R258] SCO_ENUM.BUSY | 0 -/
  enumBusy : Bool
  /-- [08 R258] SCO_ENUM.CAUSE | 0 -/
  enumCause : BitVec 4
  /-- [08 R258] SCO_ENUM.TILES | 0 -/
  enumTiles : Byte
  /-- [08 R258] SCO_ENUM_HASH | 0 -/
  enumHash : Word
  /-- [08 R258] SCO_GRID.W | 0 -/
  gridW : BitVec 16
  /-- [08 R258] SCO_GRID.H | 0 -/
  gridH : BitVec 16
  /-- [08 R238] step of the enumeration | done -/
  step : EnumStep
  /-- [08 R238] what each chain returned in E2 | empty -/
  e2 : List ChainEnum
  /-- [08 R238] what each chain returned in E3 | empty -/
  e3 : List ChainEnum
  /-- [08 R245] slots | R246 table -/
  tmode : Vector TMode 8
  /-- [08 R248] timing-mode change in progress | none -/
  change : Option TChange
  /-- [08 R233] the transfer in its window, or closed and waiting for its LAT | none -/
  xfer : Option Transfer
  /-- [01 R13] the transfer that is the light | none -/
  light : Option Transfer
  /-- [01 R18] the light whose captures shift out | none -/
  judged : Option Transfer
  /-- [08 R233] a transfer window is open | 0 -/
  window : Bool
  /-- [08 R225] TX lanes by chain | see LaneOut -/
  lanes : Vector LaneOut 16
  /-- [08 R260] chain error counters | 0 -/
  chains : Vector ChainErr 16
  /-- [08 R261] tiles | 0 -/
  tiles : Vector Tile 128
  deriving DecidableEq, Repr

/-! ### The proving unit (09) -/

/-- Per-tile proving summary (R284) and the count of failed captures (R268). -/
structure PrvTile where
  /-- [09 R284] DWL | 0 -/
  dwl : BitVec 16
  /-- [09 R284] STUCK | 0 -/
  stuck : BitVec 16
  /-- [09 R284] UNVER | 0 -/
  unver : BitVec 16
  /-- [09 R284] MISMATCH | 0 -/
  mismatch : BitVec 8
  /-- [09 R284] UNOBS | 0 -/
  unobs : Bool
  /-- [09 R284] UNOBSERVED as the register shows it | 0 -/
  unobserved : Bool
  /-- [09 R284] KEPT | 0 -/
  kept : Bool
  /-- [09 R268] consecutive judged periods whose capture failed, at most 2 | 0 -/
  failRun : BitVec 2
  /-- [09 R268] the previous failed period had a dark or cap judged ceiling on the tile | 0 -/
  failCapped : Bool
  /-- [09 R288] frame of the second failed capture in a row | 0 -/
  failFrame : BitVec 16
  /-- [18 R521] consecutive captures that passed R232, at most 2 | 0 -/
  passRun : BitVec 2
  deriving DecidableEq, Repr

/-- A quarantine entry (R277); an empty entry is none. -/
structure Quar where
  /-- [09 R285] KIND 2, a tile entry | - -/
  tileEntry : Bool
  /-- [09 R285] DARKRUN | - -/
  darkRun : BitVec 6
  /-- [09 R285] SF1 | - -/
  sf1 : Bool
  /-- [09 R285] OFFSET | - -/
  offset : BitVec 18
  /-- [09 R285] TILE_ID | - -/
  tileId : Word
  deriving DecidableEq, Repr

/-- PRV_STR_c (R286). -/
structure PrvString where
  /-- [09 R286] OPEN | 0 -/
  isOpen : Bool
  /-- [09 R286] STUCK_ON | 0 -/
  stuckOn : Bool
  /-- [09 R286] ON_TESTED | 0 -/
  onTested : Bool
  /-- [09 R286] OFF_TESTED | 0 -/
  offTested : Bool
  /-- [09 R286] PROVEN_ON | 0 -/
  provenOn : Bool
  /-- [09 R286] PROVEN_OFF | 0 -/
  provenOff : Bool
  /-- [09 R286] FAILS | 0 -/
  fails : BitVec 16
  deriving DecidableEq, Repr

/-- The proving unit (R264, R283 to R287). -/
structure Proving where
  /-- [09 R283] PRV_CTRL.FREEZE | 0 -/
  freeze : Bool
  /-- [09 R283] PRV_STATUS.FRAME | 0 -/
  frame : BitVec 16
  /-- [09 R283] PRV_STATUS.VALID | 0 -/
  valid : Bool
  /-- [09 R283] PRV_SUM_LIT | 0 -/
  sumLit : BitVec 21
  /-- [09 R283] PRV_SUM_DARK | 0 -/
  sumDark : BitVec 21
  /-- [09 R283] PRV_SUM_DWL | 0 -/
  sumDwl : BitVec 21
  /-- [09 R283] PRV_SUM_STUCK | 0 -/
  sumStuck : BitVec 21
  /-- [09 R283] PRV_SUM_UNVER | 0 -/
  sumUnver : BitVec 21
  /-- [09 R283] PRV_SUM_NOV | 0 -/
  sumNov : BitVec 21
  /-- [09 R283] PRV_SUM_MAND.MISSING | 0 -/
  mandMissing : BitVec 16
  /-- [09 R283] PRV_SUM_MAND.UNVER | 0 -/
  mandUnver : BitVec 16
  /-- [09 R283] PRV_EMIT_SEL.INDEX | 0 -/
  emitSel : BitVec 20
  /-- [09 R264] the 9-bit records by word index, an unlisted record is 0 | 0 -/
  records : Cells 9
  /-- [09 R263] sent classes of the transfer in progress, by word index in the order sent: they enter the records once its captures have been judged (R264) | empty -/
  sent : List (Nat × BitVec 2)
  /-- [09 R283] PRV_PATCH_DWL | 0 -/
  patchDwl : BitVec 256
  /-- [09 R283] PRV_PATCH_STUCK | 0 -/
  patchStuck : BitVec 256
  /-- [09 R283] PRV_PATCH_UNVER | 0 -/
  patchUnver : BitVec 256
  /-- [09 R288] unverified emitters of the last judged period, for the edge of event 0x0608 | 0 -/
  lastUnver : Nat
  /-- [09 R284] tile summaries | 0 -/
  tiles : Vector PrvTile 128
  /-- [09 R277] quarantine list by ordinal | empty -/
  quar : Vector (Option Quar) 128
  /-- [09 R286] string proving | 0 -/
  strings : Vector PrvString 8
  /-- [09 R279] LIVE_G and LIVE_H toggled without a stop since the light period opened | 0 -/
  liveThrough : Bool
  /-- [09 R279] the same of the light period that the next window judges | 0 -/
  liveJudged : Bool
  deriving DecidableEq, Repr

/-! ### String channels and thermal (10) -/

/-- The faults of R299. -/
inductive StrFault where
  | oc | short | ov | opened
  deriving DecidableEq, Repr

/-- One string channel (R313). Inhibits are the bits of GBL_INH and RDG_INH; OWNED and FEED come from the configuration. -/
structure StrChannel where
  /-- [10 R313] CFG.MODE | 0 -/
  mode : BitVec 2
  /-- [10 R313] CFG.PWMSYNC | 0 -/
  pwmsync : Bool
  /-- [10 R313] CFG.DEPTH | 16 -/
  depth : BitVec 5
  /-- [10 R313] CFG.AUTORETRY | 0 -/
  autoretry : Bool
  /-- [10 R313] CFG.INSERT_GAP | 0 -/
  insertGap : Bool
  /-- [10 R313] FSW.N | 2000 -/
  fswN : BitVec 11
  /-- [10 R313] IREF.CODE as written | 0 -/
  iref : BitVec 10
  /-- [10 R294] IREF.CODE in effect | 0 -/
  irefNow : BitVec 10
  /-- [10 R313] VSET.MV | 0 -/
  vset : BitVec 11
  /-- [10 R313] VLIM.OV | 1200 -/
  ov : BitVec 11
  /-- [10 R313] VLIM.UV | 0 -/
  uv : BitVec 11
  /-- [10 R313] PWM.PERIOD | 400000 -/
  pwmPeriod : BitVec 22
  /-- [10 R313] PWM.K | 1 -/
  pwmK : BitVec 6
  /-- [10 R313] DUTY as written | 0 -/
  duty : BitVec 16
  /-- [10 R294] DUTY due: with PWMSYNC a write waits for the LAT | 0 -/
  dutyDue : BitVec 16
  /-- [10 R294] DUTY in effect | 0 -/
  dutyNow : BitVec 16
  /-- [10 R313] STATUS.STATE: 0 GATE low, 1 ramping, 2 regulating, 3 fault | 0 -/
  state : BitVec 2
  /-- [10 R313] STATUS.OC | 0 -/
  oc : Bool
  /-- [10 R313] STATUS.SHORT | 0 -/
  short : Bool
  /-- [10 R313] STATUS.OV | 0 -/
  ovFault : Bool
  /-- [10 R313] STATUS.OPEN | 0 -/
  openFault : Bool
  /-- [10 R313] STATUS.LATCHED | 0 -/
  latched : Bool
  /-- [10 R313] STATUS.CFG_ERR | 0 -/
  cfgErr : Bool
  /-- [10 R313] STATUS.RETRIES | 0 -/
  retries : BitVec 2
  /-- [10 R300] consecutive failed restarts | 0 -/
  failed : BitVec 2
  /-- [10 R313] MEAS.ISENSE: the switching cycles of the last millisecond, each with its house time, the sum of the shunt
  voltages (0.1 mV) it sensed and how many, the newest first | none -/
  sensed : List (Nat × Nat × Nat)
  /-- [10 R313] MEAS.VSN | 0 -/
  vsn : BitVec 11
  /-- [10 R313] DERATE.FACTOR | 0x10000 -/
  derate : BitVec 17
  /-- [10 R294] factor in effect since the last PWM period start | 0x10000 -/
  derateNow : BitVec 17
  /-- [10 R289] GATE is switching: the channel runs and is in an on-interval | 0 -/
  gate : Bool
  /-- [10 R291] LCLK cycles for which GATE was high in the last switching cycle | 0 -/
  cycleOn : BitVec 11
  /-- [10 R292] house time of the start of the SUPPLY ramp | 0 -/
  rampFrom : Nat
  /-- [10 R292] currents that the voltage loop has commanded (the model's own counter) | 0 -/
  loopDraws : Nat
  /-- [10 R299] the short and open tests are armed | 0 -/
  armed : Bool
  /-- [10 R299] consecutive overcurrent cycles | 0 -/
  ocRun : BitVec 4
  /-- [10 R299] GATE held low above OV until VSN is 24 mV below it | 0 -/
  ovHold : Bool
  /-- [10 R299] the switching cycles of the last 10 ms with VSN above OV: house time and length in LCLK cycles | none -/
  ovSpans : List (Nat × Nat)
  /-- [10 R299] house time since which VSN is below UV with the current at its limit | none -/
  lowSince : Option Nat
  /-- [10 R300] house time of the last automatic restart and the fault it followed | none -/
  lastRetry : Option (Nat × StrFault)
  /-- [10 R300] an automatic restart is due for this fault | none -/
  retryDue : Option StrFault
  /-- [10 R300] house time of the fault | 0 -/
  faultAt : Nat
  /-- [10 R281] house time of the current PWM period's start | 0 -/
  periodStart : Nat
  /-- [10 R293] with PWMSYNC: PWM periods of the light period that have yet to start | 0 -/
  periodsLeft : BitVec 6
  /-- [14 R427] the current PWM period began with a calibration gap | 0 -/
  gapNow : Bool
  /-- [10 R279] regulating without interruption since the light period opened | 0 -/
  regThrough : Bool
  /-- [09 R279] the same of the light period that the next window judges | 0 -/
  regJudged : Bool
  /-- [14 R427] a calibration gap is inserted in the next PWM period | 0 -/
  gap : Bool
  /-- [14 R422] microseconds for which GATE has been low, up to 20 | 0 -/
  lowFor : Nat
  deriving DecidableEq, Repr

/-- One NTC input (R314). -/
structure Ntc where
  /-- [10 R314] CFG.EN | 0 -/
  en : Bool
  /-- [10 R314] CFG.TABLE | 0 -/
  table : Bool
  /-- [10 R314] CFG.GLOBAL | 0 -/
  global : Bool
  /-- [10 R314] CFG.OTKILL | 0 -/
  otkill : Bool
  /-- [10 R314] CFG.CHMASK | 0 -/
  chmask : BitVec 8
  /-- [10 R314] KNEE | 0x0460 -/
  knee : BitVec 16
  /-- [10 R314] LIMIT | 0x0640 -/
  limit : BitVec 16
  /-- [10 R314] FMIN | 0x8000 -/
  fmin : BitVec 16
  /-- [10 R314] OT | 0x0690 -/
  ot : BitVec 16
  /-- [10 R314] VAL.TEMP | 0 -/
  temp : BitVec 16
  /-- [10 R314] VAL.CODE | 0 -/
  code : BitVec 12
  /-- [10 R314] VAL.VALID | 0 -/
  valid : Bool
  /-- [10 R314] VAL.OPEN | 0 -/
  isOpen : Bool
  /-- [10 R314] VAL.SHORT | 0 -/
  isShort : Bool
  /-- [10 R303] consecutive published values that were open | 0 -/
  openRun : BitVec 4
  /-- [10 R303] consecutive published values that were short | 0 -/
  shortRun : BitVec 4
  /-- [10 R305] over-temperature condition | 0 -/
  overTemp : Bool
  deriving DecidableEq, Repr

/-- Derating and the core die's temperature (R306 to R311, R314). -/
structure Thermal where
  /-- [10 R314] NTC inputs | see Ntc -/
  ntc : Vector Ntc 6
  /-- [10 R314] THM_TILE_CURVE.KNEE | 0x0460 -/
  tileKnee : BitVec 16
  /-- [10 R314] THM_TILE_CURVE.LIMIT | 0x0640 -/
  tileLimit : BitVec 16
  /-- [10 R314] THM_TILE_LIM.FMIN | 0x8000 -/
  tileFmin : BitVec 16
  /-- [10 R314] THM_TILE_LIM.OT | 0x0690 -/
  tileOt : BitVec 16
  /-- [10 R314] THM_DRT_ADDR | 0 -/
  drtAddr : BitVec 25
  /-- [10 R314] THM_DRT_CFG.EN | 0 -/
  drtEn : Bool
  /-- [10 R307] EN went from 0 to 1 and no update has followed | 0 -/
  drtFirst : Bool
  /-- [10 R307] tile factors in U16.16 | 0x10000 -/
  tileFactor : Vector (BitVec 17) 128
  /-- [10 R309] some factor written is below 1.0 | 0 -/
  below : Bool
  /-- [10 R305] tiles over temperature | 0 -/
  tileHot : BitVec 128
  /-- [10 R304] tiles whose temperature is stale | 0 -/
  tileStale : BitVec 128
  /-- [10 R314] THM_DIE.TEMP | 0 -/
  dieTemp : BitVec 16
  /-- [10 R314] THM_DIE.MAX | 0 -/
  dieMax : BitVec 16
  /-- [10 R314] THM_DIE_WARN.LEVEL | 0x0960 -/
  dieWarn : BitVec 16
  /-- [10 R310] the warning is in force | 0 -/
  warned : Bool
  /-- [10 R314] THM_STATUS.CFG_ERR | 0 -/
  cfgErr : Bool
  /-- [10 R314] THM_LUT: tables 0 and 1, entries e0 to e32 | 0 -/
  lut : Vector (Vector (BitVec 16) 33) 2
  /-- [10 R311] event 0x0707 is owed | 0 -/
  shutdownEvent : Bool
  deriving DecidableEq, Repr

/-! ### Gable, Ridge and the safety configuration (11) -/

/-- A verified safety configuration (R351 to R355): its sections byte for byte, byte k at bits 8k+7 to 8k. -/
structure SafetyConfig where
  /-- [11 R352] PARAMS, 256 bytes | - -/
  params : BitVec 2048
  /-- [11 R351] ENCODER, 64 bytes | - -/
  encoder : BitVec 512
  /-- [11 R351] ZONES, 1152 bytes | - -/
  zones : BitVec 9216
  /-- [11 R351] ZONESETS, 16 bytes | - -/
  zoneSets : BitVec 128
  /-- [11 R351] SUPERCELL, 4096 bytes | - -/
  superCells : BitVec 32768
  /-- [11 R351] GEOMETRY, 1536 bytes | - -/
  geometry : BitVec 12288
  /-- [11 R351] FEED, 40 bytes | - -/
  feed : BitVec 320
  /-- [13 R399] FIELD, 160 bytes | - -/
  field : BitVec 1280
  /-- [12 R374] FLASHING, 136 bytes | - -/
  flashing : BitVec 1088
  /-- [11 R351] hash of the blob | - -/
  hash : BitVec 256
  /-- [11 R357] SHA-256 of the head entry | - -/
  headHash : BitVec 256
  /-- [11 R346] SHA-256 of the G image's code and read-only sections as recorded at load | - -/
  gableHash : BitVec 256
  deriving DecidableEq, Repr

/-- One encoder axis (R330). -/
structure EncAxis where
  /-- [11 R330] the last valid sample: position and house time | none -/
  last : Option (Word × Nat)
  /-- [11 R331] the valid sample before it | none -/
  prev : Option (Word × Nat)
  /-- [11 R330] consecutive invalid samples | 0 -/
  bad : Nat
  /-- [11 R330] encoder fault | 0 -/
  fault : Bool
  deriving DecidableEq, Repr

/-- One sample of the LIVE balls, LIVE_G first (R319). -/
structure LiveSample where
  /-- [11 R319] the generators toggled | - -/
  run : Bool × Bool
  /-- [11 R319] the levels seen | - -/
  level : Bool × Bool
  /-- [11 R319] the ball was not at the level expected | - -/
  wrong : Bool × Bool
  deriving DecidableEq, Repr

/-- What PUBL delivered in the current tick (R325, R326). -/
structure Publication where
  /-- [11 R325] frame named | - -/
  frame : BitVec 16
  /-- [11 R325] zone set named | - -/
  zoneSet : BitVec 3
  /-- [11 R325] bits [31:19] were 0 | - -/
  zeros : Bool
  /-- [11 R326] house time at which it executed | - -/
  time : Nat
  /-- [11 R326] the sample condition held | - -/
  fresh : Bool
  /-- [11 R332] super-cells that failed the coarse test | - -/
  mismatch : BitVec 256
  /-- [11 R325] buffer published | - -/
  buf : Bool
  deriving DecidableEq, Repr

/-- The Gable's safety state and the GBL_ registers (R368). -/
structure Gbl where
  /-- [11 R317] the verified configuration in force | none -/
  cfg : Option SafetyConfig
  /-- [11 R320] an HBT since the last safety tick | 0 -/
  hbt : Bool
  /-- [11 R320] the Gable holds HBT: one was executed since its start and the last two tick intervals were not both without | 0 -/
  hbtHeld : Bool
  /-- [11 R320] consecutive tick intervals without HBT | 0 -/
  hbtMiss : BitVec 2
  /-- [11 R320] the Ridge declared the Gable lost: its DEGCAUSE 1 to 4 | 0 none -/
  lost : BitVec 4
  /-- [11 R346] the core is held in reset after a loss | 0 -/
  held : Bool
  /-- [11 R346] a restart was made in this DEGRADED | 0 -/
  restarted : Bool
  /-- [11 R368] GBL_STATUS.ZONESET | 0 -/
  zoneSet : BitVec 3
  /-- [11 R368] DEGCAUSE | 0 -/
  degCause : BitVec 4
  /-- [11 R368] HOLDCAUSE | 0 -/
  holdCause : BitVec 4
  /-- [11 R368] house time at which T_deg ends | none -/
  tdegEnd : Option Nat
  /-- [11 R368] GBL_DEMAND: DI FLASH ROOF LPLUS | 0 -/
  demand : BitVec 4
  /-- [11 R339] LIVE_G waits for the reset input after a demand | 0 -/
  sf2Latch : Bool
  /-- [11 R368] GBL_INH.INH | 0 -/
  inh : BitVec 8
  /-- [11 R336] tiles with a kill of the Gable's for a kept verdict | 0 -/
  keptKill : BitVec 128
  /-- [11 R336] tiles with a kill of the Gable's as unobserved | 0 -/
  unobsKill : BitVec 128
  /-- [11 R336, R337] tiles for which the Gable asserts its inhibits | 0 -/
  killed : BitVec 128
  /-- [11 R368] GBL_RESTART.RESTARTS | 0 -/
  restarts : BitVec 8
  /-- [11 R368] house times of DEGRADED entries, newest first | empty -/
  entries : List Nat
  /-- [11 R340] the SF3 fallback runs | 0 -/
  sf3 : Bool
  /-- [11 R340] house time at which it started | 0 -/
  sf3Since : Nat
  /-- [11 R340] emitters reported as missing proof | empty -/
  sf3Reported : List Nat
  /-- [11 R346] house time of the loss | 0 -/
  lostAt : Nat
  /-- [11 R319] the Gable's last sample of the LIVE balls | none -/
  live : Option LiveSample
  /-- [11 R349] house time at which the reset-input window ends | none -/
  resetWindow : Option Nat
  /-- [11 R319] a LIVE readback fault occurred | 0 -/
  liveFault : Bool
  /-- [11 R325] the Gable published in this tick: stores into the window trap | 0 -/
  published : Bool
  /-- [11 R353] latest HOUSE_EPOCH pair: epoch and house time | 0 -/
  epoch : BitVec 64
  /-- [11 R353] house time of that pair | 0 -/
  epochTime : BitVec 64
  /-- [11 R325] Loft range a SAFETY_CHANGE being executed may write, base | none -/
  logArea : Option Nat
  deriving DecidableEq, Repr

/-- The Ridge and the RDG_ registers (R369). -/
structure Rdg where
  /-- [11 R369] RDG_STATUS.FAULT; OK is FAULT 0 with a configuration in force | 0 -/
  fault : BitVec 3
  /-- [11 R369] RDG_STATUS.BLOCK | 0 -/
  block : Bool
  /-- [11 R369] RDG_STATUS.DEGRADED and KIND: the Degraded ceiling in force | none -/
  deg : DegCeiling
  /-- [11 R347] the mode DEGRADED was entered from: SERVICE 1, RUN 0 | 0 -/
  fromService : Bool
  /-- [11 R347] consecutive maps accepted since DEGRADED | 0 -/
  okMaps : BitVec 4
  /-- [11 R369] RDG_STATUS.ENC_DISC | 0 -/
  disc : Bool
  /-- [11 R333] consecutive ticks with a discrepancy | 0 -/
  discRun : BitVec 2
  /-- [11 R333] consecutive ticks with agreement | 0 -/
  agreeRun : BitVec 4
  /-- [11 R369] MAPFRAME | 0 -/
  mapFrame : BitVec 16
  /-- [11 R369] RDG_MAP.BUF | 0 -/
  mapBuf : Bool
  /-- [11 R369] RDG_MAP.ZONESET | 0 -/
  mapZoneSet : BitVec 3
  /-- [01 R16] the accepted map that the Ridge switches to at the next window start | none -/
  mapDue : Option Publication
  /-- [11 R369] MISSRUN | 0 -/
  missRun : BitVec 8
  /-- [11 R369] MISSTOTAL | 0 -/
  missTotal : BitVec 16
  /-- [11 R320] consecutive ticks missing with reasons 1 to 4 | 0 -/
  missTicks : BitVec 2
  /-- [11 R326] the result for the tick being served: none, or the missing reason 1 to 5 (0 accepted) | none -/
  tickResult : Option (BitVec 3)
  /-- [11 R332] super-cells sent as 0 in the frames of the tick | 0 -/
  mismatch : BitVec 256
  /-- [11 R325] the publication of the current tick | none -/
  pub : Option Publication
  /-- [11 R331] frame whose map the current tick serves first | 0 -/
  tickFrame : BitVec 16
  /-- [11 R331] house time of the tick LAT | 0 -/
  tickTime : Nat
  /-- [11 R323] cell-map buffers, 4096 bytes each | 0 -/
  buffers : Vector Mem 2
  /-- [11 R322] static ceiling map bytes | 0 -/
  staticMap : Mem
  /-- [11 R321] length of the STATIC_MAP section, over which the static-map CRC runs | 0 -/
  staticLen : Nat
  /-- [11 R321] static-map entries with a parity error | empty -/
  parityErr : List Nat
  /-- [11 R321] cell-map entries with a parity error: buffer and cell | empty -/
  cellParity : List (Bool × Nat)
  /-- [11 R321] a parity error in another memory of the Ridge | 0 -/
  memParity : Bool
  /-- [11 R369] RDG_BLOCK_A.COUNT | 0 -/
  blockA : BitVec 20
  /-- [11 R369] RDG_BLOCK_A.RUNG | 0 -/
  rungA : BitVec 3
  /-- [11 R369] RDG_BLOCK_B.COUNT | 0 -/
  blockB : BitVec 20
  /-- [11 R369] RDG_BLOCK_B.RUNG | 0 -/
  rungB : BitVec 3
  /-- [11 R369] RDG_XCHK.SUPERCELL | 0 -/
  xchkCell : Byte
  /-- [11 R369] RDG_XCHK.COUNT | 0 -/
  xchkCount : BitVec 16
  /-- [11 R369] RDG_INH.INH | 0 -/
  inh : BitVec 8
  /-- [11 R369] RDG_KILL: tiles on which the Ridge judged stuck-lit | 0 -/
  kill : BitVec 128
  /-- [11 R336] tiles with a kill of the Ridge's for a kept verdict | 0 -/
  keptKill : BitVec 128
  /-- [11 R336] tiles with a kill of the Ridge's as unobserved | 0 -/
  unobsKill : BitVec 128
  /-- [11 R336, R337] tiles for which the Ridge asserts its inhibits | 0 -/
  killed : BitVec 128
  /-- [11 R338] Ridge-seen demands: DI pair, Ridge-frame stop, L+ missing | 0 -/
  demand : BitVec 3
  /-- [11 R319] the Ridge's last sample of the LIVE balls | none -/
  live : Option LiveSample
  /-- [11 R369] encoder G axis 0, G axis 1, H axis 0, H axis 1 | none -/
  enc : Vector EncAxis 4
  deriving DecidableEq, Repr

/-! ### Flashing (12) -/

/-- The state of a consumed stream (R378, R379, R388). -/
inductive FlashState where
  | unused | reset | established | timeout
  deriving DecidableEq, Repr

/-- One connection (R388); kinds and keys come from the configuration. -/
structure FlashConn where
  /-- [12 R388] STATE | unused -/
  state : FlashState
  /-- [12 R388] STOP, the stop state | 0 -/
  stop : Bool
  /-- [12 R388] GEN | 0 -/
  gen : Byte
  /-- [12 R388] latest accepted SEQ | 0 -/
  seq : BitVec 16
  /-- [12 R379] house time of the timer's last restart | 0 -/
  since : Nat
  /-- [12 R388] house time of the last accepted frame, for MAXGAP | none -/
  lastAccept : Option Nat
  /-- [12 R380] the latest accepted frame has not been echoed | 0 -/
  echoOwed : Bool
  /-- [12 R380] house time of the last ECHO or STATUS | none -/
  sentAt : Option Nat
  /-- [12 R382] payload of the last STATUS | empty -/
  statusSent : List Byte
  /-- [12 R380] TS of the latest accepted frame | 0 -/
  ts : Word
  /-- [12 R382] SEQ of the next frame produced | 0 -/
  txSeq : BitVec 16
  /-- [12 R388] SEQ of the latest frame produced | 0 -/
  txLast : BitVec 16
  /-- [12 R382] GEN of the produced kind 3 or 4 stream | 0 -/
  txGen : Byte
  /-- [12 R388] ERR.CRC | 0 -/
  crc : BitVec 8
  /-- [12 R388] ERR.SEQERR | 0 -/
  seqErr : BitVec 8
  /-- [12 R388] ERR.FORMAT (kind 4: identity and format, RDG_FLASH_ERR.OTHER) | 0 -/
  format : BitVec 8
  /-- [12 R388] ERR.DUP | 0 -/
  dup : BitVec 8
  /-- [12 R388] TIME.TIMEOUTS (kind 4: RDG_FLASH_ERR.TIMEOUTS, 8 bits) | 0 -/
  timeouts : BitVec 16
  /-- [12 R388] TIME.RTT | 0 -/
  rtt : BitVec 16
  /-- [12 R388] GAP.MAXGAP | 0 -/
  maxGap : BitVec 16
  deriving DecidableEq, Repr

/-- Flashing as a whole (R388, R389). -/
structure Flash where
  /-- [12 R388] connections | unused -/
  conns : Vector FlashConn 8
  /-- [12 R388] GBL_FLASH_IDERR.IDENT | 0 -/
  ident : BitVec 16
  /-- [12 R388] GBL_FLASH_IDERR.NOCFG | 0 -/
  nocfg : BitVec 16
  /-- [12 R385] the stop of an accepted kind 3 frame | 0 -/
  roofStop : Bool
  deriving DecidableEq, Repr

/-! ### The Soffit die, the barrier link and the FLD_ mirror (13) -/

/-- The classes of an input (R403, R417). -/
inductive InClass where
  | off | on | broken | invalid
  deriving DecidableEq, Repr

/-- One field input on the Soffit (R403 to R407). -/
structure FieldIn where
  /-- [13 R403] last raw class | OFF DESIGN CHOICE (log 3) -/
  raw : InClass
  /-- [13 R404] filtered state | OFF DESIGN CHOICE (log 3) -/
  filtered : InClass
  /-- [13 R404] candidate class | OFF DESIGN CHOICE (log 3) -/
  candidate : InClass
  /-- [13 R404] count | 0 -/
  count : Nat
  /-- [13 R417] the last sample was in a HOLD band | 0 -/
  hold : Bool
  /-- [13 R405] cross-circuit latched | 0 -/
  cross : Bool
  /-- [13 R405] consecutive pulses of the tied output seen since another's | 0 -/
  good : Nat
  /-- [13 R407] the filtered state has been OFF since power-up | 0 -/
  seenOff : Bool
  /-- [13 R407] the filtered state has been ON since power-up | 0 -/
  seenOn : Bool
  /-- [13 R407] the start-up test has passed since power-up | 0 -/
  passed : Bool
  /-- [13 R403] Soffit time from which the next sample is due | 0 -/
  due : Nat
  deriving DecidableEq, Repr

/-- One pair of inputs (R406). -/
structure FieldPair where
  /-- [13 R406] DISC | 0 -/
  disc : Bool
  /-- [13 R406] Soffit time since which the channels differ | none -/
  since : Option Nat
  deriving DecidableEq, Repr

/-- The faults of an output (R411). -/
inductive OutFault where
  | shortM | shortL | cross | thermal
  deriving DecidableEq, Repr

/-- One field output on the Soffit (R409 to R413). -/
structure FieldOut where
  /-- [13 R415] last commanded state | 0 -/
  cmd : Bool
  /-- [13 R409] the switch is on | 0 -/
  on : Bool
  /-- [13 R409] readback HIGH | 0 -/
  readback : Bool
  /-- [13 R411] latched fault | none -/
  fault : Option OutFault
  /-- [13 R410] the switch has cooled by 15 C since a thermal cutoff | 1 -/
  cooled : Bool
  /-- [13 R411] Soffit time at which the switch last changed | 0 -/
  movedAt : Nat
  /-- [13 R411] Soffit time since which its current has been at the limit | none -/
  limitSince : Option Nat
  /-- [13 R412] Soffit time at which its last test ended | 0 -/
  testedAt : Nat
  deriving DecidableEq, Repr

/-- A test pulse in progress (R412), under the settings with which it started (R419). -/
structure OutTest where
  /-- [13 R412] the output | - -/
  out : Fin 8
  /-- [13 R412] an off-test | - -/
  off : Bool
  /-- [13 R409] the outputs of its group | - -/
  members : BitVec 8
  /-- [13 R412] Soffit time of its start | - -/
  start : Nat
  /-- [13 R399] OFFT or ONT, in microseconds | - -/
  width : Nat
  deriving DecidableEq, Repr

/-- A command frame as the Soffit reads it (R396). -/
structure CmdFrame where
  /-- [13 R396] KIND 2, configuration | - -/
  config : Bool
  /-- [13 R396] CNT | - -/
  cnt : BitVec 4
  /-- [13 R396] OFFSET | - -/
  offset : Byte
  /-- [13 R396] ACK | - -/
  ack : Bool
  /-- [13 R416] HOST word | - -/
  host : Word
  /-- [13 R396] payload words | - -/
  words : List Word
  deriving DecidableEq, Repr

/-- An input frame as the core die reads it (R397). -/
structure InputFrame where
  /-- [13 R397] W0 to W5 | - -/
  w : Vector Word 6
  /-- [13 R397] words the F program appended | - -/
  extra : List Word
  deriving DecidableEq, Repr

/-- The Soffit die (R391 to R418). -/
structure Soffit where
  /-- [13 R393] the Soffit supply is up | 0 -/
  powered : Bool
  /-- [13 R401] the FIELD section applied; none, the defaults of R402 | none -/
  cfg : Option (BitVec 1280)
  /-- [13 R401] FIELD words received in order since the last application | 0 -/
  cfgWords : Nat
  /-- [13 R401] FIELD words received so far | 0 -/
  cfgData : BitVec 1280
  /-- [13 R396] CNT of the last valid command frame | 0 -/
  rxCnt : BitVec 4
  /-- [13 R396] the next frame is accepted whatever its CNT | 1 -/
  rxAny : Bool
  /-- [13 R397] CNT of the next input frame | 0 DESIGN CHOICE (log 3) -/
  txCnt : BitVec 4
  /-- [13 R397] W0.SILENCED | 0 -/
  silenced : Bool
  /-- [13 R397] W0.SAFESTATE | 0 -/
  safeState : Bool
  /-- [13 R394] microseconds of the Soffit's own oscillator since power-up | 0 DESIGN CHOICE (log 3) -/
  us : Nat
  /-- [13 R415] Soffit time of the last valid command frame | 0 -/
  rxAt : Nat
  /-- [13 R395] running disparity of the input frames | 0 negative PRESUMED (log 111) -/
  upRd : Bool
  /-- [13 R397] W0 millisecond count | 0 DESIGN CHOICE (log 3) -/
  ms : BitVec 16
  /-- [13 R414] L+: 0 normal, 1 low, 2 missing | 0 DESIGN CHOICE (log 3) -/
  lplus : BitVec 2
  /-- [13 R414] Soffit time since which L+ has met the condition that changes its low state | none -/
  lowTimer : Option Nat
  /-- [13 R414] the same of its missing state | none -/
  missTimer : Option Nat
  /-- [13 R391] inputs | see FieldIn -/
  inputs : Vector FieldIn 8
  /-- [13 R406] pairs | 0 -/
  pairs : Vector FieldPair 4
  /-- [13 R409] outputs | off -/
  outputs : Vector FieldOut 8
  /-- [13 R412] the test in progress | none -/
  test : Option OutTest
  /-- [13 R412] tests requested and waiting | empty -/
  tests : List (Fin 8 × Bool)
  /-- [13 R397] W4 kind of the latest fault | 0 -/
  faultKind : BitVec 4
  /-- [13 R397] W4 index of that fault | 0 -/
  faultIndex : BitVec 3
  /-- [13 R397] W4 cross mask | 0 -/
  crossMask : BitVec 8
  /-- [13 R397] W4 completed tests | 0 -/
  done : BitVec 8
  /-- [13 R397] W4 aborted tests | 0 -/
  aborted : BitVec 8
  /-- [13 R416] payload words of the latest valid data frame not yet read by BFRX | empty -/
  payload : List Word
  /-- [13 R397] words appended by BFTX since the last input frame | empty -/
  appended : List Word
  deriving DecidableEq, Repr

/-- The core side of the barrier link and the FLD_ registers (R396, R420). -/
structure Fld where
  /-- [13 R396] header of the command frame being built | none -/
  header : Option Word
  /-- [13 R396] payload words appended to it | empty -/
  words : List Word
  /-- [13 R396] CNT of the next command frame | 0 -/
  txCnt : BitVec 4
  /-- [13 R395] command frames on the link, as code groups | empty -/
  down : List (List (BitVec 10))
  /-- [13 R395] running disparity of the command frames | 0 negative PRESUMED (log 111) -/
  downRd : Bool
  /-- [13 R395] input frames on the link, as code groups | empty -/
  up : List (List (BitVec 10))
  /-- [13 R398] house time of the last accepted input frame | 0 -/
  rxAt : Nat
  /-- [13 R397] the words that the F program appended to the latest accepted input frame | empty -/
  extra : List Word
  /-- [13 R397] CNT of the last accepted input frame | 0 -/
  rxCnt : BitVec 4
  /-- [13 R397] the next input frame is accepted whatever its CNT | 1 -/
  rxAny : Bool
  /-- [13 R420] FLD_STATUS.RX_OK | 0 -/
  rxOk : Bool
  /-- [13 R420] FLD_STATUS.CFG_OK | 0 -/
  cfgOk : Bool
  /-- [13 R420] FLD_STATUS.SILENCED | 0 -/
  silenced : Bool
  /-- [13 R420] W0 to W5 of the latest accepted input frame | 0 -/
  w : Vector Word 6
  /-- [13 R420] FLD_ERR.RXERR | 0 -/
  rxErr : BitVec 16
  /-- [13 R420] FLD_ERR.DROPPED | 0 -/
  dropped : BitVec 16
  /-- [13 R420] FLD_TESTS.DONE | 0 -/
  done : BitVec 16
  /-- [13 R420] FLD_TESTS.ABORTED | 0 -/
  aborted : BitVec 16
  /-- [13 R420] FLD_DQ_k_CMD.ON | 0 -/
  dqOn : BitVec 8
  /-- [13 R416] CLEAR bits waiting for the next HOST word | 0 -/
  dqClear : BitVec 8
  /-- [13 R408] step of the douser test in progress: 0 none, 2, 3 | 0 -/
  douserStep : BitVec 2
  /-- [13 R408] house time at which that step began | 0 -/
  douserAt : Nat
  deriving DecidableEq, Repr

/-! ### Trim and calibration (14) -/

/-- One trigger of a queued calibration run (14 R424, R425). -/
structure CalAsk where
  /-- [14 R424] its steps | - -/
  steps : BitVec 48
  /-- [14 R438] its trigger | - -/
  trigger : BitVec 3
  /-- [03 R85] ring and TAG of the CAL_RUN that asked | - -/
  cmd : Option (Byte × BitVec 16)
  deriving DecidableEq, Repr

/-- The trim unit (R423 to R437). -/
structure Trim where
  /-- [14 R423] applied codes | factory codes in OTP, Config.factoryTrim -/
  applied : Vector (BitVec 10) 48
  /-- [14 R423] shadow codes | factory codes in OTP, Config.factoryTrim -/
  shadow : Vector (BitVec 10) 48
  /-- [14 R437] TRM_CFG.DT | 8 -/
  dt : BitVec 5
  /-- [14 R437] TRM_CFG.TIMEOUT | 10 -/
  timeout : BitVec 6
  /-- [14 R437] TRM_STATUS.RUNNING | 0 -/
  running : Bool
  /-- [14 R425] the queued run: the triggers it merges, oldest first; QUEUED | empty -/
  queued : List CalAsk
  /-- [14 R437] TRM_STATUS.CFG_ERR | 0 -/
  cfgErr : Bool
  /-- [14 R437] TRM_STATUS.LASTEND | 0 -/
  lastEnd : BitVec 3
  /-- [14 R437] TRM_STATUS.RRES | 0 -/
  rres : BitVec 3
  /-- [14 R437] TRM_STATUS.FAILDAC | 0 -/
  failDac : BitVec 6
  /-- [14 R437] TRM_COUNT | 0 -/
  count : Word
  /-- [14 R437] TRM_GEN.SEQ | 0 -/
  gen : BitVec 24
  /-- [14 R437] TRM_LAST_TIME | 0 -/
  lastTime : BitVec 64
  /-- [14 R437] TRM_LAST_TEMP | factory test temperature in OTP, Config.factoryTemp -/
  lastTemp : BitVec 16
  /-- [14 R437] TRM_PEND | 0 -/
  pend : BitVec 48
  /-- [14 R437] TRM_STALE | 0 -/
  stale : BitVec 48
  /-- [14 R437] TRM_DEFER.DEFERRED | 0 -/
  deferred : BitVec 16
  /-- [14 R437] TRM_DEFER.ABORTED | 0 -/
  aborted : BitVec 16
  /-- [14 R424] trigger of the run | 0 -/
  trigger : BitVec 3
  /-- [14 R431] steps the run was started with | 0 -/
  steps : BitVec 48
  /-- [14 R424] house time at the run's start | 0 -/
  startTime : Nat
  /-- [14 R424] THM_DIE.TEMP at the run's start | 0 -/
  startTemp : BitVec 16
  /-- [14 R426] steps deferred in this run | 0 -/
  deferredRun : BitVec 48
  /-- [14 R426] steps in progress | 0 -/
  active : BitVec 48
  /-- [14 R422] house time at which each step in progress began | 0 -/
  began : Vector Nat 48
  deriving DecidableEq, Repr

/-! ### Modes, boot, reset and clocks (15) -/

/-- The twelve operating modes (R439). -/
inductive Mode where
  | off | standby | retention | boot | load | proof | armed | run | degraded | safeHold | trim | service
  deriving DecidableEq, Repr

/-- A MODE_REQUEST that awaits its LAT (R443); the header is absent for a request the device makes itself (17 R507). -/
structure PendingMode where
  /-- [15 R443] target | - -/
  target : Mode
  /-- [15 R443] the command to complete | - -/
  hdr : Option CmdHdr
  deriving DecidableEq, Repr

/-- The causes that hold the core die in reset (R457 to R459). -/
structure ResetHold where
  /-- [15 R457] RST_N asserted | 0 -/
  rstN : Bool
  /-- [10 R311] thermal shutdown | 0 -/
  thermal : Bool
  /-- [15 R458] Truss halt | 0 -/
  truss : Bool
  /-- [15 R449] brown-out, or power-up not complete | 0 -/
  brown : Bool
  /-- [15 R458] Ridge fault without a configuration | 0 -/
  ridge : Bool
  deriving DecidableEq, Repr

/-- What a clock monitor of the Ridge finds (R460). -/
inductive ClockSeen where
  /-- the CCLK and LCLK cycles of a window of 256 cycles of the RC oscillator -/
  | window (cclk lclk : Nat)
  /-- microseconds without any edge of CCLK, and of LCLK -/
  | noEdge (cclk lclk : Nat)
  /-- the PLL is out of lock -/
  | unlocked
  deriving DecidableEq, Repr

/-- Modes, PROOF, straps, boot, the reset record, clocks and house time (R468, R469). -/
structure Sys where
  /-- [15 R468] SYS_MODE.MODE | BOOT -/
  mode : Mode
  /-- [15 R468] SYS_MODE.PREV | OFF (code 0) -/
  prev : Mode
  /-- [15 R468] SYS_MODE.PENDING and TARGET | none -/
  pending : Option PendingMode
  /-- [15 R468] SYS_MODE.FRAME | 0 -/
  modeFrame : BitVec 16
  /-- [15 R441] the mode TRIM was entered from is ARMED | 0 -/
  trimFromArmed : Bool
  /-- [15 R441] the mode RETENTION was entered from is ARMED | 0 -/
  retFromArmed : Bool
  /-- [15 R468] SYS_PROOF.DONE | 0 -/
  proofDone : Bool
  /-- [15 R468] SYS_PROOF.FAIL | 0 -/
  proofFail : Bool
  /-- [15 R468] SYS_PROOF.BUSY | 0 -/
  proofBusy : Bool
  /-- [15 R468] SYS_PROOF.STEP | 0 -/
  proofStep : BitVec 4
  /-- [15 R468] SYS_PROOF.AGE | 0xFFFF -/
  proofAge : BitVec 16
  /-- [15 R445] house time of PROOF's start | 0 -/
  proofStart : Nat
  /-- [15 R445] step 4: consecutive maps accepted | 0 -/
  proofMaps : BitVec 4
  /-- [15 R445] step 4: blanking intervals with a passed self-test | 0 -/
  proofTests : BitVec 4
  /-- [15 R445] every step passed, ARMED follows at the next LAT | 0 -/
  proofPassed : Bool
  /-- [15 R445] microseconds of step 5 throughout which both LIVE generators toggled | 0 -/
  proofLive : Nat
  /-- [15 R468] SYS_STRAP.ROLE | sampled; DESIGN CHOICE 0 (log 4) -/
  role : BitVec 2
  /-- [15 R468] SYS_STRAP.BOOTSEL | sampled; DESIGN CHOICE 0 (log 4) -/
  bootsel : Bool
  /-- [15 R468] SYS_STRAP.REFUSED | 0 -/
  refused : Bool
  /-- [15 R468] SYS_BOOT.ATTEMPTS, always-on | 0 -/
  attempts : Byte
  /-- [15 R468] SYS_BOOT.LAST, always-on | 0 -/
  bootLast : BitVec 3
  /-- [15 R468] SYS_BOOT.WINDOW, always-on | 0 -/
  window : BitVec 16
  /-- [15 R452] an attempt's window is open | 1 -/
  attemptOpen : Bool
  /-- [15 R455] some attempt failed before this LOAD entry: 0x0103 is owed | 0 -/
  historyOwed : Bool
  /-- [15 R455] 0x0102 is owed | 0 -/
  recordOwed : Bool
  /-- [15 R455] SYS_RESET_REC at LOAD entry | 0 -/
  recordWord : Word
  /-- [15 R455] SYS_RESET_TRAP.TCAUSE at LOAD entry | 0 -/
  recordTrap : Byte
  /-- [15 R455] SYS_BOOT at LOAD entry | 0 -/
  historyWord : Word
  /-- [15 R468] SYS_RESET_REC.CAUSE, always-on | 0 -/
  cause : BitVec 3
  /-- [15 R468] SYS_RESET_REC.LONG, always-on | 0 -/
  long : Bool
  /-- [15 R468] SYS_RESET_REC.DURATION, always-on | 0 -/
  duration : BitVec 13
  /-- [15 R468] SYS_RESET_REC.COUNT, always-on | 0 -/
  resets : Byte
  /-- [15 R468] SYS_RESET_TRAP.TCAUSE, always-on | 0 -/
  trapCause : Byte
  /-- [15 R468] SYS_RESET_TPC, always-on | 0 -/
  trapTpc : Word
  /-- [15 R468] SYS_CLK.LOCK | 0 -/
  lock : Bool
  /-- [15 R468] SYS_CLK.LOCKTRIES | 0 -/
  lockTries : Byte
  /-- [15 R447] the lock is being retried, FAULT_N low | 0 -/
  lockRetry : Bool
  /-- [01 R27] house time | 0 -/
  htime : BitVec 64
  /-- [15 R468] SYS_HTIME_HI as latched | 0 -/
  htimeHi : Word
  /-- [15 R463] always-on time in us at the latest RETENTION entry | 0 -/
  retStart : Nat
  /-- [15 R468] SYS_RET.MS | 0 -/
  retMs : Word
  /-- [15 R469] SYS_WAKE_REC, always-on | 0 -/
  wakeRec : Vector Word 16
  /-- [15 R457] what holds the core die in reset | nothing -/
  hold : ResetHold
  /-- [15 R459] the cause that began the reset in force | none -/
  resetCause : Option (BitVec 3)
  /-- [15 R457] RST_N low time in 10 ms units of the reset in force | 0 -/
  lowTime : Nat
  /-- [15 R457] always-on time in us at which RST_N was asserted | 0 -/
  rstAt : Nat
  /-- [15 R458] always-on time in us of the last Truss halt by a trap | 0 -/
  haltAt : Nat
  /-- [15 R458] always-on time in us of the last Ridge fault without a configuration | 0 -/
  ridgeAt : Nat
  /-- [15 R447] always-on time in us at which the PLL lock is restarted; none while it is locked | none -/
  lockDue : Option Nat
  /-- [15 R451] house time at which the attempt opened | 0 -/
  attemptAt : Nat
  /-- [15 R466] always-on time in us at which STBY_OUT rose | 0 -/
  stbyAt : Nat
  /-- [15 R448] VSTBY in its range | 1 -/
  vstby : Bool
  /-- [15 R449] every core rail in its range | 1 -/
  rails : Bool
  /-- [15 R464] STBY_OUT | 0 -/
  stbyOut : Bool
  deriving DecidableEq, Repr

/-! ### Roofs and twin roofs (16) -/

/-- A Purlin cell (R474). -/
structure PCell where
  /-- [16 R474] TYPE | - -/
  kind : Byte
  /-- [16 R474] DST | - -/
  dst : Byte
  /-- [16 R474] SRC | - -/
  src : Byte
  /-- [16 R474] SEQ | - -/
  seq : BitVec 16
  /-- [16 R474] payload | - -/
  payload : List Byte
  deriving DecidableEq, Repr

/-- Code groups on the two lanes of a Purlin hop (R473). -/
abbrev Lanes := List (BitVec 10) × List (BitVec 10)

/-- What the manager shows of a worker (R494). -/
structure WorkerView where
  /-- [16 R494] PRESENT | 0 -/
  present : Bool
  /-- [16 R494] STATUS_OK | 0 -/
  ok : Bool
  /-- [16 R482] three STATUS cells were missing and none has come since | 0 -/
  lost : Bool
  /-- [16 R494] MODE | 0 -/
  mode : BitVec 4
  /-- [16 R494] LIVE | 0 -/
  live : Bool
  /-- [16 R494] CFG | 0 -/
  cfg : Bool
  /-- [16 R494] DEGCAUSE | 0 -/
  degCause : BitVec 4
  /-- [16 R494] HOLDCAUSE | 0 -/
  holdCause : BitVec 4
  /-- [16 R494] FRAME | 0 -/
  frame : BitVec 16
  /-- [16 R494] ATTEMPTS | 0 -/
  attempts : Byte
  /-- [16 R494] PROOF_DONE | 0 -/
  proofDone : Bool
  /-- [16 R482] house time of its last STATUS cell, or of its joining the ring | 0 -/
  seenAt : Nat
  deriving DecidableEq, Repr

/-- A ROOF_REENUM in progress on the manager (R486). -/
structure Reenum where
  /-- [16 R486] position | - -/
  position : BitVec 3
  /-- [16 R486] the command to complete | - -/
  hdr : CmdHdr
  /-- [16 R486] house time at its start | - -/
  since : Nat
  deriving DecidableEq, Repr

/-- Purlin, latch sync and the twin (R472 to R494). -/
structure Roof where
  /-- [16 R494] ROOF_STATUS.POSITION | 0 -/
  position : BitVec 3
  /-- [16 R494] POS_VALID | 0 -/
  posValid : Bool
  /-- [16 R494] WORKERS | 0 -/
  workers : BitVec 3
  /-- [16 R494] RING_UP | 0 -/
  ringUp : Bool
  /-- [16 R472] the ring has formed since the reset: with ROLE 00 the device is a manager | 0 -/
  formed : Bool
  /-- [16 R494] MARKS | 0 -/
  marks : Bool
  /-- [16 R494] FLYWHEEL | 0 -/
  flywheel : Bool
  /-- [16 R494] HOLDING | 0 -/
  holding : Bool
  /-- [16 R494] PEER_OK | 0 -/
  peerOk : Bool
  /-- [16 R494] DRIVING | 0 -/
  driving : Bool
  /-- [16 R494] GENLOCKED | 0 -/
  genlocked : Bool
  /-- [16 R494] ROOF_STATUS.CFG_ERR | 0 -/
  cfgErr : Bool
  /-- [16 R494] ROOF_STATUS.FRAME | 0 -/
  frame : BitVec 16
  /-- [16 R494] ROOF_CFG.TWIN | ROLE 01: 1, else 0 -/
  twin : Bool
  /-- [16 R494] ROOF_CFG.AUTOYIELD | 1 -/
  autoyield : Bool
  /-- [16 R494] ROOF_CFG.RELAY | worker: 1, else 0 -/
  relay : Bool
  /-- [16 R494] ROOF_CFG.EVTRELAY | worker: 1, else 0 -/
  evtrelay : Bool
  /-- [16 R494] ROOF_TIMING.RTT | 0 -/
  rtt : BitVec 16
  /-- [16 R494] ROOF_TIMING.CABLE | 0 -/
  cable : Byte
  /-- [16 R494] ROOF_BOOT_ADDR | 0 -/
  bootAddr : BitVec 25
  /-- [16 R494] ROOF_BOOT_LEN | 0 -/
  bootLen : BitVec 18
  /-- [16 R494] ROOF_LINK_ERR.CRC | 0 -/
  linkCrc : BitVec 8
  /-- [16 R494] ROOF_LINK_ERR.CODE | 0 -/
  linkCode : BitVec 8
  /-- [16 R494] ROOF_LINK_ERR.MARKMISS | 0 -/
  markMiss : BitVec 8
  /-- [16 R494] ROOF_LINK_ERR.RETRY_FAIL | 0 -/
  retryFail : BitVec 8
  /-- [16 R494] ROOF_TWIN.PEERFRAME | 0 -/
  peerFrame : BitVec 16
  /-- [16 R494] ROOF_TWIN.PEERSLOT | 0 -/
  peerSlot : BitVec 3
  /-- [16 R494] ROOF_TWIN.PEER_DRIVING | 0 -/
  peerDriving : Bool
  /-- [16 R494] ROOF_TWIN.HEALTH | 0 -/
  peerHealth : BitVec 2
  /-- [16 R494] ROOF_TWIN_ERR.MISSES | 0 -/
  misses : BitVec 16
  /-- [16 R494] ROOF_TWIN_ERR.BADWORDS | 0 -/
  badWords : BitVec 16
  /-- [16 R494] ROOF_W_k, entry k (entry 0 unused) | 0 -/
  worker : Vector WorkerView 8
  /-- [16 R475] cells of this device that wait for PL_TX, in the order they go out | empty -/
  out : List PCell
  /-- [16 R475] cells to forward, oldest first | empty -/
  fwd : List PCell
  /-- [16 R473] the latest cell on PL_TX, its code groups on both lanes | empty -/
  tx : Lanes
  /-- [16 R473] running disparity of both lanes of PL_TX | 0, 0 negative PRESUMED (log 111) -/
  txRd : Bool × Bool
  /-- [16 R484] worker: command entries relayed to ring 23 and not fetched, oldest first | empty -/
  relayQueue : List (List Byte)
  /-- [16 R475] cells sent and not acknowledged, with the repeats made and the house time of the last sending | empty -/
  unacked : List (PCell × Nat × Nat)
  /-- [16 R474] next SEQ by cell type | 0 -/
  seq : Vector (BitVec 16) 12
  /-- [16 R478] manager house time minus own, modulo 2^32 | 0 -/
  offset : Word
  /-- [16 R479] consecutive missing marks | 0 -/
  markRun : Nat
  /-- [16 R480] consecutive marks that did not return | 0 -/
  returnRun : Nat
  /-- [16 R480] house times of the first two marks sent since one returned | empty -/
  marksOut : List Nat
  /-- [16 R479] LCLK time of the last mark taken, or of the last one missed | 0 -/
  markAt : Nat
  /-- [16 R479] PERIOD of the last mark taken | 0 -/
  markPeriod : BitVec 24
  /-- [16 R477] LCLK time of the LAT that the last mark, or the last word of the peer, names | 0 -/
  markLat : Nat
  /-- [16 R478] MHT of the last mark taken | 0 -/
  markMht : Word
  /-- [16 R472] house time from which the next TRAIN is sent | 0 -/
  trainAt : Nat
  /-- [16 R482] house time from which the next STATUS is sent | 0 -/
  statusAt : Nat
  /-- [16 R488] LCLK time at which the last sync word was expected or came | 0 -/
  syncAt : Nat
  /-- [16 R488] consecutive missing sync words | 0 -/
  missRun : Nat
  /-- [16 R479] marks carry TWIN | 0 -/
  markTwin : Bool
  /-- [16 R478] slot named by the latest mark and its PERIOD, when they disagree with the own slot | none -/
  slotMismatch : Bool
  /-- [16 R478] frame, slot, SHADOW and HOLD named for the next LAT | none -/
  nextMark : Option (BitVec 16 × Fin 8 × Bool × Bool)
  /-- [16 R490] LATs still withheld after a yield | 0 -/
  yieldHold : BitVec 2
  /-- [16 R481] manager restarts a kind 3, kind 4 stream at the next sample | 0 -/
  restartStream : BitVec 2
  /-- [16 R486] ROOF_REENUM in progress | none -/
  reenum : Option Reenum
  /-- [16 R485] worker: bytes of the boot image received, by offset | 0 -/
  bootGot : Nat
  /-- [16 R476] the latest latch mark on PL_TX, its code groups on both lanes | empty -/
  mark : Lanes
  /-- [16 R487] the levels of SYNC_OUT through the latest sync word, one for each 50 ns | empty -/
  sync : List Bool
  deriving DecidableEq, Repr

/-! ### Access, debug and the TAP (17) -/

/-- The JTAG instructions of R509. -/
inductive Jtag where
  | extest | idcode | sample | highz | clamp | accChal | dbg | bypass
  deriving DecidableEq, Repr

/-- The access controller, the debugger and the TAP (R496 to R514). -/
structure Acc where
  /-- [17 R514] ACC_STATUS.LEVEL | 0 -/
  level : BitVec 2
  /-- [17 R514] ACC_STATUS.METHOD | 0 -/
  method : Bool
  /-- [17 R514] ACC_CFG.TIMEOUT | 30 -/
  timeout : Byte
  /-- [17 R503] always-on time in us at which the unlock timer expires | none -/
  lapse : Option Nat
  /-- [17 R514] ACC_RESULT.CODE | 0 -/
  result : BitVec 4
  /-- [17 R514] ACC_RESULT.CFG_ERR | 0 -/
  cfgErr : Bool
  /-- [17 R514] ACC_RESULT.WAIT: the path last used, challenge 1 | 0 -/
  lastPath : Bool
  /-- [17 R514] ACC_FAIL.PWFAIL, always-on | 0 -/
  pwFail : BitVec 10
  /-- [17 R514] ACC_FAIL.CRFAIL, always-on | 0 -/
  crFail : BitVec 10
  /-- [17 R502] always-on time in us until which the password path refuses | 0 -/
  pwUntil : Nat
  /-- [17 R502] always-on time in us until which the challenge path refuses | 0 -/
  crUntil : Nat
  /-- [17 R514] ACC_NONCE0 to 3 | 0 -/
  nonce : BitVec 128
  /-- [17 R499] the nonce is valid; house time at which it was drawn | none -/
  nonceAt : Option Nat
  /-- [17 R498] random draws made so far (the model's own index into Config.random) | 0 DESIGN CHOICE (log 5) -/
  draws : Nat
  /-- [17 R514] ACC_RESP0 to 3 | 0 -/
  resp : BitVec 128
  /-- [17 R514] ACC_PW0 to 3 | 0 -/
  pw : BitVec 128
  /-- [17 R514] ACC_PROG_ADDR | 0 -/
  progAddr : BitVec 25
  /-- [17 R514] ACC_DBG.ATTACHED | 0 -/
  attached : Bool
  /-- [17 R514] ACC_DBG.PENDING | 0 -/
  attachPending : Bool
  /-- [17 R514] ACC_DBG.REFUSED | 0 -/
  refused : BitVec 4
  /-- [17 R506] requests refused, counted | 0 -/
  refusals : Nat
  /-- [17 R506] what the last debug read returned | 0 -/
  dbgData : Word
  /-- [17 R509] the JTAG instruction in force | IDCODE DESIGN CHOICE (log 6) -/
  jtag : Jtag
  /-- [17 R509] what the TAP last captured into its data register | 0 -/
  tdr : BitVec 136
  /-- [17 R509] what the TAP captured into its instruction register at the latest instruction scan | 1 DESIGN CHOICE (log 6) -/
  tir : Byte
  /-- [17 R509] what the TAP last captured from the core-die balls | empty DESIGN CHOICE (log 6) -/
  captured : List Bool
  /-- [17 R509] boundary update register | 0 DESIGN CHOICE (log 6) -/
  boundary : List Bool
  deriving DecidableEq, Repr

/-- An image-key slot (R511). -/
structure KeySlot where
  /-- [17 R511] programmed | slot 0: 1, else 0 -/
  programmed : Bool
  /-- [17 R511] revoked | 0 -/
  revoked : Bool
  /-- [17 R511] profile mask T P G F | slot 0: T only, else 0 -/
  mask : BitVec 4
  /-- [17 R511] SHA-256 of X and Y | slot 0: Config.erdeukKey, else 0 -/
  hash : BitVec 256
  deriving DecidableEq, Repr

/-- A password slot (R500, R511). -/
structure PwSlot where
  /-- [17 R511] programmed | 0 -/
  programmed : Bool
  /-- [17 R511] revoked | 0 -/
  revoked : Bool
  /-- [17 R500] level | 0 -/
  level : BitVec 2
  /-- [17 R500] salt, 16 bytes | 0 -/
  salt : BitVec 128
  /-- [17 R500] tag, 16 bytes | 0 -/
  tag : BitVec 128
  deriving DecidableEq, Repr

/-- The one-time-programmable fields that programs of the block change (R511). -/
structure Otp where
  /-- [17 R511] image-key slots | slot 0 programmed for Erdeuk, mask T (R512) -/
  keys : Vector KeySlot 4
  /-- [17 R511] password slots | unprogrammed -/
  pws : Vector PwSlot 4
  /-- [17 R511] unlock fuses burnt, 0 to 64 | 0 DESIGN CHOICE (log 7) -/
  fuses : BitVec 7
  /-- [17 R511] change-log counter | 0 DESIGN CHOICE (log 7) -/
  counter : BitVec 12
  /-- [17 R508] ENGSAMPLE | 0, a production part -/
  engSample : Bool
  /-- [17 R508] no-cap fuse | 0 -/
  noCap : Bool
  deriving DecidableEq, Repr

/-! ### Injections (18) -/

/-- Who started an injection (R530). -/
inductive InjOrigin where
  | none | command | proof | schedule
  deriving DecidableEq, Repr

/-- An entry of the injection log (R530). -/
structure InjLog where
  /-- [18 R530] BIT | 0 -/
  bit : BitVec 10
  /-- [18 R530] FORM, dry 1 | 0 -/
  dry : Bool
  /-- [18 R530] RESULT | 0 -/
  result : BitVec 3
  /-- [18 R530] ORIGIN | 0 -/
  origin : InjOrigin
  /-- [18 R530] INSTANCE | 0 -/
  inst : Byte
  /-- [18 R530] TIME | 0 -/
  time : Word
  /-- [18 R530] DETECT | 0 -/
  detect : BitVec 24
  deriving DecidableEq, Repr

/-- The injection unit (R516 to R530). -/
structure Inj where
  /-- [18 R530] INJ_STATUS.BUSY | 0 -/
  busy : Bool
  /-- [18 R530] RESTORING | 0 -/
  restoring : Bool
  /-- [18 R530] MISSED | 0 -/
  missed : Bool
  /-- [18 R530] CFG_ERR | 0 -/
  cfgErr : Bool
  /-- [18 R530] BIT | 0 -/
  bit : BitVec 10
  /-- [18 R530] FORM | 0 -/
  dry : Bool
  /-- [18 R530] HEAD | 0 -/
  head : Fin 16
  /-- [18 R530] COUNT | 0 -/
  count : BitVec 5
  /-- [18 R530] INJ_TARGET.INSTANCE | 0xFF -/
  target : Byte
  /-- [18 R530] INJ_SCHED.EN | 0 -/
  schedEn : Bool
  /-- [18 R530] INJ_SCHED.INTERVAL | 60 -/
  interval : BitVec 12
  /-- [18 R530] INJ_ACTIVE | 0 -/
  active : BitVec 64
  /-- [18 R530] INJ_PASS | 0 -/
  pass : BitVec 64
  /-- [18 R530] INJ_MISS | 0 -/
  miss : BitVec 64
  /-- [18 R530] log entries | 0 -/
  log : Vector InjLog 16
  /-- [18 R518] origin of the injection in progress | none -/
  origin : InjOrigin
  /-- [18 R518] the INJECT to complete | none -/
  hdr : Option CmdHdr
  /-- [18 R526] the bit after the one the schedule ran last | 0 DESIGN CHOICE (log 8) -/
  nextSched : Nat
  /-- [18 R526] a scheduled injection that fell due while another ran waits | false -/
  schedDue : Bool
  /-- [18 R518] INSTANCE of the injection in progress | 0 -/
  inst : Byte
  /-- [18 R518] house time at its start | 0 -/
  start : Nat
  /-- [18 R518] RESULT0 of R518 while it restores | 0 -/
  detect : BitVec 24
  /-- [18 R519] the injection's reaction is in force on the output stages | 0 -/
  held : Bool
  /-- [18 R519] the reaction stops LIVE_G | 0 -/
  stopG : Bool
  /-- [18 R519] the reaction stops LIVE_H | 0 -/
  stopH : Bool
  /-- [18 R519] channels whose GATE the reaction holds low | 0 -/
  gates : BitVec 8
  /-- [18 R526] house time from which the schedule's INTERVAL runs | 0 -/
  schedAt : Nat
  deriving DecidableEq, Repr

/-- One scheduled effect, in the order of fetch (03 R84, R85): the ring (0xFF: the automatic commit of R173), the tag and what it does. -/
structure Effect where
  /-- [03 R90] ring of the command, 0xFF automatic | - -/
  ring : Byte
  /-- [03 R90] TAG | - -/
  tag : BitVec 16
  /-- [03 R84] what takes effect at the boundary | - -/
  op : EffectOp
  deriving DecidableEq, Repr

/-- Everything the device holds but the OTP. -/
structure Dev where
  /-- [02 R40] host port | see HostPort -/
  hp : HostPort
  /-- [02 R44] interrupts | see Interrupts -/
  int : Interrupts
  /-- [02 R46] the Loft | see Loft -/
  loft : Loft
  /-- [03 R65] rings 0 to 31 | see Ring -/
  rings : Vector Ring 32
  /-- [03 R79] command ring served last at each PRIO | 0 DESIGN CHOICE (log 9) -/
  served : Vector (Fin 24) 4
  /-- [03 R82] regions | none -/
  regions : Vector (Option Region) 64
  /-- [03 R84] scheduled effects in fetch order | empty -/
  effects : List Effect
  /-- [03 R76] SYS_EVT_UNROUTED | 0 -/
  unrouted : BitVec 16
  /-- [03 R90] house time at which a rate-limited event was last raised, by code * 65536 + index | empty -/
  eventTimes : List (Nat × Nat)
  /-- [03 R74] the completion written last (the model's own view of it) | none -/
  lastCpl : Option Completion
  /-- [04 R91] Thatch cores, images | see Thatch -/
  thatch : Thatch
  /-- [06 R161] contexts, engines, runs | see Course -/
  course : Course
  /-- [07 R198] DSI receiver | see Vin -/
  vin : Vin
  /-- [08 R258] scan-out | see Scan -/
  scan : Scan
  /-- [09 R283] proving unit | see Proving -/
  prv : Proving
  /-- [10 R313] string channels | see StrChannel -/
  str : Vector StrChannel 8
  /-- [10 R314] thermal | see Thermal -/
  thm : Thermal
  /-- [11 R368] Gable | see Gbl -/
  gbl : Gbl
  /-- [11 R369] Ridge | see Rdg -/
  rdg : Rdg
  /-- [12 R388] Flashing | see Flash -/
  flash : Flash
  /-- [13 R391] the Soffit die | see Soffit -/
  soffit : Soffit
  /-- [13 R420] core side of the barrier | see Fld -/
  fld : Fld
  /-- [14 R437] trim | see Trim -/
  trim : Trim
  /-- [15 R468] modes, boot, resets, clocks | see Sys -/
  sys : Sys
  /-- [16 R494] roof and twin | see Roof -/
  roof : Roof
  /-- [17 R514] access, debug, TAP | see Acc -/
  acc : Acc
  /-- [18 R530] injections | see Inj -/
  inj : Inj
  /-- [01 R26] the always-on domain's time in microseconds (the model's own count) | 0 -/
  alwaysOn : Nat
  deriving DecidableEq, Repr

/-! ### Values at reset -/

def HostPort.reset : HostPort := { proto := 0, dummy := 8, flags := 0, errAddr := 0, out := [] }

def Interrupts.reset : Interrupts := { status := 0, enable := 0, ring := 0 }

def Loft.reset : Loft :=
  { cells := [], ue := [], ce := [], ceCount := 0, ueCount := 0, ueAddr := 0, ueValid := false,
    scrubPass := 0, scrubPos := 0, lastCeEvent := none }

/-- Ring `n` after RST_N (R66, R72): ring 24 selects every class. -/
def Ring.reset (n : Nat) : Ring :=
  { base := 0, cplBase := 0, log2 := 0, prod := 0, cons := 0, cplProd := 0, cplCons := 0, prio := 0,
    irqCount := 1, irqTime := 0, classMask := if n = 24 then 0x3FFF else 0, enabled := false, cfgErr := false,
    badIndex := false, overflow := false, stalled := false, drop := 0, unsignalled := 0, oldest := none,
    stopping := false, lost := 0, inService := none }

def Ring.resetAll : Vector Ring 32 := (Vector.replicate 32 (Ring.reset 0)).set 24 (Ring.reset 24)

def Flg.reset : Flg := { z := false, n := false, c := false, v := false, q := false }

/-- A core that has not started (R95). -/
def Core.reset : Core :=
  { s := Vector.replicate 32 0, pc := 0, flg := Flg.reset, rstack := [], lstack := [], tcause := 0, tpc := 0,
    tval := 0, cycle := 0, signat := 0, taskId := 0, tpend := 0, ttimer := 0, inHandler := false,
    mode := .stopped, dbgHalt := false, dbgStep := false }

def CoreMem.reset : CoreMem := { cells := [], ue := [] }

def Thatch.reset : Thatch :=
  { truss := Core.reset, gable := Core.reset, soffit := Core.reset, trussMem := CoreMem.reset,
    gableMem := CoreMem.reset, soffitMem := CoreMem.reset, trussImage := none, gableImage := none,
    soffitImage := none, gableWait := [], soffitWait := [], handles := Vector.replicate 64 none, imgCause := 0,
    imgProfile := 0, imgOffset := 0, draws := 0 }

def Stream.reset : Stream :=
  { desc := none, gen := 0, lost := false, bufs := Vector.replicate 3 .free, bufFrame := Vector.replicate 3 0,
    bufTime := Vector.replicate 3 0, frame := 0, bytes := 0, inFrame := none, started := false, since := 0,
    lastComplete := 0, cComplete := 0, cErrored := 0, cShort := 0, cLong := 0, cDropped := 0, cOverwritten := 0,
    cCrc := 0, cOrphan := 0 }

def Source.reset : Source := { desc := none, hold := none, repeats := 0 }

def Vin.reset : Vin :=
  { lanes := 0, en := false, dpol := 0, cpol := false, hs := false, burst := false, discard := false, ulps := false, cfgErr := false,
    eccCe := 0, eccUe := 0, sot := 0, unrouted := 0, streams := Vector.replicate 4 Stream.reset,
    sources := Vector.replicate 16 Source.reset }

def Context.reset : Context :=
  { state := .idle, ls := false, scause := 0, epoch := 0, rank := 0, engine := 0, slot := 0, slotValid := false,
    switchFrame := 0, handle := 0, entry := 0, src := 0, mask := 0, params := 0, regs := Vector.replicate 32 0,
    cycles := 0, tcause := 0, tpatch := 0, tframe := 0, tpc := 0, trapped := false, copy := none,
    moving := false, migration := none }

def Finish.reset : Finish := { handle := 0, entry := 0, params := 0 }

def Run.reset : Run :=
  { frame := 0, outFrame := false, patches := 0, done := 0, shared := [], own := Vector.replicate 8 [], contexts := [], excluded := [],
    finish := Finish.reset, sources := Vector.replicate 16 none, depth := 16, limit := 0xFFFFFF, finishTrap := false,
    cycles := Vector.replicate 64 0, rendered := Vector.replicate 8 0, busy := Vector.replicate 8 0 }

def Engine.reset : Engine :=
  { core := Core.reset, v := Vector.replicate 16 (Vector.replicate 16 0), p := Vector.replicate 8 0xFFFF,
    m := Vector.replicate 16 0, vidx := 0, svc := 0, fcause := 0, bistFail := false, bistFrame := 0, bistSig := 0,
    bistBusy := false, patches := 0, busy := 0, traps := 0, icache := [],
    slots := Vector.replicate 8 none, slotMem := Vector.replicate 8 [], work := none, drain := none }

def Course.reset : Course :=
  { ctx := Vector.replicate 64 Context.reset, eng := Vector.replicate 8 Engine.reset, finish := Finish.reset,
    latePolicy := false, autocommit := true, lateForce := false, autoForce := true, limit := 0xFFFFFF,
    run := Run.reset, active := false, late := false, lateRun := [], lateRuns := 0, dropped := 0, discard := 0 }

/-- A slot of R246. -/
def TMode.of (period : BitVec 24) (depth pwmper : BitVec 5) : TMode :=
  { period := period, depth := depth, pwmper := pwmper, div := 1, g := 8 }

/-- The eight slots of R246. -/
def TMode.table : Vector TMode 8 :=
  #v[TMode.of 4000000 16 4, TMode.of 3333333 16 4, TMode.of 1666667 16 2, TMode.of 833333 16 1,
    TMode.of 666667 16 1, TMode.of 416667 8 1, TMode.of 6666667 16 8, TMode.of 16666667 16 16]

def Tile.reset : Tile :=
  { x := 0, y := 0, ex := 0, ey := 0, present := false, desc := 0, temp := 0, vsup := 0, flags := 0, errs := 0,
    tempAge := none, side := none }

def ChainErr.reset : ChainErr := { capCrc := 0, length := 0, code := 0, missing := 0 }

def LaneOut.reset : LaneOut :=
  { codes := [], rd := false, busy := false, todo := [], next := 0, last := 0, crc := 0 }

def Scan.reset : Scan :=
  { split := false, state := 0, slot := 0, shadow := false, cfgErr := false, frame := 0, firstLat := true,
    lats := false, latFrom := 20000, latAt := 0, commitFrame := 0, cbufFrame := 0, pending := false, pbuf := false, cbuf := false,
    bitmap := Vector.replicate 2 0, srcFrame := Vector.replicate 2 0, xferSrc := 0, xferRepeat := false, underA := 0,
    underB := 0, late := 0, enumValid := false, enumBusy := false, enumCause := 0, enumTiles := 0, enumHash := 0,
    gridW := 0, gridH := 0, step := .done, e2 := [], e3 := [], tmode := TMode.table, change := none, xfer := none,
    light := none, judged := none, window := false, lanes := Vector.replicate 16 LaneOut.reset, chains := Vector.replicate 16 ChainErr.reset,
    tiles := Vector.replicate 128 Tile.reset }

def PrvTile.reset : PrvTile :=
  { dwl := 0, stuck := 0, unver := 0, mismatch := 0, unobs := false, unobserved := false, kept := false,
    failRun := 0, failCapped := false, failFrame := 0, passRun := 0 }

def PrvString.reset : PrvString :=
  { isOpen := false, stuckOn := false, onTested := false, offTested := false, provenOn := false,
    provenOff := false, fails := 0 }

def Proving.reset : Proving :=
  { freeze := false, frame := 0, valid := false, sumLit := 0, sumDark := 0, sumDwl := 0, sumStuck := 0,
    sumUnver := 0, sumNov := 0, mandMissing := 0, mandUnver := 0, emitSel := 0, records := [], sent := [], patchDwl := 0,
    patchStuck := 0, patchUnver := 0, lastUnver := 0, tiles := Vector.replicate 128 PrvTile.reset,
    quar := Vector.replicate 128 none, strings := Vector.replicate 8 PrvString.reset, liveThrough := false, liveJudged := false }

def StrChannel.reset : StrChannel :=
  { mode := 0, pwmsync := false, depth := 16, autoretry := false, insertGap := false, fswN := 2000, iref := 0,
    irefNow := 0, vset := 0, ov := 1200, uv := 0, pwmPeriod := 400000, pwmK := 1, duty := 0, dutyDue := 0,
    dutyNow := 0, state := 0, oc := false, short := false, ovFault := false, openFault := false, latched := false,
    cfgErr := false, retries := 0, failed := 0, sensed := [], vsn := 0, derate := 0x10000, derateNow := 0x10000, gate := false,
    cycleOn := 0, rampFrom := 0, loopDraws := 0, armed := false, ocRun := 0, ovHold := false, ovSpans := [], lowSince := none,
    lastRetry := none, retryDue := none, faultAt := 0, periodStart := 0, periodsLeft := 0, gapNow := false,
    regThrough := false, regJudged := false, gap := false, lowFor := 0 }

def Ntc.reset : Ntc :=
  { en := false, table := false, global := false, otkill := false, chmask := 0, knee := 0x0460, limit := 0x0640,
    fmin := 0x8000, ot := 0x0690, temp := 0, code := 0, valid := false, isOpen := false, isShort := false,
    openRun := 0, shortRun := 0, overTemp := false }

def Thermal.reset : Thermal :=
  { ntc := Vector.replicate 6 Ntc.reset, tileKnee := 0x0460, tileLimit := 0x0640, tileFmin := 0x8000,
    tileOt := 0x0690, drtAddr := 0, drtEn := false, drtFirst := false, tileFactor := Vector.replicate 128 0x10000,
    below := false, tileHot := 0, tileStale := 0, dieTemp := 0, dieMax := 0, dieWarn := 0x0960, warned := false,
    cfgErr := false, lut := Vector.replicate 2 (Vector.replicate 33 0), shutdownEvent := false }

def EncAxis.reset : EncAxis := { last := none, prev := none, bad := 0, fault := false }

def Gbl.reset : Gbl :=
  { cfg := none, hbt := false, hbtHeld := false, hbtMiss := 0, lost := 0, held := false, restarted := false, zoneSet := 0,
    degCause := 0, holdCause := 0, tdegEnd := none, demand := 0, sf2Latch := false, inh := 0, keptKill := 0,
    unobsKill := 0, killed := 0, restarts := 0, entries := [], sf3 := false, sf3Since := 0, sf3Reported := [], lostAt := 0, live := none,
    resetWindow := none, liveFault := false, published := false, epoch := 0, epochTime := 0,
    logArea := none }

def Rdg.reset : Rdg :=
  { fault := 0, block := false, deg := .none, fromService := false, okMaps := 0, disc := false, discRun := 0,
    agreeRun := 0, mapFrame := 0, mapBuf := false, mapZoneSet := 0, mapDue := none, missRun := 0, missTotal := 0, missTicks := 0,
    tickResult := none, mismatch := 0, pub := none, tickFrame := 0, tickTime := 0, buffers := Vector.replicate 2 [],
    staticMap := [], staticLen := 0, parityErr := [], cellParity := [], memParity := false, blockA := 0, rungA := 0, blockB := 0, rungB := 0, xchkCell := 0,
    xchkCount := 0, inh := 0, kill := 0, keptKill := 0, unobsKill := 0, killed := 0, demand := 0, live := none,
    enc := Vector.replicate 4 EncAxis.reset }

def FlashConn.reset : FlashConn :=
  { state := .unused, stop := false, gen := 0, seq := 0, since := 0, lastAccept := none, echoOwed := false, sentAt := none,
    statusSent := [], ts := 0, txSeq := 0,
    txLast := 0, txGen := 0, crc := 0, seqErr := 0, format := 0, dup := 0, timeouts := 0, rtt := 0, maxGap := 0 }

def Flash.reset : Flash :=
  { conns := Vector.replicate 8 FlashConn.reset, ident := 0, nocfg := 0, roofStop := false }

def FieldIn.reset : FieldIn :=
  { raw := .off, filtered := .off, candidate := .off, count := 0, hold := false, cross := false, good := 0,
    seenOff := false, seenOn := false, passed := false, due := 0 }

def FieldOut.reset : FieldOut :=
  { cmd := false, on := false, readback := false, fault := none, cooled := true, movedAt := 0, limitSince := none,
    testedAt := 0 }

def Soffit.reset : Soffit :=
  { powered := false, cfg := none, cfgWords := 0, cfgData := 0, rxCnt := 0, rxAny := true, txCnt := 0,
    silenced := false, safeState := false, us := 0, rxAt := 0, upRd := false, ms := 0, lplus := 0, lowTimer := none,
    missTimer := none, inputs := Vector.replicate 8 FieldIn.reset,
    pairs := Vector.replicate 4 { disc := false, since := none }, outputs := Vector.replicate 8 FieldOut.reset,
    test := none, tests := [], faultKind := 0, faultIndex := 0, crossMask := 0, done := 0, aborted := 0,
    payload := [], appended := [] }

def Fld.reset : Fld :=
  { header := none, words := [], txCnt := 0, down := [], downRd := false, up := [], rxAt := 0, extra := [], rxCnt := 0, rxAny := true,
    rxOk := false, cfgOk := false, silenced := false, w := Vector.replicate 6 0, rxErr := 0, dropped := 0, done := 0,
    aborted := 0, dqOn := 0, dqClear := 0, douserStep := 0,
    douserAt := 0 }

def Trim.reset : Trim :=
  { applied := Vector.ofFn Config.factoryTrim, shadow := Vector.ofFn Config.factoryTrim, dt := 8, timeout := 10,
    running := false, queued := [], cfgErr := false, lastEnd := 0, rres := 0, failDac := 0, count := 0, gen := 0,
    lastTime := 0, lastTemp := Config.factoryTemp, pend := 0, stale := 0, deferred := 0, aborted := 0, trigger := 0,
    steps := 0, startTime := 0, startTemp := 0, deferredRun := 0, active := 0,
    began := Vector.replicate 48 0 }

def ResetHold.none : ResetHold := { rstN := false, thermal := false, truss := false, brown := false, ridge := false }

def Sys.reset : Sys :=
  { mode := .boot, prev := .off, pending := none, modeFrame := 0, trimFromArmed := false, retFromArmed := false,
    proofDone := false, proofFail := false, proofBusy := false, proofStep := 0, proofAge := 0xFFFF, proofStart := 0,
    proofMaps := 0, proofTests := 0, proofPassed := false, proofLive := 0, role := 0, bootsel := false, refused := false,
    attempts := 0, bootLast := 0, window := 0, attemptOpen := true, historyOwed := false, recordOwed := false,
    recordWord := 0, recordTrap := 0, historyWord := 0, cause := 0, long := false, duration := 0, resets := 0,
    trapCause := 0, trapTpc := 0, lock := false, lockTries := 0, lockRetry := false, htime := 0, htimeHi := 0,
    retStart := 0, retMs := 0, wakeRec := Vector.replicate 16 0, hold := ResetHold.none, resetCause := none, lowTime := 0,
    rstAt := 0, haltAt := 0, ridgeAt := 0, lockDue := none, attemptAt := 0, stbyAt := 0,
    vstby := true, rails := true, stbyOut := false }

def WorkerView.reset : WorkerView :=
  { present := false, ok := false, lost := false, mode := 0, live := false, cfg := false, degCause := 0, holdCause := 0,
    frame := 0, attempts := 0, proofDone := false, seenAt := 0 }

/-- The ROOF_ registers after RST_N for a ROLE strap (16 R494). -/
def Roof.reset (role : BitVec 2) : Roof :=
  { position := 0, posValid := false, workers := 0, ringUp := false, formed := false, marks := false, flywheel := false,
    holding := false, peerOk := false, driving := false, genlocked := false, cfgErr := false, frame := 0,
    twin := role == 1, autoyield := true, relay := role == 2, evtrelay := role == 2, rtt := 0, cable := 0,
    bootAddr := 0, bootLen := 0, linkCrc := 0, linkCode := 0, markMiss := 0, retryFail := 0, peerFrame := 0,
    peerSlot := 0, peerDriving := false, peerHealth := 0, misses := 0, badWords := 0,
    worker := Vector.replicate 8 WorkerView.reset, out := [], fwd := [], tx := ([], []), txRd := (false, false), relayQueue := [], unacked := [], seq := Vector.replicate 12 0,
    offset := 0, markRun := 0, returnRun := 0, marksOut := [], markAt := 0, markPeriod := 0, markLat := 0, markMht := 0, trainAt := 0,
    statusAt := 0, syncAt := 0, missRun := 0, markTwin := false, slotMismatch := false,
    nextMark := none, yieldHold := 0, restartStream := 0, reenum := none,
    bootGot := 0, mark := ([], []), sync := [] }

def Acc.reset : Acc :=
  { level := 0, method := false, timeout := 30, lapse := none, result := 0, cfgErr := false, lastPath := false,
    pwFail := 0, crFail := 0, pwUntil := 0, crUntil := 0, nonce := 0, nonceAt := none, draws := 0, resp := 0,
    pw := 0, progAddr := 0, attached := false, attachPending := false, refused := 0, refusals := 0, dbgData := 0,
    jtag := .idcode, tdr := 0, tir := 1, captured := [], boundary := [] }

def KeySlot.empty : KeySlot := { programmed := false, revoked := false, mask := 0, hash := 0 }

def PwSlot.empty : PwSlot := { programmed := false, revoked := false, level := 0, salt := 0, tag := 0 }

/-- OTP as a production part leaves the factory (17 R511, R512). -/
def Otp.shipped : Otp :=
  { keys := #v[{ programmed := true, revoked := false, mask := 1, hash := Config.erdeukKey }, KeySlot.empty,
      KeySlot.empty, KeySlot.empty],
    pws := Vector.replicate 4 PwSlot.empty, fuses := 0, counter := 0, engSample := false, noCap := false }

def InjLog.reset : InjLog := { bit := 0, dry := false, result := 0, origin := .none, inst := 0, time := 0, detect := 0 }

def Inj.reset : Inj :=
  { busy := false, restoring := false, missed := false, cfgErr := false, bit := 0, dry := false, head := 0,
    count := 0, target := 0xFF, schedEn := false, interval := 60, active := 0, pass := 0, miss := 0,
    log := Vector.replicate 16 InjLog.reset, origin := .none, hdr := none, nextSched := 0, schedDue := false, inst := 0, start := 0, detect := 0, held := false,
    stopG := false, stopH := false, gates := 0, schedAt := 0 }


/-- Every block at its reset value, in BOOT. -/
def Dev.reset : Dev :=
  { hp := HostPort.reset, int := Interrupts.reset, loft := Loft.reset, rings := Ring.resetAll, served := Vector.replicate 4 0,
    regions := Vector.replicate 64 none, effects := [], unrouted := 0, eventTimes := [], lastCpl := none,
    thatch := Thatch.reset, course := Course.reset, vin := Vin.reset, scan := Scan.reset, prv := Proving.reset,
    str := Vector.replicate 8 StrChannel.reset, thm := Thermal.reset, gbl := Gbl.reset, rdg := Rdg.reset,
    flash := Flash.reset, soffit := { Soffit.reset with powered := true }, fld := Fld.reset, trim := Trim.reset, sys := Sys.reset,
    roof := Roof.reset 0, acc := Acc.reset, inj := Inj.reset, alwaysOn := 0 }

end Sys2Proof.Machine
end

