-- ==== Sys2Proof/Machine/Ops.lean ====
section
/-! DEFINITION. The named operations over the state that every command shares: bytes and fields, the Loft with its
error correction, rings, interrupts, events and completions. -/

namespace Sys2Proof.Machine

open Sys2Proof

/-! ### Sparse tables in canonical form -/

/-- The cell at `a`; an unlisted one is 0. -/
def cellGet {w : Nat} : Cells w → Nat → BitVec w
  | [], _ => 0
  | (k, v) :: r, a => if a = k then v else if a < k then 0 else cellGet r a

/-- The table with `x` at `a`, in canonical form when it was. -/
def cellSet {w : Nat} : Cells w → Nat → BitVec w → Cells w
  | [], a, x => if x = 0 then [] else [(a, x)]
  | (k, v) :: r, a, x =>
    if a < k then (if x = 0 then (k, v) :: r else (a, x) :: (k, v) :: r)
    else if a = k then (if x = 0 then r else (a, x) :: r)
    else (k, v) :: cellSet r a x

/-- Keys strictly rising above `lo` and no listed cell equal to 0. -/
def cellWfFrom {w : Nat} : Nat → Cells w → Bool
  | _, [] => true
  | lo, (k, v) :: r => decide (lo ≤ k) && decide (v ≠ 0) && cellWfFrom (k + 1) r

/-- The canonical form of a sparse table. -/
def cellWf {w : Nat} (t : Cells w) : Bool := cellWfFrom 0 t

/-- The canonical form of a byte memory. -/
def Memory.wf (m : Mem) : Bool := cellWf m

/-- `n` bytes from `a` upward. -/
def readBytes (m : Mem) (a : Nat) : Nat → List Byte
  | 0 => []
  | n + 1 => cellGet m a :: readBytes m (a + 1) n

/-- The bytes `bs` written from `a` upward. -/
def writeBytes (m : Mem) (a : Nat) : List Byte → Mem
  | [] => m
  | b :: bs => writeBytes (cellSet m a b) (a + 1) bs

/-! ### Numbers and bytes -/

/-- The number that bytes spell, the first the least significant. -/
def leNat : List Byte → Nat
  | [] => 0
  | b :: bs => b.toNat + 256 * leNat bs

/-- The number that bytes spell, the first the most significant. -/
def beNat (bs : List Byte) : Nat := bs.foldl (fun n b => n * 256 + b.toNat) 0

/-- The low `n` bytes of `x`, least significant first. -/
def leBytes (x : Nat) : Nat → List Byte
  | 0 => []
  | n + 1 => BitVec.ofNat 8 x :: leBytes (x / 256) n

/-- Little-endian 32-bit word at `a`. -/
def read32 (m : Mem) (a : Nat) : Word := BitVec.ofNat 32 (leNat (readBytes m a 4))

/-- Little-endian 16-bit word at `a`. -/
def read16 (m : Mem) (a : Nat) : Half := BitVec.ofNat 16 (leNat (readBytes m a 2))

/-- A count that saturates at its greatest value. -/
def satInc {w : Nat} (x : BitVec w) : BitVec w := if x = BitVec.allOnes w then x else x + 1

/-- A count advanced by `n` that saturates at its greatest value. -/
def satAdd {w : Nat} (x : BitVec w) (n : Nat) : BitVec w :=
  if x.toNat + n < 2 ^ w then BitVec.ofNat w (x.toNat + n) else BitVec.allOnes w

/-- A field of a register word: `x` at bits from `lsb` upward. -/
def fld {w : Nat} (lsb : Nat) (x : BitVec w) : Word := x.setWidth 32 <<< lsb

/-- A one-bit field. -/
def bit (i : Nat) (b : Bool) : Word := if b then (1 : Word) <<< i else 0

/-- A 64-bit event payload from fields. -/
def pay {w : Nat} (lsb : Nat) (x : BitVec w) : BitVec 64 := x.setWidth 64 <<< lsb

/-- A payload field given as a number. -/
def payN (lsb n : Nat) : BitVec 64 := BitVec.ofNat 64 n <<< lsb

/-- A vector of bits with bit `i` set to `b`. -/
def setBit {w : Nat} (x : BitVec w) (i : Nat) (b : Bool) : BitVec w :=
  if b then x ||| ((1 : BitVec w) <<< i) else x &&& ~~~((1 : BitVec w) <<< i)

/-- The numbers below `n`, in rising order. -/
def upTo : Nat → List Nat
  | 0 => []
  | n + 1 => upTo n ++ [n]

/-- The indices of the set bits of `x`, in rising order. -/
def bitsOf {w : Nat} (x : BitVec w) : List Nat := (upTo w).filter fun i => x.getLsbD i

/-- How many bits of `x` are set. -/
def popcount {w : Nat} (x : BitVec w) : Nat := (bitsOf x).length

/-- The field of `len` bits from `lsb` of a long bit vector. -/
def slice {w : Nat} (x : BitVec w) (lsb len : Nat) : BitVec len := x.extractLsb' lsb len

/-- Byte `k` of a section held as a bit vector. -/
def byteAt {w : Nat} (x : BitVec w) (k : Nat) : Byte := x.extractLsb' (8 * k) 8

/-- The 16-bit little-endian field at byte `k`. -/
def half16 {w : Nat} (x : BitVec w) (k : Nat) : Half := x.extractLsb' (8 * k) 16

/-- The 32-bit little-endian field at byte `k`. -/
def word32 {w : Nat} (x : BitVec w) (k : Nat) : Word := x.extractLsb' (8 * k) 32

/-- A bit vector whose byte `k` is the `k`-th byte of the list. -/
def packBytes (w : Nat) (bs : List Byte) : BitVec w := BitVec.ofNat w (leNat bs)

/-- `v` with entry `i` changed by `f`. -/
def upd {α : Type} {n : Nat} (v : Vector α n) (i : Fin n) (f : α → α) : Vector α n := v.set i (f v[i])

/-- `v` with entry `i` changed by `f` where `i` is in range. -/
def updN {α : Type} {n : Nat} (v : Vector α n) (i : Nat) (f : α → α) : Vector α n :=
  if h : i < n then v.set i (f v[i]) else v

/-- Entry `i`, or `d` out of range. -/
def getN {α : Type} {n : Nat} (v : Vector α n) (i : Nat) (d : α) : α := if h : i < n then v[i] else d

/-! ### Time -/

/-- House time in microseconds (01 R27). -/
def Dev.now (d : Dev) : Nat := d.sys.htime.toNat

/-! ### Interrupts (02 R44, R45) -/

/-- SYS_INT_STATUS bit `i` set. -/
def Dev.interrupt (d : Dev) (i : Nat) : Dev :=
  { d with int := { d.int with status := setBit d.int.status i true } }

/-- HP_INT_N: low while a bit is 1 in both registers, and high while RST_N is low (R44). -/
def Dev.intN (d : Dev) : Bool := d.sys.hold.rstN || (d.int.status &&& d.int.enable) == 0

/-! ### Rings (03) -/

/-- Ring `n` changed by `f`. -/
def Dev.ring (d : Dev) (n : Nat) (f : Ring → Ring) : Dev := { d with rings := updN d.rings n f }

/-- Ring `n`'s registers. -/
def Dev.ringAt (d : Dev) (n : Nat) : Ring := getN d.rings n (Ring.reset 0)

/-- Entry size of ring `n` (R65). -/
def entrySize (n : Nat) : Nat := if n < 24 then 32 else if n < 28 then 16 else 64

/-- The entries a ring holds (R69). -/
def Ring.held (r : Ring) : Nat := (r.prod - r.cons).toNat

/-- 2 ^ LOG2 (R66). -/
def Ring.entries (r : Ring) : Nat := 2 ^ r.log2.toNat

/-- The completions of a command ring that the host has not freed. -/
def Ring.cplHeld (r : Ring) : Nat := (r.cplProd - r.cplCons).toNat

/-- The SYS_INT_STATUS bit of a ring's role (R71). -/
def ringIntBit (n : Nat) : Nat := if n < 24 then 0 else if n < 28 then 1 else if n < 30 then 2 else 3

/-- Ring `n` signals (R71, R45). -/
def Dev.signalRing (d : Dev) (n : Nat) : Dev :=
  let d := d.ring n fun r => { r with unsignalled := 0, oldest := none }
  Dev.interrupt { d with int := { d.int with ring := setBit d.int.ring n true } } (ringIntBit n)

/-- The device has written one entry that ring `n` has not signalled yet (R71). -/
def Dev.noteWrite (d : Dev) (n : Nat) : Dev :=
  let d := d.ring n fun r =>
    { r with unsignalled := r.unsignalled + 1, oldest := some (r.oldest.getD d.now) }
  let r := d.ringAt n
  if r.irqCount ≠ 0 ∧ r.irqCount.toNat ≤ r.unsignalled then d.signalRing n else d

/-! ### The Loft (02 R54 to R61) -/

/-- Loft bytes as stored. -/
def Dev.loftBytes (d : Dev) (a n : Nat) : List Byte := readBytes d.loft.cells a n

/-- Whether a read of `n` bytes at `a` meets a word with an uncorrectable error (R58). -/
def Dev.loftUe (d : Dev) (a n : Nat) : Bool :=
  d.loft.ue.any fun w => decide (8 * w < a + n) && decide (a < 8 * w + 8) && decide (0 < n)

/-- The 8-byte words that a range of bytes covers whole. -/
def coversWord (a n w : Nat) : Bool := decide (a ≤ 8 * w) && decide (8 * w + 8 ≤ a + n)

/-- Whether a range of bytes touches word `w`. -/
def touchesWord (a n w : Nat) : Bool := decide (8 * w < a + n) && decide (a < 8 * w + 8) && decide (0 < n)

/-- The bytes `bs` stored in the Loft from `a` (R55, R59): a word written whole loses its error marks, a partial write
keeps an uncorrectable mark. -/
def Dev.loftPut (d : Dev) (a : Nat) (bs : List Byte) : Dev :=
  { d with loft := { d.loft with
      cells := writeBytes d.loft.cells a bs,
      ue := d.loft.ue.filter fun w => !coversWord a bs.length w,
      ce := d.loft.ce.filter fun w => !touchesWord a bs.length w } }

/-! ### Events (03 R75, R76, R88) -/

/-- An event entry (R75). -/
def eventEntry (code : BitVec 16) (time : Nat) (payload : BitVec 64) : List Byte :=
  leBytes code.toNat 2 ++ leBytes time 6 ++ leBytes payload.toNat 8

/-- One entry put into a device-produced ring in service, or dropped when it is full (R70, R88). An entry fills whole
8-byte words (R65, R66). (DEDUCED, log 99) -/
def Dev.putEntry (d : Dev) (n : Nat) (e : List Byte) : Dev :=
  let r := d.ringAt n
  if r.enabled && !r.stopping then
    if r.held < r.entries then
      let d := d.loftPut (r.base.toNat + entrySize n * (r.prod.toNat % r.entries)) e
      (d.ring n fun r => { r with prod := r.prod + 1 }).noteWrite n
    else d.ring n fun r => { r with drop := satInc r.drop, overflow := true, lost := r.lost + 1 }
  else d

/-- Whether event ring `n` is in service and selects class `c` (R66, R76). (DEDUCED, log 99) -/
def Dev.selects (d : Dev) (n c : Nat) : Bool :=
  let r := d.ringAt n
  r.enabled && !r.stopping && decide (1 ≤ c) && r.classMask.getLsbD (c - 1)

/-- The event rings (R65). -/
def eventRings : List Nat := [24, 25, 26, 27]

/-- The priority with which a device's own cells go out (16 R475). -/
def cellRank (kind : Byte) : Nat :=
  if kind = 4 then 0 else if kind = 3 then 1 else if kind = 2 then 2 else if kind = 7 then 3 else if kind = 8 then 4
  else if kind = 0x0B then 5 else if kind = 9 ∨ kind = 0x0A then 6 else if kind = 5 ∨ kind = 6 then 7 else 8

/-- A cell inserted behind the cells of its own or a higher priority. -/
def insertCell (c : PCell) : List PCell → List PCell
  | [] => [c]
  | x :: r => if cellRank c.kind < cellRank x.kind then c :: x :: r else x :: insertCell c r

/-- The cell types whose delivery is acknowledged (16 R474). -/
def acked (kind : Byte) : Bool := kind == 6 || kind == 8 || kind == 9 || kind == 0x0A || kind == 0x0B

/-- A cell of this device queued on PL_TX; an acknowledged one is kept until its ACK (16 R474, R475). -/
def Dev.sendCell (d : Dev) (kind dst : Byte) (payload : List Byte) : Dev :=
  let seq := getN d.roof.seq kind.toNat 0
  let c : PCell := { kind := kind, dst := dst, src := d.roof.position.setWidth 8, seq := seq, payload := payload }
  { d with roof := { d.roof with
      seq := updN d.roof.seq kind.toNat (· + 1),
      out := insertCell c d.roof.out,
      unacked := if acked kind then d.roof.unacked ++ [(c, 0, d.now)] else d.roof.unacked } }

/-- A ring 31 entry (16 R483). -/
def relayEntry (kind : Nat) (src : Byte) (tag : BitVec 16) (addr : Word) (info : Byte) (body : List Byte) : List Byte :=
  [BitVec.ofNat 8 kind, src] ++ leBytes tag.toNat 2 ++ leBytes addr.toNat 4 ++ [info] ++ List.replicate 7 0 ++
    (body ++ List.replicate (48 - body.length) 0)

/-- The rings whose lost entries event 0x0201 reports (R88). -/
def reportRings : List Nat := [24, 25, 26, 27, 29, 31]

/-- Ring `n` has lost entries and has space again (R88). -/
def Dev.dropDue (d : Dev) (n : Nat) : Bool :=
  let r := d.ringAt n
  r.enabled && decide (0 < r.lost) && decide (r.held < r.entries)

/-- An event entry of class `c` put into the event rings `dest`; counted as unrouted when there is none that selects it, and
relayed to the manager by a worker with EVTRELAY (R76, 16 R484). -/
def Dev.routeEntry (d : Dev) (dest : List Nat) (routed : Bool) (e : List Byte) : Dev :=
  let d := dest.foldl (fun d m => d.putEntry m e) d
  let d := if routed then d else { d with unrouted := satInc d.unrouted }
  if d.roof.evtrelay && d.sys.role == 2 then
    d.sendCell 0x0A 0 (relayEntry 2 (d.roof.position.setWidth 8) 0 0 0 e)
  else d

/-- The event rings that event 0x0201 about ring `n` goes to: every one that selects class 0x02 (R76, R88). -/
def Dev.dropRings (d : Dev) : List Nat := eventRings.filter fun m => d.selects m 2

/-- Event 0x0201 about each ring that lost entries and has space again (R88): about an event ring that selects class 0x02
first to that ring itself, before any other entry is written to it; then each to the other event rings that select
the class, and never to the ring it concerns otherwise. -/
def Dev.reportDrops (d : Dev) : Dev :=
  let due := reportRings.filter d.dropDue
  let entry (n : Nat) : List Byte := eventEntry 0x0201 d.now (payN 0 n ||| payN 16 (min (d.ringAt n).lost 0xFFFF))
  let dest := d.dropRings
  let own := due.filter dest.contains
  let x := due.foldl (fun x n => x.ring n fun r => { r with lost := 0 }) d
  let x := own.foldl (fun x n => x.putEntry n (entry n)) x
  due.foldl (fun x n => x.routeEntry (dest.filter (· != n)) (!dest.isEmpty) (entry n)) x

/-- An event (R75, R76): to every event ring in service that selects its class, counted as unrouted when there is none,
and relayed to the manager by a worker with EVTRELAY (16 R484). What a ring lost before is reported first (R88). -/
def Dev.event (d : Dev) (code : BitVec 16) (payload : BitVec 64) : Dev :=
  let d := d.reportDrops
  let dest := eventRings.filter fun m => d.selects m (code.toNat / 256)
  d.routeEntry dest (!dest.isEmpty) (eventEntry code d.now payload)

/-- The value stored under a key in an association list. -/
def lookupN (l : List (Nat × Nat)) (k : Nat) : Option Nat := (l.find? fun p => p.1 == k).map (·.2)

/-- An event that rises at most once in `gap` microseconds for each `index`. -/
def Dev.eventLimited (d : Dev) (code : BitVec 16) (index gap : Nat) (payload : BitVec 64) : Dev :=
  let k := code.toNat * 65536 + index
  let ready := match lookupN d.eventTimes k with
    | none => true
    | some t => decide (t + gap ≤ d.now)
  if ready then
    Dev.event { d with eventTimes := (k, d.now) :: d.eventTimes.filter fun p => p.1 != k } code payload
  else d

/-! ### Loft reads with error correction (02 R57, R58) -/

/-- One double-bit error reported (R58). -/
def Dev.reportUe (d : Dev) (w : Nat) : Dev :=
  let d := { d with loft := { d.loft with
    ueCount := satInc d.loft.ueCount, ueAddr := BitVec.ofNat 25 (8 * w), ueValid := true } }
  (d.interrupt 6).event 0x0111 (payN 0 (8 * w))

/-- One single-bit error corrected (R57): counted, and event 0x0110 at most once per second. -/
def Dev.correctCe (d : Dev) (w : Nat) : Dev :=
  let d := { d with loft := { d.loft with ce := d.loft.ce.filter (· != w), ceCount := satInc d.loft.ceCount } }
  match d.loft.lastCeEvent with
  | none => ({ d with loft := { d.loft with lastCeEvent := some d.now } }).event 0x0110 (pay 0 d.loft.ceCount)
  | some t =>
    if t + 1000000 ≤ d.now then
      ({ d with loft := { d.loft with lastCeEvent := some d.now } }).event 0x0110 (pay 0 d.loft.ceCount)
    else d

/-- The bytes `bs` written to the Loft from `a` (R55, R57, R59): a word of which they cover a part is read, corrected and
written back. -/
def Dev.loftWrite (d : Dev) (a : Nat) (bs : List Byte) : Dev :=
  ((d.loft.ce.filter fun w => touchesWord a bs.length w && !coversWord a bs.length w).foldl Dev.correctCe d).loftPut a bs

/-- Bytes with their addresses, as runs at consecutive addresses. (DEDUCED, log 23) -/
def byteRuns : List (Nat × Byte) → List (Nat × List Byte)
  | [] => []
  | (a, b) :: r => match byteRuns r with
    | [] => [(a, [b])]
    | (k, bs) :: t => if k = a + 1 then (a, b :: bs) :: t else (a, [b]) :: (k, bs) :: t

/-- Bytes written together to the Loft: each run at consecutive addresses is one write (R59). (DEDUCED, log 23) -/
def Dev.loftWriteAll (d : Dev) (bs : List (Nat × Byte)) : Dev := (byteRuns bs).foldl (fun d r => d.loftWrite r.1 r.2) d

/-- What reading `n` bytes at `a` does to the Loft's error state (R57, R58). -/
def Dev.loftTouch (d : Dev) (a n : Nat) : Dev :=
  let ce := d.loft.ce.filter (touchesWord a n)
  let ue := d.loft.ue.filter (touchesWord a n)
  ue.foldl Dev.reportUe (ce.foldl Dev.correctCe d)

/-! ### Completions (03 R70, R71, R74) -/

/-- The order of R77's table, by which Config.statusCode names a status. -/
def CmdStatus.rank : CmdStatus → Nat
  | .badOpcode => 1 | .denied => 2 | .wrongMode => 3 | .noopZero => 4 | .badArg => 5 | .busy => 6
  | .authFail => 7 | .fault => 8 | .ok => 9 | .deferred => 10

/-- A completion entry (R74). -/
def Completion.bytes (c : Completion) : List Byte :=
  leBytes c.tag.toNat 2 ++ [Config.statusCode c.status.rank, c.opcode] ++ leBytes c.index.toNat 2 ++
    [BitVec.ofNat 8 c.ring.val, 0] ++ leBytes c.result0.toNat 4 ++ leBytes c.result1.toNat 4

/-- A completion written (R70, R74): to the completion area of its ring in service, or up to the manager when the
command was relayed to ring 23 of a worker (16 R484). -/
def Dev.complete (d : Dev) (h : CmdHdr) (opcode : Byte) (st : CmdStatus) (r0 r1 : Word) : Dev :=
  let c : Completion := { tag := h.tag, status := st, opcode := opcode, index := h.index, ring := h.ring,
                          result0 := r0, result1 := r1 }
  let d := { d with lastCpl := some c }
  let r := d.rings[h.ring.val]
  if h.ring = 23 ∧ d.roof.relay = true ∧ d.sys.role = 2 then
    d.sendCell 0x0A 0 (relayEntry 1 (d.roof.position.setWidth 8) h.tag 0 0 c.bytes)
  else if r.enabled then
    let d := d.loftPut (r.cplBase.toNat + 16 * (r.cplProd.toNat % r.entries)) c.bytes
    let d := (d.ring h.ring.val fun r => { r with cplProd := r.cplProd + 1 }).noteWrite h.ring.val
    if h.irq then d.signalRing h.ring.val else d
  else d

/-- VIN_STATUS.STOP (07 R216): while the receiver is on, the data lanes are in the stop state outside bursts and the
ultra-low-power state. (DEDUCED, log 71) -/
def Vin.stop (v : Vin) : Bool := v.en && !v.burst && !v.ulps

end Sys2Proof.Machine
end

