-- ==== Sys2Proof/Machine/Array.lean ====
section
/-! DEFINITION. The enumerated array: tiles, word indices, the emitter grid, patches, cells and chains
(08 R222, R228, R234, R239 to R243, 11 R323). -/

namespace Sys2Proof.Machine

open Sys2Proof

/-- Descriptor fields (08 R239). -/
def descAcross (x : BitVec 512) : Nat := (half16 x 2).toNat
def descDown (x : BitVec 512) : Nat := (half16 x 4).toNat
def descEps (x : BitVec 512) : Nat := (byteAt x 6).toNat
def descDmin (x : BitVec 512) : Nat := (byteAt x 7).toNat
def descDmax (x : BitVec 512) : Nat := (byteAt x 8).toNat
def descPmax (x : BitVec 512) : Nat := (byteAt x 9).toNat
def descTdiag (x : BitVec 512) : Nat := (half16 x 10).toNat
def descFlags (x : BitVec 512) : Byte := byteAt x 12
def descDual (x : BitVec 512) : Bool := (descFlags x).getLsbD 0
def descMinDiv (x : BitVec 512) : Nat := ((descFlags x).toNat / 4) % 4
def descId (x : BitVec 512) : Word := word32 x 16

/-- Width of a tile in the emitter grid (R239). -/
def descWidth (x : BitVec 512) : Nat := descAcross x * descEps x

/-- Emitters of a tile (R239). -/
def descEmitters (x : BitVec 512) : Nat := descWidth x * descDown x

def Tile.width (t : Tile) : Nat := descWidth t.desc
def Tile.height (t : Tile) : Nat := descDown t.desc
def Tile.emitters (t : Tile) : Nat := descEmitters t.desc
def Tile.id (t : Tile) : Word := descId t.desc

/-- Tile ordinal `t`. -/
def Scan.tile (s : Scan) (t : Nat) : Tile := getN s.tiles t Tile.reset

/-- The present tiles of the array in force, in ordinal order. -/
def Scan.present (s : Scan) : List Nat :=
  if s.enumValid then (upTo 128).filter fun t => (s.tile t).present else []

/-- Emitters of the array in force. -/
def Scan.emitters (s : Scan) : Nat := (s.present.map fun t => (s.tile t).emitters).sum

/-- B_t: the word index of tile `t`'s first word (R242). -/
def Scan.base (s : Scan) (t : Nat) : Nat :=
  ((s.present.filter fun u => decide (u < t)).map fun u => (s.tile u).emitters).sum

/-- The tile in a list of present tiles, and the offset in it, that hold the `n`-th word. -/
def locateIn (s : Scan) : List Nat → Nat → Option (Nat × Nat)
  | [], _ => none
  | t :: r, n => let e := (s.tile t).emitters; if n < e then some (t, n) else locateIn s r (n - e)

/-- The tile and the offset in it of word index `n` (R242). -/
def Scan.locate (s : Scan) (n : Nat) : Option (Nat × Nat) := locateIn s s.present n

/-- The emitter-grid place of offset `k` in tile `t` (R228, R241). -/
def Scan.placeIn (s : Scan) (t k : Nat) : Nat × Nat :=
  let u := s.tile t
  (u.ex.toNat + k % u.width, u.ey.toNat + k / u.width)

/-- Whether tile `t` covers grid place `(x, y)`. -/
def Scan.covers (s : Scan) (t x y : Nat) : Bool :=
  let u := s.tile t
  decide (u.ex.toNat ≤ x) && decide (x < u.ex.toNat + u.width) && decide (u.ey.toNat ≤ y) &&
    decide (y < u.ey.toNat + u.height)

/-- The word index of the emitter at grid place `(x, y)`; none where no emitter is valid (R241, R242). -/
def Scan.indexAt (s : Scan) (x y : Nat) : Option Nat :=
  (s.present.find? fun t => s.covers t x y).map fun t =>
    let u := s.tile t
    s.base t + (y - u.ey.toNat) * u.width + (x - u.ex.toNat)

/-- Patch columns of the grid (R243). -/
def Scan.patchCols (s : Scan) : Nat := (s.gridW.toNat + 63) / 64

/-- The patch number of a grid place (R243). -/
def Scan.patchAt (s : Scan) (x y : Nat) : Nat := (y / 64) * s.patchCols + x / 64

/-- The origin of patch `p` (R243); a grid without columns has origin 0. -/
def Scan.patchOrigin (s : Scan) (p : Nat) : Nat × Nat :=
  (64 * (p % s.patchCols), 64 * (p / s.patchCols))

/-- Whether tile `t` covers some place of patch `p`. -/
def Scan.tileInPatch (s : Scan) (t p : Nat) : Bool :=
  let u := s.tile t
  let o := s.patchOrigin p
  decide (u.ex.toNat < o.1 + 64) && decide (o.1 < u.ex.toNat + u.width) &&
    decide (u.ey.toNat < o.2 + 64) && decide (o.2 < u.ey.toNat + u.height)

/-- Whether patch `p` holds a valid emitter. -/
def Scan.patchValid (s : Scan) (p : Nat) : Bool :=
  decide (0 < s.patchCols) && s.present.any fun t => s.tileInPatch t p

/-- The patches that hold a valid emitter (06 R171). -/
def Scan.validPatches (s : Scan) : BitVec 256 :=
  BitVec.ofNat 256 (((upTo 256).filter s.patchValid).foldl (fun n p => n + 2 ^ p) 0)

/-- The cell of a grid place (11 R323). -/
def Scan.cellAt (s : Scan) (x y : Nat) : Nat := 64 * s.patchAt x y + 8 * ((y % 64) / 8) + (x % 64) / 8

/-- Bytes of a word at a depth (R228). -/
def wordBytes (depth : Nat) : Nat := if depth = 8 then 1 else 2

/-- The chain of a tile ordinal, 0 to 15 (R222, R241). -/
def chainOf (t : Nat) : Nat := t / 8

/-- The port of a tile ordinal: 1 for B (R241). -/
def portOf (t : Nat) : Bool := decide (64 ≤ t)

/-- The tiles of chain `c` in force, from the highest position down: the order in which segments leave (R225). -/
def Scan.chainTiles (s : Scan) (c : Nat) : List Nat := (s.present.filter fun t => chainOf t == c).reverse

/-- S of chain `c` at a depth (R234). -/
def Scan.chainLen (s : Scan) (depth c : Nat) : Nat :=
  14 + ((s.chainTiles c).map fun t => 8 + (s.tile t).emitters * wordBytes depth).sum

/-- S of the longest chain (R234). -/
def Scan.longest (s : Scan) (depth : Nat) : Nat := (upTo 16).foldl (fun m c => max m (s.chainLen depth c)) 14

/-- The least usable PERIOD of R234. -/
def Scan.tfMin (s : Scan) (depth div : Nat) : Nat := 4000 + 5 * div * (s.longest depth + 320)

/-- The symbol offset at which tile `t`'s segment starts on its chain: SOF, the header, then the segments of the tiles
at higher positions (R225). -/
def Scan.segStart (s : Scan) (depth t : Nat) : Nat :=
  13 + (((s.chainTiles (chainOf t)).filter fun u => decide (t < u)).map fun u =>
    8 + (s.tile u).emitters * wordBytes depth).sum

/-- The need time of patch `p`: the earliest symbol offset at which a lane sends one of its words (R243). -/
def Scan.needTime (s : Scan) (depth p : Nat) : Nat :=
  let o := s.patchOrigin p
  let offs := (s.present.filter fun t => s.tileInPatch t p).map fun t =>
    let u := s.tile t
    let x := max o.1 u.ex.toNat
    let y := max o.2 u.ey.toNat
    s.segStart depth t + 4 + ((y - u.ey.toNat) * u.width + (x - u.ex.toNat)) * wordBytes depth
  offs.foldl min (offs.headD 0)

/-- A patch put into a list in need order, by patch number on a tie. -/
def insertNeed (key : Nat → Nat) (p : Fin 256) : List (Fin 256) → List (Fin 256)
  | [] => [p]
  | q :: r =>
    if key p.val < key q.val ∨ (key p.val = key q.val ∧ p.val < q.val) then p :: q :: r
    else q :: insertNeed key p r

/-- The patch numbers set in a bitmap, in rising order. -/
def patchList (m : BitVec 256) : List (Fin 256) := (List.finRange 256).filter fun p => m.getLsbD p.val

/-- Whether a timing mode is usable with the array in force (R247), the frame rate limit of an active configuration
apart. -/
def Scan.slotFits (s : Scan) (m : TMode) : Bool :=
  decide (s.tfMin m.depth.toNat m.div.toNat ≤ m.period.toNat) &&
    s.present.all fun t =>
      let x := (s.tile t).desc
      decide (descDmin x ≤ m.depth.toNat) && decide (m.depth.toNat ≤ descDmax x) &&
        decide (m.pwmper.toNat ≤ descPmax x) && decide (2 ^ descMinDiv x ≤ m.div.toNat)

/-- The slot in force. -/
def Scan.slotNow (s : Scan) : TMode := s.tmode[s.slot.val]

end Sys2Proof.Machine
end

