-- ==== Sys2Proof/Machine/Symbols.lean ====
section
/-! DEFINITION. The 8b/10b symbols of the Batten lanes (08 R223), of the barrier link (13 R395) and of Purlin (16 R473): code groups with running disparity, their encoding and
their check at a receiver. A code group is ten bits, bit 9 the bit a, which is sent first. -/

namespace Sys2Proof.Machine

open Sys2Proof

/-- The K-codes that Batten and Purlin use (R223, 16 R473). -/
inductive KCode where
  /-- K28.5 -/
  | idle
  /-- K27.7 -/
  | sof
  /-- K29.7 -/
  | eof
  /-- K30.7 -/
  | abort
  /-- K28.1, of Purlin alone (16 R473) -/
  | mark
  deriving DecidableEq, Repr

/-- A symbol as a receiver takes it; `bad` is any other K-code, a code violation or a disparity error (R223). -/
inductive Sym where
  | data (b : Byte)
  | ctrl (k : KCode)
  | bad
  deriving DecidableEq, Repr

/-- Bits a to i of D.x at negative running disparity. (PRESUMED, log 111) -/
def sixes : List (BitVec 6) :=
  [0b100111, 0b011101, 0b101101, 0b110001, 0b110101, 0b101001, 0b011001, 0b111000,
   0b111001, 0b100101, 0b010101, 0b110100, 0b001101, 0b101100, 0b011100, 0b010111,
   0b011011, 0b100011, 0b010011, 0b110010, 0b001011, 0b101010, 0b011010, 0b111010,
   0b110011, 0b100110, 0b010110, 0b110110, 0b001110, 0b101110, 0b011110, 0b101011]

/-- Bits f to j of y at negative running disparity, the primary form of 7 in its place. (PRESUMED, log 111) -/
def fours : List (BitVec 4) := [0b1011, 0b1001, 0b0101, 0b1100, 0b1101, 0b1010, 0b0110, 0b1110]

/-- How a sub-block moves the running disparity: to the sign of its excess of ones; a sub-block without excess keeps it, but
for one whose halves are all ones and all zeros, which sets it by its last half. (PRESUMED, log 111) -/
def runAfter {w : Nat} (rd : Bool) (x : BitVec w) : Bool :=
  let n := 2 * popcount x
  if w < n then true
  else if n < w then false
  else if x.toNat = 2 ^ (w / 2) - 1 then true
  else if x.toNat = 2 ^ w - 2 ^ (w / 2) then false
  else rd

/-- A sub-block at the running disparity `rd` from its form at negative disparity: complemented at positive disparity
unless it keeps the disparity. -/
def atDisparity {w : Nat} (rd : Bool) (x : BitVec w) : BitVec w :=
  if rd && (runAfter false x || runAfter true x == false) then ~~~x else x

/-- Bits a to i of D.x. -/
def sixOf (rd : Bool) (x : Nat) : BitVec 6 := atDisparity rd (sixes.getD x 0)

/-- Bits f to j of D.x.y at the disparity after bits a to i; 7 takes its alternate form where the primary one would make a
run of five. (PRESUMED, log 111) -/
def fourOf (rd : Bool) (x y : Nat) : BitVec 4 :=
  let alt := y == 7 && (if rd then x == 11 || x == 13 || x == 14 else x == 17 || x == 18 || x == 20)
  atDisparity rd (if alt then 0b0111 else fours.getD y 0)

/-- A K-code's code group at negative running disparity. (PRESUMED, log 111) -/
def KCode.group : KCode → BitVec 10
  | .idle => 0b0011111010
  | .sof => 0b1101101000
  | .eof => 0b1011101000
  | .abort => 0b0111101000
  | .mark => 0b0011111001

/-- The running disparity after a code group. -/
def groupAfter (rd : Bool) (g : BitVec 10) : Bool := runAfter (runAfter rd (g.extractLsb' 4 6)) (g.extractLsb' 0 4)

/-- The code group of a K-code at a running disparity: each is complemented at positive disparity. -/
def KCode.code (rd : Bool) (k : KCode) : BitVec 10 := if rd then ~~~k.group else k.group

/-- The code group of a data byte Dx.y. -/
def dataCode (rd : Bool) (b : Byte) : BitVec 10 :=
  let six := sixOf rd (b.toNat % 32)
  six ++ fourOf (runAfter rd six) (b.toNat % 32) (b.toNat / 32)

/-- The K-codes of Batten (R223). -/
def battenCodes : List KCode := [.idle, .sof, .eof, .abort]

/-- The symbol that a code group carries at a running disparity on a link with the K-codes `ks` (R223, 16 R473). -/
def symOf (ks : List KCode) (rd : Bool) (g : BitVec 10) : Sym :=
  match ks.find? fun k => k.code rd == g with
  | some k => .ctrl k
  | none =>
    let rd' := runAfter rd (g.extractLsb' 4 6)
    match (upTo 32).find? fun x => sixOf rd x == g.extractLsb' 4 6 with
    | none => .bad
    | some x =>
      match (upTo 8).find? fun y => fourOf rd' x y == g.extractLsb' 0 4 with
      | none => .bad
      | some y => .data (BitVec.ofNat 8 (32 * y + x))

/-- The symbols that code groups carry from a running disparity on. -/
def symsFrom (ks : List KCode) : Bool → List (BitVec 10) → List Sym
  | _, [] => []
  | rd, g :: gs => symOf ks rd g :: symsFrom ks (groupAfter rd g) gs

/-- The symbols that a receiver takes from a lane: its running disparity starts at the one its first code group is
valid at. (DESIGN CHOICE, log 111) -/
def symbolsOf (ks : List KCode) : List (BitVec 10) → List Sym
  | [] => []
  | g :: gs => symsFrom ks (symOf ks false g == .bad) (g :: gs)

/-- The symbols of a Batten lane, and of the barrier link. -/
def symbols (gs : List (BitVec 10)) : List Sym := symbolsOf battenCodes gs

end Sys2Proof.Machine
end

