-- ==== Sys2Proof/Machine/Lanes.lean ====
section
/-! DEFINITION. The Batten TX lanes (08 R222 to R228, R250): what a lane sends of a transfer, symbol by symbol, and ABORT. -/

namespace Sys2Proof.Machine

open Sys2Proof

/-! ### One lane -/

/-- One symbol of the lane's code (R223). -/
def LaneOut.code (l : LaneOut) (g : BitVec 10) : LaneOut := { l with codes := l.codes ++ [g], rd := groupAfter l.rd g }

def LaneOut.ctrl (l : LaneOut) (k : KCode) : LaneOut := l.code (k.code l.rd)

/-- Bytes as Dx.y codes. -/
def LaneOut.bytes (l : LaneOut) (bs : List Byte) : LaneOut := bs.foldl (fun l b => l.code (dataCode l.rd b)) l

/-- Bytes that the segment CRC covers (R228). -/
def LaneOut.segBytes (l : LaneOut) (bs : List Byte) : LaneOut := { l.bytes bs with crc := bs.foldl crc32Byte l.crc }

/-- SOF and the frame header leave the lane, at a running disparity that the IDLE symbols before it left (R223, R225); the
segments of `tiles` follow. (DESIGN CHOICE, log 111) -/
def LaneOut.start (rd : Bool) (header : List Byte) (tiles : List Nat) : LaneOut :=
  (({ codes := [], rd := rd, busy := true, todo := tiles, next := 0, last := 0, crc := 0 } : LaneOut).ctrl .sof).bytes header

/-- EOF closes the transfer on the lane. -/
def LaneOut.finish (l : LaneOut) : LaneOut := { l.ctrl .eof with busy := false }

/-- ABORT on a lane (R250): it closes a transfer in progress; after an EOF it follows a SOF of its own, which leaves at the
running disparity `rd`. -/
def LaneOut.abort (rd : Bool) (l : LaneOut) : LaneOut :=
  let l := if l.busy then l else ({ l with rd := rd } : LaneOut).ctrl .sof
  { l.ctrl .abort with busy := false, todo := [], next := 0 }

/-- The symbol offset of the next word of the lane, from SOF: its segment header goes before the first (R225, R228). -/
def LaneOut.offset (l : LaneOut) : Nat := l.codes.length + if l.next = 0 then 4 else 0

/-- The segment header of a tile (R228): COUNT and IDCHK. -/
def segmentHeader (t : Tile) : List Byte := leBytes (t.emitters % 2 ^ 19 + 2 ^ 24 * (t.id.toNat % 256)) 4

/-- Whether a full injection presents the fault of bit `b` on instance `i` now (18 R517, R518). -/
def Inj.presents (x : Inj) (b i : Nat) : Bool :=
  x.busy && !x.dry && !x.restoring && x.bit.toNat == b && (x.inst == 0xFF || x.inst.toNat == i)

/-- Word `w` of tile `u` leaves the lane: the segment's header before the first word of the tile, its CRC after the last, and
EOF after the last segment (R225, R228); injection bit 17 inverts the CRC (18 R516). -/
def LaneOut.word (l : LaneOut) (depth : Nat) (u : Tile) (w : Nat) (inverted : Bool) : LaneOut :=
  let l := if l.next = 0 then ({ l with crc := 0xFFFFFFFF } : LaneOut).segBytes (segmentHeader u) else l
  let l := { l.segBytes (leBytes w (wordBytes depth)) with next := l.next + 1, last := BitVec.ofNat 16 w }
  if l.next < u.emitters then l
  else
    let crc := if inverted then l.crc else l.crc ^^^ 0xFFFFFFFF
    let l := { l.bytes (leBytes crc.toNat 4) with todo := l.todo.drop 1, next := 0 }
    if l.todo.isEmpty then l.finish else l

/-- Lane `c`. -/
def Scan.lane (s : Scan) (c : Nat) : LaneOut := getN s.lanes c LaneOut.reset

/-! ### A transfer's lanes -/

/-- The lane of chain `c` at the SOF of a transfer (R222, R225, R227): a transfer of depth 0 carries nine blocks of 64 zero
bytes on every lane; otherwise the lane carries its chain's segments, and IDLE where the chain has no tile. -/
def Scan.laneStart (s : Scan) (depth : BitVec 5) (header : List Byte) (c : Nat) : LaneOut :=
  let rd := Config.idleDisparity s.frame.toNat c
  if depth = 0 then ((LaneOut.start rd header []).bytes (List.replicate 576 0)).finish
  else
    let ts := s.chainTiles c
    if ts.isEmpty then LaneOut.reset else LaneOut.start rd header ts

/-- ABORT on every lane that carries the transfer (R250): it closes a transfer in progress, and one closed with EOF since the
last LAT is followed by SOF and ABORT. (DEDUCED, log 111) -/
def Scan.abortLanes (s : Scan) : Scan :=
  if s.xfer.isSome then
    { s with lanes := s.lanes.mapFinIdx fun c (l : LaneOut) _ =>
        if l.codes.isEmpty then l else l.abort (Config.idleDisparity s.frame.toNat (16 + c)) }
  else s

/-- Sent classes put into the records of the frame's parity (09 R263, R264). (DEDUCED, log 38) -/
def Proving.storeClasses (p : Proving) (frame : BitVec 16) : Proving :=
  let odd := frame.getLsbD 0
  let keep : BitVec 9 := if odd then 0x19F else 0x1E7
  let lsb := if odd then 5 else 3
  { p with sent := [],
           records := p.sent.foldl (fun (m : Cells 9) i =>
             cellSet m i.1 ((cellGet m i.1 &&& keep) ||| (i.2.setWidth 9 <<< lsb))) p.records }

end Sys2Proof.Machine
end

