-- ==== Sys2Proof/Machine/Receive.lean ====
section
/-! DEFINITION. What the Batten RX lanes return (08 R225, R230 to R232, R238): the stream of a transfer found among a lane's
symbols and checked, its captures read, and the descriptor blocks of an enumeration. -/

namespace Sys2Proof.Machine

open Sys2Proof

/-! ### The stream of a lane -/

/-- A stream as it arrived: whether its SOF and EOF are there, its symbol count with both, and its symbols between. -/
structure RxStream where
  sof : Bool
  eof : Bool
  count : Nat
  body : List Sym
  deriving DecidableEq, Repr

/-- Whether a symbol is the K-code `k`. -/
def Sym.isCtrl (k : KCode) (s : Sym) : Bool := s == .ctrl k

/-- A data symbol. -/
def Sym.isData : Sym → Bool
  | .data _ => true
  | _ => false

/-- The byte of a data symbol. -/
def Sym.byte : Sym → Byte
  | .data b => b
  | _ => 0

/-- The stream among the symbols of a transfer window (R225): from the first SOF to the first EOF after it; without that EOF
it ends where IDLE follows to the end. (DESIGN CHOICE, log 111) -/
def streamOfLane (gs : List (BitVec 10)) : RxStream :=
  let after := (symbols gs).dropWhile fun s => !s.isCtrl .sof
  match after with
  | [] => { sof := false, eof := false, count := 0, body := [] }
  | _ :: rest =>
    let body := rest.takeWhile fun s => !s.isCtrl .eof
    let eof := decide (body.length < rest.length)
    let body := if eof then body else (body.reverse.dropWhile (Sym.isCtrl .idle)).reverse
    { sof := true, eof := eof, count := body.length + if eof then 2 else 1, body := body }

/-- Whether a lane carried no symbol but IDLE, or none at all (R238). -/
def laneSilent (gs : List (BitVec 10)) : Bool := (symbols gs).all (Sym.isCtrl .idle)

/-! ### Captures -/

/-- One capture as it arrived (R230, R231); `codes` and `volts` hold the observation and forward-voltage codes in segment
order, the second 0 where slots are one byte wide. -/
structure Capture where
  /-- as many symbols as its segment has -/
  whole : Bool
  crcFail : Bool
  codeError : Bool
  segErr : Bool
  blanked : Bool
  active : Bool
  hot : Bool
  supply : Bool
  item : BitVec 3
  value : BitVec 24
  codes : List (BitVec 2)
  volts : List (BitVec 6)
  deriving DecidableEq, Repr

/-- Symbols cut into pieces of the given lengths, the last ones short or empty where there are too few. -/
def cutSyms : List Nat → List Sym → List (List Sym)
  | [], _ => []
  | n :: ns, l => l.take n :: cutSyms ns (l.drop n)

/-- The capture in the place of a tile's segment, whose words are `w` bytes wide: its CRC is computed over its header and
slots (R230, R232); a code error in it leaves no CRC to compare. (DESIGN CHOICE, log 111) -/
def captureIn (w emitters : Nat) (l : List Sym) : Capture :=
  let bs := l.map Sym.byte
  let n := 4 + emitters * w
  let h : Word := BitVec.ofNat 32 (leNat (bs.take 4))
  let bad := l.any fun s => !s.isData
  let slot (k : Nat) : Byte := bs.getD (4 + k * w) 0
  { whole := l.length == n + 4, codeError := bad,
    crcFail := l.length == n + 4 && !bad && !(leNat ((bs.drop n).take 4) == (crc32 (bs.take n)).toNat),
    segErr := h.getLsbD 0, blanked := h.getLsbD 1, active := h.getLsbD 2, hot := h.getLsbD 3, supply := h.getLsbD 4,
    item := h.extractLsb' 5 3, value := h.extractLsb' 8 24,
    codes := (upTo emitters).map fun k => (slot k).extractLsb' 0 2,
    volts := (upTo emitters).map fun k => if w = 2 then (slot k).extractLsb' 2 6 else 0 }

/-- One chain's RX stream of a transfer as R232 checks it: its captures, the highest position first. -/
structure ChainRx where
  /-- no SOF or no EOF -/
  missing : Bool
  /-- a symbol count other than the one sent -/
  length : Bool
  /-- a header echo other than the header sent -/
  echo : Bool
  /-- a code error somewhere in the stream -/
  code : Bool
  captures : List Capture
  deriving DecidableEq, Repr

/-- A stream failure that fails every capture of the chain. -/
def ChainRx.fails (r : ChainRx) : Bool := r.missing || r.length || r.echo

/-- A stream checked against the header and the symbol count sent; one without SOF or EOF has no length and no echo to
compare. (DESIGN CHOICE, log 111) -/
def RxStream.check (s : RxStream) (header : List Byte) (sent : Nat) (caps : List Capture) : ChainRx :=
  let missing := !s.sof || !s.eof
  { missing := missing, length := !missing && s.count != sent,
    echo := !missing && !(s.body.take 12 == header.map Sym.data), code := s.body.any fun x => !x.isData, captures := caps }

/-- The code groups that chain `c`'s RX lane carried in the window: none where none are given. -/
def laneOf (rx : List (List (BitVec 10))) (c : Nat) : List (BitVec 10) := rx.getD c []

/-- The stream of chain `c` with its captures, in a transfer of words `w` bytes wide (R229, R230, R232). -/
def Scan.received (s : Scan) (header : List Byte) (w : Nat) (rx : List (List (BitVec 10))) (c : Nat) : ChainRx :=
  let x := streamOfLane (laneOf rx c)
  let ts := (s.chainTiles c).map fun t => (s.tile t).emitters
  let parts := cutSyms (ts.map fun e => 8 + e * w) (x.body.drop 12)
  x.check header (s.lane c).codes.length ((ts.zip parts).map fun p => captureIn w p.1 p.2)

/-- Every chain's stream of a transfer. -/
def Scan.receive (s : Scan) (header : List Byte) (w : Nat) (rx : List (List (BitVec 10))) : List ChainRx :=
  (upTo 16).map (s.received header w rx)

/-- The stream of chain `c`: a chain of which nothing arrived has no SOF. -/
def rxOf (rx : List ChainRx) (c : Nat) : ChainRx :=
  (rx[c]?).getD { missing := true, length := false, echo := false, code := false, captures := [] }

/-- The capture of tile `t` that passes R232; none when it fails. -/
def Scan.captureOf (s : Scan) (rx : List ChainRx) (t : Nat) : Option Capture :=
  let r := rxOf rx (chainOf t)
  if r.fails then none
  else
    let pos := ((s.chainTiles (chainOf t)).takeWhile fun u => u != t).length
    match r.captures[pos]? with
    | none => none
    | some c => if !c.whole || c.crcFail || c.codeError then none else some c

/-! ### Descriptor blocks -/

/-- The 64-byte blocks of an enumeration stream's segment phase; none for one that a code error touches (R238). -/
def enumBlocks (l : List Sym) : List (Option (BitVec 512)) :=
  (cutSyms (List.replicate 9 64) l).map fun p =>
    if p.length == 64 && p.all Sym.isData then some (packBytes 512 (p.map Sym.byte)) else none

/-- What chain `c` returned in E2 or E3, with its stream as R232 checks it (R238, R240). -/
def Scan.enumReceived (s : Scan) (header : List Byte) (rx : List (List (BitVec 10))) (c : Nat) : ChainEnum × ChainRx :=
  let gs := laneOf rx c
  let x := streamOfLane gs
  let r := x.check header (s.lane c).codes.length []
  ({ empty := laneSilent gs, failed := r.fails || r.code, blocks := enumBlocks (x.body.drop 12) }, r)

end Sys2Proof.Machine
end

