-- ==== Sys2Proof/Machine/Cordic.lean ====
section
/-! DEFINITION. The Ridge's rotation of a direction (11 R329, R332): tilt about X, then pan about Y, by a CORDIC of 24
iterations, and its conversion to azimuth and elevation. Angles are in units of 2^-40 degree, lengths in units of 2^-40.
(DESIGN CHOICE, log 14: the widths and the rounding) -/

namespace Sys2Proof.Machine

open Sys2Proof

/-- Iteration numbers with arc tangents of 2^-i, in 2^-40 degree. -/
def cordicTable : List (Nat × Int) :=
  [(0, 49478023249920), (1, 29208582661662), (2, 15433012903280), (3, 7834038323712), (4, 3932221230125), (5, 1968027526446),
   (6, 984253903256), (7, 492156985618), (8, 246082247574), (9, 123041593148), (10, 61520855245), (11, 30760434956),
   (12, 15380218395), (13, 7690109312), (14, 3845054670), (15, 1922527337), (16, 961263669), (17, 480631834),
   (18, 240315917), (19, 120157959), (20, 60078979), (21, 30039490), (22, 15019745), (23, 7509872)]

/-- The length that 24 iterations leave of one, in 2^-40: the reciprocal of the gain. -/
def cordicScale : Int := 667681663043

/-- A full and a half turn. -/
def cordicTurn : Int := 360 * 2 ^ 40
def cordicHalf : Int := 180 * 2 ^ 40

/-- x times 2^-i, rounded down. -/
def cordicShift (x : Int) (i : Nat) : Int := x.fdiv (2 ^ i)

/-- One iteration: the pair turned by the arc tangent of 2^-i, in the positive sense when `up`. -/
def cordicStep (up : Bool) (s : Int × Int × Int) (i : Nat × Int) : Int × Int × Int :=
  let (x, y, z) := s
  if up then (x - cordicShift y i.1, y + cordicShift x i.1, z - i.2)
  else (x + cordicShift y i.1, y - cordicShift x i.1, z + i.2)

/-- A pair rotated by an angle, in the sense that turns the first axis toward the second. -/
def cordicRotate (p : Int × Int) (angle : Int) : Int × Int :=
  let z := angle.emod cordicTurn
  let z := if cordicHalf < z then z - cordicTurn else z
  let far := decide (cordicHalf < 2 * (z.natAbs : Int))
  let z := if far then (if 0 < z then z - cordicHalf else z + cordicHalf) else z
  let p := if far then (-p.1, -p.2) else p
  let r := cordicTable.foldl (fun s i => cordicStep (decide (0 ≤ s.2.2)) s i) (p.1, p.2, z)
  (cordicShift (r.1 * cordicScale) 40, cordicShift (r.2.1 * cordicScale) 40)

/-- The length and the angle of a pair, from the first axis toward the second. -/
def cordicPolar (p : Int × Int) : Int × Int :=
  let q := if p.1 < 0 then (-p.1, -p.2) else p
  let r := cordicTable.foldl (fun s i => cordicStep (decide (s.2.1 < 0)) s i) (q.1, q.2, 0)
  let turn := if 0 ≤ p.1 then 0 else if p.2 < 0 then -cordicHalf else cordicHalf
  (cordicShift (r.1 * cordicScale) 40, r.2.2 + turn)

/-- 1/65536 degree as an angle of the CORDIC, of a fraction, and back again, to the nearest. -/
def cordicAngle (num : Int) (den : Nat) : Int := (num * 2 ^ 24).fdiv den
def cordicShown (a : Int) : Int := (a + 2 ^ 23).fdiv (2 ^ 24)

/-- The direction with azimuth `x` and elevation `y` in head coordinates, after a tilt and a pan (R329), as azimuth and
elevation in venue coordinates; all in 1/65536 degree, the angles over `den`. What the rounding adds is a free value of a few
units. (DESIGN CHOICE, log 14) -/
def rotateDirection (x y tilt pan : Int) (den : Nat) : Int × Int :=
  let up := cordicRotate (2 ^ 40, 0) (cordicAngle y 1)
  let flat := cordicRotate (up.1, 0) (cordicAngle x 1)
  let tilted := cordicRotate (flat.1, up.2) (cordicAngle tilt den)
  let panned := cordicRotate (tilted.1, flat.2) (cordicAngle pan den)
  let az := cordicPolar panned
  let el := cordicPolar (az.1, tilted.2)
  let e := Config.cordicError x y tilt pan den
  (cordicShown az.2 + e.1.toInt, cordicShown el.2 + e.2.toInt)

end Sys2Proof.Machine
end

