-- ==== Sys2Proof/Machine/SafetyCfg.lean ====
section
/-! DEFINITION. The fields of the safety configuration (11 R351, R352), the encoders' angles and the Ridge's prediction
(R330, R331), its coarse test (R332), and the ceiling of a word (01 R22, 11 R322 to R324). -/

namespace Sys2Proof.Machine

open Sys2Proof

/-! ### PARAMS (R352) -/

def SafetyConfig.cap16 (c : SafetyConfig) : BitVec 16 := half16 c.params 0
def SafetyConfig.svc16 (c : SafetyConfig) : BitVec 16 := half16 c.params 2
def SafetyConfig.tdeg (c : SafetyConfig) : Nat := (half16 c.params 4).toNat
def SafetyConfig.degCoarse (c : SafetyConfig) : Bool := byteAt c.params 6 == 1
def SafetyConfig.axes (c : SafetyConfig) : Bool := byteAt c.params 7 == 1
/-- VMAX of an axis, in 1/65536 degree per second. -/
def SafetyConfig.vmax (c : SafetyConfig) (axis : Nat) : Int := (word32 c.params (8 + 4 * axis)).toInt
/-- AMAX of an axis, in 1/65536 degree per second squared. -/
def SafetyConfig.amax (c : SafetyConfig) (axis : Nat) : Int := (word32 c.params (16 + 4 * axis)).toInt
def SafetyConfig.m0 (c : SafetyConfig) : Int := (word32 c.params 24).toInt
def SafetyConfig.encTol (c : SafetyConfig) : Int := (word32 c.params 28).toInt
def SafetyConfig.sf2auto (c : SafetyConfig) : Bool := byteAt c.params 32 == 1
def SafetyConfig.resetIn (c : SafetyConfig) : Nat := (byteAt c.params 33).toNat
def SafetyConfig.douser (c : SafetyConfig) : Nat := (byteAt c.params 34).toNat
def SafetyConfig.zsDefault (c : SafetyConfig) : BitVec 3 := (byteAt c.params 35).setWidth 3
def SafetyConfig.enumBindGeometry (c : SafetyConfig) : Bool := byteAt c.params 36 == 1
def SafetyConfig.sf3act (c : SafetyConfig) : Nat := (byteAt c.params 37).toNat
def SafetyConfig.sf3ch (c : SafetyConfig) : Nat := (byteAt c.params 38).toNat
def SafetyConfig.degFlash (c : SafetyConfig) : Bool := byteAt c.params 39 == 1
def SafetyConfig.rcrc (c : SafetyConfig) : Word := word32 c.params 40
def SafetyConfig.enumHash (c : SafetyConfig) : Word := word32 c.params 44
def SafetyConfig.ghash (c : SafetyConfig) : BitVec 256 := slice c.params (8 * 48) 256
def SafetyConfig.fhash (c : SafetyConfig) : BitVec 256 := slice c.params (8 * 80) 256
def SafetyConfig.sf3iref (c : SafetyConfig) : BitVec 16 := half16 c.params 112
def SafetyConfig.sf3duty (c : SafetyConfig) : BitVec 16 := half16 c.params 114
def SafetyConfig.sf3period (c : SafetyConfig) : Word := word32 c.params 116

/-! ### FEED (10 R295, R297) -/

/-- The tile ordinals that channel `ch` feeds. -/
def SafetyConfig.feeds (c : SafetyConfig) (ch : Nat) : List Nat :=
  ([0, 1, 2, 3].filter fun k => (byteAt c.feed (4 * ch + k)).getLsbD 7).map fun k =>
    (byteAt c.feed (4 * ch + k)).toNat % 128

/-- Whether the Gable owns channel `ch`. -/
def SafetyConfig.owns (c : SafetyConfig) (ch : Nat) : Bool := (byteAt c.feed 32).getLsbD ch

/-- The channels that feed a tile. -/
def SafetyConfig.feeders (c : SafetyConfig) (t : Nat) : List Nat := (upTo 8).filter fun ch => (c.feeds ch).contains t

/-- Whether the Gable owns channel `ch` under the configuration in force. -/
def Dev.owned (d : Dev) (ch : Nat) : Bool := match d.gbl.cfg with | none => false | some c => c.owns ch

/-! ### FLASHING (12 R374) -/

def SafetyConfig.deviceId (c : SafetyConfig) : Word := word32 c.flashing 0
def SafetyConfig.fcKind (c : SafetyConfig) (i : Nat) : Nat := (byteAt c.flashing (8 + 16 * i)).toNat
def SafetyConfig.fcFlag (c : SafetyConfig) (i b : Nat) : Bool := (byteAt c.flashing (9 + 16 * i)).getLsbD b
def SafetyConfig.fcTexp (c : SafetyConfig) (i : Nat) : Nat := (half16 c.flashing (10 + 16 * i)).toNat
def SafetyConfig.fcPeer (c : SafetyConfig) (i : Nat) : Word := word32 c.flashing (12 + 16 * i)
def SafetyConfig.fcGroup (c : SafetyConfig) (i : Nat) : Word := word32 c.flashing (16 + 16 * i)
def SafetyConfig.fcKey (c : SafetyConfig) (i : Nat) : Word := word32 c.flashing (20 + 16 * i)

/-- The connection of kind 3 or 4 (R375: at most one each). -/
def SafetyConfig.fcOf (c : SafetyConfig) (kind : Nat) : Option (Fin 8) :=
  (List.finRange 8).find? fun i => c.fcKind i.val == kind

/-- Whether a device of a role consumes connection `i` (R376): kinds 1 and 2 always, 3 and 4 on a worker. -/
def SafetyConfig.consumes (c : SafetyConfig) (role : BitVec 2) (i : Nat) : Bool :=
  let k := c.fcKind i
  k == 1 || k == 2 || ((k == 3 || k == 4) && role == 2)

/-- Whether the configuration names a Flashing or roof demand source (11 R338, R345): a kind 1 connection with STOP or
DEMAND, or an encoder connection that a worker consumes. -/
def SafetyConfig.remoteDemand (c : SafetyConfig) (role : BitVec 2) : Bool :=
  (upTo 8).any fun i =>
    let k := c.fcKind i
    (k == 1 && (c.fcFlag i 0 || c.fcFlag i 2)) || ((k == 3 || k == 4) && role == 2)

/-! ### ENCODER (R330) -/

/-- Settings of axis `i`, in the order G axis 0, G axis 1, H axis 0, H axis 1. -/
def SafetyConfig.encBits (c : SafetyConfig) (i : Nat) : Nat := (byteAt c.encoder (16 * i)).toNat
def SafetyConfig.encGray (c : SafetyConfig) (i : Nat) : Bool := byteAt c.encoder (16 * i + 1) == 1
def SafetyConfig.encNeg (c : SafetyConfig) (i : Nat) : Bool := byteAt c.encoder (16 * i + 2) == 1
def SafetyConfig.encPeriod (c : SafetyConfig) (i : Nat) : Nat := (half16 c.encoder (16 * i + 6)).toNat
def SafetyConfig.encZero (c : SafetyConfig) (i : Nat) : Nat := (word32 c.encoder (16 * i + 8)).toNat

/-- A number modulo `2 ^ n` taken as signed. -/
def signedMod (x : Int) (n : Nat) : Int :=
  let m : Int := 2 ^ n
  let r := x.emod m
  if 2 * r < m then r else r - m

/-- The angle of a position, in 1/65536 degree, times 2 ^ BITS (R330): wrapped to -180 to +180 degrees. -/
def SafetyConfig.encAngle (c : SafetyConfig) (i : Nat) (pos : Word) : Int :=
  let n := c.encBits i
  let a := signedMod ((pos.toNat : Int) - (c.encZero i : Int)) n * (360 * 65536)
  if c.encNeg i then -a else a

/-! ### Prediction and margin (R331) -/

/-- The period of the slot in force, in LCLK cycles. -/
def Dev.tf (d : Dev) : Nat := d.scan.slotNow.period.toNat

/-- Whether one map serves two frames (R331). -/
def Dev.fastTick (d : Dev) : Bool := decide (d.tf < 1666667)

/-- Ts in LCLK cycles (R331). -/
def Dev.ts (d : Dev) : Nat := if d.fastTick then 2 * d.tf else d.tf

/-- Twice the horizon from a sample at house time `at` to the predicted instant, in LCLK cycles of 2.5 ns. -/
def Dev.horizon2 (d : Dev) (t : Nat) : Int :=
  800 * ((d.rdg.tickTime : Int) - (t : Int)) + 4 * (d.tf : Int) + (d.ts : Int)

/-- The angle an axis extrapolates to `h2 / 800` microseconds after its last valid sample, as a fraction in 1/65536
degree (R331): speed from the last two valid samples, clamped to VMAX. -/
def SafetyConfig.predict (c : SafetyConfig) (i : Nat) (e : EncAxis) (h2 : Int) : Int × Nat :=
  let n := c.encBits i
  match e.last, e.prev with
  | none, _ => (0, 1)
  | some (p, _), none => (c.encAngle i p, 2 ^ n)
  | some (p, t), some (q, u) =>
    let a := c.encAngle i p
    let delta := signedMod ((p.toNat : Int) - (q.toNat : Int)) n * (360 * 65536)
    let delta := if c.encNeg i then -delta else delta
    let dt := t - u
    let vm := c.vmax (i % 2)
    if dt = 0 then (a, 2 ^ n)
    else if delta.natAbs * 1000000 ≤ vm.natAbs * 2 ^ n * dt then
      (a * (dt * 800 : Nat) + delta * h2, 2 ^ n * dt * 800)
    else
      let v := if delta < 0 then -vm else vm
      (a * 800000000 + v * h2 * (2 ^ n : Nat), 2 ^ n * 800000000)

/-- The common denominator of the margin: 8 times the square of 400,000,000 LCLK cycles per second. -/
def marginDen : Nat := 8 * 400000000 * 400000000

/-- The margin of R331 for one axis, in 1/65536 degree times `marginDen`; `h2` is twice the horizon in LCLK cycles and
`p` the sample period in microseconds. -/
def SafetyConfig.marginAxis (c : SafetyConfig) (axis ts : Nat) (h2 : Int) (p : Nat) : Int :=
  c.m0 * marginDen + c.vmax axis * ts * 1600000000 + c.amax axis * h2 * h2 +
    c.amax axis * (400 * p : Nat) * h2 * 4

/-- The margin the Ridge uses: the larger of the two axes of encoder H; a fixed head moves on no axis. -/
def Dev.marginH (d : Dev) (c : SafetyConfig) : Int :=
  if c.axes then
    let m (axis : Nat) : Int :=
      let t := match (getN d.rdg.enc (2 + axis) EncAxis.reset).last with | none => d.rdg.tickTime | some (_, t) => t
      c.marginAxis axis d.ts (d.horizon2 t) (c.encPeriod (2 + axis))
    max (m 0) (m 1)
  else c.m0 * marginDen

/-! ### The coarse test (R332) -/

/-- The vertices of zone `z` and its kind (R329, R351). -/
def SafetyConfig.zoneKind (c : SafetyConfig) (z : Nat) : Nat := (byteAt c.zones (72 * z)).toNat
def SafetyConfig.zoneVertices (c : SafetyConfig) (z : Nat) : List (Int × Int) :=
  (upTo (byteAt c.zones (72 * z + 1)).toNat).map fun v =>
    ((word32 c.zones (72 * z + 8 + 8 * v)).toInt, (word32 c.zones (72 * z + 12 + 8 * v)).toInt)

/-- The zones of a zone set (R329). -/
def SafetyConfig.zonesOf (c : SafetyConfig) (zs : BitVec 3) : List Nat :=
  bitsOf (half16 c.zoneSets (2 * zs.toNat))

/-- The edges of a polygon given by its vertices in order. -/
def polygonEdges (vs : List (Int × Int)) : List ((Int × Int) × (Int × Int)) :=
  match vs with
  | [] => []
  | v :: r => (v :: r).zip (r ++ [v])

/-- Twice the signed area that the edge spans with a point: positive on the inner side of a counterclockwise polygon. -/
def edgeCross (e : (Int × Int) × (Int × Int)) (p : Int × Int) : Int :=
  (e.2.1 - e.1.1) * (p.2 - e.1.2) - (e.2.2 - e.1.2) * (p.1 - e.1.1)

/-- The square of an edge's length. -/
def edgeLen2 (e : (Int × Int) × (Int × Int)) : Int :=
  (e.2.1 - e.1.1) * (e.2.1 - e.1.1) + (e.2.2 - e.1.2) * (e.2.2 - e.1.2)

/-- Whether `p` lies at least `dn / marginDen` inside an edge. -/
def edgeInside (dn : Int) (p : Int × Int) (e : (Int × Int) × (Int × Int)) : Bool :=
  let x := edgeCross e p
  decide (0 ≤ x) && decide (dn * dn * edgeLen2 e ≤ x * x * marginDen * marginDen)

/-- Whether `p` lies inside an edge or at most `dn / marginDen` outside it. -/
def edgeWithin (dn : Int) (p : Int × Int) (e : (Int × Int) × (Int × Int)) : Bool :=
  let x := edgeCross e p
  decide (0 ≤ x) || decide (x * x * marginDen * marginDen ≤ dn * dn * edgeLen2 e)

/-- Super-cell `s` of the configuration: its direction, radius and whether it is present (R351). -/
def SafetyConfig.superDir (c : SafetyConfig) (s : Nat) : Int × Int :=
  ((word32 c.superCells (16 * s)).toInt, (word32 c.superCells (16 * s + 4)).toInt)
def SafetyConfig.superRadius (c : SafetyConfig) (s : Nat) : Int := (word32 c.superCells (16 * s + 8)).toInt
def SafetyConfig.superPresent (c : SafetyConfig) (s : Nat) : Bool := (byteAt c.superCells (16 * s + 12)).getLsbD 0

/-- The direction of super-cell `s` in venue coordinates as the Ridge predicts it from encoder H (R329, R332). -/
def Dev.superVenue (d : Dev) (c : SafetyConfig) (s : Nat) : Int × Int :=
  let p := c.superDir s
  if c.axes then
    let angle (axis : Nat) : Int × Nat :=
      let e := getN d.rdg.enc (2 + axis) EncAxis.reset
      let t := match e.last with | none => d.rdg.tickTime | some (_, t) => t
      c.predict (2 + axis) e (d.horizon2 t)
    let pan := angle 0
    let tilt := angle 1
    rotateDirection p.1 p.2 (tilt.1 * pan.2) (pan.1 * tilt.2) (tilt.2 * pan.2)
  else p

/-- d of R332 for super-cell `s`, times `marginDen`. -/
def Dev.superDist (d : Dev) (c : SafetyConfig) (s : Nat) : Int :=
  d.marginH c + (c.superRadius s + c.encTol) * marginDen

/-- Whether super-cell `s` lies wholly inside zone `z` after margin (R332). -/
def Dev.superInside (d : Dev) (c : SafetyConfig) (s z : Nat) : Bool :=
  (polygonEdges (c.zoneVertices z)).all (edgeInside (d.superDist c s) (d.superVenue c s))

/-- Whether super-cell `s` meets zone `z` (R332). -/
def Dev.superMeets (d : Dev) (c : SafetyConfig) (s z : Nat) : Bool :=
  (polygonEdges (c.zoneVertices z)).all (edgeWithin (d.superDist c s) (d.superVenue c s))

/-- Entry `i` of a 2-bit map (R322, R323). -/
def mapEntry (m : Mem) (i : Nat) : Nat := ((cellGet m (i / 4)).toNat >>> (2 * (i % 4))) % 4

/-- The first zone of the set that a super-cell lies inside while one of its cells is not as R332 requires. -/
def Dev.superMismatch (d : Dev) (c : SafetyConfig) (map : Mem) (zs : BitVec 3) (s : Nat) : Option Nat :=
  if c.superPresent s then
    (c.zonesOf zs).find? fun z =>
      let kind := c.zoneKind z
      (kind == 1 || kind == 2) && d.superInside c s z &&
        (upTo 64).any fun k =>
          let e := mapEntry map (64 * s + k)
          if kind = 2 then decide (e < 2) else e == 0
  else none

/-- The super-cells that "coarse" darkens: those that meet a zone of the set (R332, R343). -/
def Dev.coarseDark (d : Dev) (c : SafetyConfig) (zs : BitVec 3) : BitVec 256 :=
  BitVec.ofNat 256 (((upTo 256).filter fun s =>
    c.superPresent s && (c.zonesOf zs).any fun z => (c.zoneKind z == 1 || c.zoneKind z == 2) && d.superMeets c s z).foldl
      (fun n s => n + 2 ^ s) 0)

/-! ### The ceiling of a word (01 R22, 11 R322 to R324) -/

/-- The greatest word at a depth. -/
def maxWord (depth : Nat) : Nat := 2 ^ depth - 1

/-- CAP16 or SVC16 at a depth (R324). -/
def scaleCap (c : BitVec 16) (depth : Nat) : Nat := c.toNat >>> (16 - depth)

/-- The effective ceiling of R324: 0 dark, the cap word, or free. -/
def effCeiling (depth static cell : Nat) (cap : BitVec 16) : Nat :=
  if static = 2 ∨ 2 ≤ cell then 0
  else if static = 1 ∨ cell = 1 then scaleCap cap depth
  else maxWord depth

/-- The Degraded ceiling, rung 4, for an emitter of super-cell `p` (11 R343). -/
def degCeilingAt (g : DegCeiling) (depth p : Nat) (cap : BitVec 16) : Option Nat :=
  match g with
  | .none => none
  | .cap => some (scaleCap cap depth)
  | .coarse dark => if dark.getLsbD p then some 0 else none

/-- The service cap, rung 5. -/
def serviceAt (s : Option (BitVec 16)) (depth : Nat) : Option Nat := s.map fun c => scaleCap c depth

/-- The lower of a ceiling with its rung and a further one; the lower rung stands on a tie (R23). -/
def lowerBy (x : Nat × Nat) (rung : Nat) : Option Nat → Nat × Nat
  | none => x
  | some y => if y < x.1 then (y, rung) else x

/-- The lowest ceiling in force for an emitter, and its rung (R22, R23). -/
def ceilingAt (c : Ceilings) (static : Mem) (depth n p cell : Nat) : Nat × Nat :=
  let r3 := effCeiling depth (mapEntry static n) (mapEntry c.map cell) c.capWord
  lowerBy (lowerBy (r3, 3) 4 (degCeilingAt c.degraded depth p c.capWord)) 5 (serviceAt c.service depth)

/-- The judged ceiling of R274: 2 dark, 1 cap, 0 free; a cap word of 0 makes a capped emitter dark. -/
def judgedCeiling (c : Ceilings) (static : Mem) (depth n p cell : Nat) : Nat :=
  let dark := effCeiling depth (mapEntry static n) (mapEntry c.map cell) c.capWord == 0 ||
    (match c.degraded with | .coarse b => b.getLsbD p | _ => false)
  let cap := mapEntry static n == 1 || mapEntry c.map cell == 1 || c.degraded == .cap || c.service.isSome
  if dark then 2 else if cap then 1 else 0

/-- Whether the static map mandates emitter `n` (R322). -/
def mandated (static : Mem) (n : Nat) : Bool := mapEntry static n == 3

/-- The least word that an emitter of a tile shows measurably (08 R255): `periods` PWM periods over `period` LCLK cycles. -/
def threshold (tdiag periods depth period : Nat) : Nat :=
  let num := 2 * tdiag * periods * maxWord depth
  let den := 5 * period
  if den = 0 then 0 else (num + den - 1) / den

end Sys2Proof.Machine
end

