-- ==== Sys2Proof/Machine/Channels.lean ====
section
/-! DEFINITION. The times and thresholds of a string channel (10 R291 to R293, R299, 09 R281): its PWM period and on-interval,
the ramp of SUPPLY mode, the peak threshold of a switching cycle and what its current sense shows. -/

namespace Sys2Proof.Machine

open Sys2Proof

/-- A fraction rounded to nearest: of two equally near values the spec names neither. (DESIGN CHOICE, log 14) -/
def nearest (num den : Nat) : Nat :=
  num / den + (if den < 2 * (num % den) ∨ (2 * (num % den) = den ∧ Config.roundsUp num den = true) then 1 else 0)

/-- A fraction shown by a register that holds whole values: itself where it is one. (DESIGN CHOICE, log 14) -/
def shownFraction (num : Int) (den : Nat) : Int :=
  num.fdiv den + (if num.fmod den ≠ 0 ∧ Config.roundsUp num den = true then 1 else 0)

/-! ### PWM periods (R293, 14 R427) -/

/-- PERIOD_light: the period of the transfer that is the light (R293). -/
def Dev.lightPeriod (d : Dev) : Nat := match d.scan.light with | none => d.tf | some x => x.period.toNat

/-- The PWM period of a channel in LCLK cycles (R293): of a LAT-locked one, each but the last of its light period. -/
def Dev.pwmCycles (d : Dev) (ch : Nat) : Nat :=
  let c := getN d.str ch StrChannel.reset
  if c.pwmsync then d.lightPeriod / max 1 c.pwmK.toNat else c.pwmPeriod.toNat

/-- The length of the current PWM period: the last of a light period takes the remainder (R293). -/
def Dev.pwmLength (d : Dev) (ch : Nat) : Nat :=
  let c := getN d.str ch StrChannel.reset
  if c.pwmsync && c.periodsLeft == 0 then d.lightPeriod - (max 1 c.pwmK.toNat - 1) * d.pwmCycles ch else d.pwmCycles ch

/-- The on-interval of a PWM period in LCLK cycles (R293): rounded to nearest; the odd divisor leaves no tie. -/
def onCycles (w p depth : Nat) : Nat :=
  let m := maxWord depth
  (2 * w * p + m) / (2 * m)

/-- A calibration gap: 20 µs at the start of the period with GATE low (14 R427). -/
def gapCycles : Nat := 8000

/-- The current on-interval, from and to, in LCLK cycles of the period: what a gap takes from its start is not in it. -/
def Dev.onInterval (d : Dev) (ch : Nat) : Nat × Nat :=
  let c := getN d.str ch StrChannel.reset
  let stop := onCycles c.dutyNow.toNat (d.pwmCycles ch) c.depth.toNat
  (if c.gapNow then min gapCycles stop else 0, stop)

/-- In LOAD and TRIM a calibration step of a channel holds its GATE low, whatever the channel's mode (14 R428). -/
def Dev.calHolds (d : Dev) (ch : Nat) : Bool :=
  d.trim.running && (d.sys.mode == .load || d.sys.mode == .trim) &&
    (d.trim.active.getLsbD ch || d.trim.active.getLsbD (8 + ch) || d.trim.active.getLsbD (16 + ch))

/-- LCLK cycles for which a switching cycle that starts now may hold GATE high: all of it in SUPPLY mode, and in STRING mode
what is left of the on-interval (R293). (DEDUCED, log 72) -/
def Dev.gateWindow (d : Dev) (ch : Nat) : Nat :=
  let c := getN d.str ch StrChannel.reset
  if d.calHolds ch then 0
  else if c.mode = 2 then
    let i := d.onInterval ch
    let t := 400 * (d.now - c.periodStart)
    if i.1 ≤ t then i.2 - t else 0
  else c.fswN.toNat

/-- GATE as the channel's state leaves it: switching while it runs, but in the off-interval or a gap of a PWM period (R293)
and while overvoltage holds it low (R299). -/
def Dev.gateRuns (d : Dev) (ch : Nat) : Bool :=
  let c := getN d.str ch StrChannel.reset
  (c.state == 1 || c.state == 2) && !c.ovHold && decide (0 < d.gateWindow ch)

/-! ### Switching cycles (R291, R292) -/

/-- The target of a SUPPLY channel in millivolts: a linear ramp from 0 to VSET over 1 ms (R292). (DEDUCED, log 72) -/
def StrChannel.target (c : StrChannel) (now : Nat) : Nat := c.vset.toNat * min 1000 (now - c.rampFrom) / 1000

/-- Whether a sample of the shunt (0.1 mV) has reached a threshold code scaled by a factor: code x 100 mV / 1023 (R291). -/
def reaches (code factor : Nat) (x : BitVec 11) : Bool := decide (code * 1000 * factor ≤ x.toNat * 1023 * 0x10000)

/-- The LCLK cycle of a switching cycle at which its samples first meet `p`: the sense input is ignored for 60 ns (R291). -/
def firstSample (shunt : List (BitVec 11)) (p : BitVec 11 → Bool) : Option Nat :=
  ((shunt.drop 24).findIdx? p).map (· + 24)

/-- A shunt voltage of at least 150 mV (R299). -/
def overCurrent (x : BitVec 11) : Bool := decide (1500 ≤ x.toNat)

/-- LCLK cycles for which GATE is high in a switching cycle of `n` (R291, R299): until the threshold or an overcurrent, at
latest 100 ns before the next cycle start, and no longer than the window. -/
def gateCycles (n window : Nat) (shunt : List (BitVec 11)) (peak : BitVec 11 → Bool) : Nat :=
  let cut (x : Option Nat) (m : Nat) : Nat := match x with | none => m | some i => min i m
  cut (firstSample shunt peak) (cut (firstSample shunt overCurrent) (min window (n - 40)))

/-- Whether a current is seen (09 R281): above 10 % of the set current, in units of 0.1 mV at the shunt. -/
def StrChannel.seen (c : StrChannel) (x : BitVec 11) : Bool :=
  decide (c.irefNow.toNat * 1000 * c.derateNow.toNat < x.toNat * 1023 * 0x10000 * 10)

/-- MEAS.ISENSE (R313): the mean of what the last millisecond's cycles sensed; 0 when there was none.
(DEDUCED, log 72) -/
def StrChannel.isense (c : StrChannel) (now : Nat) : BitVec 11 :=
  let l := c.sensed.filter fun x => decide (now < x.1 + 1000)
  let n := (l.map fun x => x.2.2).sum
  if n = 0 then 0 else BitVec.ofInt 11 (shownFraction ((l.map fun x => x.2.1).sum : Nat) n)

/-- LCLK cycles above OV within the last 10 ms (R299). -/
def StrChannel.ovCycles (c : StrChannel) (now : Nat) : Nat :=
  ((c.ovSpans.filter fun x => decide (now < x.1 + 10000)).map fun x => x.2).sum

/-! ### The tests of a PWM period (09 R281, 10 R299) -/

/-- The samples from LCLK cycle `a` to `b` of a period. -/
def samples {α : Type} (l : List α) (a b : Nat) : List α := (l.take b).drop a

/-- Whether `n` samples in a row meet `p`. -/
def runOf {α : Type} (n : Nat) (p : α → Bool) (l : List α) : Bool :=
  (l.foldl (fun (x : Nat × Bool) a => if p a then (x.1 + 1, x.2 || decide (n ≤ x.1 + 1)) else (0, x.2)) (0, false)).2

/-- Which tests a PWM period runs (09 R281): each interval must last 20 µs after the 2 µs that follow its edge. -/
def Dev.pwmTests (d : Dev) (ch : Nat) : Bool × Bool :=
  let i := d.onInterval ch
  (decide (i.1 + 8800 ≤ i.2), decide (i.2 + 8800 ≤ d.pwmLength ch))

/-- Whether a PWM period tests for a short (R299): armed, UV set, and an on-interval of at least 20 µs. -/
def Dev.shortTest (d : Dev) (ch : Nat) : Bool :=
  let c := getN d.str ch StrChannel.reset
  let i := d.onInterval ch
  c.armed && c.uv != 0 && decide (i.1 + 8000 ≤ i.2)

end Sys2Proof.Machine
end

