-- ==== Sys2Proof/Machine/CourseOps.lean ====
section
/-! DEFINITION. Contexts, slots, placement groups and migrations as every part of the model uses them (06 R161 to R191). -/

namespace Sys2Proof.Machine

open Sys2Proof

/-- Context `c` changed by `f`. -/
def Dev.onCtx (d : Dev) (c : Fin 64) (f : Context → Context) : Dev :=
  { d with course := { d.course with ctx := upd d.course.ctx c f } }

/-- Engine `e` changed by `f`. -/
def Dev.onEng (d : Dev) (e : Fin 8) (f : Engine → Engine) : Dev :=
  { d with course := { d.course with eng := upd d.course.eng e f } }

def Dev.ctxAt (d : Dev) (c : Fin 64) : Context := d.course.ctx[c.val]
def Dev.engAt (d : Dev) (e : Fin 8) : Engine := d.course.eng[e.val]

/-- Context IDs 1 to 63. -/
def ctxIds : List (Fin 64) := (List.finRange 64).filter fun c => c.val != 0

/-- Engine numbers. -/
def engIds : List (Fin 8) := List.finRange 8

/-- Whether a context holds a program, a mask and a rank: every state but IDLE and RETIRED (R161, R164). -/
def Context.bound (c : Context) : Bool := c.state != .idle && c.state != .retired

/-- Whether a context's patches are rendered: READY, RUNNING or DRAINING (R172). -/
def Context.live (c : Context) : Bool := c.state == .ready || c.state == .running || c.state == .draining

/-- Whether an engine is in service (R194). -/
def Engine.inService (e : Engine) : Bool := e.svc == 0

/-- Free slots of an engine in service (R167). -/
def Engine.freeSlots (e : Engine) : Nat := if e.inService then (e.slots.toList.filter (·.isNone)).length else 0

/-- A run's invocations of context `c` that are not over: of a patch not started, or of one on an engine (R164). -/
def Dev.invPending (d : Dev) (c : Fin 64) (r : Run) : Bool :=
  (r.contexts.any (fun x => x.id == c) && !r.excluded.contains c &&
      (r.own.toList.flatten ++ r.shared).any fun p => r.contexts.any fun x => x.id == c && x.mask.getLsbD p.val) ||
    engIds.any fun e => match (d.engAt e).work with
      | none => false
      | some w => w.frame == r.frame && (w.rest.any (fun x => x.id == c && !r.excluded.contains c) ||
          match w.inv with | none => false | some i => i.ctx == c)

/-- Whether a late run still runs in slot `k` of engine `e`, which its context has given up (R163, R192). -/
def Dev.lateUses (d : Dev) (e k : Fin 8) : Bool :=
  d.course.lateRun.any fun r => r.contexts.any fun x =>
    x.ls && x.engine == e && x.slot == k && !(d.ctxAt x.id).slotValid && d.invPending x.id r

/-- The free slot of engine `e` that a placement takes: the lowest one that no late run still uses, else the lowest.
(DEDUCED, log 53) -/
def Dev.firstFree (d : Dev) (e : Fin 8) : Option (Fin 8) :=
  let free (k : Fin 8) : Bool := (d.engAt e).slots[k.val].isNone
  match engIds.find? fun k => free k && !d.lateUses e k with
  | some k => some k
  | none => engIds.find? free

/-- Free slots on engines in service (R195). -/
def Dev.freeSlots (d : Dev) : Nat := (engIds.map fun e => (d.engAt e).freeSlots).sum

/-- The contexts whose rank is `r`. -/
def Dev.rankHolder (d : Dev) (r : BitVec 6) (but : Fin 64) : Option (Fin 64) :=
  ctxIds.find? fun c => c != but && (d.ctxAt c).bound && (d.ctxAt c).rank == r

/-- The contexts with local store that hold a slot: the members of placement groups (R168). -/
def Dev.placed (d : Dev) : List (Fin 64) :=
  ctxIds.filter fun c => (d.ctxAt c).ls && (d.ctxAt c).slotValid && (d.ctxAt c).live

/-- A context's mask without the patches that hold no valid emitter, which are ignored (R161). -/
def Dev.maskAt (d : Dev) (c : Fin 64) : BitVec 256 := (d.ctxAt c).mask &&& d.scan.validPatches

/-- The union of the masks linked to `m` through the contexts listed, `n` links deep. -/
def linkMask (d : Dev) (cs : List (Fin 64)) : Nat → BitVec 256 → BitVec 256
  | 0, m => m
  | n + 1, m =>
    linkMask d cs n (cs.foldl (fun m c => if d.maskAt c &&& m != 0 then m ||| d.maskAt c else m) m)

/-- The members of the placement groups that a mask links, without context `but` (R168). -/
def Dev.linked (d : Dev) (m : BitVec 256) (but : Fin 64) : List (Fin 64) :=
  let cs := d.placed.filter (· != but)
  let u := linkMask d cs 63 (m &&& d.scan.validPatches)
  cs.filter fun c => d.maskAt c &&& u != 0

/-- The placement group of context `c`, itself included (R168). -/
def Dev.groupOf (d : Dev) (c : Fin 64) : List (Fin 64) :=
  ctxIds.filter fun x => x == c || (d.linked (d.ctxAt c).mask c).contains x

/-- The engine in service with the most free slots, the lowest number on a tie (R168). -/
def Dev.roomiest (d : Dev) : Option (Fin 8) :=
  (engIds.filter fun e => (d.engAt e).inService).foldl
    (fun b e => match b with
      | none => some e
      | some x => if (d.engAt x).freeSlots < (d.engAt e).freeSlots then some e else some x) none

/-- The contexts whose slot on engine `e` a Purlin migration to this device reserves (R189). (DEDUCED, log 51) -/
def Dev.reservedOn (d : Dev) (e : Fin 8) : List (Fin 64) :=
  ctxIds.filter fun c => match (d.ctxAt c).migration with
    | none => false
    | some m => !m.source && !m.decided && m.ls && m.engine == e

/-- Where no engine has a free slot, the engine R168 would choose were the reserved slots free (R191). -/
def Dev.reservedRoomiest (d : Dev) : Option (Fin 8) :=
  (engIds.filter fun e => (d.engAt e).inService && !(d.reservedOn e).isEmpty).foldl
    (fun b e => match b with
      | none => some e
      | some x => if (d.reservedOn x).length < (d.reservedOn e).length then some e else some x) none

/-- Where R168 places a context with a mask. -/
inductive Placing where
  /-- its mask links groups on different engines -/
  | split
  /-- no slot it may take; the engine whose slots are all held or reserved -/
  | full (engine : Option (Fin 8))
  /-- an engine with a free slot -/
  | at (engine : Fin 8)
  deriving DecidableEq, Repr

/-- The placement of R168 for a mask, context `but` left out. -/
def Dev.placing (d : Dev) (m : BitVec 256) (but : Fin 64) : Placing :=
  match d.linked m but with
  | [] => match d.roomiest with
    | none => .full none
    | some e => if (d.engAt e).freeSlots = 0 then .full d.reservedRoomiest else .at e
  | c :: r =>
    let e := (d.ctxAt c).engine
    if r.any fun x => (d.ctxAt x).engine != e then .split
    else if (d.engAt e).freeSlots = 0 then .full (some e) else .at e

/-- Context `c` takes the lowest free slot of engine `e`, with empty contents. -/
def Dev.takeSlot (d : Dev) (c : Fin 64) (e : Fin 8) : Dev :=
  match d.firstFree e with
  | none => d
  | some k =>
    (d.onEng e fun x => { x with slots := upd x.slots k fun _ => some c, slotMem := upd x.slotMem k fun _ => [] }).onCtx c
      fun x => { x with engine := e, slot := k, slotValid := true }

/-- A slot's entry made free. -/
def Dev.freeSlot (d : Dev) (e k : Fin 8) : Dev := d.onEng e fun x => { x with slots := upd x.slots k fun _ => none }

/-- The Loft area of a suspended context's local store (R169). -/
def ctxArea (c : Fin 64) : Nat := 0x1000 * (c.val - 1)

/-- The contents of context `c`'s local store where they are in a slot: the old slot while a copy is due; none while they
lie in the area of R169 or have not come over Purlin. -/
def Dev.storeMem (d : Dev) (c : Fin 64) : Option Mem :=
  let x := d.ctxAt c
  match x.copy with
  | none => some (d.engAt x.engine).slotMem[x.slot.val]
  | some (.slot e k) => some (d.engAt e).slotMem[k.val]
  | some _ => none

/-- The old slot of a context whose copy is still due, made free. -/
def Dev.freeOld (d : Dev) (c : Fin 64) : Dev :=
  match (d.ctxAt c).copy with
  | some (.slot e k) => d.freeSlot e k
  | _ => d

/-- Context `c` gives up its slot, and the old one where a copy is due; `save` keeps its local store in the area of R169. -/
def Dev.releaseSlot (d : Dev) (c : Fin 64) (save : Bool) : Dev :=
  let x := d.ctxAt c
  if x.slotValid then
    let d := match d.storeMem c with
      | some mem => if save && x.ls then d.loftWrite (ctxArea c) (readBytes mem 0 4096) else d
      | none => d
    ((d.freeOld c).freeSlot x.engine x.slot).onCtx c fun y =>
      { y with engine := 0, slot := 0, slotValid := false, copy := none, moving := false }
  else d

/-- Event 0x0302 and the state SUSPENDED with a cause (R165, R176). -/
def Dev.suspendCtx (d : Dev) (c : Fin 64) (cause : BitVec 4) (frame : BitVec 16) : Dev :=
  let d := d.releaseSlot c true
  let d := d.onCtx c fun x => { x with state := .suspended, scause := cause, trapped := false }
  d.event 0x0302 (payN 0 c.val ||| pay 8 cause ||| pay 16 frame)

/-- A placement change of context `c` to engine `e`, `moving` where CTX_MIGRATE orders it: a new slot, a new epoch, DRAINING
until the copy ends (R165, R185, R187, R188). The old slot stays until the copy has been made; where a copy is due already,
it is made from where it was due, and the slot it was due to is released. -/
def Dev.moveCtx (d : Dev) (c : Fin 64) (e : Fin 8) (frame : BitVec 16) (moving : Bool) : Dev :=
  let x := d.ctxAt c
  let src := match x.copy with
    | some y => y
    | none => if x.slotValid then CopySource.slot x.engine x.slot else .area
  let d := if x.copy.isSome && x.slotValid then d.freeSlot x.engine x.slot else d
  (d.takeSlot c e).onCtx c fun y =>
    { y with state := .draining, epoch := y.epoch + 1, switchFrame := frame, copy := some src, scause := 0,
             moving := moving }

/-! ### Runs -/

/-- Whether frame number `a` precedes `b`: the 16-bit numbers wrap (08 R221). -/
def precedes (a b : BitVec 16) : Bool := (a - b).msb

/-- The run that renders a frame: the current one or a late one (R174). -/
def Course.runOf (c : Course) (frame : BitVec 16) : Option Run :=
  if c.run.frame = frame then some c.run else c.lateRun.find? fun r => r.frame == frame

/-- The run that renders a frame changed by `f`. -/
def Dev.onRun (d : Dev) (frame : BitVec 16) (f : Run → Run) : Dev :=
  if d.course.run.frame = frame then { d with course := { d.course with run := f d.course.run } }
  else { d with course := { d.course with
    lateRun := d.course.lateRun.map fun r => if r.frame = frame then f r else r } }

/-- Every run with patches to render, oldest first. -/
def Course.runs (c : Course) : List Run := c.lateRun ++ [c.run]

/-- The P image of a handle (03 R80). -/
def Dev.imageOf (d : Dev) (h : BitVec 7) : Option Image :=
  if h = 0 then none else getN d.thatch.handles (h.toNat - 1) none

/-- The address that an entry word offset names: words from the image's first code section. (DEDUCED, log 74) -/
def Image.entryAt (i : Image) (off : Word) : Word :=
  match i.sections.find? fun s => s.kind == 1 with
  | none => 0
  | some s => BitVec.ofNat 32 s.addr + (off <<< 2)

/-- R165: RUNNING ends at the last invocation of the current run. -/
def Dev.settleCtx (d : Dev) (c : Fin 64) : Dev :=
  if (d.ctxAt c).state = .running && !d.invPending c d.course.run then
    d.onCtx c fun x => { x with state := .ready }
  else d

def Dev.settleAll (d : Dev) : Dev := ctxIds.foldl Dev.settleCtx d

/-! ### Invocations on an engine -/

/-- The scalar state an invocation starts with (R162): saved registers with local store, else 0. CYCLE is not touched.
(DESIGN CHOICE, log 104) -/
def Core.startInv (c : Core) (pc : Word) (regs : Vector Word 32) : Core :=
  { c with s := regs, pc := pc, flg := Flg.reset, rstack := [], lstack := [], mode := .running }

/-- An invocation begins on engine `e` (05 R133, R157, 06 R162, R187). -/
def Dev.startInv (d : Dev) (e : Fin 8) (w : Work) (i : Invocation) (entry : Word) : Dev :=
  let pc := match d.imageOf i.handle with | none => 0 | some m => m.entryAt entry
  let regs := if i.ls then (d.ctxAt i.ctx).regs else Vector.replicate 32 0
  let epochs := if i.ctx = 0 then w.epochs else w.epochs ++ [(i.ctx, (d.ctxAt i.ctx).epoch)]
  d.onEng e fun x =>
    { x with core := x.core.startInv pc regs, v := Vector.replicate 16 (Vector.replicate 16 0),
             p := Vector.replicate 8 0xFFFF, m := Vector.replicate 16 0, vidx := 0,
             work := some { w with inv := some i, epochs := epochs } }

/-- Where the local store of a context's invocation on engine `e` lies, by engine and slot; none while the invocation waits
for a copy or a transfer (R172, R185, R188, R189). A late run whose context has given up its slot goes on in the slot that
it started with (R163, R192), and so does a patch still on the engine that the context leaves. (DEDUCED, log 53) -/
def Dev.invPlace (d : Dev) (e : Fin 8) (r : Run) (x : RunContext) : Option (Fin 8 × Fin 8) :=
  let c := d.ctxAt x.id
  let old := precedes r.frame c.switchFrame
  if c.copy = some .purlin ∧ old = false then none
  else if !x.ls then some (e, 0)
  else if !c.slotValid then some (x.engine, x.slot)
  else match c.copy with
    | none => some (c.engine, c.slot)
    | some (.slot f k) => if old && e == f then some (f, k) else none
    | some _ => if old then some (x.engine, x.slot) else none

/-- The next invocation of the patch on engine `e`, by rank, then the finish program, then the drain (05 R156, 06 R172);
`n` bounds the contexts passed over. -/
def Dev.advanceN (d : Dev) (e : Fin 8) : Nat → Dev
  | 0 => d
  | n + 1 =>
    match (d.engAt e).work with
    | none => d
    | some w =>
      if w.inv.isSome then d
      else match d.course.runOf w.frame with
        | none => d
        | some r =>
          match w.rest with
          | x :: rest =>
            if r.excluded.contains x.id then
              (d.onEng e fun g => { g with work := some { w with rest := rest } }).advanceN e n
            else match d.invPlace e r x with
              | none => d
              | some k =>
                d.startInv e { w with rest := rest }
                  { ctx := x.id, rank := x.rank, handle := x.handle, params := x.params, src := x.src, ls := x.ls,
                    home := k.1, slot := k.2, cycles := 0 } x.entry
          | [] =>
            if w.finishDue then
              d.startInv e { w with finishDue := false }
                { ctx := 0, rank := 0, handle := r.finish.handle, params := r.finish.params, src := 0xFFFFFFFF,
                  ls := false, home := e, slot := 0, cycles := 0 } r.finish.entry
            else match (d.engAt e).drain with
              | some _ => d
              | none =>
                (d.onRun w.frame fun r => { r with rendered := upd r.rendered e (· + 1) }).onEng e fun g =>
                  { g with drain := some { patch := w.patch, frame := w.frame, words := w.words, epochs := w.epochs },
                           work := none, core := { g.core with mode := .stopped } }

/-- Engine `e` goes on with its patch. -/
def Dev.advance (d : Dev) (e : Fin 8) : Dev := d.advanceN e 66

/-- Every engine goes on where it waited. -/
def Dev.advanceAll (d : Dev) : Dev := engIds.foldl Dev.advance d

/-- A context's invocation cycles, saturating (R193). -/
def satWord (n : Nat) : Word := if n < 2 ^ 32 then BitVec.ofNat 32 n else 0xFFFFFFFF

/-- The Batten frame number of the next LAT (08 R221). -/
def Dev.nextLat (d : Dev) : BitVec 16 := if d.scan.firstLat then 0 else d.scan.frame + 1

/-- The frame that the run starting at the next LAT renders: it is transferred one period later (R170, 08 R249). -/
def Dev.nextRun (d : Dev) : BitVec 16 := d.nextLat + 1

/-- Event 0x0305 for the migration of context `c` (R196). -/
def Dev.migrateAbortEvent (d : Dev) (c : Fin 64) (cause : Nat) (frame : BitVec 16) : Dev :=
  d.event 0x0305 (payN 0 c.val ||| payN 8 cause ||| pay 32 frame)

/-- A migration of context `c` within the device ended without success (R166, R192): event 0x0305. The context keeps the slot
it was leaving; where that lies on a retired engine, the copy goes on as that of a re-placement (R185). (DEDUCED, log 51) -/
def Dev.abortMove (d : Dev) (c : Fin 64) (cause : Nat) : Dev :=
  let x := d.ctxAt c
  if !x.moving then d
  else
    let d := match x.copy with
      | some (.slot e k) =>
        if (d.engAt e).inService then
          let d := d.freeSlot x.engine x.slot
          let busy := d.course.active && d.invPending c d.course.run
          d.onCtx c fun y =>
            { y with state := if busy then .running else .ready, engine := e, slot := k, copy := none, moving := false }
        else d.onCtx c fun y => { y with moving := false }
      | _ => d.onCtx c fun y => { y with moving := false }
    d.migrateAbortEvent c cause x.switchFrame

/-- The contexts with an in-device migration whose source or target is engine `e`. -/
def Dev.movingOn (d : Dev) (e : Fin 8) : List (Fin 64) :=
  ctxIds.filter fun c => (d.ctxAt c).moving && match (d.ctxAt c).copy with
    | some (.slot s _) => s == e || (d.ctxAt c).engine == e
    | _ => (d.ctxAt c).engine == e

/-- The source of a Purlin migration whose decide LAT has passed keeps the context (R190): placed on itself again from run
`run` with a further epoch, or suspended with SCAUSE 4 when no slot is free. -/
def Dev.takeBack (d : Dev) (c : Fin 64) (epoch : Byte) (run : BitVec 16) : Dev :=
  let d := d.onCtx c fun x => { x with epoch := epoch, switchFrame := run, copy := none }
  let stay (d : Dev) : Dev := d.onCtx c fun x => { x with state := .ready, epoch := x.epoch + 1 }
  if (d.ctxAt c).ls then
    match d.placing (d.ctxAt c).mask c with
    | .at e => if (d.ctxAt c).slotValid && (d.ctxAt c).engine == e then stay d else d.moveCtx c e run false
    | _ => if (d.ctxAt c).slotValid then stay d else d.suspendCtx c 4 run
  else stay d

/-- The target of a Purlin migration gives the context up (R190): its slot or reservation is released, it is IDLE, and what
frame S had waiting for it goes on without it. -/
def Dev.dropTarget (d : Dev) (c : Fin 64) (m : Migration) : Dev :=
  let x := d.ctxAt c
  let d := if !m.ls then d else if m.decided then d.freeSlot x.engine x.slot else d.freeSlot m.engine m.slot
  let d := d.onCtx c fun _ => Context.reset
  let d := if m.decided then d.onRun m.frame fun r => { r with excluded := c :: r.excluded } else d
  d.advanceAll

/-- A Purlin migration of context `c` ended without success (R190, R192): before the decide LAT nothing changes; after
it the source takes the context back from run `run`, and the target drops it. -/
def Dev.abortMigration (d : Dev) (c : Fin 64) (cause : Nat) (run : BitVec 16) : Dev :=
  match (d.ctxAt c).migration with
  | none => d
  | some m =>
    let d := d.onCtx c fun x => { x with migration := none }
    let d := if !m.source then d.dropTarget c m else if m.decided then d.takeBack c m.epoch run else d
    d.migrateAbortEvent c cause m.frame

/-- Every migration in progress, over Purlin or within the device, ended with one cause (R166, R192). -/
def Dev.abortMigrations (d : Dev) (cause : Nat) : Dev :=
  ctxIds.foldl (fun d c => (d.abortMigration c cause d.nextRun).abortMove c cause) d

/-- The code of a mode (15 R439). -/
def Mode.code : Mode → BitVec 4
  | .off => 0 | .standby => 1 | .retention => 2 | .boot => 3 | .load => 4 | .proof => 5 | .armed => 6 | .run => 7
  | .degraded => 8 | .safeHold => 9 | .trim => 10 | .service => 11

/-- The mode of a code (15 R439). -/
def Mode.ofCode (x : BitVec 4) : Option Mode :=
  [Mode.off, .standby, .retention, .boot, .load, .proof, .armed, .run, .degraded, .safeHold, .trim, .service][x.toNat]?

/-- Event 0x0204 about the command with a TAG of a ring (03 R85). -/
def Dev.cancelled (d : Dev) (ring : Byte) (tag : BitVec 16) : Dev :=
  d.event 0x0204 (pay 0 ring ||| pay 16 tag ||| pay 32 d.sys.mode.code)

/-- Event 0x0204: a scheduled effect cancelled (03 R85). -/
def Dev.cancelEvent (d : Dev) (e : Effect) : Dev := d.cancelled e.ring e.tag

/-- Whether SAFE HOLD entry cancels an effect: context, finish, engine and input effects (06 R166, 07 R213). -/
def EffectOp.droppedInHold : EffectOp → Bool
  | .tmodeSelect _ => false
  | .frameCommit _ => false
  | .zonesetSelect _ => false
  | .twinYield => false
  | _ => true

/-- The effects that SAFE HOLD entry cancels, each with event 0x0204. -/
def Dev.cancelForHold (d : Dev) : Dev :=
  let gone := d.effects.filter fun e => e.op.droppedInHold
  let d := { d with effects := d.effects.filter fun e => !e.op.droppedInHold }
  gone.foldl Dev.cancelEvent d

end Sys2Proof.Machine
end

