-- ==== Sys2Proof/Machine/Barrier.lean ====
section
/-! DEFINITION. The frames of the barrier link as they cross it (13 R395): their code groups, and what a receiver reads from
them. -/

namespace Sys2Proof.Machine

open Sys2Proof

/-- The bytes of words, each least significant byte first (R395). -/
def wordBytes32 (ws : List Word) : List Byte := ws.flatMap fun w => leBytes w.toNat 4

/-- The words in bytes, four to a word. -/
def bytesWords : List Byte → List Word
  | a :: b :: c :: d :: r => (d ++ c ++ b ++ a) :: bytesWords r
  | _ => []

/-- Bytes as Dx.y codes from a running disparity on. -/
def codeBytes : Bool → List Byte → List (BitVec 10)
  | _, [] => []
  | rd, b :: r => let g := dataCode rd b; g :: codeBytes (groupAfter rd g) r

/-- The bytes of a frame behind its K28.5: its words and their CRC-32 (R395). -/
def barrierBytes (ws : List Word) : List Byte := wordBytes32 (ws ++ [crc32 (wordBytes32 ws)])

/-- The code groups of a frame of words, sent at a running disparity (R395). -/
def barrierFrame (rd : Bool) (ws : List Word) : List (BitVec 10) :=
  let k := KCode.code rd .idle
  k :: codeBytes (groupAfter rd k) (barrierBytes ws)

/-- The running disparity after code groups. -/
def rdAfter (rd : Bool) (gs : List (BitVec 10)) : Bool := gs.foldl groupAfter rd

/-- The data bytes of symbols; none where one is a K-code or bad. -/
def symBytes : List Sym → Option (List Byte)
  | [] => some []
  | .data b :: r => (symBytes r).map (b :: ·)
  | _ :: _ => none

/-- The words that a receiver reads from a frame's code groups: none where it does not begin with K28.5, a symbol is bad or
the CRC does not verify (R395 to R397). -/
def barrierWords (gs : List (BitVec 10)) : Option (List Word) :=
  match symbols gs with
  | .ctrl .idle :: r =>
    match symBytes r with
    | none => none
    | some bs =>
      let ws := bytesWords bs
      if bs.length % 4 = 0 ∧ 2 ≤ ws.length ∧ ws.getLast? = some (crc32 (bs.take (bs.length - 4))) then some ws.dropLast
      else none
  | _ => none

/-- Code groups with the bits that the link inverted. -/
def withNoise (gs noise : List (BitVec 10)) : List (BitVec 10) := gs.zipIdx.map fun x => x.1 ^^^ noise.getD x.2 0

/-! ### Frames (R396, R397) -/

/-- A valid header of a command frame (R396). -/
def headerOk (h : Word) : Bool :=
  let kind := (h.extractLsb' 20 4).toNat
  let off := (h.extractLsb' 8 8).toNat
  h.extractLsb' 24 8 == (0xA5 : BitVec 8) && (kind == 1 && off == 0 || kind == 2 && decide (off ≤ 39)) &&
    h.extractLsb' 5 3 == (0 : BitVec 3) && h.extractLsb' 0 4 != (15 : BitVec 4)

/-- A command frame in its words: the header, the HOST word and the N payload words (R396). -/
def cmdOfWords : List Word → Option CmdFrame
  | h :: host :: ws =>
    if headerOk h && ws.length == (h.extractLsb' 0 4).toNat then
      some { config := h.extractLsb' 20 4 == (2 : BitVec 4), cnt := h.extractLsb' 16 4, offset := h.extractLsb' 8 8,
             ack := h.getLsbD 4, host := host, words := ws }
    else none
  | _ => none

/-- An input frame in its words: W0 to W5, and as many more as W0 says (R397). -/
def inputOfWords (ws : List Word) : Option InputFrame :=
  match ws with
  | a :: b :: c :: d :: e :: f :: r =>
    if r.length = (a.extractLsb' 4 4).toNat ∧ r.length ≤ 8 then some { w := #v[a, b, c, d, e, f], extra := r } else none
  | _ => none

/-- Whether a command frame was sent as a configuration frame. -/
def sentConfig (gs : List (BitVec 10)) : Bool :=
  match (barrierWords gs).bind cmdOfWords with
  | none => false
  | some x => x.config

end Sys2Proof.Machine
end

