-- ==== Sys2Proof/Machine/SoffitDie.lean ====
section
/-! DEFINITION. The Soffit die's inputs and pairs, and the state each output follows (13 R399 to R410, R414, R415). -/

namespace Sys2Proof.Machine

open Sys2Proof

/-! ### The FIELD section (R399, R402) -/

/-- The defaults of R402 as a FIELD section: TSIL 20, every input PERIOD 20, FILTER 3, WB, untied; outputs unused. -/
def defaultField : BitVec 1280 :=
  packBytes 1280 (([20, 0] ++ List.replicate 14 0) ++
    (List.replicate 8 [0, 2, 20, 3, 0xFF, 0, 0, 0]).flatten ++ List.replicate 80 0)

def fTsil (f : BitVec 1280) : Nat := (half16 f 0).toNat
def fDouserMs (f : BitVec 1280) : Nat := (half16 f 2).toNat
def fGroups (f : BitVec 1280) : Byte := byteAt f 4
def fIn (f : BitVec 1280) (k off : Nat) : Byte := byteAt f (16 + 8 * k + off)
def fInMode (f : BitVec 1280) (k i : Nat) : Bool := (fIn f k 1).getLsbD i
def fPairKind (f : BitVec 1280) (p : Nat) : Nat := (byteAt f (80 + 4 * p)).toNat
def fPairDemand (f : BitVec 1280) (p : Nat) : Bool := (byteAt f (81 + 4 * p)).getLsbD 0
def fPairDisc (f : BitVec 1280) (p : Nat) : Nat := (half16 f (82 + 4 * p)).toNat
def fOutAssign (f : BitVec 1280) (k : Nat) : Nat := (byteAt f (96 + 8 * k)).toNat
def fOutSafe (f : BitVec 1280) (k : Nat) : Nat := (byteAt f (97 + 8 * k)).toNat
def fOutOfft (f : BitVec 1280) (k : Nat) : Nat := (half16 f (98 + 8 * k)).toNat
def fOutOffPer (f : BitVec 1280) (k : Nat) : Nat := (byteAt f (100 + 8 * k)).toNat
def fOutOnt (f : BitVec 1280) (k : Nat) : Nat := (byteAt f (101 + 8 * k)).toNat
def fOutOnPer (f : BitVec 1280) (k : Nat) : Nat := (byteAt f (102 + 8 * k)).toNat

/-- The lowest-numbered output of the group that output `k` belongs to (R399, R409). -/
def fLead (f : BitVec 1280) (k : Nat) : Nat :=
  let g := fGroups f
  if g.getLsbD (4 + k / 4) then 4 * (k / 4) else if g.getLsbD (k / 2) then 2 * (k / 2) else k

/-- The outputs that switch together with output `k` (R409). -/
def fMembers (f : BitVec 1280) (k : Nat) : BitVec 8 :=
  (upTo 8).foldl (fun m j => if fLead f j = fLead f k then setBit m j true else m) 0

/-- The configuration the Soffit applies, or the defaults. -/
def Soffit.field (s : Soffit) : BitVec 1280 := s.cfg.getD defaultField

/-- The CRC of W5 (R397): 0 under the defaults. -/
def fieldCrc (f : BitVec 1280) : Word := crc32 ((upTo 160).map (byteAt f))
def Soffit.w5 (s : Soffit) : Word := match s.cfg with | none => 0 | some f => fieldCrc f

/-! ### Inputs and pairs (R403 to R407) -/

def Soffit.input (s : Soffit) (k : Nat) : FieldIn := getN s.inputs k FieldIn.reset
def Soffit.output (s : Soffit) (k : Nat) : FieldOut := getN s.outputs k FieldOut.reset

def Soffit.pair (s : Soffit) (p : Nat) : FieldPair := getN s.pairs p { disc := false, since := none }

/-- The state of an input: INVALID while a cross-circuit is latched (R405). -/
def FieldIn.state (i : FieldIn) : InClass := if i.cross then .invalid else i.filtered

/-- The raw class of a measurement in microamperes, and whether it lies in a HOLD band (R403). -/
def rawClass (prev : InClass) (wb : Bool) (ua : Nat) : InClass × Bool :=
  if 2000 ≤ ua then (.on, false)
  else if 1500 ≤ ua then (prev, true)
  else if wb && decide (ua < 300) then (.broken, false)
  else if wb && decide (ua < 350) then (prev, true)
  else (.off, false)

/-- The filter of R404. -/
def FieldIn.filter (i : FieldIn) (raw : InClass) (n : Nat) : FieldIn :=
  let j := if raw = i.filtered then { i with count := i.count - 1 }
    else if raw = i.candidate then { i with count := i.count + 1 }
    else { i with candidate := raw, count := 1 }
  if j.count = n then { j with filtered := j.candidate, count := 0 } else j

/-- Whether input `k` is in its run state (R406). -/
def Soffit.inRun (s : Soffit) (k : Nat) : Bool :=
  (s.input k).state == (if fInMode s.field k 4 then InClass.on else InClass.off)

/-- RUN and DEMAND of pair `p` (R406). -/
def Soffit.pairRun (s : Soffit) (p : Nat) : Bool :=
  fPairKind s.field p != 0 && s.inRun (2 * p) && s.inRun (2 * p + 1) && !(s.pair p).disc
def Soffit.pairDemand (s : Soffit) (p : Nat) : Bool :=
  fPairKind s.field p != 0 && fPairDemand s.field p && !s.pairRun p

/-- Pair `p` evaluated at a sample (R406): how long its channels have differed, and the end of DISC. -/
def Soffit.evalPair (s : Soffit) (p : Nat) : Soffit :=
  if fPairKind s.field p = 0 then s
  else
    let a := s.inRun (2 * p)
    let b := s.inRun (2 * p + 1)
    { s with pairs := updN s.pairs p fun x =>
        { disc := x.disc && (a || b), since := if a = b then none else some (x.since.getD s.us) } }

/-- Start-up tests pending (R407): inputs with STARTUP not yet seen in TSTATE. -/
def Soffit.pending (s : Soffit) (k : Nat) : Bool := fInMode s.field k 2 && !(s.input k).passed

/-- TSTATE of an input (R399). -/
def tstate (f : BitVec 1280) (k : Nat) : InClass := if fInMode f k 3 then .on else .off

/-- The start-up test of input `k` under a configuration (R407): passed once the filtered state has been TSTATE. -/
def FieldIn.startTest (i : FieldIn) (f : BitVec 1280) (k : Nat) : FieldIn :=
  { i with passed := i.passed || (fInMode f k 2 && (if fInMode f k 3 then i.seenOn else i.seenOff)) }

/-- The filtered state as the start-up test records it (R407). -/
def FieldIn.record (i : FieldIn) : FieldIn :=
  { i with seenOff := i.seenOff || i.filtered == .off, seenOn := i.seenOn || i.filtered == .on }

/-- One measurement of input `k` (R403, R404, R406, R407): while L+ is missing the state is INVALID (R414). -/
def Soffit.measure (s : Soffit) (k : Fin 8) (ua : Nat) : Soffit :=
  let f := s.field
  let i := s.inputs[k.val]
  let r := rawClass i.raw (fInMode f k.val 1) ua
  let j := { i with raw := r.1, hold := r.2 }
  let j := if s.lplus = 2 then j else j.filter r.1 (fIn f k.val 3).toNat
  let j := j.record.startTest f k.val
  let broken := j.filtered == .broken && i.filtered != .broken
  let s : Soffit := { s with inputs := upd s.inputs k fun _ => j,
                             faultKind := if broken then 5 else s.faultKind,
                             faultIndex := if broken then BitVec.ofNat 3 k.val else s.faultIndex }
  s.evalPair (k.val / 2)

/-- A sample of input `k`, once per PERIOD (R393, R403): `step` tells that a calibration step takes its place, which the filter
does not count (R419). -/
def Soffit.sample (s : Soffit) (k : Fin 8) (ua : Nat) (step : Bool) : Soffit :=
  if s.powered && decide (s.inputs[k.val].due ≤ s.us) then
    let due := s.us + 50 * (fIn s.field k.val 2).toNat
    let s' := if step then s else s.measure k ua
    { s' with inputs := upd s'.inputs k fun i => { i with due := due } }
  else s

/-- A pair whose channels have differed for longer than its DISC time (R406). -/
def Soffit.discTimeout (s : Soffit) (p : Fin 4) : Soffit :=
  let x := s.pairs[p.val]
  match x.since with
  | none => s
  | some t =>
    if !x.disc && decide (t + 1000 * fPairDisc s.field p.val < s.us) then
      { s with pairs := upd s.pairs p fun x => { x with disc := true }, faultKind := 7, faultIndex := BitVec.ofNat 3 p.val }
    else s

/-- L+ takes a state (R414): missing makes every input INVALID at once. -/
def Soffit.lplusTo (s : Soffit) (x : BitVec 2) : Soffit :=
  let s' : Soffit := { s with lplus := x }
  if x = 2 ∧ s.lplus ≠ 2 then
    let s' : Soffit := { s' with inputs := s'.inputs.map fun (i : FieldIn) =>
      { i with filtered := .invalid, candidate := .invalid, count := 0 } }
    [0, 1, 2, 3].foldl Soffit.evalPair s'
  else s'

/-- The timer of a condition that must persist. -/
def timerFor (cond : Bool) (now : Nat) (t : Option Nat) : Option Nat := if cond then some (t.getD now) else none

/-- Whether a timer has run for 1 ms. -/
def timerRan (now : Nat) (t : Option Nat) : Bool := match t with | none => false | some x => decide (x + 1000 ≤ now)

/-- The monitor's look at L+ of `mv` millivolts (R414): each of the low and the missing state changes once its condition has
persisted for 1 ms. -/
def Soffit.lplusSeen (s : Soffit) (mv : Nat) : Soffit :=
  if s.powered then
    let low := s.lplus != 0
    let miss := s.lplus == 2
    let lt := timerFor (if low then decide (19700 < mv) else decide (mv < 19200)) s.us s.lowTimer
    let mt := timerFor (if miss then decide (15500 < mv) else decide (mv < 15000)) s.us s.missTimer
    let low' := low != timerRan s.us lt
    let miss' := miss != timerRan s.us mt
    let s' := s.lplusTo (if miss' then 2 else if low' then 1 else 0)
    { s' with lowTimer := if timerRan s.us lt then none else lt, missTimer := if timerRan s.us mt then none else mt }
  else s

/-! ### Outputs (R409 to R413) -/

/-- The state an output follows outside a test: off when unpowered, unused or faulted; its safe state in logic silence or
with the sequencer halted; otherwise its command (R410, R415). -/
def Soffit.follows (s : Soffit) (k : Nat) : Bool :=
  let l := fLead s.field k
  let o := s.output l
  if !s.powered || fOutAssign s.field l == 0 || o.fault.isSome then false
  else if s.safeState then
    (if fOutSafe s.field l = 1 then true else if fOutSafe s.field l = 2 then o.cmd else false)
  else o.cmd

/-- Whether output `k` belongs to the group under test. -/
def Soffit.underTest (s : Soffit) (k : Nat) : Bool :=
  match s.test with
  | none => false
  | some t => t.members.getLsbD k

/-- An output switched: a resistive load's readback follows it (R409). -/
def FieldOut.switch (o : FieldOut) (on : Bool) (now : Nat) : FieldOut :=
  if o.on = on then o else { o with on := on, readback := on, movedAt := now, limitSince := none }

/-- Every output not under test takes the state it follows. -/
def Soffit.settle (s : Soffit) : Soffit :=
  { s with outputs := s.outputs.mapFinIdx fun k (o : FieldOut) _ =>
      if s.underTest k then o else o.switch (s.follows k) s.us }

/-! ### The core side of the link (R396, R401) -/

/-- A complete command frame sent: CNT and the HOST word inserted (R396, R416). -/
def Dev.putCmd (d : Dev) (h : Word) (ws : List Word) : Dev :=
  let h : Word := (h &&& 0xFFF0FFFF) ||| (d.fld.txCnt.setWidth 32 <<< 16)
  let host : Word := (0 : BitVec 16) ++ d.fld.dqClear ++ d.fld.dqOn
  let gs := barrierFrame d.fld.downRd (h :: host :: ws)
  { d with fld := { d.fld with down := d.fld.down ++ [gs], downRd := rdAfter d.fld.downRd gs, txCnt := d.fld.txCnt + 1,
                               dqClear := 0 } }

/-- The Gable's own command of outputs (11 R338, R340, R348): a data frame with one DQWR word, which commands nothing on while
CFG_OK is 0 (13 R401). A Gable that is lost sends nothing. (DEDUCED, log 114) -/
def Dev.gableOutputs (d : Dev) (on mask : BitVec 8) : Dev :=
  if d.gbl.cfg.isSome ∧ d.gbl.lost = 0 ∧ mask ≠ 0 then
    d.putCmd 0xA5100001 [(0 : BitVec 16) ++ mask ++ (if d.fld.cfgOk then on &&& mask else 0)]
  else d

/-- The bits of the outputs `ks` that govern their groups. -/
def leadMask (f : BitVec 1280) (ks : List Nat) : BitVec 8 := ks.foldl (fun m k => setBit m (fLead f k) true) 0

/-- Outputs sent their safe states by the Gable: one whose safe state is hold keeps its command (R415). -/
def Dev.gableSafe (d : Dev) (ks : List Nat) : Dev :=
  match d.gbl.cfg with
  | none => d
  | some c =>
    let f := c.field
    d.gableOutputs (leadMask f (ks.filter fun k => fOutSafe f (fLead f k) == 1))
      (leadMask f (ks.filter fun k => fOutSafe f (fLead f k) != 2))

/-- The douser output (11 R352), no output where there is none. -/
def SafetyConfig.dousers (c : SafetyConfig) : List Nat := if c.douser = 0xFF then [] else [c.douser]

/-- The douser sent its safe state (11 R338, 13 R408). -/
def Dev.douserSafe (d : Dev) : Dev := match d.gbl.cfg with | none => d | some c => d.gableSafe c.dousers

/-- The douser sent the opposite of its safe state, on for hold (13 R408). (DEDUCED, log 114) -/
def Dev.douserOpen (d : Dev) : Dev :=
  match d.gbl.cfg with
  | none => d
  | some c =>
    let m := leadMask c.field c.dousers
    d.gableOutputs (if fOutSafe c.field (fLead c.field c.douser) = 1 then 0 else m) m

/-- The douser sent back after its test (13 R408): a douser whose safe state is hold is sent off. (DEDUCED, log 114) -/
def Dev.douserClose (d : Dev) : Dev :=
  match d.gbl.cfg with
  | none => d
  | some c =>
    let m := leadMask c.field c.dousers
    d.gableOutputs (if fOutSafe c.field (fLead c.field c.douser) = 1 then m else 0) m

/-- Every safety output sent its safe state (11 R348). -/
def Dev.outputsSafe (d : Dev) : Dev :=
  match d.gbl.cfg with
  | none => d
  | some c => d.gableSafe ((upTo 8).filter fun k => fOutAssign c.field k == 1)

end Sys2Proof.Machine
end

