-- ==== Sys2Proof/Machine/Modes.lean ====
section
/-! DEFINITION. The mode machine and the reactions that every part of the model shares: LIVE outputs (11 R318),
inhibits and string channels by mode (10 R296 to R298), ends of calibration runs and injections by mode, mode changes
(15 R441, R442), DEGRADED and SAFE HOLD (11 R343 to R348), Gable and Ridge losses (11 R320, R321), core resets
(15 R457 to R459). -/

namespace Sys2Proof.Machine

open Sys2Proof

/-! ### Completion of long commands -/

/-- A long command completed: its completion written and its ring free again (03 R78, R83). (DEDUCED, log 54) -/
def Dev.finishLong (d : Dev) (h : CmdHdr) (opcode : Byte) (st : CmdStatus) (r0 r1 : Word) : Dev :=
  (d.ring h.ring.val fun r => { r with inService := none }).complete h opcode st r0 r1

/-! ### LIVE outputs (11 R318) -/

/-- The modes in which the LIVE outputs may toggle. -/
def Mode.liveMode : Mode → Bool
  | .proof | .armed | .trim | .run | .degraded | .service => true
  | _ => false

/-- The channels that feed a killed tile. (DEDUCED, log 63) -/
def killedChannels (c : Option SafetyConfig) (k : BitVec 128) : BitVec 8 :=
  match c with
  | none => 0
  | some c => BitVec.ofNat 8 (((upTo 8).filter fun ch => (c.feeds ch).any fun t => k.getLsbD t).foldl
      (fun n ch => n + 2 ^ ch) 0)

/-- Whether some killed tile is fed by no channel. (DEDUCED, log 63) -/
def unfedKill (c : Option SafetyConfig) (k : BitVec 128) : Bool :=
  match c with
  | none => false
  | some c => (bitsOf k).any fun t => (c.feeders t).isEmpty

/-- DEGCAUSE values that name a Gable loss (R320). -/
def gableCause (c : BitVec 4) : Bool := decide (1 ≤ c.toNat) && decide (c.toNat ≤ 4)

/-- The Gable runs and holds HBT (R320, R368). -/
def Dev.gableAlive (d : Dev) : Bool := d.gbl.lost == 0 && d.gbl.hbtHeld && d.thatch.gableImage.isSome

/-- The permit of LIVE_G (R318): the Ridge's while in DEGRADED after a Gable loss. -/
def Dev.livePermit (d : Dev) : Bool :=
  d.gableAlive || (d.sys.mode == .degraded && gableCause d.gbl.degCause)

/-- Nothing holds the core die in reset. -/
def ResetHold.clear (h : ResetHold) : Bool := !(h.rstN || h.thermal || h.truss || h.brown || h.ridge)

/-- The core die is powered, not held in reset and not stopped (02 R51). -/
def Dev.coreUp (d : Dev) : Bool :=
  d.sys.hold.clear && d.sys.resetCause.isNone && d.sys.mode != .off && d.sys.mode != .standby && d.sys.mode != .retention

/-- The barrier link carries SCLK to the Soffit (13 R394). -/
def Dev.linkUp (d : Dev) : Bool := d.coreUp && d.sys.lock

/-- What both LIVE outputs need (R318). -/
def Dev.liveCommon (d : Dev) : Bool :=
  d.coreUp && d.gbl.cfg.isSome && d.sys.mode.liveMode && !d.gbl.liveFault

/-- LIVE_G toggles (R318). -/
def Dev.liveG (d : Dev) : Bool :=
  d.liveCommon && d.livePermit && d.gbl.demand == 0 && !d.gbl.sf2Latch &&
    !unfedKill d.gbl.cfg d.gbl.killed && !(d.inj.held && d.inj.stopG)

/-- An encoder-G and an encoder-H fault (R330). -/
def Rdg.gFault (r : Rdg) : Bool := r.enc[0].fault || r.enc[1].fault
def Rdg.hFault (r : Rdg) : Bool := r.enc[2].fault || r.enc[3].fault

/-- A fault of a Flashing stream as the Ridge finds it (01 R20): a timeout, or a RESET that a sequence error caused.
(DEDUCED, log 115) -/
def FlashConn.faulty (x : FlashConn) : Bool := x.state == .timeout || (x.state == .reset && x.seqErr != 0)

/-- The Ridge finds a fault of encoder H or of its Flashing frames (01 R20). (DEDUCED, log 115) -/
def Dev.ridgeSees (d : Dev) : Bool :=
  d.rdg.hFault || match d.gbl.cfg with
    | none => false
    | some c => (List.finRange 8).any fun i => c.fcKind i.val == 4 && (d.flash.conns[i.val]).faulty

/-- LIVE_H toggles (R318, 01 R20). -/
def Dev.liveH (d : Dev) : Bool :=
  d.liveCommon && d.rdg.fault == 0 && d.rdg.demand == 0 && !unfedKill d.gbl.cfg d.rdg.killed &&
    !(d.inj.held && d.inj.stopH) && !d.ridgeSees

/-- A LIVE output stopped or may have stopped: the light period no longer counts as live throughout (09 R279). -/
def Dev.noteLive (d : Dev) : Dev :=
  if d.liveG && d.liveH then d else { d with prv := { d.prv with liveThrough := false } }

/-! ### String channels by mode and inhibit (10 R296 to R298) -/

/-- Whether a channel may regulate in a mode, inhibits and faults apart (R298). -/
def channelRuns (m : Mode) (mode : BitVec 2) (owned : Bool) : Bool :=
  match m with
  | .proof | .armed | .trim => mode == 1 || (mode == 2 && owned)
  | .run | .degraded | .service => mode == 1 || mode == 2
  | _ => false

/-- Whether channel `ch` may regulate now. -/
def Dev.mayRun (d : Dev) (ch : Fin 8) : Bool :=
  let c := d.str[ch.val]
  d.coreUp && channelRuns d.sys.mode c.mode (d.owned ch.val) && !(d.gbl.inh ||| d.rdg.inh).getLsbD ch.val &&
    !c.latched && c.state != 3 &&
    !(d.inj.held && d.inj.gates.getLsbD ch.val)

/-- Channel `ch` as its mode, inhibits and faults leave it: GATE low, or started again under R292 with a new ramp; a STRING
channel starts at its next PWM period (R296). -/
def Dev.refreshChannel (d : Dev) (ch : Fin 8) : Dev :=
  let run := d.mayRun ch
  { d with str := upd d.str ch fun c =>
      if c.state = 3 then { c with gate := false, regThrough := false }
      else if !run then { c with state := 0, gate := false, armed := false, lowSince := none, regThrough := false }
      else if c.state = 0 && c.mode == 1 then
        { c with state := 1, gate := true, armed := false, rampFrom := d.now, regThrough := false }
      else c }

/-- Whether either inhibit holds a channel. -/
def Dev.inhibited (d : Dev) (ch : Nat) : Bool := (d.gbl.inh ||| d.rdg.inh).getLsbD ch

/-- An automatic restart, once 100 ms have passed since its fault (R300) and both inhibits are released (R312). -/
def Dev.strRetry (d : Dev) (ch : Fin 8) : Dev :=
  let c := d.str[ch.val]
  match c.retryDue with
  | none => d
  | some f =>
    if c.state = 3 && decide (c.faultAt + 100000 ≤ d.now) && !d.inhibited ch.val then
      let d : Dev := { d with str := upd d.str ch fun c =>
        { c with state := 0, retries := if c.retries = 3 then 3 else c.retries + 1, lastRetry := some (d.now, f),
                 retryDue := none } }
      (d.refreshChannel ch).event 0x0702 (payN 0 ch.val ||| payN 4 1)
    else d

/-- The channels of the device. -/
def channels : List (Fin 8) := List.finRange 8

def Dev.refreshChannels (d : Dev) : Dev := channels.foldl Dev.refreshChannel d

/-- The inhibits that the kills in force, SAFE HOLD and a lost Ridge call for (11 R321, R336, R337, R348). -/
def Dev.refreshInhibits (d : Dev) : Dev :=
  let g := if d.sys.mode = .safeHold then 0xFF else killedChannels d.gbl.cfg d.gbl.killed
  let r := if d.sys.mode = .safeHold ∨ d.rdg.fault ≠ 0 then 0xFF else killedChannels d.gbl.cfg d.rdg.killed
  let free := (d.gbl.inh ||| d.rdg.inh) &&& ~~~(g ||| r)
  let d := Dev.refreshChannels { d with gbl := { d.gbl with inh := g }, rdg := { d.rdg with inh := r } }
  Dev.noteLive ((channels.filter fun ch => free.getLsbD ch.val).foldl Dev.strRetry d)

/-! ### Calibration runs and injections when the mode changes -/

/-- The calibration modes (14 R424). -/
def Mode.calibrates : Mode → Bool
  | .load | .armed | .run | .degraded | .trim | .service => true
  | _ => false

/-- A run queued; a further trigger merges its steps (14 R425). -/
def Trim.queue (t : Trim) (steps : BitVec 48) (trigger : BitVec 3) : Trim :=
  { t with queued := t.queued ++ [{ steps := steps, trigger := trigger, cmd := none }] }

/-- An end of a calibration run without a set (14 R429, R431): the shadow discarded, the applied codes kept. -/
def Dev.abortTrim (d : Dev) (cause : BitVec 2) (lastEnd : BitVec 3) (dac : BitVec 6) : Dev :=
  let d := { d with str := d.str.map (fun (c : StrChannel) => { c with gap := false }), trim := { d.trim with
    running := false, shadow := d.trim.applied, lastEnd := lastEnd, pend := 0, active := 0,
    failDac := if cause = 1 then dac else d.trim.failDac, aborted := satInc d.trim.aborted } }
  d.event 0x0B02 (pay 0 cause ||| pay 8 d.trim.failDac ||| pay 16 d.trim.count)

/-- The calibration run when mode `m` is entered (14 R424, R431). -/
def Dev.trimOnMode (d : Dev) (m : Mode) : Dev :=
  let d :=
    if d.trim.running && !m.calibrates then
      let steps := d.trim.steps
      let trig := d.trim.trigger
      let d := d.abortTrim 2 4 0
      { d with trim := d.trim.queue steps trig }
    else d
  if m = .trim then
    if d.trim.running then
      let more := ~~~(d.trim.steps)
      { d with trim := { d.trim with steps := d.trim.steps ||| more, pend := d.trim.pend ||| more } }
    else { d with trim := d.trim.queue (BitVec.allOnes 48) 3 }
  else d

/-- INJ_LOG's newest entry replaced by `f` of it. -/
def Inj.onHead (i : Inj) (f : InjLog → InjLog) : Inj := { i with log := upd i.log i.head f }

/-- Code of an origin (18 R530). -/
def InjOrigin.code : InjOrigin → BitVec 2
  | .none => 0 | .command => 1 | .proof => 2 | .schedule => 3

/-- The Loft word of injection bits 0 and 1 (18 R516), as a word of the ECC. -/
def injWord : Nat := 0x7FFF

/-- The fault of a full injection is withdrawn, and what it holds goes (18 R519, R521): a whole write of the Loft word of bits
0 and 1 leaves no error in it (02 R59), and captures count anew on every tile. -/
def Dev.withdrawInj (d : Dev) : Dev :=
  let clean (ws : List Nat) : List Nat := if d.inj.bit.toNat ≤ 1 then ws.filter fun w => w != injWord else ws
  Dev.refreshInhibits { d with
    loft := { d.loft with ce := clean d.loft.ce, ue := clean d.loft.ue },
    prv := { d.prv with tiles := d.prv.tiles.map (fun (x : PrvTile) => { x with passRun := 0 }) },
    inj := { d.inj with held := false } }

/-- No injection runs or restores. -/
def Inj.idle (i : Inj) : Inj := { i with busy := false, restoring := false, active := 0 }

/-- An injection that was aborted restores (18 R529). -/
def Inj.abortedNow (i : Inj) : Bool := i.restoring && (i.log[i.head.val]).result == 4

/-- An injection aborted (18 R529): event 0x0E02; an INJECT not yet completed completes FAULT. Restoration follows a full
injection (R521), under the new mode, except in SAFE HOLD. (DEDUCED, log 45) -/
def Dev.abortInj (d : Dev) (cause : BitVec 2) (m : Mode) : Dev :=
  if !d.inj.busy then d
  else if d.inj.abortedNow then
    if cause = 2 then Dev.refreshInhibits { d with inj := { d.inj.idle with held := false } } else d
  else
    let d := d.event 0x0E02 (pay 0 d.inj.bit ||| pay 12 cause ||| pay 16 m.code)
    let i := d.inj.onHead fun e => { e with result := 4 }
    let i : Inj := { i with hdr := none, schedDue := i.schedDue && m == Mode.run }
    let i : Inj := if cause = 2 || i.dry then { i.idle with held := false }
      else { i with restoring := true, detect := satAdd 0 (d.now - i.start) }
    let h := d.inj.hdr
    let d : Dev := { d with inj := i }
    let d := match h with
      | none => d
      | some h => d.finishLong h 0x70 .fault 0x0E02 0
    if i.restoring then d.withdrawInj else d.refreshInhibits

/-- The injection bits whose detector the Gable, and the Ridge, holds (18 R516). (DEDUCED, log 45) -/
def gableHolds (b : Nat) : Bool := b == 3 || b == 4 || b == 5 || b == 42 || b == 43 || b == 44 || b == 45
/-- The same of the Ridge. (DEDUCED, log 45) -/
def ridgeHolds (b : Nat) : Bool := (decide (6 ≤ b) && decide (b ≤ 16)) || b == 48 || b == 49

/-- Whether a mode is one of R80's for an injection's form. -/
def injMode (dry : Bool) (m : Mode) : Bool := if dry then m == .run else m == .proof || m == .armed

/-- The injection when mode `m` is entered (18 R529); in RUN the schedule's INTERVAL begins (18 R526).
(DESIGN CHOICE, log 45) -/
def Dev.injOnMode (d : Dev) (m : Mode) : Dev :=
  let d : Dev := if m = .run then { d with inj := { d.inj with schedAt := d.now } } else d
  if m = .safeHold then d.abortInj 2 m
  else if injMode d.inj.dry m then d
  else d.abortInj 1 m

/-! ### The TAP and the debugger (17 R507, R509, R510) -/

/-- The instructions that take the balls from functional control (17 R510). (DEDUCED, log 78) -/
def Jtag.drives : Jtag → Bool
  | .extest | .highz | .clamp => true
  | _ => false

/-- A level or mode change ends EXTEST, HIGHZ and CLAMP (17 R509, R510): BYPASS in their place. (DEDUCED, log 78) -/
def Acc.endDrive (a : Acc) : Acc := if a.jtag.drives then { a with jtag := .bypass } else a

/-- ACC_DBG[18:8]: the cores that the debugger holds. -/
def Dev.dbgCores (d : Dev) : BitVec 11 :=
  let engines := engIds.foldl (fun (x : BitVec 11) e => setBit x e.val (d.engAt e).core.dbgHalt) 0
  setBit (setBit (setBit engines 8 d.thatch.truss.dbgHalt) 9 d.thatch.gable.dbgHalt) 10 d.thatch.soffit.dbgHalt

/-- A core that the debugger lets go. -/
def Core.release (c : Core) : Core := { c with dbgHalt := false, dbgStep := false }

/-- The Gable's loss through a debugger's halt clears when it resumes (11 R346, 17 R506). -/
def Dev.clearGableHalt (d : Dev) : Dev :=
  if d.thatch.gable.dbgHalt && d.gbl.lost == 2 then
    { d with gbl := { d.gbl with lost := 0, hbtHeld := true, hbtMiss := 0 } }
  else d

/-- The Soffit's outputs when a debugger lets its sequencer go (17 R506): the safe states stay only for logic silence or a
trap. -/
def Dev.soffitRelease (d : Dev) : Dev :=
  if d.thatch.soffit.dbgHalt then
    { d with soffit := ({ d.soffit with
        safeState := d.soffit.silenced || d.thatch.soffit.mode == .halted } : Soffit).settle }
  else d

/-- A detach: every core the debugger halted resumes; event 0x0D05 (17 R507). -/
def Dev.detach (d : Dev) (cause : BitVec 2) : Dev :=
  if d.acc.attached then
    let cores := d.dbgCores
    let d := d.clearGableHalt.soffitRelease
    let d := { d with
      thatch := { d.thatch with truss := d.thatch.truss.release, gable := d.thatch.gable.release,
                                soffit := d.thatch.soffit.release },
      course := { d.course with eng := d.course.eng.map (fun (e : Engine) => { e with core := e.core.release }) },
      acc := { d.acc with attached := false } }
    d.event 0x0D05 (pay 0 cause ||| pay 8 cores)
  else d

/-! ### Mode changes (15 R441, R442) -/

/-- Whether a patch run starts at each LAT in a mode (06 R170). -/
def Mode.patchRuns : Mode → Bool
  | .armed | .run | .degraded | .service => true
  | _ => false

/-- What a transfer that ends reports (08 R254, R262, 11 R328): its underruns and the words that the Ridge lowered. -/
def Dev.xferEvents (d : Dev) (x : Transfer) : Dev :=
  let d := if x.underA + x.underB = 0 then d
    else d.event 0x0501 (pay 0 x.frame ||| payN 16 (popcount d.scan.late) ||| payN 32 (min x.underA 0xFFFF) |||
      payN 48 (min x.underB 0xFFFF))
  let r := d.rdg
  if r.blockA = 0 ∧ r.blockB = 0 then d
  else
    let rung := if r.rungA = 0 then r.rungB else if r.rungB = 0 then r.rungA else if r.rungA < r.rungB then r.rungA else r.rungB
    d.eventLimited 0x0803 0 1000000 (pay 0 rung ||| pay 4 r.blockA ||| pay 24 r.blockB ||| pay 48 x.frame)

/-- House time at which the frame period that is running ends (08 R233). -/
def Scan.periodEnd (s : Scan) : Nat :=
  match s.xfer with | none => s.latAt | some x => s.latAt + x.period.toNat / 400

/-- LATs are about to stop (08 R250): a transfer in progress is closed with ABORT, with the classes of the words that left
(09 R263); one closed with EOF since the last LAT is followed by SOF and ABORT. No tile keeps a valid transfer. -/
def Dev.abortXfer (d : Dev) : Dev :=
  match d.scan.xfer with
  | none => d
  | some x =>
    let d := if d.scan.window then ({ d with prv := d.prv.storeClasses x.frame }).xferEvents x else d
    { d with scan := { d.scan.abortLanes with xfer := none, window := false } }

/-- LATs stop, with no transfer left (08 R250). (DEDUCED, log 40) -/
def Scan.stopLats (s : Scan) (state : BitVec 3) : Scan :=
  { s with lats := false, xfer := none, light := none, judged := none, window := false, state := state, change := none,
           step := .done, enumBusy := false,
           lanes := s.lanes.map fun l => { l with busy := false, todo := [], next := 0 } }

/-- CK runs in BOOT once the PLL is locked (08 R250). -/
def Dev.startCk (d : Dev) : Dev :=
  if d.sys.lock && d.sys.mode == .boot && d.coreUp then { d with scan := { d.scan with state := 1 } } else d

/-- The start of an enumeration (08 R238 step 1): the array in force is withdrawn. -/
def Scan.beginEnum (s : Scan) (now : Nat) : Scan :=
  { s with lats := true, latFrom := max s.latFrom (now + 1000), xfer := none, light := none, judged := none,
           window := false, state := 2, change := none, step := .begun, enumBusy := true, enumValid := false,
           enumCause := 0, enumTiles := 0, enumHash := 0, gridW := 0, gridH := 0, e2 := [], e3 := [] }

/-- PROOF from its first step (15 R445). -/
def Dev.startProof (d : Dev) : Dev :=
  let d := d.abortXfer
  { d with
    sys := { d.sys with proofDone := false, proofFail := false, proofBusy := true, proofStep := 1,
                        proofStart := d.now, proofMaps := 0, proofTests := 0, proofPassed := false },
    scan := d.scan.beginEnum d.now,
    fld := { d.fld with douserStep := 0 } }

/-- PROOF again from its first step (15 R443, R444): an injection of step 7 is aborted (18 R529). -/
def Dev.restartProof (d : Dev) : Dev :=
  (if d.sys.proofStep = 7 then d.abortInj 1 .proof else d).startProof

/-- The modes in which LATs are sent (08 R250). -/
def Mode.sendsLats : Mode → Bool
  | .proof | .trim | .armed | .run | .degraded | .service => true
  | _ => false

/-- What the scan-out unit does when a mode is entered (08 R250, 15 R442). (DEDUCED, log 40) -/
def Scan.onMode (s : Scan) (m : Mode) (now : Nat) : Scan :=
  match m with
  | .proof => s
  | .trim => if s.lats then s else { s with lats := true, latFrom := max s.latFrom (now + 1000) }
  | .armed | .run | .degraded | .service => { s with lats := true }
  | .boot | .load | .safeHold => s.stopLats 1
  | _ => s.stopLats 0

/-- PROOF's state when it is left (15 R446). -/
def Sys.leaveProof (s : Sys) (m : Mode) : Sys :=
  if s.mode = .proof ∧ m ≠ .proof then
    { s with proofBusy := false, proofStep := if s.proofFail then s.proofStep else 0, proofPassed := false }
  else s

/-- The mode changes (R441): SYS_MODE, SYS_INT_STATUS.MODE, event 0x0101 with its cause, and what each block does on
entry. `frame` is the Batten frame number of the LAT, 0 for a change at once. -/
def Dev.toMode (d : Dev) (m : Mode) (cause : Nat) (frame : BitVec 16) : Dev :=
  let old := d.sys.mode
  let s := d.sys.leaveProof m
  let d := if m.sendsLats then d else d.abortXfer
  let d := { d with
    sys := { s with mode := m, prev := old, modeFrame := frame, pending := none,
                    trimFromArmed := if m = Mode.trim then decide (old = Mode.armed) else s.trimFromArmed,
                    retFromArmed := if m = Mode.retention then decide (old = Mode.armed) else s.retFromArmed },
    scan := d.scan.onMode m d.now,
    acc := { d.acc.endDrive with attachPending := d.acc.attachPending && decide (m = Mode.run) } }
  let d := (d.interrupt 5).event 0x0101 (pay 0 m.code ||| pay 4 old.code ||| payN 8 cause ||| pay 32 frame)
  let d := d.trimOnMode m
  let d := d.injOnMode m
  let d := if m = .proof then (d.detach 3).startProof else d
  d.refreshInhibits

/-- A pending MODE_REQUEST that an automatic change overtakes (15 R467). -/
def Dev.failPending (d : Dev) : Dev :=
  match d.sys.pending with
  | none => d
  | some p =>
    let d := { d with sys := { d.sys with pending := none } }
    match p.hdr with
    | none => d
    | some h => d.finishLong h 0x01 .fault 0x0101 0

/-! ### SAFE HOLD and DEGRADED (11 R343 to R348) -/

/-- SAFE HOLD with a cause (R345, R348): in any mode in which a verified configuration is in force; of two causes the
lower is recorded (R350). (DEDUCED, log 43) -/
def Dev.safeHold (d : Dev) (cause : BitVec 4) : Dev :=
  if d.gbl.cfg.isNone then d
  else if d.sys.mode = .safeHold then
    { d with gbl := { d.gbl with holdCause := if cause < d.gbl.holdCause then cause else d.gbl.holdCause } }
  else
    let d := d.failPending
    let d := { d with gbl := { d.gbl with holdCause := cause, tdegEnd := none },
                      rdg := { d.rdg with deg := .none } }
    let d := (d.toMode .safeHold 2 0).outputsSafe
    let d := d.cancelForHold
    let d := d.abortMigrations 4
    d.event 0x080C (pay 0 cause)

/-- The Degraded ceiling at an entry (R343): "cap" while encoder H has a fault, whatever DEGKIND says. -/
def Dev.degKind (d : Dev) (c : SafetyConfig) : DegCeiling :=
  if c.degCoarse && !d.rdg.hFault then .coarse (d.coarseDark c d.rdg.mapZoneSet) else .cap

/-- Whether a Degraded ceiling is "coarse". -/
def DegCeiling.isCoarse : DegCeiling → Bool
  | .coarse _ => true
  | _ => false

/-- DEGRADED from RUN or SERVICE with a cause (R343), or SAFE HOLD at the third entry within 3600 s (R345).
(DEDUCED, log 90) -/
def Dev.degraded (d : Dev) (cause : BitVec 4) : Dev :=
  match d.gbl.cfg with
  | none => d
  | some c =>
    if d.sys.mode = .run ∨ d.sys.mode = .service then
      let recent := d.now :: d.gbl.entries.filter fun t => decide (d.now < t + 3600000000)
      let d := { d with gbl := { d.gbl with entries := recent, degCause := cause } }
      if 3 ≤ recent.length then d.safeHold 8
      else
        let d := d.failPending
        let kind := d.degKind c
        let d := { d with
          rdg := { d.rdg with deg := kind, fromService := decide (d.sys.mode = Mode.service), okMaps := 0, agreeRun := 0 },
          gbl := { d.gbl with tdegEnd := some (d.now + c.tdeg * 1000000), restarted := false } }
        let d := d.toMode .degraded 2 0
        d.event 0x080A (pay 0 cause ||| payN 4 (if kind.isCoarse then 1 else 0) ||| payN 16 c.tdeg)
    else d

/-! ### Losses of the Gable and the Ridge (11 R320, R321) -/

/-- The Gable lost (R320): event 0x0808, LIVE_G's permit withdrawn, and DEGRADED or SAFE HOLD under R343 to R345 and
R444. `tcause` is the trap that halted it, 0 for none. (DEDUCED, log 44) -/
def Dev.gableLost (d : Dev) (cause : BitVec 4) (tcause : Byte) : Dev :=
  if d.gbl.lost ≠ 0 then d
  else
    let demand := d.gbl.demand ≠ 0
    let wasDeg := d.sys.mode = .degraded
    let d := { d with gbl := { d.gbl with
      lost := cause, lostAt := d.now, degCause := cause, hbt := false, hbtHeld := false, hbtMiss := 0, sf3 := false } }
    let sf3 := match d.gbl.cfg with | none => false | some c => c.sf3act != 0
    let d := d.event 0x0808 (pay 0 cause ||| payN 4 (if sf3 then 1 else 0) ||| pay 8 tcause)
    let d := if d.inj.busy && gableHolds d.inj.bit.toNat then d.abortInj 3 d.sys.mode else d
    let d := d.noteLive
    match d.gbl.cfg with
    | none => d
    | some c =>
      if d.sys.mode = .run ∨ d.sys.mode = .service then
        if demand ∨ (c.remoteDemand d.sys.role = true ∧ ¬ c.degFlash) then d.safeHold 7 else d.degraded cause
      else if wasDeg then d.safeHold 6
      else if cause = 2 ∧ d.sys.mode ≠ .safeHold then d.safeHold 6
      else d

/-- The core die begins a reset with a cause (15 R457 to R459): a cause that arises while a reset is in force lengthens
it and is not recorded. -/
def Dev.beginReset (d : Dev) (cause : BitVec 3) (h : ResetHold → ResetHold) : Dev :=
  Dev.refreshChannels { d with
    sys := { d.sys with hold := h d.sys.hold,
                        resetCause := match d.sys.resetCause with | none => some cause | some c => some c },
    scan := d.scan.stopLats 0,
    acc := { d.acc.endDrive with level := 0, attached := false, attachPending := false } }

/-- The Ridge lost (R321) with FAULT 1 to 3: LIVE_H stops, both its inhibits assert, SAFE HOLD follows; with no
configuration in force the device resets itself (15 R458). -/
def Dev.ridgeLost (d : Dev) (fault : BitVec 3) : Dev :=
  let d := { d with rdg := { d.rdg with fault := if d.rdg.fault = 0 then fault else d.rdg.fault } }
  let d := d.event 0x0809 (pay 0 fault)
  let d := if d.inj.busy && ridgeHolds d.inj.bit.toNat then d.abortInj 3 d.sys.mode else d
  if d.gbl.cfg.isSome then (d.refreshInhibits).safeHold (fault.setWidth 4)
  else Dev.beginReset { d with sys := { d.sys with ridgeAt := d.alwaysOn } } 6 fun h => { h with ridge := true }

/-- A LIVE readback fault (R319): SAFE HOLD with HOLDCAUSE 4. -/
def Dev.readbackFault (d : Dev) (ball : BitVec 2) : Dev :=
  let d := { d with gbl := { d.gbl with liveFault := true },
                    rdg := { d.rdg with fault := if d.rdg.fault = 0 then 4 else d.rdg.fault } }
  let d := d.event 0x0816 (pay 0 ball)
  (d.noteLive).safeHold 4

/-- The balls that a sample shows at fault, given the sample before it (R319): bit 0 LIVE_G, bit 1 LIVE_H. -/
def LiveSample.faults (a b : LiveSample) : BitVec 2 :=
  let ball (run0 run1 lv0 lv1 w0 w1 : Bool) : Bool := (run0 && run1 && w0 && w1) || (!run0 && !run1 && lv0 != lv1)
  let both := a.run == (true, true) && b.run == (true, true) && a.level.1 == a.level.2 && b.level.1 == b.level.2
  (if both || ball a.run.2 b.run.2 a.level.2 b.level.2 a.wrong.2 b.wrong.2 then 2 else 0) |||
    (if both || ball a.run.1 b.run.1 a.level.1 b.level.1 a.wrong.1 b.wrong.1 then 1 else 0)

/-- A sample of both LIVE balls at an edge of the Gable's generator, or of the Ridge's (R319): `phase` is the level that
LIVE_G takes at that edge and LIVE_H the inverse of. Under EXTEST, HIGHZ and CLAMP both read as stopped (17 R510). (DEDUCED, log 116) -/
def Dev.liveReadback (d : Dev) (ridge phase g h : Bool) : Dev :=
  let last := if ridge then d.rdg.live else d.gbl.live
  let seen := if d.acc.jtag.drives then (match last with | none => (false, false) | some l => l.level) else (g, h)
  let x : LiveSample := { run := (d.liveG, d.liveH), level := seen, wrong := (seen.1 != phase, seen.2 != !phase) }
  let d : Dev := if ridge then { d with rdg := { d.rdg with live := some x } } else { d with gbl := { d.gbl with live := some x } }
  let bad := match last with | none => 0 | some l => l.faults x
  if bad = 0 ∨ d.gbl.liveFault = true ∨ d.gbl.cfg.isNone then d else d.readbackFault bad

/-- A demand recognised by the Gable, and by the Ridge where it sees it (R338): the LIVE outputs stop, event 0x080E. -/
def Dev.demand (d : Dev) (gable : BitVec 4) (ridge : BitVec 3) : Dev :=
  if (d.gbl.demand ||| gable) = d.gbl.demand ∧ (d.rdg.demand ||| ridge) = d.rdg.demand then d
  else
    let manual := match d.gbl.cfg with | none => true | some c => !c.sf2auto
    let d := { d with
      gbl := { d.gbl with demand := d.gbl.demand ||| gable, sf2Latch := d.gbl.sf2Latch || manual },
      rdg := { d.rdg with demand := d.rdg.demand ||| ridge } }
    let d := (d.event 0x080E (pay 0 d.gbl.demand)).noteLive
    if gable = 0 then d else d.douserSafe

/-- Demands that have ended (R339): with SF2RESTART 1 the light returns when the last one ends, event 0x080F. -/
def Dev.endDemand (d : Dev) (gable : BitVec 4) (ridge : BitVec 3) : Dev :=
  let was := d.gbl.demand
  let d := { d with gbl := { d.gbl with demand := d.gbl.demand &&& ~~~gable },
                    rdg := { d.rdg with demand := d.rdg.demand &&& ~~~ridge } }
  if was ≠ 0 ∧ d.gbl.demand = 0 ∧ d.gbl.sf2Latch = false then d.event 0x080F 0 else d

end Sys2Proof.Machine
end

