-- ==== Sys2Proof/Machine/Rings.lean ====
section
/-! DEFINITION. The ring registers' own rules: bases, enabling, stopping, indices, timed signals and the report of lost
entries (03 R66 to R71, R88). -/

namespace Sys2Proof.Machine

open Sys2Proof

/-- The areas of ring `n` at a LOG2: base and size of the entries, and of the completions of a command ring (R65). -/
def Ring.areas (r : Ring) (n log2 : Nat) : List (Nat × Nat) :=
  (r.base.toNat, 2 ^ log2 * entrySize n) :: if n < 24 then [(r.cplBase.toNat, 2 ^ log2 * 16)] else []

/-- Whether two ranges share a byte. -/
def rangesMeet (a b : Nat × Nat) : Bool := decide (a.1 < b.1 + b.2) && decide (b.1 < a.1 + a.2)

/-- Whether a range lies wholly within the free-form Loft (R67, R82). -/
def inFreeLoft (a : Nat × Nat) : Bool := decide (0x00040000 ≤ a.1) && decide (a.1 + a.2 ≤ 0x01400000)

/-- Every area of the rings in service but ring `n`. -/
def Dev.ringAreasBut (d : Dev) (n : Nat) : List (Nat × Nat) :=
  ((upTo 32).filter fun m => m != n && (d.ringAt m).enabled).flatMap fun m =>
    (d.ringAt m).areas m (d.ringAt m).log2.toNat

/-- The declared regions as ranges. -/
def Dev.regionAreas (d : Dev) : List (Nat × Nat) := d.regions.toList.filterMap fun r => r.map fun r => (r.base, r.length)

/-- The first check of R67 that an enable of ring `n` fails, by its cause; 0 when it passes. (DESIGN CHOICE, log 61) -/
def Dev.enableCause (d : Dev) (n log2 : Nat) : Nat :=
  if 12 < log2 then 3
  else
    let own := (d.ringAt n).areas n log2
    if !own.all inFreeLoft then 1
    else
      let self := match own with
        | [a, b] => rangesMeet a b
        | _ => false
      let others := d.ringAreasBut n ++ d.regionAreas
      if self || own.any fun a => others.any (rangesMeet a) then 2 else 0

/-- Event 0x0205 about ring `n`, with CFG_ERR set (R66 to R68). -/
def Dev.ringCfgErr (d : Dev) (n cause : Nat) : Dev :=
  (d.ring n fun r => { r with cfgErr := true }).event 0x0205 (payN 0 n ||| payN 8 cause)

/-- Events 0x0102 and 0x0103, owed since LOAD entry until an event ring selects class 0x01 (15 R455). -/
def Dev.payRecord (d : Dev) (n : Nat) : Dev :=
  if d.sys.recordOwed && d.selects n 1 then
    let s := d.sys
    let d := { d with sys := { s with recordOwed := false, historyOwed := false } }
    let d := d.event 0x0102 (pay 0 s.recordWord ||| pay 32 s.recordTrap)
    if s.historyOwed then d.event 0x0103 (pay 0 s.historyWord) else d
  else d

/-- A write of RING_n_BASE, or of CPL_BASE when `cpl` (R66, R68). One that is misaligned and meets an enabled ring reports
cause 4. (DESIGN CHOICE, log 101) -/
def Dev.ringBaseWrite (d : Dev) (n : Fin 32) (cpl : Bool) (v : Word) : Dev :=
  if cpl && decide (24 ≤ n.val) then d
  else if (d.ringAt n.val).enabled then d.ringCfgErr n.val 4
  else if v.toNat % 64 ≠ 0 then d.ringCfgErr n.val 5
  else d.ring n.val fun r =>
    if cpl then { r with cplBase := v.setWidth 25 } else { r with base := v.setWidth 25 }

/-- A write of a nonzero LOG2 (R67, R68). (DESIGN CHOICE, log 61) -/
def Dev.ringEnable (d : Dev) (n : Fin 32) (log2 : BitVec 4) : Dev :=
  if (d.ringAt n.val).enabled then d.ringCfgErr n.val 6
  else if n.val = 23 ∧ d.roof.relay = true ∧ d.sys.role = 2 then d.ring n.val fun r => { r with cfgErr := true }
  else
    let cause := d.enableCause n.val log2.toNat
    if cause = 0 then
      (d.ring n.val fun r =>
        { r with log2 := log2, prod := 0, cons := 0, cplProd := 0, cplCons := 0, enabled := true, stopping := false,
                 stalled := false, unsignalled := 0, oldest := none, lost := 0, inService := none }).payRecord n.val
    else (d.ring n.val fun r => { r with log2 := 0 }).ringCfgErr n.val cause

/-- A write of 0 to LOG2 (R68): nothing more is fetched from the ring or written to it but what R68 lets it finish.
(DEDUCED, log 99) -/
def Dev.ringStop (d : Dev) (n : Fin 32) : Dev :=
  if (d.ringAt n.val).enabled then d.ring n.val fun r => { r with stopping := true } else d

/-- ENABLED clears once the stopped ring's commands have completed (R68). -/
def Dev.ringDisableDone (d : Dev) (n : Fin 32) : Dev :=
  let r := d.ringAt n.val
  if r.enabled && r.stopping && r.inService.isNone then
    d.ring n.val fun r => { r with enabled := false, stopping := false, log2 := 0, stalled := false }
  else d

/-- RING_DROP_REPORT (R88): ring `n` has space again, and its loss is reported with every other that is due. -/
def Dev.ringDropReport (d : Dev) (n : Fin 32) : Dev :=
  if reportRings.contains n.val && d.dropDue n.val then d.reportDrops else d

/-- The rings the host produces (R65). -/
def hostProduced (n : Nat) : Bool := decide (n < 24) || n == 28 || n == 30

/-- A host write to an index refused (R69): BAD_INDEX and event 0x0202. -/
def Dev.badIndex (d : Dev) (n offset : Nat) (v : BitVec 16) : Dev :=
  (d.ring n fun r => { r with badIndex := true }).event 0x0202 (payN 0 n ||| payN 8 offset ||| pay 16 v)

/-- TPEND bit `i` set (04 R115). -/
def Dev.trussPend (d : Dev) (i : Nat) : Dev :=
  { d with thatch := { d.thatch with truss := { d.thatch.truss with tpend := setBit d.thatch.truss.tpend i true } } }

/-- A host write of PROD (R69): the doorbell. -/
def Dev.doorbell (d : Dev) (n : Fin 32) (v : BitVec 16) : Dev :=
  if !hostProduced n.val then d
  else
    let r := d.ringAt n.val
    let new := (v - r.cons).toNat
    if r.enabled && decide (r.held ≤ new) && decide (new ≤ r.entries) then
      (d.ring n.val fun r => { r with prod := v }).trussPend 0
    else d.badIndex n.val 0x0C v

/-- A host write of CONS (R69). -/
def Dev.consWrite (d : Dev) (n : Fin 32) (v : BitVec 16) : Dev :=
  if hostProduced n.val then d
  else
    let r := d.ringAt n.val
    if r.enabled && decide ((r.prod - v).toNat ≤ r.held) then d.ring n.val fun r => { r with cons := v }
    else d.badIndex n.val 0x10 v

/-- A host write of CPL_CONS (R69): a freed slot ends STALLED (R79). -/
def Dev.cplConsWrite (d : Dev) (n : Fin 32) (v : BitVec 16) : Dev :=
  if 24 ≤ n.val then d
  else
    let r := d.ringAt n.val
    if r.enabled && decide ((r.cplProd - v).toNat ≤ r.cplHeld) then
      d.ring n.val fun r =>
        let r := { r with cplCons := v }
        { r with stalled := r.stalled && !decide (r.cplHeld < r.entries) }
    else d.badIndex n.val 0x18 v

/-- The rings that signal: every ring the device writes (R71). -/
def signals (n : Nat) : Bool := n != 28 && n != 30

/-- IRQ_TIME after the oldest unsignalled write (R71). -/
def Dev.ringIrqTimer (d : Dev) (n : Fin 32) : Dev :=
  let r := d.ringAt n.val
  match r.oldest with
  | none => d
  | some t =>
    if signals n.val && r.irqTime != 0 && decide (t + r.irqTime.toNat ≤ d.now) then d.signalRing n.val else d

end Sys2Proof.Machine
end

