-- ==== Sys2Proof/Machine/Course.lean ====
section
/-! DEFINITION. The patch run: invocations on an engine (05 R156, R157, 06 R172), traps of invocations (R176, R177), drains
(R187), queues (R171), retirement and re-placement (R183 to R188), the effects that fall due at a patch-run start
(R178) and the start and end of a run (R163, R170 to R174). -/

namespace Sys2Proof.Machine

open Sys2Proof

/-- The engine that a patch's own queue belongs to: the home of a context with local store whose mask holds it
(R168, R171). -/
def Dev.homeOf (d : Dev) (p : Fin 256) : Option (Fin 8) :=
  (ctxIds.find? fun c =>
    let x := d.ctxAt c
    x.live && x.ls && x.slotValid && x.mask.getLsbD p.val).map fun c => (d.ctxAt c).engine

/-- A patch put into the queue R171 gives it, in need order. -/
def Dev.enqueue (d : Dev) (r : Run) (p : Fin 256) : Run :=
  let key := d.scan.needTime r.depth.toNat
  match d.homeOf p with
  | some e => { r with own := upd r.own e (insertNeed key p) }
  | none => { r with shared := insertNeed key p r.shared }

/-- Whether a run still has unstarted patches. -/
def Run.unstarted (r : Run) : List (Fin 256) := r.own.toList.flatten ++ r.shared

/-- Whether an engine renders or drains a patch of a frame. -/
def Engine.holdsFrame (e : Engine) (frame : BitVec 16) : Bool :=
  (match e.work with | none => false | some w => w.frame == frame) ||
    (match e.drain with | none => false | some x => x.frame == frame)

/-- Whether a run has not ended: it is the current one and not complete, or some engine still has a patch of it to render or to
drain (07 R207, R214). -/
def Dev.runOpen (d : Dev) (r : Run) : Bool :=
  (d.course.active && r.frame == d.course.run.frame) || !r.unstarted.isEmpty ||
    engIds.any fun e => (d.engAt e).holdsFrame r.frame

/-- Every buffer that a source or a patch run that has not ended holds (07 R207). -/
def Dev.holds (d : Dev) : List Hold :=
  d.vin.sources.toList.filterMap (·.hold) ++
    (d.course.runs.filter d.runOpen).flatMap fun r => r.sources.toList.filterMap fun x => match x with | none => none | some x => x.hold

/-- Whether a buffer of the descriptor in force is held. -/
def Dev.isHeld (d : Dev) (s : Fin 4) (k : Nat) : Bool :=
  d.holds.any fun h => h.stream == s && h.buf.val == k && h.gen == d.vin.streams[s.val].gen && !h.single

/-- Buffers that nothing holds any more become FREE (07 R207). -/
def Dev.releaseHeld (d : Dev) : Dev :=
  { d with vin := { d.vin with streams := d.vin.streams.mapFinIdx fun i (st : Stream) hi =>
      { st with bufs := st.bufs.mapFinIdx fun k (b : BufState) _ =>
          if b = .held && !d.isHeld ⟨i, hi⟩ k then .free else b } } }

/-- Late runs with nothing left to do are forgotten, and the buffers they read may become FREE (07 R207, R214). -/
def Dev.purgeRuns (d : Dev) : Dev :=
  Dev.releaseHeld { d with course := { d.course with
      lateRun := d.course.lateRun.filter fun r =>
        !r.unstarted.isEmpty || engIds.any fun e => (d.engAt e).holdsFrame r.frame } }

/-- The invocation on engine `e` ends after `i.cycles` cycles and the 12 of R157 (R193, R194). -/
def Dev.closeInv (d : Dev) (e : Fin 8) (w : Work) (i : Invocation) : Dev :=
  let d := d.onEng e fun g => { g with work := some { w with inv := none } }
  d.onRun w.frame fun r =>
    { r with busy := upd r.busy e (· + (i.cycles + 12)),
             cycles := if i.ctx = 0 then r.cycles else upd r.cycles i.ctx (· + (i.cycles + 12)) }

/-- Where a late run's invocation of a context that is SUSPENDED since has ended: its area holds the local store as the
invocation left it (R163, R169, R192). (DEDUCED, log 53) -/
def Dev.saveLate (d : Dev) (i : Invocation) : Dev :=
  if i.ls && (d.ctxAt i.ctx).state == .suspended then
    d.loftWrite (ctxArea i.ctx) (readBytes (d.engAt i.home).slotMem[i.slot.val] 0 4096)
  else d

/-- PEND (05 R157, 06 R162): the invocation ends, and a context with local store keeps its registers. -/
def Dev.endInv (d : Dev) (e : Fin 8) : Dev :=
  match (d.engAt e).work with
  | none => d
  | some w => match w.inv with
    | none => d
    | some i =>
      let regs := (d.engAt e).core.s
      let d := if i.ls && (d.ctxAt i.ctx).bound then d.onCtx i.ctx fun x => { x with regs := regs } else d
      ((((d.closeInv e w i).saveLate i).advance e).settleCtx i.ctx)

/-- An invocation traps (04 R119, 06 R176, R177): it stops, its saved registers stand, a context is excluded from the
rest of the run, and event 0x0301 names it, at most once a run for the finish program. -/
def Dev.trapInv (d : Dev) (e : Fin 8) (code : Byte) (pc tval : Word) : Dev :=
  match (d.engAt e).work with
  | none => d
  | some w => match w.inv with
    | none => d
    | some i =>
      let d := d.onEng e fun g =>
        { g with core := { g.core with tcause := code, tpc := pc, tval := tval }, traps := satInc g.traps }
      let d := (d.closeInv e w i).saveLate i
      let told := match d.course.runOf w.frame with | none => false | some r => r.finishTrap
      let d :=
        if i.ctx = 0 then d.onRun w.frame fun r => { r with finishTrap := true }
        else (d.onRun w.frame fun r => { r with excluded := i.ctx :: r.excluded }).onCtx i.ctx fun x =>
          { x with tcause := code, tpatch := BitVec.ofNat 8 w.patch.val, tframe := w.frame, tpc := pc, trapped := true }
      let d := if i.ctx = 0 && told then d else
        d.event 0x0301 (payN 0 i.ctx.val ||| payN 8 e.val ||| pay 16 code ||| payN 24 w.patch.val ||| pay 32 w.frame |||
          pay 48 (pc.setWidth 16))
      ((d.advance e).settleCtx i.ctx)

/-! ### Taking patches and draining them -/

/-- The run an engine takes its next patch from: under FINISH the late run's unstarted patches come first (R174). -/
def Dev.nextPatch (d : Dev) (e : Fin 8) : Option (BitVec 16 × Fin 256) :=
  let pick (r : Run) : Option (BitVec 16 × Fin 256) :=
    let key := d.scan.needTime r.depth.toNat
    match r.own[e.val], r.shared with
    | [], [] => none
    | p :: _, [] => some (r.frame, p)
    | [], q :: _ => some (r.frame, q)
    | p :: _, q :: _ =>
      if key q.val < key p.val ∨ (key q.val = key p.val ∧ q.val < p.val) then some (r.frame, q) else some (r.frame, p)
  match d.course.lateRun.find? fun r => !r.unstarted.isEmpty with
  | some r => pick r
  | none => if d.course.active then pick d.course.run else none

/-- Whether engine `e` is free for a patch that its queues hold (R171, R182): in service, its BIST over, and its core not
held. -/
def Dev.freeFor (d : Dev) (e : Fin 8) : Bool :=
  let g := d.engAt e
  g.inService && g.work.isNone && !g.bistBusy && !g.core.dbgHalt && (d.nextPatch e).isSome

/-- Whether engine `e` takes a patch now (R171): the lowest-numbered of the free engines takes first. (DEDUCED, log 53) -/
def Dev.canTake (d : Dev) (e : Fin 8) : Bool := d.freeFor e && engIds.all fun x => decide (e ≤ x) || !d.freeFor x

/-- A patch removed from a run's queues. -/
def Run.dequeue (r : Run) (p : Fin 256) : Run :=
  { r with shared := r.shared.filter (· != p), own := r.own.map fun (l : List (Fin 256)) => l.filter (· != p) }

/-- Engine `e` takes its next patch (05 R156 stage 1, 06 R171, R172). -/
def Dev.takePatch (d : Dev) (e : Fin 8) : Dev :=
  match d.nextPatch e with
  | none => d
  | some (frame, p) => match d.course.runOf frame with
    | none => d
    | some r =>
      let cs := r.contexts.filter fun x => x.mask.getLsbD p.val && !r.excluded.contains x.id
      let w : Work := { patch := p, frame := frame, acc := [], words := [], rest := cs,
                        finishDue := decide (r.finish.handle ≠ 0), epochs := [], inv := none }
      ((d.onRun frame fun r => r.dequeue p).onEng e fun g => { g with work := some w }).advance e

/-- The Loft base of an output frame (01 R14). -/
def frameBase (out : Bool) : Nat := if out then 0x01600000 else 0x01400000

/-- The lanes of a patch with a valid emitter: its entry 16 j + k and its word index (05 R137, R138). -/
def Scan.patchLanes (s : Scan) (p : Nat) : List (Nat × Nat) :=
  let o := s.patchOrigin p
  (upTo 4096).filterMap fun i =>
    let x := o.1 + i % 64
    let y := o.2 + i / 64
    (s.indexAt x y).map fun n => (i, n)

/-- The word that VOUT left for an entry, 0 when there is none (05 R155). -/
def wordOut (ws : List (Nat × BitVec 16)) (i : Nat) : BitVec 16 :=
  match ws.find? fun x => x.1 == i with
  | none => 0
  | some x => x.2

/-- The first recorded invocation whose epoch is no longer current, for a frame not before the switch frame (R187); a context
that is bound no more has no placement that another epoch could name. (DEDUCED, log 53) -/
def Dev.staleEpoch (d : Dev) (x : Drain) : Option (Fin 64) :=
  (x.epochs.find? fun p => (d.ctxAt p.1).bound && (d.ctxAt p.1).epoch != p.2 &&
    !precedes x.frame (d.ctxAt p.1).switchFrame).map (·.1)

/-- Whether a run has every patch complete (R175). -/
def Run.complete (r : Run) : Bool := r.done &&& r.patches == r.patches

/-- The counts of a completed run, on contexts and engines (R193, R194). -/
def Dev.closeCounts (d : Dev) (r : Run) : Dev :=
  let d := ctxIds.foldl (fun d c =>
    if (d.ctxAt c).state = .idle then d else d.onCtx c fun x => { x with cycles := satWord r.cycles[c.val] }) d
  engIds.foldl (fun d e => d.onEng e fun g =>
    { g with patches := BitVec.ofNat 9 r.rendered[e.val], busy := satWord r.busy[e.val] }) d

/-- A run that ended late is complete with this patch (R174, R193, R194). -/
def Dev.closeLate (d : Dev) (frame : BitVec 16) : Dev :=
  match d.course.runOf frame with
  | none => d
  | some r => if r.complete && !(d.course.active && d.course.run.frame == frame) then d.closeCounts r else d

/-- A drain ends (05 R155, R156, 06 R175, R184, R187, 08 R252). -/
def Dev.drainDone (d : Dev) (e : Fin 8) : Dev :=
  match (d.engAt e).drain with
  | none => d
  | some x =>
    let clear (d : Dev) : Dev := ((d.onEng e fun g => { g with drain := none }).advance e).purgeRuns
    let drop (d : Dev) (c : Fin 64) : Dev :=
      let d := { d with course := { d.course with discard := satInc d.course.discard } }
      d.event 0x0306 (payN 0 c.val ||| payN 8 e.val ||| payN 16 x.patch.val ||| pay 24 x.frame)
    if (d.engAt e).svc = 2 then clear (drop d 0)
    else match d.staleEpoch x with
      | some c => clear (drop d c)
      | none => match d.course.runOf x.frame with
        | none => clear d
        | some r =>
          let d := d.loftWriteAll ((d.scan.patchLanes x.patch.val).flatMap fun l =>
            let a := frameBase r.outFrame + 2 * l.2
            let w := wordOut x.words l.1
            [(a, w.setWidth 8), (a + 1, w.extractLsb' 8 8)])
          let d := d.onRun x.frame fun r => { r with done := setBit r.done x.patch.val true }
          let b : Fin 2 := if r.outFrame then 1 else 0
          let target := d.scan.srcFrame[b.val]
          let d := if target = x.frame then
            { d with scan := { d.scan with bitmap := upd d.scan.bitmap b fun m => setBit m x.patch.val true } } else d
          clear (d.closeLate x.frame)

/-! ### Scheduled effects (03 R84, R85) -/

/-- The objects of R84 and R178 that an effect sets, by number. (DEDUCED, log 68) -/
def EffectOp.objects : EffectOp → List Nat
  | .ctxBind c .. => [4 * c.val, 4 * c.val + 1, 4 * c.val + 2, 4 * c.val + 3]
  | .ctxSwap c .. => [4 * c.val]
  | .ctxPlace c .. => [4 * c.val + 1]
  | .ctxParam c .. => [4 * c.val + 2]
  | .ctxSuspend c => [4 * c.val + 3]
  | .ctxResume c => [4 * c.val + 3]
  | .ctxRetire c => [4 * c.val + 3]
  | .ctxMigrate c .. => [4 * c.val + 3]
  | .finishSet .. => [256]
  | .srcCommit _ => [257]
  | .tmodeSelect _ => [258]
  | .frameCommit _ => [259]
  | .engRetire e => [260 + e.val]
  | .engReturn e => [260 + e.val]
  | .vinDesc .. => []
  | .srcDesc .. => []
  | .zonesetSelect _ => []
  | .twinYield => []

/-- Whether two effects set one object. (DEDUCED, log 68) -/
def EffectOp.meets (a b : EffectOp) : Bool := a.objects.any fun x => b.objects.contains x

/-- Event 0x0203: `old` dropped for `new` (03 R84, R90). (DEDUCED, log 68) -/
def Dev.supersedeEvent (d : Dev) (old new : Effect) : Dev :=
  d.event 0x0203 (pay 0 old.ring ||| pay 16 old.tag ||| pay 40 new.ring)

/-- An effect scheduled: those it supersedes are dropped, each with event 0x0203 (03 R84). -/
def Dev.schedule (d : Dev) (e : Effect) : Dev :=
  let gone := d.effects.filter fun x => x.op.meets e.op
  let d := { d with effects := (d.effects.filter fun x => !x.op.meets e.op) ++ [e] }
  gone.foldl (fun d x => d.supersedeEvent x e) d

/-! ### Retirement and re-placement (R183 to R188) -/

/-- The contexts with local store homed on engine `e` (R168). -/
def Dev.homedOn (d : Dev) (e : Fin 8) : List (Fin 64) :=
  ctxIds.filter fun c => (d.ctxAt c).ls && (d.ctxAt c).slotValid && (d.ctxAt c).engine == e && (d.ctxAt c).bound

/-- The masks linked to `m` within a list of contexts (R168). -/
def Dev.groupIn (d : Dev) (cs : List (Fin 64)) (c : Fin 64) : List (Fin 64) :=
  let u := linkMask d cs 63 (d.maskAt c)
  cs.filter fun x => x == c || d.maskAt x &&& u != 0

/-- The context of a list with the lowest, or the highest, rank. -/
def Dev.byRank (d : Dev) (cs : List (Fin 64)) (high : Bool) : Option (Fin 64) :=
  cs.foldl (fun b c => match b with
    | none => some c
    | some x =>
      let less := if high then (d.ctxAt x).rank < (d.ctxAt c).rank else (d.ctxAt c).rank < (d.ctxAt x).rank
      if less then some c else some x) none

/-- The groups of a list of contexts in ascending order of their lowest rank (R185). -/
def Dev.groupsOf (d : Dev) : Nat → List (Fin 64) → List (List (Fin 64))
  | 0, _ => []
  | n + 1, cs => match d.byRank cs false with
    | none => []
    | some c =>
      let g := d.groupIn cs c
      g :: d.groupsOf n (cs.filter fun x => !g.contains x)

/-- The engine, in service, with the most free slots in a table of free slots. -/
def roomiestIn (free : List (Fin 8 × Nat)) : Option (Fin 8 × Nat) :=
  free.foldl (fun b x => match b with
    | none => some x
    | some y => if y.2 < x.2 then some x else some y) none

/-- A target for every group, in order; none when some group does not fit (R185). -/
def placeGroups : List (Fin 8 × Nat) → List (List (Fin 64)) → Option (List (Fin 64 × Fin 8))
  | _, [] => some []
  | free, g :: gs => match roomiestIn free with
    | none => none
    | some (e, n) =>
      if n < g.length then none
      else (placeGroups (free.map fun x => if x.1 = e then (e, n - g.length) else x) gs).map fun l =>
        g.map (fun c => (c, e)) ++ l

/-- The contexts of a list that must be suspended, in descending rank, and where the rest go (R185). -/
def Dev.replan (d : Dev) (free : List (Fin 8 × Nat)) : Nat → List (Fin 64) → List (Fin 64) × List (Fin 64 × Fin 8)
  | 0, cs => (cs, [])
  | n + 1, cs => match placeGroups free (d.groupsOf 64 cs) with
    | some l => ([], l)
    | none => match d.byRank cs true with
      | none => ([], [])
      | some c => let x := d.replan free n (cs.filter (· != c)); (c :: x.1, x.2)

/-- Engine `e`'s own queues given back to the queues of R171. (DEDUCED, log 53) -/
def Dev.requeueOwn (d : Dev) (e : Fin 8) : Dev :=
  d.course.runs.foldl (fun d r =>
    let ps := r.own[e.val]
    d.onRun r.frame fun r => ps.foldl (fun r p => d.enqueue r p) { r with own := upd r.own e fun _ => [] }) d

/-- CTX_MIGRATE effects that wait for their boundary when an engine at one end of the move is retired by fault (R192): each is
aborted, event 0x0305 with cause 5. (DEDUCED, log 51) -/
def Dev.abortWaiting (d : Dev) (e : Fin 8) : Dev :=
  let hit (x : Effect) : Bool := match x.op with
    | .ctxMigrate c t _ => t == e || ((d.ctxAt c).slotValid && (d.ctxAt c).engine == e)
    | _ => false
  let gone := d.effects.filter hit
  gone.foldl (fun d x => match x.op with
    | .ctxMigrate c _ s => d.migrateAbortEvent c 5 s
    | _ => d) { d with effects := d.effects.filter fun x => !hit x }

/-- Engine `e` retired with SVC and FCAUSE (R182 to R185): groups homed on it are re-placed or suspended, its queues
redistributed, event 0x0309. (DEDUCED, log 51) -/
def Dev.retireEngine (d : Dev) (e : Fin 8) (svc fcause : BitVec 2) (frame : BitVec 16) : Dev :=
  let d := if svc = 2 then d.abortWaiting e else d
  let d := (d.movingOn e).foldl (fun d c => d.abortMove c 5) d
  let d := (d.reservedOn e).foldl (fun d c => d.abortMigration c 5 frame) d
  let d := d.onEng e fun g => { g with svc := svc, fcause := fcause }
  let cs := d.homedOn e
  let free := (engIds.filter fun x => (d.engAt x).inService).map fun x => (x, (d.engAt x).freeSlots)
  let plan := d.replan free 64 cs
  let d := plan.1.foldl (fun d c =>
    (d.onRun d.course.run.frame fun r => { r with excluded := c :: r.excluded }).suspendCtx c 3 frame) d
  let d := plan.2.foldl (fun d x => d.moveCtx x.1 x.2 frame false) d
  let d := d.requeueOwn e
  d.event 0x0309 (payN 0 e.val ||| pay 4 svc ||| pay 6 fcause ||| payN 8 plan.2.length ||| payN 16 plan.1.length |||
    pay 32 frame)

/-- The verdict of an engine's BIST (R182). (DEDUCED, log 53) -/
def Dev.bistDone (d : Dev) (e : Fin 8) (sig : Word) (pass : Bool) : Dev :=
  if (d.engAt e).bistBusy then
    let d := d.onEng e fun g => { g with bistBusy := false, bistSig := sig, bistFail := !pass,
                                         bistFrame := d.course.run.frame }
    if !pass && (d.engAt e).inService then
      let d := d.event 0x0308 (payN 0 e.val ||| pay 16 sig)
      (d.retireEngine e 2 1 d.course.run.frame).advanceAll
    else d
  else d

/-- A stalled engine (R183): retired by fault, the patch it held discarded and returned with its queue.
(DEDUCED, log 53) -/
def Dev.engStall (d : Dev) (e : Fin 8) : Dev :=
  match (d.engAt e).work with
  | none => d
  | some w =>
    if (d.engAt e).inService then
      let back := w.frame = d.course.run.frame ∨ d.course.lateForce = true
      let d := d.onEng e fun g => { g with work := none, core := { g.core with mode := .stopped } }
      let d := d.retireEngine e 2 2 d.course.run.frame
      let d := if back then d.onRun w.frame fun r => d.enqueue r w.patch
        else { d with course := { d.course with dropped := satInc d.course.dropped } }
      (d.advanceAll).purgeRuns
    else d

/-- Whether the copy of context `c` must wait for invocations of runs before its switch frame: for all of them when CTX_MIGRATE
moves it (R188), for those still on the engine it leaves otherwise (R185). (DEDUCED, log 53) -/
def Dev.oldPending (d : Dev) (c : Fin 64) : Bool :=
  d.course.runs.any fun r => precedes r.frame (d.ctxAt c).switchFrame &&
    if (d.ctxAt c).moving then d.invPending c r
    else match (d.ctxAt c).copy with
      | some (.slot e _) => (match (d.engAt e).work with
        | none => false
        | some w => w.frame == r.frame && (w.rest.any (fun x => x.id == c && !r.excluded.contains c) ||
            match w.inv with | none => false | some i => i.ctx == c))
      | _ => false

/-- A context's slot contents are in place at its new placement (R165, R185, R188): its old slot is released, and it is
READY or RUNNING. -/
def Dev.copyDone (d : Dev) (c : Fin 64) : Dev :=
  let x := d.ctxAt c
  if d.oldPending c then d
  else
    let finish (d : Dev) (mem : Mem) : Dev :=
      let d := d.onEng x.engine fun g => { g with slotMem := upd g.slotMem x.slot fun _ => mem }
      let d := d.onCtx c fun y =>
        { y with copy := none, moving := false, state := if d.course.active && d.invPending c d.course.run then .running else .ready }
      d.advanceAll
    match x.copy with
    | some (.slot e k) => finish (d.freeSlot e k) (d.engAt e).slotMem[k.val]
    | some .area => finish d (writeBytes [] 0 (d.loftBytes (ctxArea c) 4096))
    | _ => d

/-! ### What falls due at a patch-run start (R178) -/

/-- The payload fields of event 0x0303 (R180). -/
def Dev.rankSwapEvent (d : Dev) (a b : Fin 64) (frame : BitVec 16) : Dev :=
  d.event 0x0303 (payN 0 a.val ||| payN 8 b.val ||| pay 16 (d.ctxAt a).rank ||| pay 24 (d.ctxAt b).rank ||| pay 32 frame)

/-- Whether a new mask of a context with a slot links it to a group on another engine (R168). (DEDUCED, log 50) -/
def Dev.placeSplits (d : Dev) (c : Fin 64) (m : BitVec 256) : Bool :=
  (d.ctxAt c).ls && (d.ctxAt c).slotValid && (d.linked m c).any fun x => (d.ctxAt x).engine != (d.ctxAt c).engine

/-- CTX_PLACE at its boundary (R180). -/
def Dev.applyPlace (d : Dev) (c : Fin 64) (mask : BitVec 256) (rank : BitVec 6) (frame : BitVec 16) : Dev :=
  if (d.ctxAt c).bound then
    let old := (d.ctxAt c).rank
    let other := d.rankHolder rank c
    let d := d.onCtx c fun x => { x with mask := mask, rank := rank }
    match other with
    | none => d
    | some o => (d.onCtx o fun x => { x with rank := old }).rankSwapEvent c o frame
  else d

/-- CTX_RESUME at its boundary (R165, R167 to R169, R187). (DEDUCED, log 48) -/
def Dev.applyResume (d : Dev) (c : Fin 64) (frame : BitVec 16) : Dev :=
  if (d.ctxAt c).state = .suspended then
    if (d.ctxAt c).ls then
      match d.placing (d.ctxAt c).mask c with
      | .at e => d.moveCtx c e frame false
      | _ => d
    else d.onCtx c fun x => { x with state := .ready, scause := 0 }
  else d

/-- CTX_MIGRATE within the device at its boundary (R188): the whole placement group moves. (DEDUCED, log 51) -/
def Dev.applyMigrate (d : Dev) (c : Fin 64) (e : Fin 8) (frame : BitVec 16) : Dev :=
  if (d.ctxAt c).live && (d.ctxAt c).ls then
    if (d.engAt e).inService then (d.groupOf c).foldl (fun d x => d.moveCtx x e frame true) d
    else d.migrateAbortEvent c 5 frame
  else d

/-- CTX_BIND at its boundary (R161, R162, R165, R168). (DEDUCED, log 48) -/
def Dev.applyBind (d : Dev) (c : Fin 64) (handle : BitVec 7) (entry src : Word) (mask : BitVec 256)
    (params : BitVec 2048) (rank : BitVec 6) (ls : Bool) : Dev :=
  if (d.ctxAt c).state = .idle then
    let b := d
    let d := d.onCtx c fun _ =>
      { Context.reset with state := .ready, ls := ls, rank := rank, handle := handle, entry := entry,
                           src := src, mask := mask, params := params }
    if ls then
      match d.placing mask c with
      | .at e => d.takeSlot c e
      | _ => b
    else d
  else d

/-- Whether a context is READY or RUNNING: the states that R165 suspends from. -/
def Context.settled (c : Context) : Bool := c.state == .ready || c.state == .running

/-- CTX_SUSPEND at its boundary. (DEDUCED, log 48) -/
def Dev.applySuspend (d : Dev) (c : Fin 64) (frame : BitVec 16) : Dev :=
  if (d.ctxAt c).settled then d.suspendCtx c 1 frame else d

/-- CTX_RETIRE at its boundary. (DEDUCED, log 48) -/
def Dev.applyRetire (d : Dev) (c : Fin 64) : Dev :=
  if (d.ctxAt c).settled || (d.ctxAt c).state == .suspended then
    (d.releaseSlot c false).onCtx c fun x => { x with state := .retired, scause := 0, trapped := false }
  else d

/-- ENG_RETIRE and ENG_RETURN at their boundary (R184, R186, R192). -/
def Dev.applyRetireEng (d : Dev) (e : Fin 8) (frame : BitVec 16) : Dev :=
  if (d.engAt e).inService then d.retireEngine e 1 0 frame else d
def Dev.applyReturnEng (d : Dev) (e : Fin 8) : Dev := d.onEng e fun g => { g with svc := 0, fcause := 0 }

/-- Whether a context with local store and a mask finds no slot it may take (R167, R168). -/
def Dev.noSlot (d : Dev) (m : BitVec 256) (c : Fin 64) : Bool :=
  match d.placing m c with
  | .at _ => decide (d.freeSlots ≤ 1)
  | _ => true

/-- Whether an effect can no longer be applied at its boundary, because engines or migrations have changed placements since it
passed its tests: it would break R161's unique ranks, R167 or R168. (DEDUCED, log 48) -/
def Dev.cannotApply (d : Dev) : EffectOp → Bool
  | .ctxBind c _ _ _ m _ r ls => (d.ctxAt c).state == .idle && ((d.rankHolder r c).isSome || (ls && d.noSlot m c))
  | .ctxResume c => (d.ctxAt c).state == .suspended && (d.ctxAt c).ls && d.noSlot (d.ctxAt c).mask c
  | .ctxPlace c m _ => (d.ctxAt c).bound && d.placeSplits c m
  | .ctxMigrate c e _ => (d.ctxAt c).live && (d.ctxAt c).ls && (d.engAt e).inService &&
      ((d.ctxAt c).engine == e || decide ((d.engAt e).freeSlots < (d.groupOf c).length))
  | _ => false

/-- Whether an effect falls due at a patch-run start (03 R84, 06 R178, 07 R208, R209). -/
def EffectOp.atRun : EffectOp → Bool
  | .vinDesc .. => false
  | .tmodeSelect _ => false
  | .frameCommit _ => false
  | .zonesetSelect _ => false
  | .twinYield => false
  | _ => true

/-- One effect of a context, the finish program or an engine applied at the start of run `run` (06 R178); one that can no longer
be applied is cancelled with event 0x0204. (DEDUCED, log 48) -/
def Dev.applyEffect (d : Dev) (run : BitVec 16) (e : Effect) : Dev :=
  if d.cannotApply e.op then d.cancelEvent e
  else match e.op with
    | .ctxBind c h e s m p r ls => d.applyBind c h e s m p r ls
    | .ctxSwap c h e => if (d.ctxAt c).bound then d.onCtx c fun x => { x with handle := h, entry := e } else d
    | .ctxParam c p => if (d.ctxAt c).bound then d.onCtx c fun x => { x with params := p } else d
    | .ctxPlace c m r => d.applyPlace c m r run
    | .ctxSuspend c => d.applySuspend c run
    | .ctxResume c => d.applyResume c run
    | .ctxRetire c => d.applyRetire c
    | .ctxMigrate c e _ => d.applyMigrate c e run
    | .finishSet h e p => { d with course := { d.course with finish := { handle := h, entry := e, params := p } } }
    | .engRetire e => d.applyRetireEng e run
    | .engReturn e => d.applyReturnEng e
    | _ => d

/-- The device as the effects already scheduled for the next patch-run start will leave it, but for those that `op` would
supersede: what the tests of `op` at its fetch are made against (R77, R84, R178). (DEDUCED, log 48) -/
def Dev.projected (d : Dev) (op : EffectOp) : Dev :=
  (d.effects.filter fun e => e.op.atRun && !e.op.meets op).foldl (fun x e => x.applyEffect d.nextRun e) d

/-- Contexts that retired at an earlier start become IDLE, holding nothing beyond their ID (R161, R165). -/
def Dev.forgetRetired (d : Dev) : Dev :=
  ctxIds.foldl (fun d c =>
    if (d.ctxAt c).state = .retired then d.onCtx c fun _ => Context.reset else d) d

/-- Suspensions caused by traps, applied after the effects (R176, R178, R192); that of a DRAINING context waits for the run
start at which R165 lets it be made. (DEDUCED, log 48) -/
def Dev.suspendTrapped (d : Dev) (frame : BitVec 16) : Dev :=
  ctxIds.foldl (fun d c =>
    if (d.ctxAt c).trapped then
      if (d.ctxAt c).settled then d.suspendCtx c 2 frame
      else if (d.ctxAt c).state = .draining then d
      else d.onCtx c fun x => { x with trapped := false }
    else d) d

/-! ### A run from start to end -/

/-- A run context in a list kept in ascending rank. -/
def insertRank (x : RunContext) : List RunContext → List RunContext
  | [] => [x]
  | y :: r => if x.rank < y.rank then x :: y :: r else y :: insertRank x r

/-- The contexts a run starts with (R163, R172): READY, RUNNING or DRAINING, but not one that has left for another
device (R189). -/
def Dev.runContexts (d : Dev) : List RunContext :=
  ctxIds.foldl (fun l c =>
    let x := d.ctxAt c
    let away := match x.migration with | none => false | some m => m.source && m.decided
    if x.live && !away then
      insertRank { id := c, rank := x.rank, handle := x.handle, entry := x.entry, src := x.src, mask := x.mask,
                   params := x.params, ls := x.ls, engine := x.engine, slot := x.slot } l
    else l) []

/-- The sources a run reads (05 R148). -/
def Dev.runSources (d : Dev) : Vector (Option RunSource) 16 :=
  d.vin.sources.map fun (s : Source) => s.desc.map fun x => { desc := x, hold := s.hold }

/-- The transfer a commit recorded now applies to (08 R253): the coming one, or the one after a window that is open or
past. -/
def Dev.commitTarget (d : Dev) : BitVec 16 :=
  if d.scan.lats && !d.scan.firstLat && d.scan.xfer.isNone then d.scan.frame else d.nextLat

/-- A commit recorded (08 R253, R258). -/
def Dev.recordCommit (d : Dev) (ring : Byte) (tag : BitVec 16) (out : Bool) : Dev :=
  let d := { d with scan := { d.scan with pending := true, pbuf := out, commitFrame := d.commitTarget } }
  d.schedule { ring := ring, tag := tag, op := .frameCommit out }

/-- Automatic commit of a run's output frame (R173): ring 0xFF with TAG 0. -/
def Dev.autoCommit (d : Dev) (out : Bool) : Dev := d.recordCommit 0xFF 0 out

/-- Whether the current run has every patch complete (R175). -/
def Course.complete (c : Course) : Bool := c.run.complete

/-- The last patch of the run is complete (R173, 04 R115). -/
def Dev.runComplete (d : Dev) : Dev :=
  if d.course.active && d.course.complete then
    let d := { d with course := { d.course with active := false, late := false } }
    let d := (d.settleAll.closeCounts d.course.run).releaseHeld
    let d := d.trussPend 2
    if d.course.autoForce then d.autoCommit d.course.run.outFrame else d
  else d

/-- A run without its unstarted patches (R174). -/
def Run.emptied (r : Run) : Run := { r with shared := [], own := Vector.replicate 8 [] }

/-- The end of the render period at a LAT (R173, R174): a run with every patch complete is no late one; of any other the
automatic commit is made, and under ABANDON its unstarted patches are dropped. `starts` tells whether a next run starts at
this LAT. (DEDUCED, log 53) -/
def Dev.endRun (d : Dev) (starts : Bool) : Dev :=
  if d.course.active && d.course.complete then d.runComplete
  else if d.course.active then
    let r := d.course.run
    let d := if d.course.autoForce then d.autoCommit r.outFrame else d
    let abandon := !d.course.latePolicy || !starts
    let dropped := if abandon then d.course.runs.flatMap Run.unstarted else []
    let d := { d with course := { d.course with
      active := false, late := true, lateRuns := satInc d.course.lateRuns,
      lateRun := if abandon then d.course.lateRun.map Run.emptied else d.course.lateRun,
      run := if abandon then r.emptied else r, dropped := satAdd d.course.dropped dropped.length } }
    let d := d.settleAll
    d.event 0x0307 (pay 0 r.frame ||| payN 16 (popcount r.done) ||| payN 32 dropped.length |||
      payN 48 (if abandon then 0 else 1))
  else d

/-- The patch run that starts at a LAT (R163, R170, R171, R182, 08 R252): every effect due has been applied.
(DEDUCED, log 53) -/
def Dev.startRun (d : Dev) (frame : BitVec 16) : Dev :=
  let s := d.scan
  let reads := if s.pending then s.pbuf else s.cbuf
  let out := !reads
  let b : Fin 2 := if out then 1 else 0
  let patches := s.validPatches
  let cs := d.runContexts
  let d := { d with course := { d.course with lateForce := d.course.latePolicy, autoForce := d.course.autocommit } }
  let d := ctxIds.foldl (fun d c =>
    if (d.ctxAt c).state = .ready ∧ (d.ctxAt c).mask &&& patches ≠ 0 ∧ cs.any (fun x => x.id == c) then
      d.onCtx c fun x => { x with state := .running } else d) d
  let r : Run :=
    { frame := frame, outFrame := out, patches := patches, done := 0, shared := [], own := Vector.replicate 8 [],
      contexts := cs, excluded := [], finish := d.course.finish, sources := d.runSources, depth := s.slotNow.depth,
      limit := d.course.limit, finishTrap := false, cycles := Vector.replicate 64 0, rendered := Vector.replicate 8 0,
      busy := Vector.replicate 8 0 }
  let r := (patchList patches).foldl (fun r p => d.enqueue r p) r
  let d := { d with
    course := { d.course with run := r, lateRun := d.course.runs, active := true, eng := d.course.eng.mapFinIdx fun i (g : Engine) _ =>
      if i = frame.toNat % 8 then { g with bistBusy := true } else g },
    scan := { s with bitmap := upd s.bitmap b fun _ => 0, srcFrame := upd s.srcFrame b fun _ => frame } }
  d.purgeRuns.settleAll

end Sys2Proof.Machine
end

