-- ==== Sys2Proof/Machine/Tasks.lean ====
section
/-! DEFINITION. Tasks of the Gable and the Soffit sequencer: what triggers them and how they start (04 R123, 11 R334), and the
images' bytes as the cores hold them. -/

namespace Sys2Proof.Machine

open Sys2Proof

/-- A task index put among those waiting, in rising order and once. (DEDUCED, log 96) -/
def insertTask (k : Nat) : List Nat → List Nat
  | [] => [k]
  | x :: r => if k = x then x :: r else if k < x then k :: x :: r else x :: insertTask k r

/-- The tasks of an image with a trigger, added to those that wait. (DEDUCED, log 96) -/
def waitFor (i : Option Image) (code : Nat) (w : List Nat) : List Nat :=
  match i with
  | none => w
  | some i => ((upTo i.tasks.length).filter fun k => match i.tasks[k]? with
      | none => false
      | some t => t.trigger.toNat == code).foldl (fun w k => insertTask k w) w

/-- A trigger of the Gable (11 R334): nothing waits on a Gable that is halted or held in reset. (DEDUCED, log 96) -/
def Dev.triggerG (d : Dev) (code : Nat) : Dev :=
  if d.gbl.held || d.thatch.gable.mode == .halted then d
  else { d with thatch := { d.thatch with gableWait := waitFor d.thatch.gableImage code d.thatch.gableWait } }

/-- A trigger of the Soffit sequencer (13 R416). (DEDUCED, log 96) -/
def Dev.triggerF (d : Dev) (code : Nat) : Dev :=
  if d.soffit.powered && d.thatch.soffit.mode != .halted then
    { d with thatch := { d.thatch with soffitWait := waitFor d.thatch.soffitImage code d.thatch.soffitWait } }
  else d

/-- A core at the start of task `k` (04 R95, R125): its registers, flags and stacks 0. -/
def Core.startTask (c : Core) (k : Nat) (t : Task) : Core :=
  { c with s := Vector.replicate 32 0, pc := t.entry, flg := Flg.reset, rstack := [], lstack := [], cycle := 0,
           signat := 0, taskId := BitVec.ofNat 3 k, mode := .running }

/-- A Gable or Soffit task starts when no other runs, the lowest waiting index first (04 R123). -/
def Dev.taskStart (d : Dev) (f : Bool) : Dev :=
  let c := if f then d.thatch.soffit else d.thatch.gable
  let i := if f then d.thatch.soffitImage else d.thatch.gableImage
  let w := if f then d.thatch.soffitWait else d.thatch.gableWait
  match w, i with
  | k :: r, some i => match i.tasks[k]? with
    | none => d
    | some t =>
      if c.mode = .stopped && !c.dbgHalt then
        let c := c.startTask k t
        if f then { d with thatch := { d.thatch with soffit := c, soffitWait := r } }
        else { d with thatch := { d.thatch with gable := c, gableWait := r } }
      else d
  | _, _ => d

end Sys2Proof.Machine
end

