-- ==== Sys2Proof/Machine/Proving.lean ====
section
/-! DEFINITION. Judging a light period at its window close: captures (08 R230 to R232), verdicts (09 R263 to R274),
quarantine (R277 to R280), summaries (R283, R284), kills and their release (11 R336, R337), SF3 (11 R340). -/

namespace Sys2Proof.Machine

open Sys2Proof

/-! ### Verdicts -/

/-- Sent classes (R263): 0 ZERO, 1 MEAS, 2 LOW, 3 HELD. -/
def sentClass (word : Nat) (gathered : Bool) (wth : Nat) : Nat :=
  if word = 0 then (if gathered then 3 else 0) else if wth ≤ word then 1 else 2

/-- A verdict with its kind: VERD, KEPT, and a MEAS word reported 0b00. -/
structure Verdict where
  verd : Nat
  kept : Bool
  mismatch : Bool
  deriving DecidableEq, Repr

/-- The verdict of R266 and R267 from the sent class and the code. -/
def verdictOf (c : Capture) (cls code : Nat) : Verdict :=
  let zero := cls == 0 || cls == 3
  let v (n : Nat) : Verdict := { verd := n, kept := false, mismatch := false }
  if !c.active then v 0
  else if c.segErr then
    if code = 3 then { v 4 with kept := true }
    else if zero then (if code = 2 then { v 4 with kept := true } else v 2)
    else v 0
  else if code = 3 then v 4
  else if zero then (if code = 2 then v 4 else v 2)
  else if code = 2 then v 1
  else if c.blanked then v 0
  else if code = 1 then v 3
  else if cls = 2 then v 5
  else { v 0 with mismatch := true }

/-- The Ridge's stuck-lit rule (R274): judged ceiling 2 dark, 1 cap, 0 free. -/
def ridgeStuck (c : Capture) (ceil code : Nat) : Bool :=
  c.active && ((ceil == 2 && decide (2 ≤ code)) || (ceil == 1 && (code == 3 || (c.segErr && code == 2))))

/-- One emitter as a window close judges it. -/
structure Judged where
  /-- word index -/
  n : Nat
  /-- tile ordinal and offset -/
  t : Nat
  k : Nat
  /-- patch -/
  p : Nat
  /-- sent class -/
  cls : Nat
  verdict : Verdict
  /-- judged ceiling -/
  ceil : Nat
  /-- the Ridge's verdict -/
  ridge : Bool
  /-- the capture carried SEGERR -/
  segErr : Bool
  /-- MISS after this period (R273) -/
  miss : Nat
  /-- missed proof with MISS already 3 -/
  report : Bool
  mandated : Bool
  deriving DecidableEq, Repr

/-- Stuck-lit by the proving unit or the Ridge. -/
def Judged.stuck (j : Judged) : Bool := j.verdict.verd == 4 || j.ridge

/-- SF1 (R266, R274): every verdict of the Ridge, and one of the proving unit under a dark or cap ceiling. -/
def Judged.sf1 (j : Judged) : Bool := j.ridge || (j.verdict.verd == 4 && j.ceil != 0)

/-- A verdict of kind KEPT (R267, R274). -/
def Judged.kept (j : Judged) : Bool := j.verdict.kept || (j.ridge && j.segErr)

/-- The record of word index `n` (R264). -/
def Proving.record (p : Proving) (n : Nat) : BitVec 9 := cellGet p.records n

/-- The sent class stored for a frame (R264). -/
def recClass (r : BitVec 9) (frame : BitVec 16) : Nat :=
  if frame.getLsbD 0 then (r.extractLsb' 5 2).toNat else (r.extractLsb' 3 2).toNat

def recMiss (r : BitVec 9) : Nat := (r.extractLsb' 7 2).toNat

/-- MISS after a period (R273), and whether the emitter is reported. -/
def missStep (cls verd miss : Nat) : Nat × Bool :=
  if cls = 0 then (0, false)
  else if cls = 3 then (miss, false)
  else if verd = 1 then (0, false)
  else if miss < 3 then (miss + 1, false)
  else (3, true)

/-- Whether this device's side is the active one of tile `t` (09 R265, 16 R492): as the tile's latest capture that passed
reports it; before any, a single-ported tile has one side, and a dual-ported one is driven by the side that sends SHADOW 0.
(DEDUCED, log 112) -/
def Dev.sideActive (d : Dev) (x : Transfer) (cap : Option Capture) (t : Nat) : Bool :=
  match cap with
  | some c => c.active
  | none => ((d.scan.tile t).side).getD (!descDual (d.scan.tile t).desc || !x.shadow)

/-- One emitter judged: a period that is not judged on the tile leaves MISS (R265). -/
def Dev.judgeOne (d : Dev) (x : Transfer) (cap : Option Capture) (t k n : Nat) : Judged :=
  let place := d.scan.placeIn t k
  let p := d.scan.patchAt place.1 place.2
  let r := d.prv.record n
  let cls := recClass r x.frame
  let ceil := judgedCeiling x.ceil d.rdg.staticMap x.depth.toNat n p (d.scan.cellAt place.1 place.2)
  let code := match cap with | none => 0 | some c => ((c.codes[k]?).getD 0).toNat
  let v := match cap with | none => { verd := 0, kept := false, mismatch := false } | some c => verdictOf c cls code
  let m := if d.sideActive x cap t then missStep cls v.verd (recMiss r) else (recMiss r, false)
  let mand := mandated d.rdg.staticMap n
  { n := n, t := t, k := k, p := p, cls := cls, verdict := v, ceil := ceil,
    ridge := match cap with | none => false | some c => ridgeStuck c ceil code,
    segErr := match cap with | none => false | some c => c.segErr,
    miss := m.1, report := m.2 && mand, mandated := mand }

/-- Every emitter of tile `t` judged. -/
def Dev.judgeTile (d : Dev) (x : Transfer) (rx : List ChainRx) (t : Nat) : List Judged :=
  let cap := d.scan.captureOf rx t
  let b := d.scan.base t
  (upTo (d.scan.tile t).emitters).map fun k => d.judgeOne x cap t k (b + k)

/-- Every emitter of the array judged, in word-index order. -/
def Dev.judgeAll (d : Dev) (x : Transfer) (rx : List ChainRx) : List Judged :=
  d.scan.present.flatMap (d.judgeTile x rx)

/-- The records after a judged period (R264, R273), in canonical form. -/
def Proving.putVerdicts (p : Proving) (js : List Judged) : Proving :=
  { p with records := js.filterMap fun j =>
      let r := p.record j.n
      let r := (BitVec.ofNat 2 j.miss) ++ r.extractLsb' 3 4 ++ (BitVec.ofNat 3 j.verdict.verd)
      if r = 0 then none else some (j.n, r) }

/-! ### Quarantine (R277 to R280) -/

def Quar.kind (q : Quar) : BitVec 2 := if q.tileEntry then 2 else 1

/-- Event 0x0606 about the entry of tile `t`. -/
def Dev.quarAddEvent (d : Dev) (t : Nat) (q : Quar) : Dev :=
  d.event 0x0606 (pay 0 q.offset ||| pay 18 q.kind ||| payN 20 (if q.sf1 then 1 else 0) ||| payN 25 t ||| pay 32 q.tileId)

/-- Event 0x0607 about the entry of tile `t`, with a cause. -/
def Dev.quarClearEvent (d : Dev) (t cause : Nat) (q : Quar) : Dev :=
  d.event 0x0607 (pay 0 q.offset ||| pay 18 q.kind ||| payN 20 cause ||| payN 25 t ||| pay 32 q.tileId)

/-- The entry of tile `t`. -/
def Proving.quarAt (p : Proving) (t : Nat) : Option Quar := getN p.quar t none

def Dev.setQuar (d : Dev) (t : Nat) (q : Option Quar) : Dev :=
  { d with prv := { d.prv with quar := updN d.prv.quar t fun _ => q } }

/-- One stuck-lit verdict that is not KEPT (R278). -/
def Dev.quarantine (d : Dev) (j : Judged) : Dev :=
  let id := (d.scan.tile j.t).id
  match d.prv.quarAt j.t with
  | none =>
    let q : Quar := { tileEntry := false, darkRun := 0, sf1 := j.sf1, offset := BitVec.ofNat 18 j.k, tileId := id }
    (d.setQuar j.t (some q)).quarAddEvent j.t q
  | some q =>
    let same := q.tileEntry || q.offset.toNat == j.k
    let q' := { q with darkRun := 0, sf1 := q.sf1 || j.sf1 }
    if same then d.setQuar j.t (some q')
    else
      let q' := { q' with tileEntry := true, offset := 0 }
      (d.setQuar j.t (some q')).quarAddEvent j.t q'

/-- Whether an entry covers offset `k` (R277). -/
def Quar.covers (q : Quar) (k : Nat) : Bool := q.tileEntry || q.offset.toNat == k

/-! ### Kills (11 R336, R337) -/

/-- The channels that feed a tile, as a mask. -/
def Dev.feedMask (d : Dev) (t : Nat) : BitVec 8 := killedChannels d.gbl.cfg (setBit 0 t true)

/-- Event 0x0801 for tile `t`: cause 1 stuck-lit, 2 kept, 3 unobserved. (DEDUCED, log 93) -/
def Dev.killEvent (d : Dev) (t cause : Nat) (ridge : Bool) (frame : BitVec 16) : Dev :=
  let m := d.feedMask t
  d.event 0x0801 (payN 0 t ||| pay 8 m ||| payN 16 (if m = 0 then 1 else 0) ||| payN 17 cause |||
    payN 20 (if ridge then 1 else 0) ||| pay 32 frame)

/-- Event 0x0802 for tile `t`: the channels that no other killed tile holds are released. -/
def Dev.releaseEvent (d : Dev) (t : Nat) (frame : BitVec 16) : Dev :=
  let held := killedChannels d.gbl.cfg (d.gbl.killed ||| d.rdg.killed)
  d.event 0x0802 (payN 0 t ||| pay 8 (d.feedMask t &&& ~~~held) ||| pay 32 frame)

/-- Why a channel may hold tile `t` killed (11 R336, R337): the cause of event 0x0801, 0 for none. -/
def Dev.gableCauseOf (d : Dev) (t : Nat) : Nat :=
  if (getN d.prv.quar t none).isSome then 1
  else if d.gbl.keptKill.getLsbD t then 2 else if d.gbl.unobsKill.getLsbD t then 3 else 0
def Dev.ridgeCauseOf (d : Dev) (t : Nat) : Nat :=
  if d.rdg.kill.getLsbD t then 1
  else if d.rdg.keptKill.getLsbD t then 2 else if d.rdg.unobsKill.getLsbD t then 3 else 0

/-- The inhibits of tile `t` as each acting channel now wants them (11 R336, R337, R370): a channel that asserts raises event
0x0801, and the last to release event 0x0802. A lost Gable acts no more (R350). -/
def Dev.setKill (d : Dev) (t : Nat) (g r : Bool) (frame : BitVec 16) : Dev :=
  let g := if d.gbl.lost = 0 then g else d.gbl.killed.getLsbD t
  let gWas := d.gbl.killed.getLsbD t
  let rWas := d.rdg.killed.getLsbD t
  let d : Dev := { d with gbl := { d.gbl with killed := setBit d.gbl.killed t g },
                          rdg := { d.rdg with killed := setBit d.rdg.killed t r } }
  let d := if g && !gWas then d.killEvent t (d.gableCauseOf t) false frame else d
  let d := if r && !rWas then d.killEvent t (d.ridgeCauseOf t) true frame else d
  if (gWas || rWas) && !g && !r then d.releaseEvent t frame else d

/-- Tile `t` killed for a cause by the Gable, unless it is lost, and by the Ridge when `ridge` (11 R336, R350).
(DEDUCED, log 63, 93) -/
def Dev.kill (d : Dev) (t cause : Nat) (ridge : Bool) (frame : BitVec 16) : Dev :=
  let live := d.gbl.lost == 0
  let d : Dev := { d with
    gbl := { d.gbl with keptKill := setBit d.gbl.keptKill t (d.gbl.keptKill.getLsbD t || live && cause == 2),
                        unobsKill := setBit d.gbl.unobsKill t (d.gbl.unobsKill.getLsbD t || live && cause == 3) },
    rdg := { d.rdg with kill := setBit d.rdg.kill t (d.rdg.kill.getLsbD t || ridge && cause == 1),
                        keptKill := setBit d.rdg.keptKill t (d.rdg.keptKill.getLsbD t || ridge && cause == 2),
                        unobsKill := setBit d.rdg.unobsKill t (d.rdg.unobsKill.getLsbD t || ridge && cause == 3) } }
  d.setKill t true (ridge || d.rdg.killed.getLsbD t) frame

/-- The inhibits that no cause keeps any longer are released (11 R336, R337). -/
def Dev.settleKill (d : Dev) (t : Nat) (frame : BitVec 16) : Dev :=
  d.setKill t (d.gbl.killed.getLsbD t && d.gableCauseOf t != 0) (d.rdg.killed.getLsbD t && d.ridgeCauseOf t != 0) frame

/-- Kills of an unobserved tile end at a capture that passes, and those of a kept verdict when it is `clean` too: SEGERR 0
and no stuck-lit emitter (11 R336). (DEDUCED, log 63) -/
def Dev.endKills (d : Dev) (t : Nat) (clean : Bool) (frame : BitVec 16) : Dev :=
  Dev.settleKill { d with
    gbl := { d.gbl with unobsKill := setBit d.gbl.unobsKill t false,
                        keptKill := setBit d.gbl.keptKill t (d.gbl.keptKill.getLsbD t && !clean) },
    rdg := { d.rdg with unobsKill := setBit d.rdg.unobsKill t false,
                        keptKill := setBit d.rdg.keptKill t (d.rdg.keptKill.getLsbD t && !clean) } } t frame

/-- Whether the offsets of tile `t` that `covers` picks are all free under a frame's cell map and Degraded ceiling
(11 R324, R337, R350). -/
def Dev.allFree (d : Dev) (c : Ceilings) (t : Nat) (covers : Nat → Bool) : Bool :=
  let b := d.scan.base t
  c.degraded != .cap && (upTo (d.scan.tile t).emitters).all fun k =>
    !covers k ||
      let p := d.scan.placeIn t k
      let st := mapEntry d.rdg.staticMap (b + k)
      (st == 0 || st == 3) && mapEntry c.map (d.scan.cellAt p.1 p.2) == 0 &&
        (match c.degraded with | .coarse dark => !dark.getLsbD (d.scan.patchAt p.1 p.2) | _ => true)

/-- The inhibit of R337 on one tile: asserted, released or unchanged; with no frame lit, F's map alone decides.
(DEDUCED, log 63) -/
def Dev.windowKill (d : Dev) (ceil : Ceilings) (lit : Option Ceilings) (t : Nat) (covers : Nat → Bool) (now : Bool) : Bool :=
  if !d.allFree ceil t covers then true
  else match lit with
    | none => false
    | some m => now && !d.allFree m t covers

/-- What both channels do at a window start about tiles that are quarantined, or killed for a kept verdict or as unobserved:
then the whole tile is covered (11 R336, R337). The Ridge covers whole tiles, and reckons with the Degraded ceiling
(R350). -/
def Dev.windowKills (d : Dev) (ceil : Ceilings) (lit : Option Ceilings) (frame : BitVec 16) : Dev :=
  let plain (c : Ceilings) : Ceilings := { c with degraded := .none }
  Dev.refreshInhibits (d.scan.present.foldl (fun d t =>
    let whole := d.gbl.keptKill.getLsbD t || d.gbl.unobsKill.getLsbD t
    let covers (k : Nat) : Bool := whole || (match d.prv.quarAt t with | none => false | some q => q.covers k)
    let g := d.gableCauseOf t != 0 && d.windowKill (plain ceil) (lit.map plain) t covers (d.gbl.killed.getLsbD t)
    let r := d.ridgeCauseOf t != 0 && d.windowKill ceil lit t (fun _ => true) (d.rdg.killed.getLsbD t)
    d.setKill t g r frame) d)

/-! ### Dark runs (R279, R280) -/

/-- Whether a judged period qualifies for the entry of tile `t` (R279). -/
def Dev.qualifies (d : Dev) (t : Nat) (q : Quar) (cap : Option Capture) (js : List Judged) : Bool :=
  let strings := match d.gbl.cfg with
    | none => true
    | some c => (c.feeders t).all fun ch => (getN d.str ch StrChannel.reset).regJudged
  (match cap with | none => false | some c => c.active && !c.segErr && !c.blanked) &&
    js.all (fun j => !q.covers j.k || ((j.cls == 0 || j.cls == 3) && j.verdict.verd == 2)) &&
    js.all (fun j => !j.ridge) && strings && d.prv.liveJudged

/-- The dark-run count of the entry of tile `t` after a judged period (R279). -/
def Dev.darkRun (d : Dev) (t : Nat) (cap : Option Capture) (js : List Judged) (frame : BitVec 16) : Dev :=
  match d.prv.quarAt t with
  | none => d
  | some q =>
    if d.qualifies t q cap js then
      if q.darkRun.toNat = 63 then
        let d := { d with
          prv := { d.prv with quar := updN d.prv.quar t fun _ => none },
          rdg := { d.rdg with kill := setBit d.rdg.kill t false } }
        (d.quarClearEvent t 1 q).settleKill t frame
      else d.setQuar t (some { q with darkRun := q.darkRun + 1 })
    else d.setQuar t (some { q with darkRun := 0 })

/-- At a valid enumeration each entry, and each tile of the Ridge's kill list, follows its TILE_ID (R280). -/
def Dev.quarFollow (d : Dev) : Dev :=
  let here (q : Quar) : Option Nat := d.scan.present.find? fun t => (d.scan.tile t).id == q.tileId
  let old := (upTo 128).filterMap fun t => (d.prv.quarAt t).map fun q => (t, q)
  let moved := old.filterMap fun x => (here x.2).map fun t => (x.1, t, x.2)
  let quar := moved.foldl (fun (v : Vector (Option Quar) 128) x => updN v x.2.1 fun _ => some x.2.2) (Vector.replicate 128 none)
  let follow (m : BitVec 128) : BitVec 128 :=
    moved.foldl (fun k x => if m.getLsbD x.1 then setBit k x.2.1 true else k) 0
  let here' : BitVec 128 := d.scan.present.foldl (fun m t => setBit m t true) 0
  let stay (m f : BitVec 128) : BitVec 128 := f ||| (m &&& here' &&& (d.gbl.keptKill ||| d.gbl.unobsKill ||| d.rdg.keptKill ||| d.rdg.unobsKill))
  let d' := { d with
    prv := { d.prv with quar := quar },
    rdg := { d.rdg with kill := follow d.rdg.kill, killed := stay d.rdg.killed (follow d.rdg.killed),
                        keptKill := d.rdg.keptKill &&& here', unobsKill := d.rdg.unobsKill &&& here' },
    gbl := { d.gbl with killed := stay d.gbl.killed (follow d.gbl.killed),
                        keptKill := d.gbl.keptKill &&& here', unobsKill := d.gbl.unobsKill &&& here' } }
  Dev.refreshInhibits ((old.filter fun x => (here x.2).isNone).foldl (fun d x => d.quarClearEvent x.1 2 x.2) d')

/-! ### SF3 (11 R340) -/

/-- The fallback's drive of an owned STRING channel: running, or held at duty 0. (DEDUCED, log 64) -/
def Dev.sf3Hold (d : Dev) (on : Bool) : Dev :=
  match d.gbl.cfg with
  | none => d
  | some c =>
    if c.sf3act = 1 then
      { d with str := updN d.str c.sf3ch fun s =>
          if on then { s with mode := 2, iref := c.sf3iref.setWidth 10, duty := c.sf3duty, dutyDue := c.sf3duty, depth := 16,
                              pwmsync := false, pwmPeriod := c.sf3period.setWidth 22 }
          else { s with mode := 2, duty := 0, dutyDue := 0 } }
    else d

/-- The fallback started or ended (R340): its channel driven, or its field output commanded on or off. (DEDUCED, log 64) -/
def Dev.sf3Drive (d : Dev) (on : Bool) : Dev :=
  match d.gbl.cfg with
  | none => d
  | some c =>
    if c.sf3act = 2 then
      let m := leadMask c.field [c.sf3ch]
      d.gableOutputs (if on then m else 0) m
    else d.sf3Hold on

/-- Event 0x0810. -/
def Dev.sf3Event (d : Dev) (n : Nat) (failed : Bool) : Dev :=
  match d.gbl.cfg with
  | none => d
  | some c => d.event 0x0810 (payN 0 n ||| payN 20 c.sf3act ||| payN 22 (if failed then 1 else 0))

/-- A missing-proof report to the Gable (09 R273, 11 R340): not available while the Gable is lost. (DEDUCED, log 64) -/
def Dev.sf3Report (d : Dev) (n : Nat) : Dev :=
  if d.gbl.lost ≠ 0 ∨ d.gbl.cfg.isNone then d
  else
    let d := { d with gbl := { d.gbl with
      sf3Reported := if d.gbl.sf3Reported.contains n then d.gbl.sf3Reported else d.gbl.sf3Reported ++ [n],
      sf3Since := if d.gbl.sf3 then d.gbl.sf3Since else d.now, sf3 := true } }
    (d.sf3Drive true).sf3Event n false

/-- The end of the fallback (11 R340). (DEDUCED, log 64) -/
def Dev.sf3Timer (d : Dev) : Dev :=
  if d.gbl.sf3 && decide (d.gbl.sf3Since + 1000000 ≤ d.now) &&
      d.gbl.sf3Reported.all fun n => recMiss (d.prv.record n) == 0 then
    ({ d with gbl := { d.gbl with sf3 := false, sf3Reported := [] } }).sf3Drive false
  else d

/-! ### One judging window -/

/-- A saturating 16-bit count. -/
def sat16 (n : Nat) : BitVec 16 := if n < 65536 then BitVec.ofNat 16 n else 0xFFFF

/-- The ceiling field of event 0x0601. -/
def Judged.ceilCode (j : Judged) : Nat := j.ceil

/-- The events 0x0601, 0x0602 and 0x0603 of tile `t` (R288). -/
def Dev.tileEvents (d : Dev) (t : Nat) (js : List Judged) (frame : BitVec 16) : Dev :=
  let stuck := js.filter Judged.stuck
  let dwl := js.filter fun j => j.verdict.verd == 3
  let mm := js.filter fun j => j.verdict.mismatch
  let d := match stuck with
    | [] => d
    | j :: _ => d.event 0x0601 (payN 0 j.n ||| payN 20 j.ceilCode ||| payN 22 (if j.sf1 then 1 else 0) |||
        payN 23 (if j.kept then 1 else 0) ||| payN 24 (if j.ridge then 1 else 0) ||| payN 25 t ||| pay 32 frame |||
        pay 48 (sat16 stuck.length))
  let d := match dwl with
    | [] => d
    | j :: _ => d.eventLimited 0x0602 t 1000000 (payN 0 j.n ||| payN 25 t ||| pay 32 frame ||| pay 48 (sat16 dwl.length))
  match mm with
  | [] => d
  | _ :: _ => d.eventLimited 0x0603 t 1000000 (payN 25 t ||| pay 32 frame ||| pay 48 (sat16 mm.length))

def Dev.onPrvTile (d : Dev) (t : Nat) (f : PrvTile → PrvTile) : Dev :=
  { d with prv := { d.prv with tiles := updN d.prv.tiles t f } }

/-- A capture of tile `t` passed R232, judged or not: the tile is observed again (R268). -/
def Dev.observed (d : Dev) (t : Nat) (frame : BitVec 16) : Dev :=
  (d.onPrvTile t fun x => { x with
    failRun := 0, failCapped := false, passRun := if x.passRun = 2 then 2 else x.passRun + 1 }).endKills t false frame

/-- A tile whose capture failed in a judged period (R268, R288). -/
def Dev.unobserved (d : Dev) (t : Nat) (js : List Judged) (frame : BitVec 16) : Dev :=
  let x := getN d.prv.tiles t PrvTile.reset
  let capped := js.any fun j => j.ceil != 0
  let first := x.failRun == 1
  let second := if first then frame else x.failFrame
  let d := d.onPrvTile t fun x => { x with
    failRun := if x.failRun = 2 then 2 else x.failRun + 1, failCapped := capped, failFrame := second }
  let d := if first then d.event 0x0605 (payN 0 t ||| pay 16 second) else d
  let sf1 := if x.failRun = 0 then false else if first then capped || x.failCapped else capped
  if sf1 then (d.event 0x0605 (payN 0 t ||| payN 8 1 ||| pay 16 second)).kill t 3 true frame else d

/-- One tile of a period that is judged on it: quarantine, dark runs, kills and events. -/
def Dev.judgedTile (d : Dev) (t : Nat) (cap : Option Capture) (js : List Judged) (frame : BitVec 16) : Dev :=
  let d := match cap with
    | some c => d.endKills t (!c.segErr && js.all fun j => !j.stuck) frame
    | none => d.unobserved t js frame
  let d := d.darkRun t cap js frame
  let d := (js.filter fun j => j.stuck && !j.kept).foldl Dev.quarantine d
  let bad := js.filter Judged.sf1
  let d := if bad.any fun j => !j.kept then d.kill t 1 (bad.any fun j => !j.kept && j.ridge) frame else d
  let d := if bad.any fun j => j.kept then d.kill t 2 (bad.any fun j => j.kept && j.ridge) frame else d
  d.tileEvents t js frame

/-- The summaries of a judged period (R283, R284), held while FREEZE is 1. (DEDUCED, log 95) -/
def Proving.summarise (p : Proving) (js : List Judged) (caps : List (Nat × Option Capture)) : Proving :=
  if p.freeze then p
  else
    let count (v : Nat) : BitVec 21 := BitVec.ofNat 21 (js.filter fun j => j.verdict.verd == v).length
    let patches (f : Judged → Bool) : BitVec 256 :=
      (js.filter f).foldl (fun m j => setBit m j.p true) 0
    { p with
      sumNov := count 0, sumLit := count 1, sumDark := count 2, sumDwl := count 3, sumStuck := count 4, sumUnver := count 5,
      mandMissing := sat16 (js.filter fun j => j.mandated && j.miss == 3).length,
      mandUnver := sat16 (js.filter fun j => j.mandated && j.verdict.verd == 5).length,
      patchDwl := patches fun j => j.verdict.verd == 3, patchStuck := patches fun j => j.verdict.verd == 4,
      patchUnver := patches fun j => j.verdict.verd == 5,
      tiles := caps.foldl (fun (v : Vector PrvTile 128) x =>
        let mine := js.filter fun j => j.t == x.1
        updN v x.1 fun y => { y with
          dwl := sat16 (mine.filter fun j => j.verdict.verd == 3).length,
          stuck := sat16 (mine.filter fun j => j.verdict.verd == 4).length,
          unver := sat16 (mine.filter fun j => j.verdict.verd == 5).length,
          mismatch := BitVec.ofNat 8 (min 255 (mine.filter fun j => j.verdict.mismatch).length),
          unobs := x.2.isNone, unobserved := decide (y.failRun = 2),
          kept := match x.2 with | none => false | some c => c.segErr }) p.tiles }

/-- Whether a light period is judged (R265). (DEDUCED, log 40) -/
def Transfer.isJudged (x : Transfer) : Bool := x.cmd != .enum && x.depth != 0

/-- Whether the injection that restores has cut the supply of tile `t`, whose verdicts are then held (18 R521): LIVE stopped
cuts every tile. (DEDUCED, log 45) -/
def Dev.injCut (d : Dev) (t : Nat) : Bool :=
  d.inj.busy && d.inj.restoring &&
    (d.inj.stopG || d.inj.stopH || killedChannels d.gbl.cfg (setBit 0 t true) &&& d.inj.gates != 0)

/-- The light period whose captures arrived is judged at its window close (R264 to R274, R288), on the tiles of which this
side is the active one; where it is active on none, every emitter keeps VERD 0 and nothing else follows (R265). -/
def Dev.judge (d : Dev) (x : Transfer) (rx : List ChainRx) : Dev :=
  let js := (d.judgeAll x rx).filter fun j => !d.injCut j.t
  let caps := d.scan.present.map fun t => (t, d.scan.captureOf rx t)
  let mine := caps.filter fun c => d.sideActive x c.2 c.1 && !d.injCut c.1
  let d := { d with prv := d.prv.putVerdicts js }
  if mine.isEmpty then d
  else
  let d := mine.foldl (fun d c => d.judgedTile c.1 c.2 (js.filter fun j => j.t == c.1) x.frame) d
  let d : Dev := { d with prv := { d.prv.summarise js caps with frame := x.frame, valid := true } }
  let unver := (js.filter fun j => j.verdict.verd == 5).length
  let d := if d.prv.lastUnver = 0 ∧ unver ≠ 0 then
      d.eventLimited 0x0608 0 1000000 (payN 0 unver ||| pay 32 x.frame) else d
  let d := { d with prv := { d.prv with lastUnver := unver } }
  let missing := js.filter Judged.report
  let d := missing.foldl (fun d j =>
    (d.event 0x0604 (payN 0 j.n ||| payN 20 (if j.verdict.verd = 5 then 1 else 0) ||| pay 32 x.frame)).sf3Report j.n) d
  let d := if !missing.isEmpty || js.any Judged.sf1 then d.triggerG 4 else d
  d.refreshInhibits

end Sys2Proof.Machine
end

