-- ==== Sys2Proof/Machine/Monitor.lean ====
section
/-! DEFINITION. The Gable and the Ridge between them: encoders (11 R330), publication and acceptance of maps (R325, R326,
R331, R332), the safety tick (R320, R331, R333), leaving DEGRADED (R347), restart of the Gable (R346), SAFE HOLD's end
(R349) and the light's return (R339). -/

namespace Sys2Proof.Machine

open Sys2Proof

/-! ### Encoders (R330) -/

/-- Gray code to binary: a prefix exclusive or. -/
def grayToBin (x : Word) : Word :=
  let x := x ^^^ (x >>> 16)
  let x := x ^^^ (x >>> 8)
  let x := x ^^^ (x >>> 4)
  let x := x ^^^ (x >>> 2)
  x ^^^ (x >>> 1)

/-- Binary to Gray code. -/
def binToGray (x : Word) : Word := x ^^^ (x >>> 1)

/-- Degrees in a turn times 65536 and 10^6, the common factor of the jump test. -/
def turnMicro : Nat := 360 * 65536 * 1000000

/-- Whether a position differs from the last valid one by no more than VMAX allows plus 2 counts (R330). -/
def SafetyConfig.jumpOk (c : SafetyConfig) (i : Nat) (last : Word × Nat) (pos : Word) (now : Nat) : Bool :=
  let n := c.encBits i
  let delta := (signedMod ((pos.toNat : Int) - (last.1.toNat : Int)) n).natAbs
  decide (delta * turnMicro ≤ (c.vmax (i % 2)).natAbs * (now - last.2) * 2 ^ n + 2 * turnMicro)

/-- DEGRADED or a report for an encoder fault of axis `i` (R330, R343 to R345). -/
def Dev.encFault (d : Dev) (i : Fin 4) : Dev :=
  let h := decide (2 ≤ i.val)
  let d : Dev := { d with rdg := { d.rdg with enc := upd d.rdg.enc i fun e => { e with fault := true } } }
  let d := (d.event 0x0807 (payN 0 (if h then 1 else 0) ||| payN 1 (i.val % 2))).noteLive
  if d.sys.mode = .degraded then
    if h then { d with rdg := { d.rdg with deg := .cap } } else d
  else d.degraded (if h then 7 else 6)

/-- A missing or invalid sample of an axis: three in a row are a fault (R330). -/
def Dev.encMiss (d : Dev) (i : Fin 4) : Dev :=
  let e := d.rdg.enc[i.val]
  let d : Dev := { d with rdg := { d.rdg with enc := upd d.rdg.enc i fun e => { e with bad := e.bad + 1 } } }
  if 3 ≤ e.bad + 1 ∧ e.fault = false then d.encFault i else d

/-- A sample of an axis taken at house time `t`, its position as delivered (R330). -/
def Dev.encTake (d : Dev) (c : SafetyConfig) (i : Fin 4) (ok : Bool) (code : Word) (t : Nat) : Dev :=
  let e := d.rdg.enc[i.val]
  let raw := code.toNat % 2 ^ c.encBits i.val
  let pos := if c.encGray i.val then grayToBin (BitVec.ofNat 32 raw) else BitVec.ofNat 32 raw
  let ok := ok && match e.last with
    | none => true
    | some l => c.jumpOk i.val l pos t
  if ok then
    let d : Dev := { d with rdg := { d.rdg with
      enc := upd d.rdg.enc i fun e => { last := some (pos, t), prev := e.last, bad := 0, fault := false } } }
    if i.val < 2 then d.triggerG 2 else d
  else d.encMiss i

/-- One sample read on the device's own channel (R330): its end checks, the code as received. A worker ignores its own
channels (16 R481). -/
def Dev.encSample (d : Dev) (i : Fin 4) (idleHigh endLow : Bool) (code : Word) : Dev :=
  match d.gbl.cfg with
  | none => d
  | some c => if c.axes && d.sys.role != 2 then d.encTake c i (idleHigh && endLow) code d.now else d

/-- No valid sample of an axis for 4 P (R330). -/
def Dev.encTimeout (d : Dev) (i : Fin 4) : Dev :=
  match d.gbl.cfg with
  | none => d
  | some c =>
    let e := d.rdg.enc[i.val]
    let late := match e.last with | none => true | some l => decide (l.2 + 4 * c.encPeriod i.val ≤ d.now)
    if c.axes && late && !e.fault then d.encFault i else d

/-- ENCG (04 R113): the latest encoder-G item, a position exactly as received or a sample time; 0 with AXES 0. -/
def Dev.encItem (d : Dev) (i : BitVec 2) : Word :=
  match d.gbl.cfg with
  | none => 0
  | some c =>
    if !c.axes then 0
    else
      let axis := i.toNat % 2
      match (getN d.rdg.enc axis EncAxis.reset).last with
      | none => 0
      | some (p, t) =>
        if 2 ≤ i.toNat then BitVec.ofNat 32 t else if c.encGray axis then binToGray p else p

/-! ### Publication (R325, R326, R332) -/

/-- The buffer that no transfer of the period reads: the Gable's window (R325). A map that waits for this period's window
start is the one its transfer reads. -/
def Dev.windowBuf (d : Dev) : Fin 2 :=
  let reads := match d.rdg.mapDue with
    | some p => p.buf
    | none => d.rdg.mapBuf
  if reads then 0 else 1

/-- Whether the latest valid encoder-G samples are no older than Ts + 2 Tf before the predicted instant (R326). -/
def Dev.sampleFresh (d : Dev) (c : SafetyConfig) : Bool :=
  !c.axes || [0, 1].all fun i => match (getN d.rdg.enc i EncAxis.reset).last with
    | none => false
    | some (_, t) => decide (d.horizon2 t ≤ 2 * ((d.ts : Int) + 2 * (d.tf : Int)))

/-- The super-cells that fail the coarse test, with the zone they fail; none while encoder H has a fault (R332).
(DEDUCED, log 88) -/
def Dev.coarseTest (d : Dev) (c : SafetyConfig) (map : Mem) (zs : BitVec 3) : List (Nat × Nat) :=
  if c.axes && d.rdg.hFault then []
  else (upTo 256).filterMap fun s => (d.superMismatch c map zs s).map fun z => (s, z)

/-- PUBL with the value `a` (04 R113, 11 R325, R326, R332): the Gable's writing for the tick ends; a publication that names
the tick's frame is taken, and a mismatch of one that is accepted otherwise is an SF1 fault and a Gable loss. One executed less
than 50 us before its window start, 10 us after the next LAT, is late. (DEDUCED, log 41, 88) -/
def Dev.publish (d : Dev) (a : Word) : Dev :=
  let d : Dev := { d with gbl := { d.gbl with published := true } }
  match d.gbl.cfg with
  | none => d
  | some c =>
    if d.rdg.pub.isSome ∨ a.extractLsb' 0 16 ≠ d.rdg.tickFrame then d
    else
      let zs : BitVec 3 := a.extractLsb' 16 3
      let zeros := decide (a.toNat < 2 ^ 19)
      let fresh := d.sampleFresh c
      let onTime := decide (400 * (d.now + 40) ≤ 400 * d.rdg.tickTime + d.tf)
      let bad := if zeros && fresh && onTime then d.coarseTest c d.rdg.buffers[d.windowBuf.val] zs else []
      let p : Publication :=
        { frame := d.rdg.tickFrame, zoneSet := zs, zeros := zeros, time := d.now, fresh := fresh,
          mismatch := bad.foldl (fun m x => setBit m x.1 true) 0, buf := decide (d.windowBuf = 1) }
      let d : Dev := { d with rdg := { d.rdg with pub := some p } }
      let d := bad.foldl (fun d x =>
        let d : Dev := { d with rdg := { d.rdg with xchkCell := BitVec.ofNat 8 x.1, xchkCount := satInc d.rdg.xchkCount } }
        d.event 0x0805 (payN 0 x.1 ||| payN 8 x.2 ||| pay 16 d.rdg.tickFrame)) d
      if bad.isEmpty then d else d.gableLost 4 0

/-- The missing reason of the tick's map, 0 when it is accepted (R326). (DEDUCED, log 41) -/
def Dev.mapReason (d : Dev) : BitVec 3 :=
  match d.rdg.pub with
  | none => 1
  | some p =>
    if d.now < p.time + 40 then 2 else if !p.zeros then 3 else if !p.fresh then 4 else if p.mismatch ≠ 0 then 5 else 0

/-! ### The safety tick (R320, R326, R331, R333, R335) -/

/-- Whether the LAT with frame number `l` starts a safety tick (R331). (DEDUCED, log 41) -/
def Dev.tickLat (d : Dev) (l : BitVec 16) : Bool := !d.fastTick || !(l + 1).getLsbD 0

/-- At the LAT with frame number `l`, the map for frame `l` is accepted or missing (R326): judged when the tick whose map
serves `l` first ends its frame; above 240 Hz an odd `l` is the second frame and keeps the result of the first. An accepted
map waits for the frame's window start, where the Ridge switches to it (01 R16, 08 R233); in DEGRADED none is taken (R343). `held` tells that the period before carried a transfer: a publication from before a
pause in the LATs serves nothing. -/
def Dev.closeFrame (d : Dev) (l : BitVec 16) (held : Bool) : Dev :=
  if d.gbl.cfg.isNone ∨ (d.fastTick && l.getLsbD 0) = true then d
  else
    let pub := if held ∧ d.rdg.tickFrame = l then d.rdg.pub else none
    let d : Dev := { d with rdg := { d.rdg with pub := pub } }
    let reason := d.mapReason
    let ok := reason = 0
    let r := { d.rdg with tickResult := some reason,
                          mismatch := match pub with | none => 0 | some p => p.mismatch,
                          okMaps := if ok then satInc d.rdg.okMaps else 0,
                          mapDue := if ok ∧ d.sys.mode ≠ .degraded then pub else d.rdg.mapDue }
    { d with rdg := r,
             sys := { d.sys with proofMaps := if ok then satInc d.sys.proofMaps else 0 } }

/-- HBT at a tick (R320); `held` tells that the tick ends an interval since a tick, not a pause in the LATs. -/
def Dev.tickHbt (d : Dev) (held : Bool) : Dev :=
  if d.gbl.lost ≠ 0 then d
  else if !held then { d with gbl := { d.gbl with hbt := false, hbtMiss := 0 } }
  else if d.gbl.hbt then { d with gbl := { d.gbl with hbt := false, hbtMiss := 0 } }
  else if d.gbl.hbtMiss = 0 then { d with gbl := { d.gbl with hbtMiss := 1 } }
  else d.gableLost 1 0

/-- The axis on which encoders G and H differ by more than ENC_TOL at the tick, with the difference in 1/256 degree
(R333). -/
def Dev.encDiff (d : Dev) (c : SafetyConfig) : Option (Nat × Nat) :=
  [0, 1].findSome? fun axis =>
    let g := getN d.rdg.enc axis EncAxis.reset
    let h := getN d.rdg.enc (2 + axis) EncAxis.reset
    match g.last, h.last with
    | some (_, tg), some (_, th) =>
      let a := c.predict axis g (800 * ((d.now : Int) - (tg : Int)))
      let b := c.predict (2 + axis) h (800 * ((d.now : Int) - (th : Int)))
      let den : Int := (a.2 * b.2 : Nat)
      let turn := 360 * 65536 * den
      let x := (a.1 * b.2 - b.1 * a.2).emod turn
      let diff := if 2 * x ≤ turn then x else turn - x
      if c.encTol * den < diff then some (axis, (diff / (256 * den)).toNat) else none
    | _, _ => none

/-- Agreement or discrepancy at a tick (R333, R344). (DEDUCED, log 90) -/
def Dev.tickEnc (d : Dev) (c : SafetyConfig) : Dev :=
  if !c.axes then { d with rdg := { d.rdg with agreeRun := satInc d.rdg.agreeRun } }
  else match d.encDiff c with
    | none =>
      if [0, 1, 2, 3].any fun i => (getN d.rdg.enc i EncAxis.reset).last.isNone then
        { d with rdg := { d.rdg with agreeRun := 0, discRun := 0 } }
      else
      let run := satInc d.rdg.agreeRun
      { d with rdg := { d.rdg with agreeRun := run, discRun := 0, disc := d.rdg.disc && decide (run < 2) } }
    | some (axis, x) =>
      let run := satInc d.rdg.discRun
      let d : Dev := { d with rdg := { d.rdg with discRun := run, agreeRun := 0 } }
      if 2 ≤ run.toNat ∧ d.rdg.disc = false then
        let d : Dev := { d with rdg := { d.rdg with disc := true } }
        (d.event 0x0806 (payN 0 axis ||| pay 16 (sat16 x))).degraded 5
      else d

/-- The modes ZONESET_SELECT allows (03 R80). -/
def zonesetMode (m : Mode) : Bool := m == .armed || m == .run || m == .degraded

/-- Event 0x0812 and the zone set in force on the Gable (R335). (DEDUCED, log 89) -/
def Dev.selectZones (d : Dev) (zs : BitVec 3) (source conn : Nat) : Dev :=
  ({ d with gbl := { d.gbl with zoneSet := zs } }).event 0x0812 (pay 0 zs ||| payN 4 source ||| payN 8 conn)

/-- Zone-set selections that fall due at the tick (R335, 03 R85). A Flashing message stands as ring 0xFE with its
connection as tag. (DEDUCED, log 89) -/
def Dev.tickZones (d : Dev) : Dev :=
  let due := d.effects.filter fun e => match e.op with | .zonesetSelect _ => true | _ => false
  let d : Dev := { d with effects := d.effects.filter fun e => match e.op with | .zonesetSelect _ => false | _ => true }
  due.foldl (fun d e => match e.op with
    | .zonesetSelect zs =>
      if e.ring = 0xFE then d.selectZones zs 2 e.tag.toNat
      else if zonesetMode d.sys.mode then d.selectZones zs 1 0 else d.cancelEvent e
    | _ => d) d

/-- A safety tick at the LAT with frame number `l` (R331); `held` as for `closeFrame`. (DEDUCED, log 97) -/
def Dev.tick (d : Dev) (l : BitVec 16) (held : Bool) : Dev :=
  match d.gbl.cfg with
  | none => d
  | some c =>
    let d : Dev := { d with
      rdg := { d.rdg with pub := none, tickFrame := l + 1, tickTime := d.now },
      gbl := { d.gbl with published := false } }
    let d := (d.tickHbt held).tickEnc c
    (d.tickZones).triggerG 1

/-- Whether the cause of DEGRADED has cleared (R347). -/
def Dev.degCleared (d : Dev) : Bool :=
  match d.gbl.degCause.toNat with
  | 5 => !d.rdg.disc
  | 6 => !d.rdg.gFault
  | 7 => !d.rdg.hFault
  | _ => d.gbl.lost == 0

/-- T_deg has passed. -/
def Dev.tdegOver (d : Dev) : Bool := match d.gbl.tdegEnd with | none => false | some t => decide (t ≤ d.now)

/-- DEGRADED left at a LAT (R347); T_deg that expires with the recovery leads to SAFE HOLD (R345). (DEDUCED, log 43, 90) -/
def Dev.leaveDegraded (d : Dev) (frame : BitVec 16) : Dev :=
  if d.sys.mode = .degraded && d.tdegOver then d.safeHold 5
  else if d.sys.mode = .degraded && d.degCleared && d.gbl.lost == 0 && d.gbl.hbtHeld && decide (8 ≤ d.rdg.okMaps.toNat) &&
      decide (8 ≤ d.rdg.agreeRun.toNat) then
    let since := match d.gbl.entries with | [] => d.now | t :: _ => t
    let d := d.failPending
    let d : Dev := { d with rdg := { d.rdg with deg := .none }, gbl := { d.gbl with tdegEnd := none, degCause := 0 } }
    let d := d.toMode (if d.rdg.fromService then .service else .run) 2 frame
    d.event 0x080B (payN 0 ((d.now - since) / 1000000))
  else d

/-- T_deg expires (R345). -/
def Dev.tdegExpire (d : Dev) : Dev := if d.sys.mode = .degraded && d.tdegOver then d.safeHold 5 else d

/-! ### HBT and the Gable's restart (R320, R346) -/

/-- HBT (04 R113, 11 R320): PROOF restarts once a restarted Gable holds HBT again (15 R444). -/
def Dev.heartbeat (d : Dev) : Dev :=
  if d.gbl.lost = 0 then
    let back := d.sys.mode == .proof && !d.gbl.hbtHeld
    let d : Dev := { d with gbl := { d.gbl with hbt := true, hbtHeld := true, hbtMiss := 0 } }
    if back then d.restartProof else d
  else d

/-- 1 ms after a loss with DEGCAUSE 1, 3 or 4 the Gable core is reset (R346), at most once in one DEGRADED. -/
def Dev.gableReset (d : Dev) : Dev :=
  let l := d.gbl.lost
  if (l = 1 ∨ l = 3 ∨ l = 4) ∧ d.gbl.held = false ∧ d.gbl.lostAt + 1000 ≤ d.now ∧ ¬ (d.sys.mode = .degraded ∧ d.gbl.restarted = true) then
    { d with gbl := { d.gbl with held := true, restarted := true },
             thatch := { d.thatch with gable := Core.reset, gableWait := [] } }
  else d

/-- SHA-256 of the G image's code and read-only sections and of the configuration area as they stand in Gable memory
(R346). -/
def Dev.gableHashNow (d : Dev) : BitVec 256 :=
  let secs := match d.thatch.gableImage with
    | none => []
    | some i => (i.sections.filter fun s => s.kind == 1 || s.kind == 2).flatMap fun s =>
        readBytes d.thatch.gableMem.cells s.addr s.length
  sha256Bits (secs ++ readBytes d.thatch.gableMem.cells 0x1F000 0x1000)

/-- The Gable started with trigger 8 (R334, R346): its loss clears. -/
def Dev.gableStart (d : Dev) : Dev :=
  Dev.triggerG { d with
    gbl := { d.gbl with lost := 0, held := false, hbt := false, hbtHeld := false, hbtMiss := 0, published := false },
    thatch := { d.thatch with gable := Core.reset, gableWait := [] } } 8

/-- The comparison after the reset, and the restart (R346); a restart that fails leads to SAFE HOLD (R345). -/
def Dev.gableRestart (d : Dev) : Dev :=
  if d.gbl.held then
    match d.gbl.cfg with
    | none => d.gableStart
    | some c =>
      if c.gableHash = d.gableHashNow then
        let d := d.gableStart
        { d with gbl := { d.gbl with restarts := satInc d.gbl.restarts } }
      else d.safeHold 6
  else d

/-- The static-map CRC as the Ridge's memories now give it: sections 3 to 6 (R321, R352). -/
def Dev.ridgeCrcNow (d : Dev) (c : SafetyConfig) : Word :=
  crc32 ((upTo 1152).map (byteAt c.zones) ++ (upTo 16).map (byteAt c.zoneSets) ++
    readBytes d.rdg.staticMap 0 d.rdg.staticLen ++ (upTo 4096).map (byteAt c.superCells))

/-- Some memory of the Ridge holds a parity error (R321). -/
def Rdg.hasParity (r : Rdg) : Bool := !r.parityErr.isEmpty || !r.cellParity.isEmpty || r.memParity

/-- Whether the Ridge passes its memory checks (R321, R349). -/
def Dev.ridgeMemoryOk (d : Dev) (c : SafetyConfig) : Bool := !d.rdg.hasParity && d.ridgeCrcNow c == c.rcrc

/-- The Ridge's check of its memories, once a second (R321). -/
def Dev.ridgeCrc (d : Dev) : Dev :=
  match d.gbl.cfg with
  | none => d
  | some c => if d.ridgeMemoryOk c then d else d.ridgeLost 3

/-! ### The reset input (R339, R349) -/

/-- Event 0x080D. -/
def Dev.holdExitEvent (d : Dev) (left : Bool) (cond : Nat) : Dev :=
  d.event 0x080D (payN 0 (if left then 1 else 0) ||| payN 1 cond)

/-- A rising edge on the configured reset input (R339, R349): `selfTest` the Ridge's self-test,
`readback` the LIVE readback with both generators stopped. (DEDUCED, log 43, 65) -/
def Dev.resetEdge (d : Dev) (selfTest readback : Bool) : Dev :=
  if d.sys.mode = .safeHold then
    match d.gbl.resetWindow with
    | none => d
    | some t =>
      if t < d.now then d
      else
        let d : Dev := { d with gbl := { d.gbl with resetWindow := none } }
        if d.gbl.demand ≠ 0 ∨ d.rdg.demand ≠ 0 then d.holdExitEvent false 2
        else if !selfTest || !(d.gbl.cfg.all d.ridgeMemoryOk) then d.holdExitEvent false 3
        else if !readback then d.holdExitEvent false 4
        else
          let waits := d.gbl.sf2Latch
          let d : Dev := { d with
            gbl := { d.gbl with liveFault := false, holdCause := 0, degCause := 0, sf2Latch := false },
            rdg := { d.rdg with fault := 0 } }
          let d := (d.toMode .proof 2 0).holdExitEvent true 0
          if waits then d.event 0x080F 1 else d
  else if d.gbl.demand = 0 ∧ d.gbl.sf2Latch = true ∧ d.gbl.cfg.isSome then
    ({ d with gbl := { d.gbl with sf2Latch := false } }).event 0x080F 1
  else d

/-- The 10 s window ends without an edge (R349). -/
def Dev.resetWindowEnd (d : Dev) : Dev :=
  match d.gbl.resetWindow with
  | none => d
  | some t =>
    if t ≤ d.now ∧ d.sys.mode = .safeHold then
      ({ d with gbl := { d.gbl with resetWindow := none } }).holdExitEvent false 1
    else d

end Sys2Proof.Machine
end

