-- ==== Sys2Proof/Machine/Flashing.lean ====
section
/-! DEFINITION. Flashing (chapter 12): frames and their CRC, the four tests of a received frame, sequence and timing of a
stream, what accepted frames do, and the frames the device produces. -/

namespace Sys2Proof.Machine

open Sys2Proof

/-! ### The frame (R371 to R373) -/

/-- One bit of CRC-32/AUTOSAR, reflected (R373). -/
def crcAutosarBit (c : Word) : Word := if c.getLsbD 0 then (c >>> 1) ^^^ 0xC8DF352F else c >>> 1

/-- CRC-32/AUTOSAR over one more byte. -/
def crcAutosarByte (c : Word) (b : Byte) : Word :=
  let c := c ^^^ b.setWidth 32
  crcAutosarBit (crcAutosarBit (crcAutosarBit (crcAutosarBit (crcAutosarBit (crcAutosarBit (crcAutosarBit
    (crcAutosarBit c)))))))

/-- CRC-32/AUTOSAR (R373). -/
def crcAutosar (bs : List Byte) : Word := bs.foldl crcAutosarByte 0xFFFFFFFF ^^^ 0xFFFFFFFF

/-- The low `n` bytes of a number, most significant first. -/
def beBytes (x n : Nat) : List Byte := (leBytes x n).reverse

/-- The number in `n` bytes at `k` of a frame, most significant first. -/
def beField (f : List Byte) (k n : Nat) : Nat := beNat ((f.drop k).take n)

/-- A whole frame with the CRC of its connection's key (R371, R373). -/
def flashFrame (type : Nat) (payload : List Byte) (seq : BitVec 16) (src dst ts key : Word) : List Byte :=
  let body := [BitVec.ofNat 8 (16 + type), BitVec.ofNat 8 payload.length] ++ beBytes seq.toNat 2 ++
    beBytes src.toNat 4 ++ beBytes dst.toNat 4 ++ beBytes ts.toNat 4 ++ payload ++ List.replicate (44 - payload.length) 0
  body ++ beBytes (crcAutosar (body ++ beBytes key.toNat 4)).toNat 4

/-- Payload lengths of the types 1 to 6 (R372). -/
def flashLen (type : Nat) : Nat := [0, 0, 1, 2, 8, 8, 18].getD type 0

/-- Whether the payload of a frame holds only values that R372 allows; a heartbeat carries none. -/
def flashPayloadOk (type len : Nat) (p : Nat → Byte) : Bool :=
  if len = 0 then true
  else match type with
    | 2 => p 0 == 0x5A || p 0 == 0xA5
    | 3 => decide ((p 0).toNat ≤ 7) && p 1 == ~~~(p 0)
    | 4 => decide ((p 1).toNat < 32) && decide ((p 2).toNat < 8) && p 6 == 0 && p 7 == 0
    | 5 => decide ((p 6).toNat < 4) && p 7 == 0
    | 6 => decide ((p 16).toNat < 2)
    | _ => true

/-- The format error of a frame, 0 for none (R371, R372, R390): version, type, length, padding, value, then FLAGS. -/
def flashFormat (c : SafetyConfig) (i : Nat) (f : List Byte) : Nat :=
  let type := beField f 0 1 % 16
  let len := beField f 1 1
  let p (k : Nat) : Byte := f.getD (16 + k) 0
  if beField f 0 1 / 16 ≠ 1 then 1
  else if type = 0 ∨ 6 < type then 2
  else if len ≠ 0 ∧ len ≠ flashLen type then 3
  else if ((f.drop (16 + len)).take (44 - len)).any (· != 0) then 4
  else if !flashPayloadOk type len p then 5
  else if (type = 2 ∧ c.fcFlag i 0 = false) ∨ (type = 3 ∧ c.fcFlag i 1 = false) then 6
  else 0

/-! ### Demands (R383, 11 R338) -/

/-- Connection `i` changed by `g`. -/
def Dev.onFlash (d : Dev) (i : Fin 8) (g : FlashConn → FlashConn) : Dev :=
  { d with flash := { d.flash with conns := upd d.flash.conns i g } }

/-- Whether connection `i` demands SF2 (R383). -/
def Dev.flashDemands (d : Dev) (c : SafetyConfig) (i : Fin 8) : Bool :=
  let x := d.flash.conns[i.val]
  c.fcKind i.val == 1 && ((c.fcFlag i.val 0 && x.stop) || (c.fcFlag i.val 2 && x.state == .timeout))

/-- GBL_DEMAND's FLASH bit brought up to date. -/
def Dev.refreshFlash (d : Dev) : Dev :=
  match d.gbl.cfg with
  | none => d
  | some c => if (List.finRange 8).any (d.flashDemands c) then d.demand 2 0 else d.endDemand 2 0

/-! ### Streams (R378, R379, R386) -/

/-- A stream enters RESET (R378, R380): the ECHO stream of a kind 1 connection restarts at SEQ 0. -/
def FlashConn.enterReset (x : FlashConn) (kind : Nat) (s : FlashState) : FlashConn :=
  { x with state := s, txSeq := if kind = 1 then 0 else x.txSeq }

/-- The event 0x0906. -/
def Dev.flashResetEvent (d : Dev) (i : Fin 8) (peer : Bool) : Dev :=
  d.event 0x0906 (payN 0 i.val ||| payN 4 (if peer then 1 else 0))

/-- Every stream started anew (R386): counters 0, consumed streams in RESET with their timers started and the stop state
of every kind 1 connection with STOP at stop; kind 4 only when `ridge`. -/
def Dev.flashStart (d : Dev) (ridge : Bool) : Dev :=
  match d.gbl.cfg with
  | none => d
  | some c =>
    let d := (List.finRange 8).foldl (fun d i =>
      let k := c.fcKind i.val
      if k == 4 && !ridge then d
      else d.onFlash i fun _ =>
        { FlashConn.reset with
            state := if c.consumes d.sys.role i.val then .reset else .unused,
            stop := k == 1 && c.fcFlag i.val 0, since := d.now }) d
    Dev.refreshFlash { d with flash := { d.flash with ident := 0, nocfg := 0 } }

/-- The SEQ test of R378. -/
inductive SeqCheck where
  | accept | duplicate | error
  deriving DecidableEq, Repr

/-- R378 for a frame with `seq`; `gen` is its GEN on a kind 3 or 4 stream. -/
def FlashConn.seqCheck (x : FlashConn) (kind : Nat) (seq : BitVec 16) (gen : Option Byte) : SeqCheck :=
  if x.state = .established then
    if seq = x.seq + 1 then .accept
    else if seq = x.seq then .duplicate
    else if seq = 0 ∧ (kind = 3 ∨ kind = 4) ∧ gen = some (x.gen + 1) then .accept
    else .error
  else if seq = 0 then .accept else .error

/-- The SEQ that a stream expects. -/
def FlashConn.expected (x : FlashConn) : BitVec 16 := if x.state = .established then x.seq + 1 else 0

/-- One frame accepted (R378, R379, R388): its SEQ, GEN and TS, its timer and the longest gap. -/
def FlashConn.accept (x : FlashConn) (seq : BitVec 16) (gen : Option Byte) (ts : Word) (now : Nat) : FlashConn :=
  let gap := match x.lastAccept with | none => 0 | some t => (now - t) / 100
  { x with state := .established, seq := seq, ts := ts, since := now, lastAccept := some now, echoOwed := true,
           gen := if seq = 0 then gen.getD x.gen else x.gen,
           maxGap := if x.maxGap.toNat < gap then BitVec.ofNat 16 (min gap 0xFFFF) else x.maxGap }

/-! ### What accepted frames do (R380, R383 to R385) -/

/-- An accepted SAFE_STOP (R383). -/
def Dev.flashStop (d : Dev) (i : Fin 8) (stop : Bool) : Dev :=
  let was := d.flash.conns[i.val].stop
  let d := d.onFlash i fun x => { x with stop := stop }
  if was = stop then d else d.event 0x0908 (payN 0 i.val ||| payN 8 (if stop then 1 else 0))

/-- The zone set selected and waiting for the next safety tick. -/
def Dev.zonesPending (d : Dev) : Option (BitVec 3) :=
  d.effects.foldl (fun b e => match e.op with
    | .zonesetSelect z => some z
    | _ => b) none

/-- An accepted ZONESET (R384): a selection with source Flashing, ring 0xFE standing for it until the tick. -/
def Dev.flashZones (d : Dev) (i : Fin 8) (z : BitVec 3) : Dev :=
  if z = d.gbl.zoneSet ∨ d.zonesPending = some z then d
  else if zonesetMode d.sys.mode then
    d.schedule { ring := 0xFE, tag := BitVec.ofNat 16 i.val, op := .zonesetSelect z }
  else d.event 0x0909 (payN 0 i.val ||| pay 8 z ||| pay 12 d.sys.mode.code)

/-- An accepted ECHO (R380, R382): the round trip, and a restart asked for by the peer. -/
def Dev.flashEcho (d : Dev) (i : Fin 8) (ts : Word) (reset : Bool) : Dev :=
  let rtt := (BitVec.ofNat 32 (d.now / 10) - ts).toNat
  let d := d.onFlash i fun x =>
    { x with rtt := BitVec.ofNat 16 (min rtt 0xFFFF), txSeq := if reset then 0 else x.txSeq }
  if reset then d.flashResetEvent i true else d

/-- A manager's house time as the worker's own (R385, 16 R478). -/
def Dev.ownTime (d : Dev) (t : Word) : Nat :=
  let own := t - d.roof.offset
  let back := (BitVec.ofNat 32 d.now - own).toInt
  ((d.now : Int) - back).toNat

/-- A sample of one axis in an accepted ENC_SAMPLE (R385); one already taken is left. (DEDUCED, log 70) -/
def Dev.flashSample (d : Dev) (c : SafetyConfig) (a : Fin 4) (pos time : Word) : Dev :=
  let t := d.ownTime time
  if !c.axes then d
  else match d.rdg.enc[a.val].last with
    | some (_, u) => if u = t then d else d.encTake c a true pos t
    | none => d.encTake c a true pos t

/-- Missing samples of a kind 3 or 4 stream: its timeout or a discarded frame (R385); with AXES 0 no encoder is read
(11 R330). -/
def Dev.flashMiss (d : Dev) (kind : Nat) : Dev :=
  if !d.gbl.cfg.any SafetyConfig.axes then d
  else if kind = 3 then (d.encMiss 0).encMiss 1 else if kind = 4 then (d.encMiss 2).encMiss 3 else d

/-- The stop of an accepted kind 3 or kind 4 frame of connection `i` (R385, R389). -/
def Dev.roofStop (d : Dev) (i : Fin 8) (kind : Nat) (stop : Bool) : Dev :=
  let d := if kind = 4 then d.onFlash i fun x => { x with stop := stop } else d
  if kind = 3 then
    let d : Dev := { d with flash := { d.flash with roofStop := stop } }
    if stop then d.demand 4 0 else d.endDemand 4 0
  else if stop then d.demand 0 2 else d.endDemand 0 2

/-- What an accepted frame of connection `i` does. -/
def Dev.flashAct (d : Dev) (c : SafetyConfig) (i : Fin 8) (f : List Byte) : Dev :=
  let kind := c.fcKind i.val
  let w (k : Nat) : Word := BitVec.ofNat 32 (beField f (16 + k) 4)
  let b (k : Nat) : Byte := f.getD (16 + k) 0
  if beField f 1 1 = 0 then d
  else match beField f 0 1 % 16 with
    | 2 => d.flashStop i (b 0 == 0xA5)
    | 3 => d.flashZones i ((b 0).setWidth 3)
    | 5 => d.flashEcho i (BitVec.ofNat 32 (beField f 18 4)) ((b 6).getLsbD 0)
    | 6 =>
      let a0 : Fin 4 := if kind = 3 then 0 else 2
      let a1 : Fin 4 := if kind = 3 then 1 else 3
      ((d.flashSample c a0 (w 0) (w 4)).flashSample c a1 (w 8) (w 12)).roofStop i kind ((b 16).getLsbD 0)
    | _ => d

/-! ### Receiving (R377) -/

/-- Test 1 of R377 among the kinds of a transport: an ECHO selects kind 2, any other type kind 1, 3 or 4. -/
def SafetyConfig.fcFind (c : SafetyConfig) (role : BitVec 2) (kinds : List Nat) (f : List Byte) : Option (Fin 8) :=
  let type := beField f 0 1 % 16
  let src := BitVec.ofNat 32 (beField f 4 4)
  let dst := BitVec.ofNat 32 (beField f 8 4)
  (List.finRange 8).find? fun i =>
    let k := c.fcKind i.val
    let reserved := type == 0 || decide (6 < type)
    kinds.contains k && c.consumes role i.val && c.fcPeer i.val == src &&
      (if k = 3 ∨ k = 4 then c.fcGroup i.val == dst else c.deviceId == dst) &&
      (if k = 2 then type == 5
       else if k = 1 then reserved || type == 1 || type == 2 || type == 3
       else reserved || type == 1 || type == 6)

/-- An error event of connection `i`, at most once a second (R390). -/
def Dev.flashError (d : Dev) (code : BitVec 16) (i : Nat) (p : BitVec 64) : Dev := d.eventLimited code i 1000000 p

/-- A frame discarded for its sequence number (R378): the stream enters RESET when it was established. -/
def Dev.flashSeqError (d : Dev) (i : Fin 8) (kind : Nat) (seq : BitVec 16) : Dev :=
  let x := d.flash.conns[i.val]
  let d := d.flashError 0x0902 i.val (payN 0 i.val ||| pay 16 seq ||| pay 32 x.expected)
  let d := d.onFlash i fun x => { x with seqErr := satInc x.seqErr }
  let d := if x.state = .established then
      (d.onFlash i fun x => x.enterReset kind .reset).flashResetEvent i false else d
  let d := if kind = 2 then d.onFlash i fun x => { x with txSeq := 0 } else d
  d.noteLive.flashMiss kind

/-- A frame of a used connection (R377 tests 2 to 4, R378). (DEDUCED, log 70) -/
def Dev.flashCheck (d : Dev) (c : SafetyConfig) (i : Fin 8) (f : List Byte) : Dev :=
  let kind := c.fcKind i.val
  let seq := BitVec.ofNat 16 (beField f 2 2)
  let x := d.flash.conns[i.val]
  if beField f 60 4 ≠ (crcAutosar (f.take 60 ++ beBytes (c.fcKey i.val).toNat 4)).toNat then
    ((d.onFlash i fun x => { x with crc := satInc x.crc }).flashError 0x0903 i.val (payN 0 i.val ||| pay 16 seq)).flashMiss
      kind
  else
    let bad := flashFormat c i.val f
    if bad ≠ 0 then
      ((d.onFlash i fun x => { x with format := satInc x.format }).flashError 0x0905 i.val
        (payN 0 i.val ||| payN 4 bad)).flashMiss kind
    else
      let gen := if beField f 0 1 % 16 = 6 ∧ beField f 1 1 ≠ 0 then some (f.getD 33 0) else none
      match x.seqCheck kind seq gen with
      | .duplicate => (d.onFlash i fun x => { x with dup := satInc x.dup }).flashMiss kind
      | .error => d.flashSeqError i kind seq
      | .accept =>
        let fresh := decide (x.state ≠ .established)
        let ts := BitVec.ofNat 32 (beField f 12 4)
        let d := d.onFlash i fun x => x.accept seq gen ts d.now
        let d := if fresh then d.event 0x0907 (payN 0 i.val ||| pay 8 d.flash.conns[i.val].gen) else d
        (d.flashAct c i f).refreshFlash

/-- A frame that arrived on a transport of certain kinds (R377 test 1): an identity error when no connection takes it.
(DEDUCED, log 70) -/
def Dev.flashReceive (d : Dev) (kinds : List Nat) (f : List Byte) : Dev :=
  match d.gbl.cfg with
  | none =>
    let d : Dev := { d with flash := { d.flash with nocfg := satInc d.flash.nocfg } }
    d.eventLimited 0x090A 0 1000000 (pay 0 d.flash.nocfg)
  | some c => match c.fcFind d.sys.role kinds f with
    | some i => d.flashCheck c i f
    | none =>
      let d : Dev := match kinds, c.fcOf 4 with
        | [4], some i => d.onFlash i fun x => { x with format := satInc x.format }
        | [4], none => d
        | _, _ => { d with flash := { d.flash with ident := satInc d.flash.ident } }
      let d := d.eventLimited 0x0904 0 1000000 (payN 0 (beField f 4 4) ||| payN 32 (beField f 8 4))
      match kinds with
      | [k] => if (c.fcOf k).any fun i => c.consumes d.sys.role i.val then d.flashMiss k else d
      | _ => d

/-- Whether the Gable checks frames: kinds 1 to 3 are unchecked while it is lost (R386). -/
def Dev.gableChecks (d : Dev) : Bool := d.gbl.lost == 0

/-- The next frame of ring 28 (03 R89, R377): taken in index order, and trigger 6 of the Gable. (DEDUCED, log 97) -/
def Dev.flashTake (d : Dev) : Dev :=
  let r := d.ringAt 28
  if r.enabled && !r.stopping && decide (0 < r.held) then
    let a := r.base.toNat + 64 * (r.cons.toNat % r.entries)
    let f := d.loftBytes a 64
    let ue := d.loftUe a 64
    let d := (d.loftTouch a 64).ring 28 fun r => { r with cons := r.cons + 1 }
    let d := d.triggerG 6
    if ue || (d.gbl.cfg.isSome && !d.gableChecks) then d else d.flashReceive [1, 2] f
  else d

/-- A stream whose gap exceeds t_exp (R379, R383). -/
def Dev.flashTimeout (d : Dev) (i : Fin 8) : Dev :=
  match d.gbl.cfg with
  | none => d
  | some c =>
    let x := d.flash.conns[i.val]
    let kind := c.fcKind i.val
    if (x.state = .reset ∨ x.state = .established) ∧ (kind = 4 ∨ d.gableChecks = true) ∧
        x.since + 1000 * c.fcTexp i.val < d.now then
      let d := (d.onFlash i fun x => { x.enterReset kind .timeout with timeouts := satInc x.timeouts }).noteLive
      let d := d.event 0x0901 (payN 0 i.val ||| payN 3 (if c.fcFlag i.val 2 then 1 else 0) ||| pay 16 x.seq)
      (d.flashMiss kind).refreshFlash
    else d

/-! ### Sending (R380, R382) -/

/-- The next frame of a stream that the device produces (R382). -/
def Dev.flashBuild (d : Dev) (c : SafetyConfig) (i : Fin 8) (type : Nat) (payload : List Byte) : List Byte × Dev :=
  let x := d.flash.conns[i.val]
  let dst := if c.fcKind i.val = 3 ∨ c.fcKind i.val = 4 then c.fcGroup i.val else c.fcPeer i.val
  (flashFrame type payload x.txSeq c.deviceId dst (BitVec.ofNat 32 (d.now / 10)) (c.fcKey i.val),
    d.onFlash i fun x => { x with txLast := x.txSeq, txSeq := x.txSeq + 1 })

/-- A frame put on ring 29 (R382). -/
def Dev.flashOut (d : Dev) (c : SafetyConfig) (i : Fin 8) (type : Nat) (payload : List Byte) : Dev :=
  let x := d.flashBuild c i type payload
  x.2.putEntry 29 x.1

/-- Whether `ms` milliseconds have passed since the last frame that the device sent of its own on a connection. -/
def FlashConn.dueAfter (x : FlashConn) (now ms : Nat) : Bool :=
  match x.sentAt with
  | none => true
  | some t => decide (t + 1000 * ms ≤ now)

/-- Whether an ECHO is due (R380): for a newly accepted frame, at most one a millisecond; in RESET and TIMEOUT every
max(1, t_exp / 4) ms. -/
def FlashConn.echoDue (x : FlashConn) (texp now : Nat) : Bool :=
  (x.echoOwed && x.dueAfter now 1) || (x.state != .established && x.dueAfter now (max 1 (texp / 4)))

/-- An ECHO of a kind 1 connection (R380). -/
def Dev.flashSendEcho (d : Dev) (i : Fin 8) : Dev :=
  match d.gbl.cfg with
  | none => d
  | some c =>
    let x := d.flash.conns[i.val]
    if c.fcKind i.val = 1 ∧ d.gableChecks = true ∧ x.echoDue (c.fcTexp i.val) d.now = true then
      let flags := (if x.state = .established then 0 else 1) + (if x.state = .timeout then 2 else 0)
      let d := d.onFlash i fun x => { x with echoOwed := false, sentAt := some d.now }
      d.flashOut c i 5 (beBytes x.seq.toNat 2 ++ beBytes x.ts.toNat 4 ++ [BitVec.ofNat 8 flags, 0])
    else d

/-- The payload of a STATUS frame (R372); `otp` is the change-log counter. -/
def Dev.flashStatus (d : Dev) (otp : BitVec 12) : List Byte :=
  let b (k : Nat) (x : Bool) : Nat := if x then 2 ^ k else 0
  [d.sys.mode.code.setWidth 8,
    BitVec.ofNat 8 (b 0 (d.liveG && d.liveH) + b 1 (d.gbl.demand != 0) + b 2 (d.sys.mode == .degraded) +
      b 3 (d.sys.mode == .safeHold) + b 4 d.gbl.sf3),
    d.gbl.zoneSet.setWidth 8, d.gbl.holdCause ++ d.gbl.degCause] ++ beBytes otp.toNat 2 ++ [0, 0]

/-- A STATUS of a kind 2 connection (R382): every max(1, t_exp / 4) ms, and when its content has changed. -/
def Dev.flashSendStatus (d : Dev) (otp : BitVec 12) (i : Fin 8) : Dev :=
  match d.gbl.cfg with
  | none => d
  | some c =>
    let x := d.flash.conns[i.val]
    let p := d.flashStatus otp
    if c.fcKind i.val = 2 ∧ d.gableChecks = true ∧
        (x.dueAfter d.now (max 1 (c.fcTexp i.val / 4)) = true ∨ x.statusSent ≠ p) then
      (d.onFlash i fun x => { x with sentAt := some d.now, statusSent := p }).flashOut c i 4 p
    else d

/-- The sample of an axis as the encoder delivered it, and its time (R372). -/
def Dev.encRaw (d : Dev) (c : SafetyConfig) (a : Nat) : List Byte :=
  match (getN d.rdg.enc a EncAxis.reset).last with
  | none => List.replicate 8 0
  | some (p, t) => beBytes (if c.encGray a then binToGray p else p).toNat 4 ++ beBytes (t % 2 ^ 32) 4

/-- The frame a manager of a roof builds at a sample of axis `a` (R382, 16 R481): ENC_SAMPLE when it is valid, HEARTBEAT
when it is not, broadcast as GFRAME or RFRAME. -/
def Dev.flashEnc (d : Dev) (a : Fin 4) (valid : Bool) : Dev :=
  match d.gbl.cfg with
  | none => d
  | some c =>
    let kind := if a.val < 2 then 3 else 4
    if d.sys.role = 2 ∨ (kind = 3 ∧ d.gableChecks = false) then d
    else match c.fcOf kind with
      | none => d
      | some i =>
        let g := if kind = 3 then 0 else 2
        let restart := d.roof.restartStream.getLsbD (kind - 3)
        let d := if restart then
            (d.onFlash i fun x => { x with txSeq := 0, txGen := x.txGen + 1 }) else d
        let d : Dev := { d with roof := { d.roof with restartStream := setBit d.roof.restartStream (kind - 3) false } }
        let stop := if kind = 3 then d.gbl.demand ≠ 0 ∨ d.sys.mode = .safeHold else d.rdg.demand.getLsbD 0 = true
        let x := if valid then
            d.flashBuild c i 6 (d.encRaw c g ++ d.encRaw c (g + 1) ++
              [if stop then 1 else 0, d.flash.conns[i.val].txGen])
          else d.flashBuild c i 1 []
        if d.roof.ringUp then x.2.sendCell (BitVec.ofNat 8 kind) 0xFF x.1 else x.2

/-- One sample read from the device's own encoder channels and, on a manager, the frame it sends to the roof. -/
def Dev.encRead (d : Dev) (i : Fin 4) (idleHigh endLow : Bool) (code : Word) : Dev :=
  let d := d.encSample i idleHigh endLow code
  let valid := match d.rdg.enc[i.val].last with | none => false | some (_, t) => t == d.now && d.rdg.enc[i.val].bad == 0
  match d.gbl.cfg with
  | none => d
  | some c => if c.axes then d.flashEnc i valid else d

/-- The Gable's comparison and restart (11 R346) with the streams that start with it (R386). (DEDUCED, log 70) -/
def Dev.gableReturn (d : Dev) : Dev :=
  let held := d.gbl.held
  let d := d.gableRestart
  if held && !d.gbl.held then d.flashStart false else d

end Sys2Proof.Machine
end

