-- ==== Sys2Proof/Machine/Flags.lean ====
section
/-! DEFINITION. The scalar arithmetic of a Thatch core and every flag it sets (04 R100 to R102, R112). -/

namespace Sys2Proof.Machine

open Sys2Proof

/-- FLG as a word (R112). -/
def Flg.word (f : Flg) : Word := bit 0 f.z ||| bit 1 f.n ||| bit 2 f.c ||| bit 3 f.v ||| bit 4 f.q

/-- FLG from a word: written bits above 4 are ignored (R112). -/
def Flg.ofWord (x : Word) : Flg :=
  { z := x.getLsbD 0, n := x.getLsbD 1, c := x.getLsbD 2, v := x.getLsbD 3, q := x.getLsbD 4 }

/-- Z of a result; Z and N of a result (R101). -/
def Flg.setZ (f : Flg) (d : Word) : Flg := { f with z := decide (d = 0) }
def Flg.setZN (f : Flg) (d : Word) : Flg := { f with z := decide (d = 0), n := d.msb }

/-- Q is only ever set by an instruction (R101). -/
def Flg.sticky (f : Flg) (clamped : Bool) : Flg := { f with q := f.q || clamped }

/-- Whether an integer is the value of a signed 32-bit word. -/
def fitsSigned (x : Int) : Bool := decide (-2147483648 ≤ x) && decide (x ≤ 2147483647)

/-- A word from the low 32 bits of an integer. -/
def wordOf (x : Int) : Word := BitVec.ofInt 32 x

/-- An integer clamped to the signed 32-bit range, and whether it was clamped. -/
def satSigned (x : Int) : Word × Bool :=
  if x < -2147483648 then (0x80000000, true) else if 2147483647 < x then (0x7FFFFFFF, true) else (wordOf x, false)

/-- An integer clamped to the unsigned 32-bit range, and whether it was clamped. -/
def satUnsigned (x : Int) : Word × Bool :=
  if x < 0 then (0, true) else if 4294967295 < x then (0xFFFFFFFF, true) else (wordOf x, false)

/-- A result with the flags after it. -/
abbrev AluOut := Word × Flg

/-- a + b + carry-in with Z N C V (R100, R101). -/
def aluAdd (f : Flg) (a b : Word) (cin : Bool) : AluOut :=
  let k : Nat := if cin then 1 else 0
  let d := a + b + BitVec.ofNat 32 k
  (d, { f.setZN d with c := decide (2 ^ 32 ≤ a.toNat + b.toNat + k),
                       v := !fitsSigned (a.toInt + b.toInt + k) })

/-- a - b - borrow with Z N C V: C is 1 when no borrow occurred (R101). -/
def aluSub (f : Flg) (a b : Word) (borrow : Bool) : AluOut :=
  let k : Nat := if borrow then 1 else 0
  let d := a - b - BitVec.ofNat 32 k
  (d, { f.setZN d with c := decide (b.toNat + k ≤ a.toNat), v := !fitsSigned (a.toInt - b.toInt - k) })

/-- A result that sets Z and N, one that sets Z, and one that sets no flag. -/
def aluZN (f : Flg) (d : Word) : AluOut := (d, f.setZN d)
def aluZ (f : Flg) (d : Word) : AluOut := (d, f.setZ d)
def aluNone (f : Flg) (d : Word) : AluOut := (d, f)

/-- Leading zeros of a word, 0 to 32. -/
def clz (a : Word) : Nat := 32 - (if a = 0 then 0 else Nat.log2 a.toNat + 1)

/-- MUL (R100): V when the signed product is not representable. -/
def aluMul (f : Flg) (a b : Word) : AluOut :=
  let d := a * b
  (d, { f.setZN d with v := !fitsSigned (a.toInt * b.toInt) })

/-- MULH and MULHU. -/
def mulHigh (a b : Word) : Word := wordOf (Int.fdiv (a.toInt * b.toInt) 4294967296)
def mulHighU (a b : Word) : Word := BitVec.ofNat 32 (a.toNat * b.toNat / 2 ^ 32)

/-- The shifted exact product of R102. -/
def fxShift (p : Int) (n : Nat) (r : Bool) : Int :=
  Int.fdiv (if r && decide (0 < n) then p + 2 ^ (n - 1) else p) (2 ^ n)

/-- The end of FXMUL and FXMULU (R102): fits, saturates with Q, or wraps with V. -/
def fxEnd (f : Flg) (q : Int) (fits s : Bool) (sat : Word) : AluOut :=
  if fits then (wordOf q, { f.setZN (wordOf q) with v := false })
  else if s then (sat, { (f.setZN sat).sticky true with v := false })
  else (wordOf q, { f.setZN (wordOf q) with v := true })

/-- FXMUL (R102). -/
def aluFxmul (f : Flg) (a b : Word) (n : Nat) (r s : Bool) : AluOut :=
  let q := fxShift (a.toInt * b.toInt) n r
  fxEnd f q (fitsSigned q) s (satSigned q).1

/-- FXMULU (R102). -/
def aluFxmulu (f : Flg) (a b : Word) (n : Nat) (r s : Bool) : AluOut :=
  let q := fxShift ((a.toNat * b.toNat : Nat) : Int) n r
  fxEnd f q (decide (q ≤ 4294967295)) s (satUnsigned q).1

/-- DIV, with V in the one case that is not representable; DIVU, REM and REMU (R100, R101). The divisor is not 0. -/
def aluDiv (f : Flg) (a b : Word) : AluOut :=
  let d := wordOf (Int.tdiv a.toInt b.toInt)
  (d, { f.setZN d with v := decide (a = 0x80000000 ∧ b = 0xFFFFFFFF) })
def aluDivu (f : Flg) (a b : Word) : AluOut := aluZ f (BitVec.ofNat 32 (a.toNat / b.toNat))
def aluRem (f : Flg) (a b : Word) : AluOut := aluZN f (wordOf (Int.tmod a.toInt b.toInt))
def aluRemu (f : Flg) (a b : Word) : AluOut := aluZ f (BitVec.ofNat 32 (a.toNat % b.toNat))

/-- A signed saturated result with Z N Q, and an unsigned one with Z Q. -/
def aluSat (f : Flg) (x : Int) : AluOut :=
  let r := satSigned x
  (r.1, (f.setZN r.1).sticky r.2)
def aluSatU (f : Flg) (x : Int) : AluOut :=
  let r := satUnsigned x
  (r.1, (f.setZ r.1).sticky r.2)

/-- FXSAT and FXSATU: clamp to k bits, Q when clamped. -/
def aluClamp (f : Flg) (a : Word) (lo hi : Int) : AluOut :=
  let x := a.toInt
  if x < lo then (wordOf lo, f.sticky true)
  else if hi < x then (wordOf hi, f.sticky true)
  else (a, f)

/-- Signed comparisons and choices. -/
def sLt (a b : Word) : Bool := decide (a.toInt < b.toInt)
def uLt (a b : Word) : Bool := decide (a.toNat < b.toNat)
def sMin (a b : Word) : Word := if sLt b a then b else a
def sMax (a b : Word) : Word := if sLt a b then b else a
def uMin (a b : Word) : Word := if uLt b a then b else a
def uMax (a b : Word) : Word := if uLt a b then b else a
def boolWord (b : Bool) : Word := if b then 1 else 0

end Sys2Proof.Machine
end

