-- ==== Sys2Proof/Machine/Operands.lean ====
section
/-! DEFINITION. The formats of a Thatch word (04 R96 to R98), how their fields are placed, extended and read, the
cores that execute them, and branch targets (R97). -/

namespace Sys2Proof.Machine

open Sys2Proof

/-- The Thatch cores: the Truss (T), the eight Course engines (P), the Gable (G) and the Soffit sequencer (F). -/
inductive CoreId where
  | truss
  | engine (e : Fin 8)
  | gable
  | soffit
  deriving DecidableEq, Repr

/-- COREID[1:0], the profile of a core (R111). -/
def CoreId.profile : CoreId → Nat
  | .truss => 0 | .engine _ => 1 | .gable => 2 | .soffit => 3

/-- COREID (R111). -/
def CoreId.word (c : CoreId) : Word :=
  match c with
  | .engine e => BitVec.ofNat 32 (1 + 4 * e.val)
  | c => BitVec.ofNat 32 c.profile

/-- Return-stack and loop-stack entries of a core (R91). -/
def CoreId.rmax : CoreId → Nat
  | .soffit => 8 | _ => 16
def CoreId.lmax : CoreId → Nat
  | .soffit => 2 | _ => 4

/-- The R format (R96). -/
def encR (op : Byte) (dst src1 src2 : BitVec 5) (mod : BitVec 9) : Word := op ++ dst ++ src1 ++ src2 ++ mod

/-- The I format (R96). -/
def encI (op : Byte) (dst src1 : BitVec 5) (imm : BitVec 14) : Word := op ++ dst ++ src1 ++ imm

/-- The L format (R96). -/
def encL (op : Byte) (dst : BitVec 5) (imm : BitVec 19) : Word := op ++ dst ++ imm

/-- The B format (R96). -/
def encB (op : Byte) (src1 src2 : BitVec 5) (off : BitVec 14) : Word := op ++ src1 ++ src2 ++ off

/-- The fields of a word (R96). -/
def wOp (w : Word) : Byte := w.extractLsb' 24 8
def wDst (w : Word) : BitVec 5 := w.extractLsb' 19 5
def wSrc1 (w : Word) : BitVec 5 := w.extractLsb' 14 5
def wSrc2 (w : Word) : BitVec 5 := w.extractLsb' 9 5
def wMod (w : Word) : BitVec 9 := w.extractLsb' 0 9
def wImm14 (w : Word) : BitVec 14 := w.extractLsb' 0 14
def wImm19 (w : Word) : BitVec 19 := w.extractLsb' 0 19

/-- sx and zx of a field (R97). -/
def sx {n : Nat} (x : BitVec n) : Word := x.signExtend 32
def zx {n : Nat} (x : BitVec n) : Word := x.setWidth 32

/-- A register read: s0 reads 0 (R91). -/
def Core.get (c : Core) (r : BitVec 5) : Word := if r = 0 then 0 else c.s[r.toNat]'(r.isLt)

/-- A register write: a write to s0 is discarded (R92). -/
def Core.put (c : Core) (r : BitVec 5) (x : Word) : Core :=
  if r = 0 then c else { c with s := c.s.set r.toNat x r.isLt }

/-- The target of a branch or JMP at `pc` (R97, R104). -/
def branchTarget {n : Nat} (pc : Word) (off : BitVec n) : Word := pc + (sx off <<< 2)

/-- R106: what a taken branch, JMP or JR to `target` leaves on the loop stack. -/
def Core.leaveLoops (c : Core) (target : Word) : Core :=
  { c with lstack := c.lstack.filter fun e =>
      !(e.depth == c.rstack.length && !(decide (e.start.toNat ≤ target.toNat) && decide (target.toNat ≤ e.last.toNat))) }

/-- A taken branch, JMP or JR (R104, R106). -/
def Core.jump (c : Core) (target : Word) : Core := { c.leaveLoops target with pc := target }

/-- R105: the loop entries with end address `pc` at the current depth, innermost first: where execution goes on and
what is left. -/
def loopEnd (pc : Word) (depth : Nat) : List LoopEntry → List LoopEntry × Option Word
  | [] => ([], none)
  | e :: r =>
    if e.last = pc ∧ e.depth = depth then
      if 1 < e.left.toNat then ({ e with left := e.left - 1 } :: r, some e.start) else loopEnd pc depth r
    else
      let x := loopEnd pc depth r
      (e :: x.1, x.2)

/-- The end of an instruction that did not transfer control (R105). (DEDUCED, log 31) -/
def Core.fall (c : Core) : Core :=
  match loopEnd c.pc c.rstack.length c.lstack with
  | (l, some t) => { c with lstack := l, pc := t }
  | (l, none) => { c with lstack := l, pc := c.pc + 4 }

end Sys2Proof.Machine
end

