-- ==== Sys2Proof/Machine/Isa.lean ====
section
/-! DEFINITION. The opcode table of Thatch (04 R99 to R116, R121, 05 R143): which profiles implement an opcode, which bits
of its word must be 0, which register fields it uses and what it costs; and the control and status registers a profile
has (R111, 05 R141). -/

namespace Sys2Proof.Machine

open Sys2Proof

/-- What a register field names, and so which numbers trap REGISTER (R92, 05 R134). -/
inductive RegKind where
  /-- s0 to s31; s0 to s15 on F -/
  | scalar
  /-- v0 to v15 -/
  | vector
  /-- the first of four vector registers, 0 to 12 -/
  | group
  /-- p0 to p7 -/
  | predicate
  /-- the first of three scalar registers, 0 to 29 (R114) -/
  | triple
  /-- the first of two scalar registers, 0 to 30 (R115) -/
  | pair
  deriving DecidableEq, Repr

/-- One row of an instruction table. -/
structure Isa where
  /-- profiles T, P, G, F from bit 0 -/
  profiles : BitVec 4
  /-- bits of the word that must be 0 (R98) -/
  reserved : Word
  /-- register fields: the lowest bit and what it names -/
  regs : List (Nat × RegKind)
  /-- the Cycles column; a branch's is the one not taken -/
  cycles : Nat
  /-- predicated under 05 R135 -/
  pred : Bool
  deriving DecidableEq, Repr

/-- The field positions dst, src1, src2 of R96. -/
def fDst : Nat := 19
def fSrc1 : Nat := 14
def fSrc2 : Nat := 9

def isaRow (profiles : BitVec 4) (reserved : Word) (regs : List (Nat × RegKind)) (cycles : Nat) : Isa :=
  { profiles := profiles, reserved := reserved, regs := regs, cycles := cycles, pred := false }

/-- Scalar instructions (R100), opcodes 0x01 to 0x2D. -/
def isaScalar (op : Nat) : Isa :=
  let s : RegKind := .scalar
  let d : Nat × RegKind := (fDst, s)
  let cyc := if op = 0x13 ∨ op = 0x14 ∨ op = 0x15 then 2 else if op = 0x16 ∨ op = 0x17 then 3
    else if 0x18 ≤ op ∧ op ≤ 0x1B then 34 else 1
  if op = 0x2A ∨ op = 0x2B then isaRow 0xF 0 [d] cyc
  else if op = 0x0F ∨ op = 0x10 ∨ op = 0x11 then isaRow 0xF 0x3FE0 [d, (fSrc1, s)] cyc
  else if op = 3 ∨ op = 9 ∨ op = 0x0A ∨ op = 0x0B ∨ op = 0x27 ∨ op = 0x28 then isaRow 0xF 0 [d, (fSrc1, s)] cyc
  else if op = 0x12 then isaRow 0xF 0x3FFF [d, (fSrc1, s)] cyc
  else if op = 0x2C ∨ op = 0x2D then isaRow 0xF 0x3FE0 [d, (fSrc1, s)] cyc
  else if op = 0x29 then isaRow 0xF 0x1E0 [d, (fSrc1, s), (fSrc2, s), (0, s)] cyc
  else if op = 0x16 ∨ op = 0x17 then isaRow 0xF 0x180 [d, (fSrc1, s), (fSrc2, s)] cyc
  else isaRow 0xF 0x1FF [d, (fSrc1, s), (fSrc2, s)] cyc

/-- Control and system (R104), opcodes 0x40 to 0x52. -/
def isaControl (op : Nat) : Isa :=
  let s : RegKind := .scalar
  if op = 0x40 then isaRow 0xF 0xFFFFFF [] 1
  else if op ≤ 0x46 then isaRow 0xF 0 [(19, s), (14, s)] 1
  else if op = 0x47 ∨ op = 0x48 then isaRow 0xF 0xF80000 [] 2
  else if op = 0x49 then isaRow 0xF 0xFFFFFF [] 2
  else if op = 0x4A ∨ op = 0x4B then isaRow 0x3 0xF83FFF [(fSrc1, s)] 2
  else if op = 0x4C then isaRow 0xF 0xF80000 [] 1
  else if op = 0x4D then isaRow 0x3 0xF83E00 [(fSrc1, s)] 1
  else if op = 0x4E then isaRow 0xF 0x7C000 [(fDst, s)] 1
  else if op = 0x4F then isaRow 0xF 0 [(fDst, s), (fSrc1, s)] 1
  else if op = 0x50 then isaRow 0xF 0xFFC000 [] 1
  else isaRow 0xF 0xFFFFFF [] 1

/-- G-only instructions (R113), opcodes 0xC0 to 0xC6. -/
def isaGable (op : Nat) : Isa :=
  let s : RegKind := .scalar
  if op = 0xC0 then isaRow 0x4 0x1FE [(fDst, s), (fSrc1, s), (fSrc2, .triple)] 24
  else if op = 0xC1 then isaRow 0x4 0x7FFFC [(fDst, s)] 2
  else if op = 0xC2 then isaRow 0x4 0xFFC000 [] 1
  else if op = 0xC4 then isaRow 0x4 0xF83FFF [(fSrc1, s)] 1
  else if op = 0xC6 then isaRow 0x4 0x3FFF [(fDst, s), (fSrc1, s)] 2
  else isaRow 0x4 0xFFFFFF [] 1

/-- F-only instructions (R116), opcodes 0xD0 to 0xD5. -/
def isaSoffit (op : Nat) : Isa :=
  let s : RegKind := .scalar
  if op = 0xD0 then isaRow 0x8 0x7FFFF [(fDst, s)] 1
  else if op = 0xD3 then isaRow 0x8 0x7FFFF [(fDst, s)] 2
  else if op = 0xD5 then isaRow 0x8 0xFFFFFF [] 1
  else isaRow 0x8 0xF83FFF [(fSrc1, s)] 1

/-- T-only instructions (R115), opcodes 0xE0 to 0xE4. -/
def isaTruss (op : Nat) : Isa :=
  let s : RegKind := .scalar
  if op = 0xE0 ∨ op = 0xE1 then isaRow 0x1 0x1FF [(fDst, s), (fSrc1, s), (fSrc2, s)] 20
  else if op = 0xE2 then isaRow 0x1 0xF801FF [(fSrc1, s), (fSrc2, .pair)] 4
  else if op = 0xE3 then isaRow 0x1 0x3FFF [(fDst, s), (fSrc1, s)] 1
  else isaRow 0x1 0xFFFFFF [] 2

/-- A predicated vector instruction. -/
def isaPred (reserved : Word) (regs : List (Nat × RegKind)) (cycles : Nat) : Isa :=
  { profiles := 0x2, reserved := reserved, regs := regs, cycles := cycles, pred := true }

/-- P-only instructions (05 R143), opcodes 0x80 to 0xB1. -/
def isaVector (op : Nat) : Isa :=
  let v : RegKind := .vector
  let s : RegKind := .scalar
  let p : RegKind := .predicate
  let row := isaRow 0x2
  let vvv := [(fDst, v), (fSrc1, v), (fSrc2, v)]
  if op ≤ 0x84 then isaPred 0x1F0 vvv 1
  else if op ≤ 0x87 then isaPred 0 vvv 2
  else if op ≤ 0x8E then isaPred 0x1F0 vvv 1
  else if op = 0x8F then isaPred 0x3FF0 [(fDst, v), (fSrc1, v)] 1
  else if op ≤ 0x92 then row 0x3FE0 [(fDst, v), (fSrc1, v)] 1
  else if op = 0x93 then row 0 [(fDst, v)] 1
  else if op = 0x94 then isaPred 0x3FF0 [(fDst, v), (fSrc1, s)] 1
  else if op = 0x95 then row 0x3FF0 [(fDst, s), (fSrc1, v)] 1
  else if op = 0x96 then row 0x3FF0 [(fDst, v), (fSrc1, s)] 1
  else if op = 0x97 then row 0x1F8 vvv 1
  else if op ≤ 0x9B then row 0x1FF [(fDst, p), (fSrc1, v), (fSrc2, v)] 1
  else if op ≤ 0x9E then row 0x1FF [(fDst, p), (fSrc1, p), (fSrc2, p)] 1
  else if op = 0x9F then row 0x3FFF [(fDst, p), (fSrc1, p)] 1
  else if op = 0xA0 then row 0x3FFF [(fDst, p), (fSrc1, s)] 1
  else if op = 0xA1 then row 0x3FFF [(fDst, s), (fSrc1, p)] 1
  else if op = 0xA2 then row 0x7FFF8 [(fDst, v)] 1
  else if op = 0xA3 ∨ op = 0xA4 then row 0 [(fDst, v), (fSrc1, s)] 2
  else if op = 0xA5 then row 0x1F0 [(fDst, .group), (fSrc1, v), (fSrc2, v)] 16
  else if op = 0xA6 then row 0x1FF [(fDst, v), (fSrc1, v), (fSrc2, s)] 16
  else if op = 0xA7 then row 0xF80000 [(fSrc1, s)] 8
  else if op = 0xA8 then isaPred 0x3FF0 [(fDst, v), (fSrc1, .group)] 4
  else if op = 0xA9 then isaPred 0xF80180 [(fSrc1, v), (fSrc2, v)] 2
  else if op = 0xAA then row 0x7FFFF [(fDst, v)] 1
  else if op = 0xAB then row 0xFFFFFF [] 1
  else if op = 0xAC then row 0xF83FFF [(fSrc1, s)] 1
  else if op = 0xAD then row 0x1FF [(fDst, v), (fSrc1, v), (fSrc2, s)] 4
  else if op = 0xAE then row 0x1FF [(fDst, v), (fSrc1, v), (fSrc2, s)] 16
  else if op = 0xAF then row 0x3FFF [(fDst, v), (fSrc1, v)] 1
  else if op = 0xB0 then row 0xF83FFF [(fSrc1, v)] 1
  else row 0xFFFFFF [] 1

/-- The row of an opcode; none when no profile assigns it (R99). -/
def isa (op : Nat) : Option Isa :=
  if op = 0 then none
  else if op ≤ 0x2D then some (isaScalar op)
  else if 0x40 ≤ op ∧ op ≤ 0x52 then some (isaControl op)
  else if 0x60 ≤ op ∧ op ≤ 0x67 then some (isaRow 0xF 0 [(fDst, .scalar), (fSrc1, .scalar)] 2)
  else if 0x80 ≤ op ∧ op ≤ 0xB1 then some (isaVector op)
  else if 0xC0 ≤ op ∧ op ≤ 0xC6 then some (isaGable op)
  else if 0xD0 ≤ op ∧ op ≤ 0xD5 then some (isaSoffit op)
  else if 0xE0 ≤ op ∧ op ≤ 0xE4 then some (isaTruss op)
  else none

/-! ### Trap codes (R117, 05 R159) -/

def tOpcodeZero : Byte := 0x01
def tIllegal : Byte := 0x02
def tProfile : Byte := 0x03
def tRegister : Byte := 0x04
def tFetch : Byte := 0x05
def tAlign : Byte := 0x06
def tAccess : Byte := 0x07
def tMemUe : Byte := 0x08
def tDivzero : Byte := 0x09
def tStack : Byte := 0x0A
def tLoop : Byte := 0x0B
def tBreak : Byte := 0x0C
def tSoftware : Byte := 0x0D
def tWatchdog : Byte := 0x0E
def tSignature : Byte := 0x0F
def tFinishOnly : Byte := 0x20
def tContextOnly : Byte := 0x21
def tSrcUnbound : Byte := 0x22
def tPatchOverrun : Byte := 0x23

/-- The greatest register number that a field may hold in a profile. -/
def RegKind.limit (k : RegKind) (profile : Nat) : Nat :=
  match k with
  | .scalar => if profile = 3 then 15 else 31
  | .vector => 15
  | .group => 12
  | .predicate => 7
  | .triple => 29
  | .pair => 30

/-- Whether some register field of a word traps REGISTER. -/
def Isa.badReg (i : Isa) (profile : Nat) (w : Word) : Bool :=
  i.regs.any fun x => decide (x.2.limit profile < (w.extractLsb' x.1 5).toNat)

/-- Whether the opcode is excluded from G and F (R121). -/
def excluded (profile op : Nat) : Bool := (profile == 2 || profile == 3) && (op == 0x4A || op == 0x4B || op == 0x4D)

/-- The word offset of a branch, JMP or CALL; none for another opcode (R97, R104). -/
def jumpOffset (w : Word) : Option Int :=
  let op := (wOp w).toNat
  if 0x41 ≤ op ∧ op ≤ 0x46 then some (wImm14 w).toInt
  else if op = 0x47 ∨ op = 0x48 then some (wImm19 w).toInt
  else none

/-- A backward branch or JMP in G or F (R121). -/
def backward (profile : Nat) (w : Word) : Bool :=
  (profile == 2 || profile == 3) && wOp w != 0x48 &&
    match jumpOffset w with
    | none => false
    | some o => decide (o ≤ 0)

/-- Whether a profile has a CSR (R111, 05 R141). -/
def csrPresent (profile n : Nat) : Bool :=
  n ≤ 5 || n == 8 || n == 0x0C || n == 0x0D || ((n == 6 || n == 7) && profile != 3) || (n == 9 && profile == 2) ||
    ((n == 0x0A || n == 0x0B) && (profile == 2 || profile == 3)) || ((n == 0x0E || n == 0x0F) && profile == 0) ||
    (decide (0x10 ≤ n) && decide (n ≤ 0x16) && profile == 1)

/-- Whether a profile may write a CSR. -/
def csrWritable (profile n : Nat) : Bool :=
  n == 0 || (profile == 0 && (n == 1 || n == 2 || n == 0x0E || n == 0x0F))

/-- A CSRR or CSRW that traps ILLEGAL for its CSR. -/
def csrIllegal (profile : Nat) (w : Word) : Bool :=
  let n := (wImm14 w).toNat
  (wOp w == 0x4E && !csrPresent profile n) || (wOp w == 0x4F && !(csrPresent profile n && csrWritable profile n))

/-- The cause of the second group of R118 that a word meets on a profile, in the order OPCODE_ZERO, ILLEGAL, PROFILE,
REGISTER with the precedence of R99; none for a word that executes. (DEDUCED, log 30) -/
def wordCause (profile : Nat) (w : Word) : Option Byte :=
  let op := (wOp w).toNat
  if op = 0 then some tOpcodeZero
  else match isa op with
    | none => some tIllegal
    | some i =>
      if !i.profiles.getLsbD profile || excluded profile op then some tProfile
      else if w &&& i.reserved != 0 || (i.pred && !w.getLsbD 3 && (w &&& 7) != 0) || csrIllegal profile w then
        some tIllegal
      else if backward profile w then some tProfile
      else if i.badReg profile w then some tRegister
      else none

end Sys2Proof.Machine
end

