-- ==== Sys2Proof/Machine/Enum.lean ====
section
/-! DEFINITION. Enumeration: the checks of 08 R240 over what the chains returned, and the array taking effect (R238 to R244,
09 R280, R287, 11 R358). -/

namespace Sys2Proof.Machine

open Sys2Proof

/-- Whether a 64-byte block is a descriptor block: MAGIC and CRC (08 R238, R239). -/
def isDescriptor (x : BitVec 512) : Bool :=
  byteAt x 0 == 0x97 && word32 x 60 == crc32 ((upTo 60).map (byteAt x))

/-- A descriptor's VERSION and fields in range (R239, R240 cause 2). -/
def descriptorOk (x : BitVec 512) : Bool :=
  byteAt x 1 == 1 && decide (1 ≤ descAcross x) && decide (descAcross x ≤ 512) && decide (1 ≤ descDown x) &&
    decide (descDown x ≤ 512) && decide (1 ≤ descEps x) && decide (descEps x ≤ 4) && decide (8 ≤ descDmin x) &&
    decide (descDmin x ≤ 16) && decide (descDmin x ≤ descDmax x) && decide (descDmax x ≤ 16) && decide (1 ≤ descPmax x) &&
    decide (descPmax x ≤ 16) && decide (1 ≤ descTdiag x) && decide ((descFlags x).toNat < 16) &&
    byteAt x 13 == 0 && byteAt x 14 == 0 && byteAt x 15 == 0 && decide (descEmitters x ≤ 262144)

/-- What chain `c` returned in a transfer; a chain of which nothing is known returned nothing. -/
def chainEnumOf (l : List ChainEnum) (c : Nat) : ChainEnum :=
  (l[c]?).getD { empty := true, failed := true, blocks := [] }

/-- Whether chain `c` is empty (R238). -/
def Scan.chainEmpty (s : Scan) (c : Nat) : Bool := (chainEnumOf s.e2 c).empty && (chainEnumOf s.e3 c).empty

/-- Whether a block is a descriptor block; one that a code error touches is none. -/
def blockIs (f : BitVec 512 → Bool) (b : Option (BitVec 512)) : Bool :=
  match b with
  | none => false
  | some x => f x

/-- The descriptor blocks at the start of a chain's segment phase. -/
def ChainEnum.tiles (e : ChainEnum) : List (BitVec 512) := (e.blocks.takeWhile (blockIs isDescriptor)).filterMap id

/-- Whether every later block is the 64 zero bytes that were sent (R238). -/
def ChainEnum.tailZero (e : ChainEnum) : Bool := (e.blocks.dropWhile (blockIs isDescriptor)).all (blockIs (· == 0))

/-- The descriptors of chain `c`: those of E2, or of E3 where only its stream passed. (DEDUCED, log 111) -/
def Scan.chainFound (s : Scan) (c : Nat) : List (BitVec 512) :=
  if s.chainEmpty c then []
  else if (chainEnumOf s.e2 c).failed && !(chainEnumOf s.e3 c).failed then (chainEnumOf s.e3 c).tiles
  else (chainEnumOf s.e2 c).tiles

/-- The tiles found: ordinal and descriptor; the highest position came first (R225, R241). -/
def Scan.found (s : Scan) : List (Nat × BitVec 512) :=
  (upTo 16).flatMap fun c => (s.chainFound c).reverse.zipIdx.map fun x => (8 * c + x.2, x.1)

/-- The scan-out unit with the tiles found in place of those in force: the array that the checks judge. -/
def Scan.candidate (s : Scan) : Scan :=
  let f := s.found
  let tiles := s.tiles.mapFinIdx fun t (u : Tile) _ => match f.find? fun x => x.1 == t with
    | none => { u with present := false, desc := 0, ex := 0, ey := 0, side := none }
    | some x => { u with present := true, desc := x.2, ex := u.x, ey := u.y, side := none }
  let s : Scan := { s with tiles := tiles, enumValid := true }
  let w := s.present.foldl (fun m t => max m ((s.tile t).ex.toNat + (s.tile t).width)) 0
  let h := s.present.foldl (fun m t => max m ((s.tile t).ey.toNat + (s.tile t).height)) 0
  { s with gridW := BitVec.ofNat 16 w, gridH := BitVec.ofNat 16 h }

/-- Whether two tiles of the candidate share a place of the grid. -/
def Scan.tilesMeet (s : Scan) (t u : Nat) : Bool :=
  let a := s.tile t
  let b := s.tile u
  decide (a.ex.toNat < b.ex.toNat + b.width) && decide (b.ex.toNat < a.ex.toNat + a.width) &&
    decide (a.ey.toNat < b.ey.toNat + b.height) && decide (b.ey.toNat < a.ey.toNat + a.height)

/-- Cause 7: origins on site boundaries, tiles inside the grid and apart. -/
def Scan.originsOk (s : Scan) : Bool :=
  s.present.all fun t =>
    let u := s.tile t
    decide (u.ex.toNat % descEps u.desc = 0) && decide (u.ex.toNat + u.width ≤ 65536) &&
      decide (u.ey.toNat + u.height ≤ 65536) && s.present.all fun v => t == v || !s.tilesMeet t v

/-- Cause 8: the split of R241. -/
def Scan.splitOk (s : Scan) : Bool :=
  s.present.all fun t => portOf t || s.present.all fun u => !portOf u ||
    if s.split then decide ((s.tile t).ey.toNat + (s.tile t).height ≤ (s.tile u).ey.toNat)
    else decide ((s.tile t).ex.toNat + (s.tile t).width ≤ (s.tile u).ex.toNat)

/-- Cause 9: every patch with a valid emitter has a number below 256. -/
def Scan.patchesOk (s : Scan) : Bool :=
  s.present.all fun t =>
    let u := s.tile t
    decide (s.patchAt (u.ex.toNat + u.width - 1) (u.ey.toNat + u.height - 1) < 256)

/-- Emitters of the tiles that `f` picks. -/
def Scan.emittersOf (s : Scan) (f : Nat → Bool) : Nat := ((s.present.filter f).map fun t => (s.tile t).emitters).sum

/-- The descriptors of a stream that passed R232, and the blocks after them, are as R239 and R238 state. -/
def ChainEnum.good (e : ChainEnum) : Bool := e.failed || (e.tailZero && e.tiles.all descriptorOk)

/-- The first failing cause of R240, 0 when every check passes; `safe` tells whether a safety configuration is in force. The
content of a stream that failed R232 is judged under cause 11 alone. (DEDUCED, log 111) -/
def Scan.enumCheck (s : Scan) (safe : Bool) : BitVec 4 :=
  let f := s.found
  let live := (upTo 16).filter fun c => !s.chainEmpty c
  let n := s.candidate
  let ids := f.map fun x => descId x.2
  if f.isEmpty then 1
  else if !live.all (fun c => (chainEnumOf s.e2 c).good && (chainEnumOf s.e3 c).good) then 2
  else if !live.all (fun c => (chainEnumOf s.e2 c).failed || (chainEnumOf s.e3 c).failed ||
      (chainEnumOf s.e2 c).tiles == (chainEnumOf s.e3 c).tiles) then 3
  else if live.any fun c => 8 < (s.chainFound c).length then 4
  else if (upTo 16).any (fun c => 262144 < n.emittersOf fun t => chainOf t == c) ||
      decide (524288 < n.emittersOf fun t => portOf t) || decide (524288 < n.emittersOf fun t => !portOf t) then 5
  else if ids.eraseDups.length ≠ ids.length then 6
  else if !n.originsOk then 7
  else if !n.splitOk then 8
  else if !n.patchesOk then 9
  else if !n.slotFits n.slotNow || (safe && decide (4000000 < n.slotNow.period.toNat)) then 10
  else if live.any fun c => (chainEnumOf s.e2 c).failed || (chainEnumOf s.e3 c).failed then 11
  else 0

/-- SCO_ENUM_HASH over the present tiles (R244). -/
def Scan.hash (s : Scan) : Word :=
  crc32 (s.present.flatMap fun t =>
    let u := s.tile t
    [BitVec.ofNat 8 t] ++ (upTo 64).map (byteAt u.desc) ++ leBytes u.ex.toNat 2 ++ leBytes u.ey.toNat 2)

/-- Event 0x0505 (R262). -/
def Dev.enumEvent (d : Dev) : Dev :=
  let s := d.scan
  d.event 0x0505 (pay 0 s.enumTiles ||| payN 8 (if s.enumValid then 1 else 0) ||| pay 12 s.enumCause ||| pay 32 s.enumHash)

/-- The checks at the E3 window close (R238, R240). -/
def Dev.enumChecks (d : Dev) : Dev :=
  let cause := d.scan.enumCheck d.gbl.cfg.isSome
  if cause = 0 then { d with scan := { d.scan with enumTiles := BitVec.ofNat 8 d.scan.found.length } }
  else
    let d : Dev := { d with scan := { d.scan with
      enumCause := cause, enumBusy := false, enumTiles := BitVec.ofNat 8 d.scan.found.length, step := .failed } }
    d.enumEvent

/-- The first ordinal whose geometry differs from the GEOMETRY section (11 R351, R358). (DEDUCED, log 91) -/
def Dev.geometryDiff (d : Dev) (c : SafetyConfig) : Option Nat :=
  (upTo 128).find? fun t =>
    let u := d.scan.tile t
    let g := 12 * t
    if u.present && d.scan.enumValid then
      !(half16 c.geometry g == BitVec.ofNat 16 (descAcross u.desc) &&
        half16 c.geometry (g + 2) == BitVec.ofNat 16 (descDown u.desc) &&
        byteAt c.geometry (g + 4) == BitVec.ofNat 8 (descEps u.desc) &&
        half16 c.geometry (g + 8) == u.ex && half16 c.geometry (g + 10) == u.ey)
    else false

/-- The Gable's comparison of the array with the configuration (R358): event 0x0817 on a mismatch. -/
def Dev.enumBind (d : Dev) : Bool × Dev :=
  match d.gbl.cfg with
  | none => (true, d)
  | some c =>
    if c.enumBindGeometry then
      match d.geometryDiff c with
      | none => (true, d)
      | some t => (false, d.event 0x0817 (payN 0 t))
    else if c.enumHash = d.scan.hash then (true, d) else (false, d.event 0x0817 0x7F)

/-- The array takes effect at the LAT of step 6 (R238): records are 0 (09 R287), entries follow their tiles (09 R280). -/
def Dev.enumDone (d : Dev) : Dev :=
  let s := d.scan.candidate
  let d : Dev := { d with
    scan := { s with enumValid := true, enumBusy := false, enumCause := 0, enumHash := s.hash, step := .done },
    prv := { d.prv with records := [], sent := [], tiles := d.prv.tiles.mapFinIdx fun t (u : PrvTile) _ =>
      if s.present.contains t then u else PrvTile.reset } }
  (d.quarFollow).enumEvent

end Sys2Proof.Machine
end

