-- ==== Sys2Proof/Machine/Soffit.lean ====
section
/-! DEFINITION. The Soffit die's outputs, test pulses, logic silence (13 R409 to R418), the frames of the barrier link, and the core side's view of them (R396 to R398, R420, R421). -/

namespace Sys2Proof.Machine

open Sys2Proof

/-! ### Outputs (R409 to R413) -/

/-- The test in progress is over: its outputs' next interval runs from here (R412). -/
def Soffit.leaveTest (s : Soffit) (t : OutTest) : Soffit :=
  ({ s with test := none, outputs := s.outputs.mapFinIdx fun k (o : FieldOut) _ =>
      if t.members.getLsbD k then { o with testedAt := s.us } else o } : Soffit).settle

/-- The test in progress ends without a result (R413). -/
def Soffit.abortTest (s : Soffit) (t : OutTest) : Soffit := Soffit.leaveTest { s with aborted := s.aborted + 1 } t

/-- A fault latched on the group of output `k` (R411). -/
def Soffit.fault (s : Soffit) (k : Nat) (x : OutFault) (mask : BitVec 8) : Soffit :=
  let l := fLead s.field k
  if (s.output l).fault.isSome then s
  else
    let kind : BitVec 4 := match x with | .shortM => 1 | .shortL => 2 | .cross => 3 | .thermal => 4
    ({ s with outputs := updN s.outputs l fun o => { o with fault := some x, cooled := x != .thermal },
              faultKind := kind, faultIndex := BitVec.ofNat 3 l,
              crossMask := if x = .cross then mask else s.crossMask } : Soffit).settle

/-- A command to the group led by output `k` (R413); true when it aborted the test in progress. -/
def Soffit.command (s : Soffit) (k : Nat) (on : Bool) : Soffit × Bool :=
  let s' : Soffit := { s with outputs := updN s.outputs k fun o => { o with cmd := on } }
  match s.test with
  | none => (s'.settle, false)
  | some t =>
    if t.members.getLsbD k then (if t.off && on then (s', false) else (s'.abortTest t, true)) else (s'.settle, false)

/-- CLEAR for the group led by output `k` (R410): while it is commanded off, and cooled after a thermal fault. -/
def Soffit.clear (s : Soffit) (k : Nat) : Soffit :=
  let o := s.output k
  if !o.cmd && o.cooled then { s with outputs := updN s.outputs k fun o => { o with fault := none } } else s

/-- The words of a command applied to every lead output with an ASSIGN (R410, R417): ON, MASK and CLEAR. -/
def Soffit.commands (s : Soffit) (assign : Nat) (on mask clear : BitVec 8) : Soffit × Bool :=
  (upTo 8).foldl (fun x k =>
    if fLead x.1.field k = k ∧ fOutAssign x.1.field k = assign then
      let y := if mask.getLsbD k then x.1.command k (on.getLsbD k) else (x.1, false)
      let s := if clear.getLsbD k then (y.1.clear k).settle else y.1
      (s, x.2 || y.2)
    else x) (s, false)

/-- A test request or a due test that may run for output `k` (R412, R417). -/
def Soffit.mayTest (s : Soffit) (k : Nat) (off : Bool) : Bool :=
  let l := fLead s.field k
  l == k && fOutAssign s.field k != 0 && (s.output k).fault.isNone && (s.output k).on == off &&
    (if off then fOutOfft s.field k != 0 else fOutOnt s.field k != 0)

/-- TPLS (R417). -/
def Soffit.requests (s : Soffit) (a : Word) : Soffit :=
  if a.extractLsb' 16 16 ≠ 0 then s
  else
    let want := (upTo 8).flatMap fun k =>
      (if a.getLsbD k && s.mayTest k true then [(k, true)] else []) ++
        (if a.getLsbD (8 + k) && s.mayTest k false then [(k, false)] else [])
    { s with tests := s.tests ++ (want.filter fun x => fOutAssign s.field x.1 == 1).map fun x =>
        (Fin.ofNat 8 x.1, x.2) }

/-- Whether a test of output `k` is requested, or its interval has passed since its last one (R412). -/
def Soffit.testDue (s : Soffit) (k : Fin 8) (off : Bool) : Bool :=
  let per := if off then fOutOffPer s.field k.val else fOutOnPer s.field k.val
  s.tests.contains (k, off) || decide ((s.output k.val).testedAt + 1000000 * per ≤ s.us)

/-- A due test pulse starts (R412): one at a time, never while L+ is low or missing. -/
def Soffit.testStart (s : Soffit) (k : Fin 8) (off : Bool) : Soffit :=
  if s.powered && s.test.isNone && s.lplus == 0 && s.mayTest k.val off && s.testDue k off then
    let f := s.field
    let t : OutTest := { out := k, off := off, members := fMembers f k.val, start := s.us,
                         width := if off then fOutOfft f k.val else fOutOnt f k.val }
    { s with test := some t, tests := s.tests.filter fun x => x != (k, off),
             outputs := s.outputs.mapFinIdx fun j (o : FieldOut) _ =>
               if t.members.getLsbD j then o.switch (!off) s.us else o }
  else s

/-- Readback of `mv` millivolts (R409): between the levels the previous reading holds. -/
def readHigh (prev : Bool) (mv : Nat) : Bool := decide (11000 < mv) || (prev && decide (5000 ≤ mv))

/-- Whether input `k`, measured at `ua` microamperes, saw an off-test pulse (R405): a reading of OFF or BROKEN. -/
def Soffit.saw (s : Soffit) (k ua : Nat) : Bool :=
  match (rawClass (s.input k).raw (fInMode s.field k 1) ua).1 with
  | .off | .broken => true
  | .on | .invalid => false

/-- The tied-input check of the off-test pulse `t` (R405), at the input currents `ua`. -/
def Soffit.tiedCheck (s : Soffit) (t : OutTest) (ua : Vector Nat 8) : Soffit :=
  (upTo 8).foldl (fun (s : Soffit) i =>
    let j := (fIn s.field i 4).toNat
    if 8 ≤ j then s
    else
      let own := t.members.getLsbD j
      let saw := s.saw i (getN ua i 0)
      let bad := if own then !saw else saw && (s.output j).on
      let put (f : FieldIn → FieldIn) : Soffit := { s with inputs := updN s.inputs i f }
      if bad then
        { put (fun x => { x with cross := true, good := 0 }) with faultKind := 6, faultIndex := BitVec.ofNat 3 i }
      else if own then
        put fun x => if 1 ≤ x.good then { x with cross := false, good := 0 } else { x with good := x.good + 1 }
      else if saw then put fun x => { x with good := 0 } else s) s

/-- The faults that the pulse `t` shows (R411): `high` tells what its own output reads 20 us before its end, `moved` the outputs
outside its group whose reading differs from the one before it. -/
def Soffit.diagnose (s : Soffit) (t : OutTest) (high : Bool) (moved : List Nat) : Soffit :=
  let l := fLead s.field t.out.val
  let others := (upTo 8).filter fun k => !t.members.getLsbD k && (s.output k).on
  let s' := if t.off && high then
      (if others.isEmpty then s.fault l .shortL 0
       else s.fault l .cross (others.foldl (fun m k => setBit m k true) 0))
    else if !t.off && !high then s.fault l .shortM 0 else s
  moved.foldl (fun s k => s.fault k .cross (setBit 0 l true)) s'

/-- A test pulse ends once its width has passed (R405, R411, R412): `mv` are the output voltages and `ua` the input currents
20 us before its end. -/
def Soffit.testEnd (s : Soffit) (mv ua : Vector Nat 8) : Soffit :=
  match s.test with
  | none => s
  | some t =>
    if s.us < t.start + t.width then s
    else
      let read (k : Nat) : Bool := readHigh (s.output k).readback (getN mv k 0)
      let moved := (upTo 8).filter fun k => !t.members.getLsbD k && read k != (s.output k).readback
      let s' := if t.off then s.tiedCheck t ua else s
      let s' := Soffit.leaveTest { s' with done := s'.done + 1 } t
      let outs := s'.outputs.mapFinIdx fun k (o : FieldOut) _ =>
        if t.members.getLsbD k then o else { o with readback := read k }
      let s' : Soffit := { s' with outputs := outs }
      if s.lplus ≠ 0 then s' else s'.diagnose t (read t.out.val) moved

/-- A look at output `k`, at `ma` milliamperes and `mv` millivolts (R411): at its limit of 1.2 A for 200 us while on, or LOW
300 us after switching on, is a short to M. -/
def Soffit.shortTimer (s : Soffit) (k : Fin 8) (ma mv : Nat) : Soffit :=
  if s.powered then
    let o := s.outputs[k.val]
    let since := timerFor (o.on && decide (1200 ≤ ma)) s.us o.limitSince
    let high := readHigh o.readback mv
    let s' : Soffit := { s with outputs := upd s.outputs k fun o => { o with limitSince := since, readback := high } }
    let limit := match since with | none => false | some t => decide (t + 200 ≤ s.us)
    if s.lplus = 0 && o.on && !s.underTest k.val && (limit || (!high && decide (o.movedAt + 300 ≤ s.us))) then
      s'.fault k.val .shortM 0
    else s'
  else s

/-- The switch of output `k` reaches its cutoff, or has cooled by 15 C since (R410, R411). -/
def Soffit.thermal (s : Soffit) (k : Fin 8) (hot : Bool) : Soffit :=
  let l := fLead s.field k.val
  if !s.powered then s
  else if hot then (if s.lplus = 0 then s.fault k.val .thermal 0 else s)
  else { s with outputs := updN s.outputs l fun o => { o with cooled := true } }

/-! ### Command frames at the Soffit (R396, R401, R415, R416) -/

/-- Whether a command frame that its CRC and header let pass is accepted as valid (R396). -/
def Soffit.accepts (s : Soffit) (x : CmdFrame) : Bool := s.powered && (s.rxAny || x.cnt == s.rxCnt + 1)

/-- What every valid command frame does: its HOST word, its ACK and the end of logic silence; `halted` keeps the safe
states (R415, R416, R418). -/
def Soffit.receive (s : Soffit) (x : CmdFrame) (halted : Bool) : Soffit × Bool :=
  let s : Soffit := { s with rxCnt := x.cnt, rxAny := false, rxAt := s.us, silenced := s.silenced && !x.ack, safeState := halted }
  let y := s.commands 2 (x.host.extractLsb' 0 8) 0xFF (x.host.extractLsb' 8 8)
  (y.1.settle, y.2)

/-- The words of a configuration frame (R401). (DEDUCED, log 69) -/
def Soffit.configure (s : Soffit) (x : CmdFrame) : Soffit :=
  let off := x.offset.toNat
  if off = s.cfgWords ∨ off = 0 then
    let data := (x.words.zipIdx).foldl (fun (b : BitVec 1280) w =>
      let i := 32 * (off + w.2)
      let x : BitVec 1280 := w.1.setWidth 1280
      let ones : BitVec 1280 := 0xFFFFFFFF
      if i < 1280 then (b &&& ~~~(ones <<< i)) ||| (x <<< i) else b) s.cfgData
    let n := off + x.words.length
    if 40 ≤ n then
      ({ s with cfg := some data, cfgWords := 0, cfgData := 0,
                inputs := s.inputs.mapFinIdx fun k (i : FieldIn) _ => i.startTest data k } : Soffit).settle
    else { s with cfgWords := n, cfgData := data }
  else { s with cfgWords := 0, cfgData := 0 }

/-- Logic silence (R415): no valid command frame for longer than TSIL. -/
def Soffit.silence (s : Soffit) : Soffit :=
  if s.powered && decide (s.rxAt + 1000 * fTsil s.field < s.us) then
    ({ s with safeState := true, silenced := true, rxAny := true } : Soffit).settle
  else s

/-! ### Input frames (R397, R417) -/

def InClass.code : InClass → Nat
  | .off => 0 | .on => 1 | .broken => 2 | .invalid => 3

/-- A sum of `f k` shifted to bit `lsb + step * k`, for `k` below 8. -/
def packBits (lsb step : Nat) (f : Nat → Nat) : Word :=
  (upTo 8).foldl (fun w k => w ||| (BitVec.ofNat 32 (f k) <<< (lsb + step * k))) 0

/-- The input state word: DIRD and W1 (R417). -/
def Soffit.w1 (s : Soffit) : Word :=
  packBits 0 2 (fun k => (s.input k).state.code) ||| packBits 16 1 (fun k => if (s.input k).hold then 1 else 0) ||| fld 24 s.lplus

/-- W2 (R397). -/
def Soffit.w2 (s : Soffit) : Word :=
  packBits 0 4 (fun p => if 4 ≤ p then 0 else
    (if s.pairRun p then 1 else 0) + (if s.pairDemand p then 2 else 0) +
      (if (s.pair p).disc then 4 else 0)) |||
    packBits 16 1 (fun k => if s.pending k then 1 else 0)

/-- W3 (R397). -/
def Soffit.w3 (s : Soffit) : Word :=
  packBits 0 1 (fun k => if (s.output k).readback then 1 else 0) ||| packBits 8 1 (fun k => if (s.output k).on then 1 else 0) |||
    packBits 16 1 (fun k => if (s.output k).fault.isSome then 1 else 0)

/-- W4 (R397). -/
def Soffit.w4 (s : Soffit) : Word :=
  fld 0 s.faultKind ||| fld 4 s.faultIndex ||| fld 8 s.crossMask ||| fld 16 s.done ||| fld 24 s.aborted

/-- W0 (R397); `prog` tells whether the F program runs. -/
def Soffit.w0 (s : Soffit) (prog : Bool) : Word :=
  fld 0 s.txCnt ||| (BitVec.ofNat 32 s.appended.length <<< 4) ||| bit 8 s.silenced ||| bit 9 prog ||| bit 10 s.cfg.isSome |||
    bit 11 s.safeState ||| fld 16 s.ms

/-- The F program runs: an image is loaded and its sequencer is not halted (R397). -/
def Dev.progRuns (d : Dev) : Bool := d.thatch.soffitImage.isSome && d.thatch.soffit.mode != .halted

/-- The words of the next input frame (R397). -/
def Dev.inputWords (d : Dev) : List Word :=
  let s := d.soffit
  [s.w0 d.progRuns, s.w1, s.w2, s.w3, s.w4, s.w5] ++ s.appended

/-- An input frame sent (R395, R397, R416). -/
def Dev.sendInputFrame (d : Dev) : Dev :=
  let s := d.soffit
  if s.powered then
    let gs := barrierFrame s.upRd d.inputWords
    Dev.triggerF { d with soffit := { s with txCnt := s.txCnt + 1, upRd := rdAfter s.upRd gs, appended := [] },
                          fld := { d.fld with up := d.fld.up ++ [gs] } } 2
  else d

/-! ### The Soffit's own happenings -/

/-- The Soffit changed, with F task 4 when a test pulse completed or was aborted (R416). -/
def Dev.onSoffit (d : Dev) (s : Soffit) (test : Bool) : Dev :=
  let d : Dev := { d with soffit := s }
  if test then d.triggerF 4 else d

/-- The Soffit supply rises (R393): defaults, no program. (DESIGN CHOICE, log 35) -/
def Dev.soffitPowerUp (d : Dev) : Dev :=
  { d with soffit := { Soffit.reset with powered := true },
           thatch := { d.thatch with soffit := Core.reset, soffitImage := none, soffitWait := [], soffitMem := CoreMem.reset } }

/-- The Soffit supply falls (R393): every output is off. -/
def Dev.soffitPowerDown (d : Dev) : Dev :=
  { d with soffit := Soffit.reset,
           thatch := { d.thatch with soffit := Core.reset, soffitImage := none, soffitWait := [], soffitMem := CoreMem.reset } }

/-- A command frame that the Soffit reads (R396, R401, R416). -/
def Dev.takeCmd (d : Dev) (x : CmdFrame) : Dev :=
  if d.soffit.accepts x then
    let y := d.soffit.receive x (d.thatch.soffit.mode == .halted || d.thatch.soffit.dbgHalt)
    let s := if x.config then y.1.configure x else { y.1 with payload := x.words }
    let d := d.onSoffit s y.2
    if x.config then d else d.triggerF 1
  else d

/-- The command frame at the front of the link, when it was sent as one of the kind named: taken where its symbols, its CRC
and its header are good with the bits `noise` inverted on the link (R395, R396). -/
def Dev.cmdFrame (d : Dev) (config : Bool) (noise : List (BitVec 10)) : Dev :=
  match d.fld.down with
  | [] => d
  | gs :: r =>
    if sentConfig gs ≠ config then d
    else
      let d : Dev := { d with fld := { d.fld with down := r } }
      match (barrierWords (withNoise gs noise)).bind cmdOfWords with
      | none => d
      | some x => d.takeCmd x

/-- The F program halts (04 R119, 13 R418): every output to its safe state, and input frames without appended words.
(DEDUCED, log 73) -/
def Dev.soffitHalt (d : Dev) : Dev :=
  { d with soffit := ({ d.soffit with safeState := true, appended := [] } : Soffit).settle,
           thatch := { d.thatch with soffitWait := [] } }

/-- DQWR (R410, R417). -/
def Dev.dqwr (d : Dev) (a : Word) : Dev :=
  if a.extractLsb' 24 8 ≠ 0 then d
  else
    let y := d.soffit.commands 1 (a.extractLsb' 0 8) (a.extractLsb' 8 8) (a.extractLsb' 16 8)
    d.onSoffit y.1 y.2

/-! ### The core side (R396 to R398, R401, R420) -/

/-- A word appended to the Soffit command stream (R396). -/
def Dev.sofx (d : Dev) (a : Word) : Dev :=
  match d.fld.header with
  | none =>
    if headerOk a then
      if (a.extractLsb' 0 4).toNat = 0 then d.putCmd a []
      else { d with fld := { d.fld with header := some a, words := [] } }
    else { d with fld := { d.fld with dropped := satInc d.fld.dropped } }
  | some h =>
    let ws := d.fld.words ++ [a]
    if ws.length = (h.extractLsb' 0 4).toNat then
      Dev.putCmd { d with fld := { d.fld with header := none, words := [] } } h ws
    else { d with fld := { d.fld with words := ws } }

/-- Configuration frames with the FIELD section (R401): words 0 to 13, 14 to 27 and 28 to 39. (DEDUCED, log 69) -/
def Dev.sendField (d : Dev) (f : BitVec 1280) : Dev :=
  [(0, 14), (14, 14), (28, 12)].foldl (fun (d : Dev) p =>
    let h : Word := 0xA5200000 ||| BitVec.ofNat 32 (p.1 * 256 + p.2)
    d.putCmd h ((upTo p.2).map fun i => word32 f (4 * (p.1 + i)))) d

/-- Whether the core side treats every input as INVALID (R398, R401). -/
def Dev.fieldBlind (d : Dev) : Bool := !d.fld.rxOk || (d.gbl.cfg.isSome && !d.fld.cfgOk)

/-- The demands that the field inputs make (R338, R398, R406, R414): a DI pair, and L+ missing with a
de-energise-to-trip input configured. -/
def Dev.fieldDemands (d : Dev) : Bool × Bool :=
  match d.gbl.cfg with
  | none => (false, false)
  | some c =>
    let pairs := [0, 1, 2, 3].filter fun p => fPairKind c.field p != 0 && fPairDemand c.field p
    let w2 := d.fld.w[2]
    let di := if d.fieldBlind then !pairs.isEmpty else pairs.any fun p => w2.getLsbD (4 * p + 1) || w2.getLsbD (4 * p + 2)
    let dtt := (upTo 8).any fun k => fIn c.field k 0 != 0 && fInMode c.field k 4
    (di, dtt && d.fld.rxOk && (d.fld.w[1]).extractLsb' 24 2 == (2 : BitVec 2))

/-- Demands taken up and ended as the field inputs now show them. -/
def Dev.refreshField (d : Dev) : Dev :=
  let x := d.fieldDemands
  let g : BitVec 4 := (if x.1 then 1 else 0) ||| (if x.2 then 8 else 0)
  let r : BitVec 3 := (if x.1 then 1 else 0) ||| (if x.2 then 4 else 0)
  (d.demand g r).endDemand (9 &&& ~~~g) (5 &&& ~~~r)

/-- The class of input `k` in an input state word. -/
def w1Class (w : Word) (k : Nat) : Nat := (w >>> (2 * k)).toNat % 4

/-- One event of R421, at most once a second for each object. -/
def Dev.fieldEvent (d : Dev) (code : BitVec 16) (index : Nat) (payload : BitVec 64) : Dev :=
  d.eventLimited code index 1000000 payload

/-- The events of the inputs that an input frame shows (R404, R405, R407, R421). -/
def Dev.inputEvents (d : Dev) (o n : Vector Word 6) : Dev :=
  (upTo 8).foldl (fun (d : Dev) k =>
    let a := w1Class o[1] k
    let b := w1Class n[1] k
    let d := if (a = 2) ≠ (b = 2) then d.fieldEvent 0x0A01 k (payN 0 k ||| payN 8 (if b = 2 then 1 else 0)) else d
    let tied := match d.gbl.cfg with | none => 0 | some c => (fIn c.field k 4).toNat % 8
    let d := if a ≠ 3 ∧ b = 3 ∧ (n[1]).extractLsb' 24 2 ≠ (2 : BitVec 2) then
        d.fieldEvent 0x0A02 k (payN 0 k ||| payN 8 tied) else d
    if (o[2]).getLsbD (16 + k) && !(n[2]).getLsbD (16 + k) then d.fieldEvent 0x0A0A k (payN 0 k) else d) d

/-- The events of the outputs and pairs that an input frame shows (R406, R411, R414, R421). -/
def Dev.outputEvents (d : Dev) (o n : Vector Word 6) : Dev :=
  let d := (upTo 8).foldl (fun (d : Dev) k =>
    let a := (o[3]).getLsbD (16 + k)
    let b := (n[3]).getLsbD (16 + k)
    let host := match d.gbl.cfg with | none => false | some c => fOutAssign c.field k == 2
    if !a && b then
      d.fieldEvent 0x0A04 k (payN 0 k ||| pay 4 ((n[4]).extractLsb' 0 4) ||| pay 8 ((n[4]).extractLsb' 8 8))
    else if a && !b then d.fieldEvent 0x0A05 k (payN 0 k ||| payN 8 (if host then 1 else 0)) else d) d
  let d := [0, 1, 2, 3].foldl (fun (d : Dev) p =>
    let a := (o[2]).getLsbD (4 * p + 2)
    let b := (n[2]).getLsbD (4 * p + 2)
    if a != b then d.fieldEvent 0x0A03 p (payN 0 p ||| payN 8 (if b then 1 else 0)) else d) d
  let l := (n[1]).extractLsb' 24 2
  if (o[1]).extractLsb' 24 2 ≠ l then d.fieldEvent 0x0A06 0 (pay 0 l) else d

/-- CFG_OK (R401) and event 0x0A0C at each change of it. -/
def Dev.refreshCfgOk (d : Dev) : Dev :=
  let ok := match d.gbl.cfg with | none => false | some c => d.fld.w[5] == fieldCrc c.field
  if ok = d.fld.cfgOk then d
  else ({ d with fld := { d.fld with cfgOk := ok } } : Dev).event 0x0A0C (payN 0 (if ok then 1 else 0) ||| pay 32 d.fld.w[5])

/-- Whether the input with DOUSER_POS is at TSTATE in the mirror; none where no input has it (R408). -/
def Dev.douserAt (d : Dev) : Option Bool :=
  match d.gbl.cfg with
  | none => none
  | some c => ((upTo 8).find? fun k => fInMode c.field k 5).map fun k =>
      w1Class d.fld.w[1] k == (tstate c.field k).code

/-- An accepted input frame (R397, R401, R415, R420): the mirror, RX_OK, events, demands, and G task 3.
(DEDUCED, log 65) -/
def Dev.acceptInput (d : Dev) (x : InputFrame) : Dev :=
  let old := d.fld.w
  let was := d.fld
  let silenced := (x.w[0]).getLsbD 8
  let d : Dev := { d with fld := { d.fld with
    w := x.w, extra := x.extra, rxCnt := (x.w[0]).extractLsb' 0 4, rxAny := false, rxOk := true, rxAt := d.now,
    silenced := was.silenced || silenced,
    done := satAdd was.done ((x.w[4]).extractLsb' 16 8 - (old[4]).extractLsb' 16 8).toNat,
    aborted := satAdd was.aborted ((x.w[4]).extractLsb' 24 8 - (old[4]).extractLsb' 24 8).toNat } }
  let d := if !was.rxOk && !was.rxAny then d.event 0x0A07 0 else d
  let d := d.inputEvents old x.w
  let d := d.outputEvents old x.w
  let d := if silenced && !was.silenced then d.fieldEvent 0x0A08 0 (pay 0 ((x.w[0]).extractLsb' 16 16)) else d
  ((d.refreshCfgOk).refreshField).triggerG 3

/-- The input frame at the front of the link reaches the core die, with the bits `noise` inverted on the link (R395, R397).
(DEDUCED, log 97) -/
def Dev.inputFrame (d : Dev) (noise : List (BitVec 10)) : Dev :=
  match d.fld.up with
  | [] => d
  | gs :: r =>
    let d : Dev := { d with fld := { d.fld with up := r } }
    match (barrierWords (withNoise gs noise)).bind inputOfWords with
    | some x =>
      if d.fld.rxAny || (x.w[0]).extractLsb' 0 4 == d.fld.rxCnt + 1 then d.acceptInput x
      else { d with fld := { d.fld with rxErr := satInc d.fld.rxErr } }
    | none => { d with fld := { d.fld with rxErr := satInc d.fld.rxErr } }

/-- No input frame accepted for 2 ms (R398). (DESIGN CHOICE, log 35) -/
def Dev.soffitSilent (d : Dev) : Dev :=
  if d.now < d.fld.rxAt + 2000 then d
  else if d.fld.rxOk then
    let d : Dev := { d with fld := { d.fld with rxOk := false } }
    (d.event 0x0A07 1).refreshField
  else d.refreshField

/-- The start-up tests pending in the mirror, that refuse RUN (R407). -/
def Dev.startPending (d : Dev) : BitVec 8 := (d.fld.w[2]).extractLsb' 16 8

end Sys2Proof.Machine
end

