-- ==== Sys2Proof/Machine/Vin.lean ====
section
/-! DEFINITION. Video input (chapter 07): descriptors and their checks, packets, frames and buffers, source descriptors, and
what sources take at a patch-run start. -/

namespace Sys2Proof.Machine

open Sys2Proof

/-- The little-endian number in `n` bytes at `k`. -/
def leField (f : List Byte) (k n : Nat) : Nat := leNat ((f.drop k).take n)

/-! ### Input descriptors (R201, R202) -/

/-- Segment `g` of a descriptor, absent when a dimension is 0. -/
def parseSegment (f : List Byte) (g : Nat) : Option Segment :=
  let k := 20 + 12 * g
  let s : Segment := { offset := leField f k 4, stride := leField f (k + 4) 4, lineBytes := leField f (k + 8) 2,
                       lines := leField f (k + 10) 2 }
  if s.lineBytes = 0 ∨ s.lines = 0 then none else some s

/-- Bytes of a frame, and the end of a segment within its buffer (R201). -/
def Segment.size (s : Segment) : Nat := s.lineBytes * s.lines
def Segment.end_ (s : Segment) : Nat := s.offset + s.stride * (s.lines - 1) + s.lineBytes

def StreamDesc.frameSize (x : StreamDesc) : Nat := (x.segments.map Segment.size).sum
def StreamDesc.extent (x : StreamDesc) : Nat := (x.segments.map Segment.end_).foldl max 0

/-- A 64-byte input descriptor (R201); none when NBUF is refused, or VC while NBUF is nonzero (R202). -/
def parseStreamDesc (f : List Byte) : Option StreamDesc :=
  let vc := leField f 0 1
  let n := leField f 1 1
  if (n ≠ 0 ∧ 3 < vc) ∨ 3 < n then none
  else some
    { vc := BitVec.ofNat 2 vc, nbuf := BitVec.ofNat 2 n, keep := (f.getD 2 0).getLsbD 0, auto := (f.getD 2 0).getLsbD 1,
      lossMs := BitVec.ofNat 16 (leField f 4 2),
      bases := #v[leField f 8 4, leField f 12 4, leField f 16 4],
      segments := [0, 1, 2].filterMap (parseSegment f) }

/-- The descriptors a stream has in force or pending. -/
def Dev.streamDescs (d : Dev) (s : Nat) : List StreamDesc :=
  (match (getN d.vin.streams s Stream.reset).desc with | none => [] | some x => [x]) ++
    d.effects.filterMap fun e => match e.op with
      | .vinDesc k x => if k.val = s then x else none
      | _ => none

/-- The descriptors a source index has in force or pending. -/
def Dev.sourceDescs (d : Dev) (i : Nat) : List SourceDesc :=
  (match (getN d.vin.sources i Source.reset).desc with | none => [] | some x => [x]) ++
    d.effects.filterMap fun e => match e.op with
      | .srcDesc k x => if k.val = i then x else none
      | _ => none

/-! ### Source descriptors (R208) -/

/-- A plane of a format: rows, bytes of a row, alignment. -/
structure Plane where
  /-- rows -/
  rows : Nat
  /-- bytes of a row -/
  rowBytes : Nat
  /-- alignment of base and stride -/
  align : Nat
  deriving DecidableEq, Repr

/-- The planes of a format (R208). -/
def planesOf (fmt w h : Nat) : List Plane :=
  let hw := (w + 1) / 2
  let hh := (h + 1) / 2
  match fmt with
  | 1 | 2 => [⟨h, 2 * w, 2⟩]
  | 3 => [⟨h, 3 * w, 1⟩]
  | 4 | 5 | 6 => [⟨h, 4 * w, 4⟩]
  | 7 => [⟨h, w, 1⟩, ⟨hh, hw, 1⟩, ⟨hh, hw, 1⟩]
  | 8 => [⟨h, w, 1⟩, ⟨hh, 2 * hw, 1⟩]
  | 9 => [⟨h, w, 1⟩, ⟨h, hw, 1⟩, ⟨h, hw, 1⟩]
  | 10 => [⟨h, w, 1⟩, ⟨h, 2 * hw, 1⟩]
  | _ => []

def SourceDesc.planes (x : SourceDesc) : List Plane := planesOf x.fmt.toNat x.width.toNat x.height.toNat

/-- The ranges of a source's used planes: address or offset, and length. -/
def SourceDesc.ranges (x : SourceDesc) : List (Nat × Nat) :=
  (x.planes.zipIdx).map fun p =>
    (getN x.bases p.2 0, getN x.strides p.2 0 * (p.1.rows - 1) + p.1.rowBytes)

/-- A 48-byte source descriptor: none when refused; `some none` when W or H is 0. -/
def parseSourceDesc (f : List Byte) : Option (Option SourceDesc) :=
  let fmt := leField f 0 4
  let w := leField f 4 2
  let h := leField f 6 2
  let link := leField f 8 1
  if w = 0 ∨ h = 0 then some none
  else if fmt % 16 = 0 ∨ 10 < fmt % 16 ∨ 32 ≤ fmt ∨ (16 ≤ fmt ∧ fmt % 16 < 7) ∨ (3 < link ∧ link ≠ 255) then none
  else some (some
    { fmt := BitVec.ofNat 4 fmt, range := decide (16 ≤ fmt), width := BitVec.ofNat 16 w, height := BitVec.ofNat 16 h,
      link := if h : link < 4 then some ⟨link, h⟩ else none,
      bases := #v[leField f 12 4, leField f 20 4, leField f 28 4],
      strides := #v[leField f 16 4, leField f 24 4, leField f 32 4] })

/-- Whether the planes' strides and bases are as R208 requires. -/
def SourceDesc.aligned (x : SourceDesc) : Bool :=
  (x.planes.zipIdx).all fun p =>
    decide (p.1.rowBytes ≤ getN x.strides p.2 0) && getN x.strides p.2 0 % p.1.align == 0 &&
      getN x.bases p.2 0 % p.1.align == 0

/-- Whether a range lies within one region of the kinds listed. -/
def Dev.inRegion (d : Dev) (kinds : List Nat) (r : Nat × Nat) : Bool :=
  d.regions.toList.any fun x => match x with
    | none => false
    | some g => kinds.contains g.kind && decide (g.base ≤ r.1) && decide (r.1 + r.2 ≤ g.base + g.length)

/-- Whether SRC_DESC accepts a descriptor (R208). -/
def Dev.sourceOk (d : Dev) (x : SourceDesc) : Bool :=
  x.aligned && match x.link with
    | none => x.ranges.all (d.inRegion [0, 1])
    | some s =>
      let ds := d.streamDescs s.val
      !ds.isEmpty && ds.any fun y => x.ranges.all fun r => decide (r.1 + r.2 ≤ y.extent)

/-- Whether VIN_DESC accepts a descriptor of a stream (R202). -/
def Dev.streamOk (d : Dev) (s : Nat) (x : StreamDesc) : Bool :=
  let linked := ((upTo 16).flatMap d.sourceDescs).filter fun y => match y.link with | none => false | some k => k.val == s
  if x.nbuf = 0 then linked.isEmpty
  else
    let bufs := (x.bases.toList.take x.nbuf.toNat).map fun b => (b, x.extent)
    let rec apart : List (Nat × Nat) → Bool
      | [] => true
      | r :: rs => !(rs.any (rangesMeet r)) && apart rs
    !(((upTo 4).filter (· != s)).any fun k => (d.streamDescs k).any fun y => y.vc == x.vc) &&
      !x.segments.isEmpty && x.segments.all (fun g => decide (g.lineBytes ≤ g.stride)) &&
      apart (x.segments.map fun g => (g.offset, g.end_ - g.offset)) &&
      bufs.all (fun b => b.1 % 64 == 0 && d.inRegion [0] b) && apart bufs &&
      linked.all fun y => y.ranges.all fun r => decide (r.1 + r.2 ≤ x.extent)

/-! ### Buffers (R205 to R207) -/

/-- Stream `s` changed by `f`. -/
def Dev.onStream (d : Dev) (s : Fin 4) (f : Stream → Stream) : Dev :=
  { d with vin := { d.vin with streams := upd d.vin.streams s f } }

/-- The address range of buffer `k` of a descriptor. -/
def StreamDesc.bufRange (x : StreamDesc) (k : Nat) : Nat × Nat := (getN x.bases k 0, x.extent)

/-- The buffer a frame start fills (R205), and whether it loses a READY frame. (DEDUCED, log 71) -/
def Dev.chooseBuf (d : Dev) (s : Fin 4) (x : StreamDesc) : Option (Fin 3 × Bool) :=
  if x.nbuf = 1 then some (0, false)
  else
    let st := d.vin.streams[s.val]
    let mine := (List.finRange 3).filter fun k => decide (k.val < x.nbuf.toNat)
    let clear (k : Fin 3) : Bool :=
      !d.holds.any fun h => !h.single && rangesMeet (x.bufRange k.val) (h.base, h.extent)
    match mine.find? fun k => st.bufs[k.val] == .free && clear k with
    | some k => some (k, false)
    | none => (mine.find? fun k => st.bufs[k.val] == .ready).map fun k => (k, true)

/-- The READY buffer of a stream. -/
def Stream.ready (st : Stream) : Option (Fin 3) := (List.finRange 3).find? fun k => st.bufs[k.val] == .ready

/-! ### Frames (R203 to R206, R211, R212) -/

/-- Buffer `k`, when there is one, takes a state. -/
def Stream.setBuf (st : Stream) (k : Option (Fin 3)) (b : BufState) : Stream :=
  match k with
  | none => st
  | some k => { st with bufs := upd st.bufs k fun _ => b }

/-- A frame of a stream reached its size (R204, R206, R212). -/
def Dev.frameComplete (d : Dev) (s : Fin 4) (x : StreamDesc) (f : InFrame) : Dev :=
  let st := d.vin.streams[s.val]
  let good := !f.errored || x.keep
  let restored := st.lost
  let d := d.onStream s fun st =>
    let st := if good && f.buf.isSome then
        (match st.ready with
          | none => st
          | some k => if f.buf = some k then st else st.setBuf (some k) .free).setBuf f.buf .ready
      else st.setBuf f.buf .free
    { st with inFrame := some { f with complete := true }, cComplete := satInc st.cComplete,
              cErrored := if f.errored then satInc st.cErrored else st.cErrored,
              lost := false, since := d.now, lastComplete := st.frame }
  let d := d.trussPend 3
  if restored then d.event 0x0408 (payN 0 s.val ||| pay 16 st.frame) else d

/-- Bytes of a frame stored: none when it was dropped (R205, R217). -/
def InFrame.stored (f : InFrame) : Nat := if f.buf.isSome then f.bytes else 0

/-- A frame in progress ends short; one that is complete stays (R204, R206). (DEDUCED, log 71) -/
def Dev.endShort (d : Dev) (s : Fin 4) : Dev :=
  let st := d.vin.streams[s.val]
  match st.inFrame with
  | none => d
  | some f =>
    if f.complete then d
    else
      let d := d.onStream s fun st => { st.setBuf f.buf .free with inFrame := none, cShort := satInc st.cShort }
      (d.trussPend 3).event 0x0403 (payN 0 s.val ||| pay 16 st.frame ||| payN 32 f.stored)

/-- A descriptor takes effect on a stream (R211, R217). -/
def Dev.applyVinDesc (d : Dev) (s : Fin 4) (x : Option StreamDesc) : Dev :=
  let d := d.endShort s
  d.onStream s fun st =>
    { st with desc := x, gen := st.gen + 1, bufs := Vector.replicate 3 .free, frame := 0, bytes := 0, inFrame := none,
              started := false, since := d.now, lastComplete := 0 }

/-- Whether a frame is in progress on a stream: started, and neither complete nor ended short (R204). -/
def Stream.filling (st : Stream) : Bool := match st.inFrame with | none => false | some f => !f.complete

/-- A pending disable of a stream takes effect at the end of the frame in progress (R211). -/
def Dev.applyDisable (d : Dev) (s : Fin 4) : Dev :=
  let due (e : Effect) : Bool := e.op == .vinDesc s none
  if d.effects.any due then
    ({ d with effects := d.effects.filter fun e => !due e } : Dev).applyVinDesc s none
  else d

/-- Every frame in progress ends short: EN cleared, or RETENTION entered (R198, R204, R213). -/
def Dev.vinShortAll (d : Dev) : Dev :=
  (List.finRange 4).foldl (fun d s => (d.endShort s).applyDisable s)
    { d with vin := { d.vin with hs := false, burst := false, discard := false } }

/-- The address of byte `n` of a frame (R203). -/
def segmentAddr : List Segment → Nat → Option Nat
  | [], _ => none
  | g :: gs, n =>
    if n < g.size then some (g.offset + g.stride * (n / g.lineBytes) + n % g.lineBytes) else segmentAddr gs (n - g.size)

/-- Payload bytes stored from byte `n` of a frame on (R203). -/
def storePayload (d : Dev) (base : Nat) (segs : List Segment) (n : Nat) (bytes : List Byte) : Dev :=
  d.loftWriteAll (bytes.zipIdx.filterMap fun x => (segmentAddr segs (n + x.2)).map fun a => (base + a, x.1))

/-- Payload appended to the frame of a stream (R203, R204). (DEDUCED, log 23) -/
def Dev.appendPayload (d : Dev) (s : Fin 4) (x : StreamDesc) (bytes : List Byte) (crcOk : Bool) : Dev :=
  let st := d.vin.streams[s.val]
  let d := if crcOk then d else d.onStream s fun st => { st with cCrc := satInc st.cCrc }
  match st.inFrame with
  | none => if st.started then d else d.onStream s fun st => { st with cOrphan := satInc st.cOrphan }
  | some f =>
    let d := if crcOk || f.crcEvent then d else d.event 0x0402 (payN 0 s.val ||| pay 16 st.frame)
    let f : InFrame := { f with crcEvent := f.crcEvent || !crcOk, errored := f.errored || (!crcOk && !f.complete) }
    let room := if f.complete then 0 else x.frameSize - f.bytes
    let put := bytes.take room
    let d := match f.buf with
      | none => d
      | some k => storePayload d (getN x.bases k.val 0) x.segments f.bytes put
    let long := decide (room < bytes.length)
    let told := f.longCounted
    let f' : InFrame := { f with bytes := f.bytes + put.length }
    let full := !f.complete && decide (f'.bytes = x.frameSize)
    let g : InFrame := { f' with longCounted := told || long }
    let d := d.onStream s fun st =>
      { st with inFrame := some g, bytes := BitVec.ofNat 24 g.stored,
                cLong := if long && !told then satInc st.cLong else st.cLong }
    let d := if full then (d.frameComplete s x g).applyDisable s else d
    if long && !told then d.event 0x0404 (payN 0 s.val ||| pay 16 st.frame) else d

/-- A frame starts on a stream with its descriptor in force (R204, R205). (DEDUCED, log 71) -/
def Dev.frameStart (d : Dev) (s : Fin 4) (x : StreamDesc) : Dev :=
  let d := d.endShort s
  let pick := d.chooseBuf s x
  let d := d.onStream s fun st =>
    let n := st.frame + 1
    let st := { st with
      frame := n, bytes := 0, started := true,
      inFrame := some { buf := pick.map (fun (x : Fin 3 × Bool) => x.1), bytes := 0, errored := false, complete := false, longCounted := false,
                        crcEvent := false } }
    match pick with
    | none => { st with cDropped := satInc st.cDropped }
    | some (k, lost) =>
      { st with bufs := upd st.bufs k fun _ => .filling, bufFrame := upd st.bufFrame k fun _ => n,
                bufTime := upd st.bufTime k fun _ => BitVec.ofNat 32 d.now,
                cOverwritten := if lost then satInc st.cOverwritten else st.cOverwritten }
  if pick.isNone then d.event 0x0405 (payN 0 s.val ||| pay 16 d.vin.streams[s.val].frame) else d

/-! ### Packets (R197, R199, R200) -/

/-- The modes in which the receiver runs (R213). -/
def Mode.served : Mode → Bool
  | .load | .proof | .armed | .run | .degraded | .safeHold | .trim | .service => true
  | _ => false

/-- Whether the receiver runs. -/
def Dev.vinRuns (d : Dev) : Bool := d.coreUp && d.vin.en && d.sys.mode.served

/-- What the lanes do after a packet (R197, R216). -/
inductive BurstEnd where
  /-- the high-speed burst goes on with a further packet -/
  | goesOn
  /-- the data lanes return to the stop state; the clock lane stays in high-speed mode -/
  | dataStops
  /-- the data lanes and the clock lane return to the stop state -/
  | clockStops
  deriving DecidableEq, Repr

/-- The lanes within a burst; the first packet after the stop state begins one, of which nothing is discarded yet. -/
def Vin.inBurst (v : Vin) : Vin := { v with hs := true, burst := true, discard := v.burst && v.discard }

/-- The lanes after a packet. -/
def Vin.after (v : Vin) : BurstEnd → Vin
  | .goesOn => v
  | .dataStops => { v with burst := false, discard := false }
  | .clockStops => { v with hs := false, burst := false, discard := false }

/-- A packet whose header ECC was good or corrected (R199, R200), with what it does; the packets that follow a link error in
its burst are discarded unseen. -/
def Dev.packet (d : Dev) (corrected : Bool) (ends : BurstEnd) (work : Dev → Dev) : Dev :=
  if !d.vinRuns then d
  else
    let v := d.vin.inBurst
    let d : Dev := { d with vin := v }
    let d :=
      if v.discard then d
      else work { d with vin := { v with eccCe := if corrected then satInc v.eccCe else v.eccCe } }
    { d with vin := d.vin.after ends }

/-- The enabled stream that names a virtual channel (R199). -/
def Dev.streamOf (d : Dev) (vc : BitVec 2) : Option (Fin 4 × StreamDesc) :=
  (List.finRange 4).findSome? fun s => match d.vin.streams[s.val].desc with
    | none => none
    | some x => if x.vc = vc then some (s, x) else none

/-- A frame start on a channel (R204, R211): the descriptors that wait for it take effect first. -/
def Dev.syncOn (d : Dev) (vc : BitVec 2) : Dev :=
  let due (e : Effect) : Bool := match e.op with
    | .vinDesc _ (some x) => x.vc == vc
    | _ => false
  let now := d.effects.filter due
  let d : Dev := { d with effects := d.effects.filter fun e => !due e }
  let d := now.foldl (fun d e => match e.op with
    | .vinDesc s x => d.applyVinDesc s x
    | _ => d) d
  match d.streamOf vc with
  | none => d
  | some (s, _) =>
    let d := (d.endShort s).applyDisable s
    match d.vin.streams[s.val].desc with
    | none => d
    | some x => d.frameStart s x

/-- Vertical Sync Start on a channel (R204, R211). -/
def Dev.vsync (d : Dev) (vc : BitVec 2) (corrected : Bool) (ends : BurstEnd) : Dev :=
  d.packet corrected ends fun d => d.syncOn vc

/-- The payload of a long packet on a channel (R199, R203). -/
def Dev.payloadOn (d : Dev) (vc : BitVec 2) (crcOk : Bool) (bytes : List Byte) : Dev :=
  match d.streamOf vc with
  | none => { d with vin := { d.vin with unrouted := satInc d.vin.unrouted } }
  | some (s, x) => d.appendPayload s x bytes crcOk

/-- A long packet with payload (R199, R203). -/
def Dev.longPacket (d : Dev) (vc : BitVec 2) (corrected crcOk : Bool) (bytes : List Byte) (ends : BurstEnd) : Dev :=
  d.packet corrected ends fun d => d.payloadOn vc crcOk bytes

/-- A packet that stores nothing: another short packet, null or blanking (R199). -/
def Dev.plainPacket (d : Dev) (corrected : Bool) (ends : BurstEnd) : Dev := d.packet corrected ends id

/-- The frame in progress on every stream marked errored (R200). (DEDUCED, log 71) -/
def Vin.markErrored (v : Vin) : Vin :=
  { v with streams := v.streams.map fun (st : Stream) => { st with inFrame := st.inFrame.map fun f =>
      if f.complete then f else { f with errored := true } } }

/-- An uncorrectable header error, or a start-of-transmission error when `sot` (R200): the rest of the burst is discarded. In a
burst that is being discarded already no header is looked at. -/
def Dev.linkError (d : Dev) (sot : Bool) (ends : BurstEnd) : Dev :=
  if !d.vinRuns then d
  else
    let v := d.vin.inBurst
    if v.discard && !sot then { d with vin := v.after ends }
    else
      let v := ({ v with discard := true } : Vin).markErrored
      let d : Dev := { d with vin := if sot then { v with sot := satInc v.sot } else { v with eccUe := satInc v.eccUe } }
      let d := d.eventLimited 0x0401 0 1000000 (pay 0 d.vin.eccUe)
      { d with vin := d.vin.after ends }

/-- The lanes enter or leave the ultra-low-power state, from and to the stop state (R197, R216). -/
def Dev.ulpsTo (d : Dev) (enter : Bool) : Dev :=
  if d.vinRuns then { d with vin := { d.vin with ulps := enter, hs := false, burst := false, discard := false } } else d

/-- A write of VIN_PHY_CFG (R198). -/
def Dev.phyWrite (d : Dev) (x : Word) : Dev :=
  let en := x.getLsbD 2
  if d.vin.en then
    let v := d.vin
    let differs := x.extractLsb' 0 2 != v.lanes || x.extractLsb' 8 4 != v.dpol || x.getLsbD 12 != v.cpol
    let d : Dev := { d with vin := { v with en := en, cfgErr := v.cfgErr || differs } }
    if en then d else Dev.vinShortAll { d with vin := { d.vin with ulps := false } }
  else { d with vin := { d.vin with en := en, lanes := x.extractLsb' 0 2, dpol := x.extractLsb' 8 4,
                                    cpol := x.getLsbD 12 } }

/-- LOSS_MS without a complete frame (R212). -/
def Dev.vinLoss (d : Dev) (s : Fin 4) : Dev :=
  let st := d.vin.streams[s.val]
  match st.desc with
  | none => d
  | some x =>
    if d.vinRuns && x.lossMs != 0 && !st.lost && decide (st.since + 1000 * x.lossMs.toNat ≤ d.now) then
      (d.onStream s fun st => { st with lost := true }).event 0x0407 (payN 0 s.val ||| pay 16 st.lastComplete)
    else d

/-! ### What sources take at a patch-run start (R209) -/

/-- The frames that streams offer at one start: the READY buffer, or the single buffer as it stands. -/
def Dev.offers (d : Dev) : List (Fin 4 × Hold) :=
  (List.finRange 4).filterMap fun s =>
    let st := d.vin.streams[s.val]
    match st.desc with
    | none => none
    | some x =>
      let hold (k : Fin 3) : Fin 4 × Hold :=
        (s, { stream := s, gen := st.gen, buf := k, base := getN x.bases k.val 0, extent := x.extent,
              frame := st.bufFrame[k.val], single := x.nbuf == 1 })
      if x.nbuf = 1 then some (hold 0) else st.ready.map hold

/-- Source `i` changed by `f`. -/
def Dev.onSource (d : Dev) (i : Fin 16) (f : Source → Source) : Dev :=
  { d with vin := { d.vin with sources := upd d.vin.sources i f } }

/-- Source `i` takes an offered buffer. -/
def Dev.takeBuffer (d : Dev) (i : Fin 16) (h : Hold) : Dev :=
  let d := d.onSource i fun s => { s with hold := some h }
  if h.single then d else d.onStream h.stream fun st => { st with bufs := upd st.bufs h.buf fun _ => .held }

/-- Source `i` asked for a new frame: taken, or VIN_SRC_s_REPEAT counted, with event 0x0406 when `told`. -/
def Dev.refreshSource (d : Dev) (offers : List (Fin 4 × Hold)) (run : BitVec 16) (told : Bool) (i : Fin 16) : Dev :=
  match d.vin.sources[i.val].desc with
  | none => d
  | some x => match x.link with
    | none => d
    | some s => match offers.lookup s with
      | some h => d.takeBuffer i h
      | none =>
        let d := d.onSource i fun s => { s with repeats := satInc s.repeats }
        let held : BitVec 16 := match d.vin.sources[i.val].hold with | none => 0 | some h => h.frame
        if told then d.event 0x0406 (payN 0 i.val ||| pay 16 held ||| pay 32 run) else d

/-- A source descriptor takes effect (R208, R209, R214). -/
def Dev.applySrcDesc (d : Dev) (offers : List (Fin 4 × Hold)) (i : Fin 16) (x : Option SourceDesc) : Dev :=
  let d := d.onSource i fun s => { s with desc := x, hold := none }
  match x with
  | none => d
  | some x => match x.link with
    | none => d
    | some s => match offers.lookup s with
      | none => d
      | some h => d.takeBuffer i h

/-- The sources at a patch-run start (R209): SRC_DESC, then SRC_COMMIT, then AUTO. -/
def Dev.sourcesAt (d : Dev) (run : BitVec 16) (descs : List (Fin 16 × Option SourceDesc)) (mask : BitVec 16) : Dev :=
  let offers := d.offers
  let d := descs.foldl (fun d x => d.applySrcDesc offers x.1 x.2) d
  let commit := (List.finRange 16).filter fun i => mask.getLsbD i.val
  let d := commit.foldl (fun d i => d.refreshSource offers run true i) d
  let auto := (List.finRange 16).filter fun i =>
    !mask.getLsbD i.val && !(descs.any fun x => x.1 == i) && match d.vin.sources[i.val].desc with
      | none => false
      | some x => match x.link with
        | none => false
        | some s => match d.vin.streams[s.val].desc with | none => false | some y => y.auto
  (auto.foldl (fun d i => d.refreshSource offers run false i) d).releaseHeld

end Sys2Proof.Machine
end

