-- ==== Sys2Proof/Machine/Image.lean ====
section
/-! DEFINITION. The THCH image (04 R126 to R130): its fields, the checks 1 to 12 of R131 with the path analysis of R124,
its authentication (R130, 11 R356, 17 R512) and how its sections are loaded (R128). -/

namespace Sys2Proof.Machine

open Sys2Proof

/-! ### Fields -/

/-- Byte `k` of an image, 0 past its end. -/
def byteOf (f : List Byte) (k : Nat) : Nat := (f.getD k 0).toNat

/-- A section entry as it stands in an image (R128), with the byte at which it stands. -/
structure RawSection where
  /-- offset of the entry in the image -/
  place : Nat
  /-- TYPE -/
  kind : Nat
  /-- OFFSET -/
  offset : Nat
  /-- ADDR -/
  addr : Nat
  /-- LENGTH -/
  length : Nat
  deriving DecidableEq, Repr

/-- Section entry `k` (R128). -/
def rawSection (f : List Byte) (k : Nat) : RawSection :=
  let e := 64 + 16 * k
  { place := e, kind := byteOf f e, offset := leField f (e + 4) 4, addr := leField f (e + 8) 4,
    length := leField f (e + 12) 4 }

def rawSections (f : List Byte) : List RawSection := (upTo (byteOf f 6)).map (rawSection f)

/-- Bytes of the header, the section table and the task table (R131 check 1). -/
def tablesLength (f : List Byte) : Nat := 64 + 16 * (byteOf f 6 + byteOf f 7)

def sigOffset (f : List Byte) : Nat := leField f 16 4

/-- The byte at which task entry `j` stands. -/
def taskPlace (f : List Byte) (j : Nat) : Nat := 64 + 16 * (byteOf f 6 + j)

/-- Task entry `j` (R129). -/
def taskEntry (f : List Byte) (j : Nat) : Task :=
  let t := taskPlace f j
  { entry := BitVec.ofNat 32 (leField f t 4), wcet := BitVec.ofNat 32 (leField f (t + 4) 4),
    sig := BitVec.ofNat 32 (leField f (t + 8) 4), trigger := BitVec.ofNat 8 (byteOf f (t + 12)) }

def taskEntries (f : List Byte) : List Task := (upTo (byteOf f 7)).map (taskEntry f)

/-! ### Checks 1 to 6 -/

/-- A check that failed: its cause and the offset of the first failing byte or instruction (R132). -/
abbrev ImgFail := Nat × Nat

/-- The first of a list of tests that fails. -/
def firstFail : List (Bool × Nat × Nat) → Option ImgFail
  | [] => none
  | (bad, x) :: r => if bad then some x else firstFail r

/-- NTASK's least and greatest value for a profile (R127). -/
def taskRange (profile : Nat) : Nat × Nat := if profile = 2 then (1, 8) else if profile = 3 then (1, 4) else (0, 0)

/-- Check 1 (R127). A byte that the image does not have fails. -/
def headerTests (f : List Byte) : List (Bool × Nat × Nat) :=
  let n := f.length
  let p := byteOf f 5
  let t (k : Nat) (bad : Bool) : Bool × Nat × Nat := (decide (n ≤ k) || bad, 1, k)
  [t 0 (byteOf f 0 != 0x54), t 1 (byteOf f 1 != 0x48), t 2 (byteOf f 2 != 0x43), t 3 (byteOf f 3 != 0x48),
    t 4 (byteOf f 4 != 1), t 5 (decide (3 < p)), t 6 (byteOf f 6 == 0 || decide (16 < byteOf f 6)),
    t 7 (decide (byteOf f 7 < (taskRange p).1) || decide ((taskRange p).2 < byteOf f 7)),
    t 8 ((p == 2 || p == 3) && leField f 8 4 != 0), t 12 (p != 0 && leField f 12 4 != 0),
    t 16 (sigOffset f % 4 != 0)] ++
    (upTo 40).map (fun k => t (24 + k) (byteOf f (24 + k) != 0)) ++
    [(decide (sigOffset f < tablesLength f), 1, sigOffset f)]

/-- Whether two ranges of bytes share one. -/
def overlap (a n b m : Nat) : Bool := decide (0 < n) && decide (0 < m) && decide (a < b + m) && decide (b < a + n)

/-- Whether an address is a word of a code section (R128, R129). -/
def inCode (ss : List RawSection) (a : Nat) : Bool :=
  a % 4 == 0 && ss.any fun s => s.kind == 1 && decide (s.addr ≤ a) && decide (a < s.addr + s.length)

/-- Check 4 on one section entry, the entries before it given (R128). (DEDUCED, log 74) -/
def sectionTests (f : List Byte) (before : List RawSection) (s : RawSection) : List (Bool × Nat × Nat) :=
  let e := s.place
  let stored := s.kind != 4 && s.length != 0
  [(s.kind == 0 || decide (4 < s.kind) || (byteOf f 5 == 1 && decide (2 < s.kind)), 4, e),
    (byteOf f (e + 1) != 0, 4, e + 1), (byteOf f (e + 2) != 0, 4, e + 2), (byteOf f (e + 3) != 0, 4, e + 3),
    (s.offset % 4 != 0 || (s.kind == 4 && s.offset != 0), 4, e + 4), (s.addr % 4 != 0, 4, e + 8),
    (s.kind == 1 && s.length % 4 != 0, 4, e + 12),
    (stored && (decide (s.offset < tablesLength f) || decide (sigOffset f < s.offset + s.length)), 4, e + 4),
    (stored && before.any (fun x => x.kind != 4 && overlap s.offset s.length x.offset x.length), 4, e + 4),
    (before.any (fun x => overlap s.addr s.length x.addr x.length), 4, e + 8)]

/-- Check 4 on the section table. -/
def sectionTableTests (f : List Byte) : List RawSection → List RawSection → List (Bool × Nat × Nat)
  | _, [] => []
  | before, s :: r => sectionTests f before s ++ sectionTableTests f (before ++ [s]) r

/-- The address range of a profile's memory into which sections load (R109, R128, 11 R356). -/
def profileRange (profile : Nat) : Nat × Nat :=
  if profile = 0 then (0x40000000, 0x40020000) else if profile = 2 then (0, 0x1F000) else (0, 0x2000)

/-- Check 5 on one section. -/
def placeTest (profile arg0 : Nat) (s : RawSection) : Bool × Nat × Nat :=
  (if profile = 1 then decide (s.addr ≠ (arg0 + s.offset) % 2 ^ 32)
   else decide (s.addr < (profileRange profile).1) || decide ((profileRange profile).2 < s.addr + s.length), 5, s.place + 8)

/-- Check 6 on task entry `j` (R129, 11 R334, 13 R416). -/
def taskTests (f : List Byte) (j : Nat) : List (Bool × Nat × Nat) :=
  let t := taskPlace f j
  let x := taskEntry f j
  let f3 := byteOf f 5 == 3
  [(!inCode (rawSections f) x.entry.toNat, 6, t), (x.wcet == 0, 6, t + 4), (f3 && x.sig != 0, 6, t + 8),
    (x.trigger == 0 || decide ((if f3 then 4 else 8) < x.trigger.toNat), 6, t + 12), (byteOf f (t + 13) != 0, 6, t + 13),
    (byteOf f (t + 14) != 0, 6, t + 14), (byteOf f (t + 15) != 0, 6, t + 15)]

/-- Checks 1 to 6 in their order (R131). The offset of a failure is the first byte of the field that fails, and for ARG1
against SIG_OFFSET that of SIG_OFFSET, for a missing code section the section table, for an overlap OFFSET or ADDR of the
later entry. (DEDUCED, log 74; DESIGN CHOICE, log 105) -/
def imageTests (f : List Byte) (arg0 arg1 profile : Nat) : List (Bool × Nat × Nat) :=
  let ss := rawSections f
  let entry := leField f 8 4
  let trap := leField f 12 4
  headerTests f ++
    [(byteOf f 5 != profile, 2, 5), (arg1 != sigOffset f + 128, 3, 16)] ++
    sectionTableTests f [] ss ++
    [(!ss.any (fun s => s.kind == 1), 4, 64), (profile == 0 && !inCode ss entry, 4, 8),
      (profile == 0 && trap != 0 && !inCode ss trap, 4, 12)] ++
    ss.map (placeTest profile arg0) ++
    (upTo (byteOf f 7)).flatMap (taskTests f)

/-! ### The code of an image -/

/-- A code word: its address, its offset in the image and the word. -/
structure CodeWord where
  /-- address in the profile's space -/
  addr : Nat
  /-- offset in the image -/
  offset : Nat
  /-- section number -/
  sect : Nat
  /-- the word -/
  word : Word
  deriving DecidableEq, Repr

/-- The words of section `k`. -/
def sectionWords (f : List Byte) (k : Nat) (s : RawSection) : List CodeWord :=
  (upTo (s.length / 4)).map fun i =>
    { addr := s.addr + 4 * i, offset := s.offset + 4 * i, sect := k,
      word := BitVec.ofNat 32 (leField f (s.offset + 4 * i) 4) }

/-- Every code word, section by section in table order. -/
def codeWords (f : List Byte) : List CodeWord :=
  (upTo (byteOf f 6)).flatMap fun k =>
    let s := rawSection f k
    if s.kind = 1 then sectionWords f k s else []

/-- The code word at an address. -/
def codeAt (cs : List CodeWord) (a : Nat) : Option CodeWord := cs.find? fun c => c.addr == a

/-- The target of a branch, JMP or CALL at `a`, as a number (R97). -/
def jumpTarget (a : Nat) (w : Word) : Option Nat := (jumpOffset w).map fun o => (((a : Int) + 4 * o) % 2 ^ 32).toNat

/-- The loop that a LOOPI starts: its count and the length of its body in words (R105). -/
def loopOf (w : Word) : Option (Nat × Nat) :=
  if wOp w = 0x4C then some ((w.extractLsb' 9 10).toNat, (w.extractLsb' 0 9).toNat) else none

/-- Check 7 on a word. -/
def decodeTest (profile : Nat) (c : CodeWord) : Bool × Nat × Nat := ((wordCause profile c.word).isSome, 7, c.offset)

/-- Check 8 on a word. -/
def targetTest (cs : List CodeWord) (c : CodeWord) : Bool × Nat × Nat :=
  (match jumpTarget c.addr c.word with
    | none => false
    | some t => (codeAt cs t).isNone || (wOp c.word != 0x48 && decide (t ≤ c.addr)), 8, c.offset)

/-- Whether `x` lies in the body of the loop that `c` starts. -/
def CodeWord.holds (c : CodeWord) (x : Nat) : Bool :=
  match loopOf c.word with
  | none => false
  | some (_, n) => decide (c.addr + 4 ≤ x) && decide (x ≤ c.addr + 4 * n)

/-- Whether a word is a CALL. -/
def CodeWord.isCall (c : CodeWord) : Bool := wOp c.word == 0x48

/-- Whether a word is a RET. -/
def CodeWord.isRet (c : CodeWord) : Bool := wOp c.word == 0x49

/-- Whether a word starts a loop that runs (R105). -/
def CodeWord.startsLoop (c : CodeWord) : Bool := match loopOf c.word with
  | none => false
  | some (k, n) => k != 0 && n != 0

/-- The target of a CALL. -/
def CodeWord.callee (c : CodeWord) : Option Nat := if c.isCall then jumpTarget c.addr c.word else none

/-- The addresses to which control goes from a word within its routine; a CALL comes back where its callee `returns`. -/
def CodeWord.successors (c : CodeWord) (returns : Nat → Bool) : List Nat :=
  let op := wOp c.word
  if op = 0xC3 ∨ op = 0xD5 ∨ op = 0x49 then []
  else match loopOf c.word with
    | some (k, n) => [if k = 0 ∨ n = 0 then c.addr + 4 + 4 * n else c.addr + 4]
    | none => match jumpTarget c.addr c.word with
      | none => [c.addr + 4]
      | some t => if c.isCall then (if returns t then [c.addr + 4] else [])
        else if op = 0x47 then [t] else [t, c.addr + 4]

/-- The words of the routine at `f`: those reached from it, calls apart. The words stand in rising address order, and every
branch goes forward (check 8). `fuel` bounds the depth of calls looked into. -/
def routine (cs : List CodeWord) : Nat → Nat → List CodeWord
  | 0, _ => []
  | fuel + 1, f =>
    let returns (t : Nat) : Bool := (routine cs fuel t).any CodeWord.isRet
    (cs.foldl (fun (x : List Nat × List CodeWord) c =>
      if x.1.contains c.addr then (x.1 ++ c.successors returns, x.2 ++ [c]) else x) ([f], [])).2

/-- The routine at `f` with every depth of calls that the code has. -/
def routineOf (cs : List CodeWord) (f : Nat) : List CodeWord := routine cs (cs.length + 1) f

/-- Whether the word `x`, in the body of the loop that `c` starts, breaks check 9: it leaves the body, or starts a body
that crosses its end. A RET targets the word after each CALL of a routine that reaches it. -/
def bodyBreak (cs : List CodeWord) (c x : CodeWord) : Bool :=
  c.holds x.addr &&
    ((x.isRet && cs.any fun s => match s.callee with
        | none => false
        | some t => (routineOf cs t).contains x && !c.holds (s.addr + 4)) ||
      (!x.isCall && match jumpTarget x.addr x.word with
        | none => false
        | some t => !c.holds t) ||
      match loopOf x.word with
      | none => false
      | some (_, n) => n != 0 && !c.holds (x.addr + 4 * n))

/-- Loops started by words of `cs` that enclose `x` and run, `x` itself included when it starts one. -/
def loopNest (cs : List CodeWord) (x : CodeWord) : Nat :=
  (cs.filter fun c => c.startsLoop && (c.holds x.addr || c.addr == x.addr)).length

/-- Check 9 on a word, nesting through calls apart. (DEDUCED, log 74) -/
def loopTest (cs : List CodeWord) (lmax : Nat) (x : CodeWord) : Bool × Nat × Nat :=
  (cs.any (fun c => bodyBreak cs c x) ||
    (match loopOf x.word with
      | none => false
      | some (k, n) =>
        (upTo n).any (fun i => match codeAt cs (x.addr + 4 * (i + 1)) with
          | none => true
          | some y => y.sect != x.sect) ||
        (k != 0 && n != 0 && decide (lmax < loopNest cs x))), 9, x.offset)

/-- The routines entered from the one at `f`, itself among them, each with the loops that run when it is entered. -/
def entered (cs : List CodeWord) : Nat → Nat → Nat → List (Nat × Nat)
  | 0, _, _ => []
  | fuel + 1, f, n =>
    let r := routineOf cs f
    (f, n) :: r.flatMap fun c => match c.callee with
      | none => []
      | some t => entered cs fuel t (n + loopNest r c)

/-- Check 9 through calls: the word starts a loop beyond the loop stack, on some chain of calls from a task. -/
def nestTest (cs : List CodeWord) (rmax lmax : Nat) (ts : List Task) (x : CodeWord) : Bool × Nat × Nat :=
  (x.startsLoop && ts.any fun t => (entered cs (rmax + 1) t.entry.toNat 0).any fun e =>
    let r := routineOf cs e.1
    r.contains x && decide (lmax < e.2 + loopNest r x), 9, x.offset)

/-- The routines that calls lead to from those of a list, itself included. -/
def calledFrom (cs : List CodeWord) : Nat → List Nat → List Nat
  | 0, l => l
  | fuel + 1, l => calledFrom cs fuel (l ++ l.flatMap fun f => (routineOf cs f).filterMap CodeWord.callee).eraseDups

/-- Check 10 on a word: a CALL from which calls lead back to it. -/
def cycleTest (cs : List CodeWord) (x : CodeWord) : Bool × Nat × Nat :=
  (match x.callee with
    | none => false
    | some t => (calledFrom cs cs.length [t]).any fun f => (routineOf cs f).contains x, 10, x.offset)

/-! ### Paths (R124, checks 10 to 12) -/

/-- What a set of paths with one end can do: the longest in cycles and their effects on SIGNAT. An effect `(k, c)` takes SIGNAT to rotl(SIGNAT, k) xor c (R113). -/
structure PathSet where
  /-- worst case in cycles -/
  wcet : Nat
  /-- effects on SIGNAT -/
  sigs : List (Nat × Word)
  deriving DecidableEq, Repr

/-- One path of `n` cycles that leaves SIGNAT alone. -/
def PathSet.step (n : Nat) : PathSet := { wcet := n, sigs := [(0, 0)] }

/-- Paths followed by paths. -/
def PathSet.cat (p q : PathSet) : PathSet :=
  { wcet := p.wcet + q.wcet,
    sigs := (p.sigs.flatMap fun a => q.sigs.map fun b => ((a.1 + b.1) % 32, a.2.rotateLeft b.1 ^^^ b.2)).eraseDups }

/-- The paths of both. -/
def PathSet.join (p q : PathSet) : PathSet :=
  { wcet := max p.wcet q.wcet, sigs := (p.sigs ++ q.sigs).eraseDups }

/-- The paths from one instruction by how they end: at the end of the loop body under way, at a RET, or at TEND or
FEND. -/
structure Flow where
  fall : Option PathSet
  ret : Option PathSet
  tend : Option PathSet
  deriving DecidableEq, Repr

def joinOpt : Option PathSet → Option PathSet → Option PathSet
  | none, q => q
  | p, none => p
  | some p, some q => some (p.join q)

def Flow.join (x y : Flow) : Flow :=
  { fall := joinOpt x.fall y.fall, ret := joinOpt x.ret y.ret, tend := joinOpt x.tend y.tend }

/-- The paths `p`, each followed by those of a flow. -/
def Flow.after (p : PathSet) (x : Flow) : Flow :=
  { fall := x.fall.map p.cat, ret := x.ret.map p.cat, tend := x.tend.map p.cat }

def Flow.none : Flow := { fall := Option.none, ret := Option.none, tend := Option.none }

/-- The Cycles value of a word for R124: a G load or store counts 2 only with base s0 and an address in Gable memory or
the cell-map buffer. -/
def wordCycles (profile : Nat) (w : Word) : Nat :=
  let op := (wOp w).toNat
  if 0x60 ≤ op ∧ op ≤ 0x67 then
    if profile = 3 then 1
    else
      let a := (sx (wImm14 w)).toNat
      if wSrc1 w = 0 ∧ (a < 0x20000 ∨ (0x100000 ≤ a ∧ a < 0x101000)) then 2 else 24
  else match isa op with
    | Option.none => 1
    | some i => i.cycles

/-- `n` further iterations of a loop body after the paths `p`: those that end the task on the way, and those that run
through. -/
def loopFlow (body : Flow) : Nat → PathSet → Option PathSet × Option PathSet
  | 0, p => (some p, none)
  | n + 1, p =>
    let ended := body.tend.map p.cat
    match body.fall with
    | none => (none, ended)
    | some b =>
      let x := loopFlow body n (p.cat b)
      (x.1, joinOpt ended x.2)

/-- The paths of the word `c`, given those from every later address, of a callee and of a loop body. A fault of the
program on some path answers the address of the instruction at which it shows. TRAP and BRK count as instructions that
the flow passes. (DEDUCED, log 74) -/
def wordFlow (profile : Nat) (next : Nat → Except Nat Flow) (call : Nat → Except Nat Flow)
    (body : Nat → Nat → Except Nat Flow) (lastCalls : Nat → Bool) (c : CodeWord) : Except Nat Flow :=
  let a := c.addr
  let w := c.word
  let op := wOp w
  let n := PathSet.step (wordCycles profile w)
  if op = 0xC3 ∨ op = 0xD5 then .ok { Flow.none with tend := some n }
  else if op = 0x49 then .ok { Flow.none with ret := some n }
  else match loopOf w with
    | some (k, len) =>
      if k = 0 ∨ len = 0 then (next (a + 4 + 4 * len)).map (Flow.after n)
      else (body (a + 4) (a + 4 + 4 * len)).bind fun b =>
        let x := loopFlow b (if lastCalls (a + 4 * len) then 1 else k) n
        let worst : Nat := n.wcet + k * (match b.fall with | none => 0 | some p => p.wcet)
        let through := x.1.map fun p => { p with wcet := worst }
        let ended : Flow := { fall := none, ret := b.ret.map n.cat, tend := x.2 }
        match through with
        | none => .ok ended
        | some p => (next (a + 4 + 4 * len)).map fun y => ended.join (Flow.after p y)
    | none => match jumpTarget a w with
      | none =>
        let sig : PathSet := if op = 0xC2 then { n with sigs := [(3, zx (wImm14 w))] } else n
        (next (a + 4)).map (Flow.after sig)
      | some t =>
        if op = 0x48 then (call t).bind fun y =>
          let y := Flow.after n y
          match y.ret with
          | none => .ok { Flow.none with tend := y.tend }
          | some p => (next (a + 4)).map fun z => Flow.join { Flow.none with tend := y.tend } (Flow.after p z)
        else if op = 0x47 then (next t).map (Flow.after n)
        else (next t).bind fun y => (next (a + 4)).map fun z =>
          (Flow.after (PathSet.step 2) y).join (Flow.after (PathSet.step 1) z)

/-- The flow from an address: the end of the body under way, a word of the table, or a path that leaves the code. -/
def flowAt (t : List (Nat × Except Nat Flow)) (stop : Option Nat) (src a : Nat) : Except Nat Flow :=
  if stop = some a then .ok { Flow.none with fall := some (PathSet.step 0) }
  else match t.find? fun p => p.1 == a with
    | none => .error src
    | some p => p.2

/-- The flows of words in rising address order, each from those after it: every branch is forward (check 8). -/
def flowTable (profile : Nat) (call : Nat → Nat → Except Nat Flow) (body : Nat → Nat → Except Nat Flow)
    (lastCalls : Nat → Bool) (stop : Option Nat) : List CodeWord → List (Nat × Except Nat Flow)
  | [] => []
  | c :: r =>
    let t := flowTable profile call body lastCalls stop r
    (c.addr, wordFlow profile (flowAt t stop c.addr) (call c.addr) body lastCalls c) :: t

/-- The paths from address `lo` to the end of the body `stop`, to a RET or to the task's end. `stack` holds the
functions entered, so that a cycle of calls or too deep a call is found; `fuel` bounds nesting. -/
def flowFrom (profile rmax : Nat) (cs : List CodeWord) : Nat → List Nat → Nat → Option Nat → Except Nat Flow
  | 0, _, lo, _ => .error lo
  | fuel + 1, stack, lo, stop =>
    let call (src t : Nat) : Except Nat Flow :=
      if stack.contains t || decide (rmax ≤ stack.length) then .error src
      else flowFrom profile rmax cs fuel (t :: stack) t none
    let body (a b : Nat) : Except Nat Flow := flowFrom profile rmax cs fuel stack a (some b)
    let lastCalls (a : Nat) : Bool := match codeAt cs a with
      | none => false
      | some c => wOp c.word == 0x48
    let within := cs.filter fun c => decide (lo ≤ c.addr) && match stop with
      | none => true
      | some s => decide (c.addr < s)
    flowAt (flowTable profile call body lastCalls stop within) stop lo lo

/-- Code words in rising address order. -/
def insertWord (c : CodeWord) : List CodeWord → List CodeWord
  | [] => [c]
  | x :: r => if c.addr < x.addr then c :: x :: r else x :: insertWord c r

/-- The flow of a task over words in rising address order (checks 10 to 12). -/
def taskFlow (profile : Nat) (cs : List CodeWord) (t : Task) : Except Nat Flow :=
  flowFrom profile (if profile = 3 then 8 else 16) cs 128 [] t.entry.toNat none

/-- The offset of the instruction at an address. -/
def offsetAt (cs : List CodeWord) (a : Nat) : Nat := match codeAt cs a with
  | none => 0
  | some c => c.offset

/-- Check 10 on one task: a path that leaves the code or calls too deep shows at its last instruction, and a RET on an
empty stack at the RET. -/
def endTest (profile : Nat) (cs : List CodeWord) (t : Task) : Bool × Nat × Nat :=
  match taskFlow profile cs t with
  | .error a => (true, 10, offsetAt cs a)
  | .ok x =>
    (x.ret.isSome || x.tend.isNone, 10,
      match (routineOf cs t.entry.toNat).find? CodeWord.isRet with
      | none => offsetAt cs t.entry.toNat
      | some c => c.offset)

/-- Check 11 (`k` 11) or 12 on one task. The spec names no instruction as the failing one of a worst case or of a SIGNAT:
the model gives the task's first. (DESIGN CHOICE, log 105) -/
def flowTest (profile k : Nat) (cs : List CodeWord) (t : Task) : Bool × Nat × Nat :=
  (match taskFlow profile cs t with
    | .error _ => false
    | .ok x => match x.tend with
      | none => false
      | some p =>
        if k = 11 then decide (t.wcet.toNat < p.wcet)
        else profile == 2 && p.sigs.any fun s => s.2 != t.sig, k, offsetAt cs t.entry.toNat)

/-- Checks 7 to 12 of a G or F image (R131). Where several words fail a check, the first in address order is named.
(DESIGN CHOICE, log 105) -/
def codeTests (f : List Byte) (profile : Nat) : List (Bool × Nat × Nat) :=
  let cs := (codeWords f).foldr insertWord []
  let ts := taskEntries f
  let lmax := if profile = 3 then 2 else 4
  let rmax := if profile = 3 then 8 else 16
  cs.map (decodeTest profile) ++ cs.map (targetTest cs) ++ cs.map (loopTest cs lmax) ++
    cs.map (nestTest cs rmax lmax ts) ++ cs.map (cycleTest cs) ++ ts.map (endTest profile cs) ++
    ts.map (flowTest profile 11 cs) ++ ts.map (flowTest profile 12 cs)

/-- The first check of R131 that an image fails, with its offset (R132). -/
def imageCheck (f : List Byte) (arg0 arg1 profile : Nat) : Option ImgFail :=
  match firstFail (imageTests f arg0 arg1 profile) with
  | some x => some x
  | none => if profile = 2 ∨ profile = 3 then firstFail (codeTests f profile) else none

/-! ### The image accepted -/

/-- The image hash (R130). -/
def imageHash (f : List Byte) : BitVec 256 := sha256Bits (f.take (sigOffset f))

/-- An image as loaded from Loft address `base`. -/
def parseImage (f : List Byte) (base : Nat) : Image :=
  { sections := (rawSections f).map fun s => { kind := s.kind, addr := s.addr, length := s.length },
    tasks := taskEntries f, entry := BitVec.ofNat 32 (leField f 8 4), trapEntry := BitVec.ofNat 32 (leField f 12 4),
    hash := imageHash f, buildId := BitVec.ofNat 32 (leField f 20 4), base := base, length := f.length }

/-- Whether a key hash stands in a slot that permits a profile (17 R512). -/
def Otp.permits (o : Otp) (key : BitVec 256) (profile : Nat) : Bool :=
  o.keys.toList.any fun k => k.programmed && !k.revoked && k.mask.getLsbD profile && k.hash == key

/-- The cause of AUTH_FAIL, 0 when the image is authentic (R130, 11 R356): the key, the signature, then the hash that a
configuration in force names. -/
def imageAuth (o : Otp) (cfg : Option SafetyConfig) (f : List Byte) (profile : Nat) : Nat :=
  let s := sigOffset f
  let num (k : Nat) : Nat := beNat ((f.drop (s + k)).take 32)
  if !o.permits (sha256Bits ((f.drop s).take 64)) profile then 2
  else if !ecdsaVerify (num 0) (num 32) (num 64) (num 96) (sha256 (f.take s)) then 1
  else match cfg with
    | none => 0
    | some c =>
      if (profile = 2 ∧ imageHash f ≠ c.ghash) ∨ (profile = 3 ∧ imageHash f ≠ c.fhash) then 3 else 0

/-- A memory with the sections of an image in place, section addresses less `base` (R128). -/
def placeSections (m : Mem) (f : List Byte) (base : Nat) : Mem :=
  (rawSections f).foldl (fun m s =>
    writeBytes m (s.addr - base)
      (if s.kind = 4 then List.replicate s.length 0 else (f.drop s.offset).take s.length)) m

/-- The uncorrectable words that a load leaves: those it wrote whole are good again (R110, 02 R59). -/
def clearedUe (ue : List Nat) (f : List Byte) (base : Nat) : List Nat :=
  ue.filter fun w => !(rawSections f).any fun s => coversWord (s.addr - base) s.length w

/-- A G image in Gable memory (R128, 11 R356): every byte outside its sections 0, the configuration area kept; the Gable
starts with it (11 R334). (DEDUCED, log 74) -/
def Dev.loadGable (d : Dev) (f : List Byte) (base : Nat) : Dev :=
  let keep := readBytes d.thatch.gableMem.cells 0x1F000 0x1000
  let m : CoreMem := { cells := writeBytes (placeSections [] f 0) 0x1F000 keep,
                       ue := d.thatch.gableMem.ue.filter fun w => decide (0x1F000 / 8 ≤ w) }
  let d : Dev := { d with thatch := { d.thatch with gableMem := m, gableImage := some (parseImage f base) } }
  d.gableStart

/-- An F image in Soffit memory (R128, 13 R418): the program starts afresh, its halt is over; logic silence keeps its safe
states. A Soffit without its supply takes nothing. (DEDUCED, log 69) -/
def Dev.loadSoffit (d : Dev) (f : List Byte) (base : Nat) : Dev :=
  if d.soffit.powered then
    { d with
      thatch := { d.thatch with
        soffitMem := { cells := placeSections [] f 0, ue := [] }, soffitImage := some (parseImage f base),
        soffit := Core.reset, soffitWait := [] },
      soffit := ({ d.soffit with safeState := d.soffit.silenced, payload := [], appended := [] } : Soffit).settle }
  else d

/-- A T image in Truss memory, started at ENTRY (R95, R128, 15 R455). -/
def Dev.loadTruss (d : Dev) (f : List Byte) (base : Nat) : Dev :=
  let i := parseImage f base
  { d with thatch := { d.thatch with
      trussMem := { cells := placeSections d.thatch.trussMem.cells f 0x40000000,
                    ue := clearedUe d.thatch.trussMem.ue f 0x40000000 },
      trussImage := some i, truss := { Core.reset with pc := i.entry, mode := .running } } }

/-- SYS_IMG_CHECK and SYS_IMG_CHECK_OFF at the end of an IMAGE_LOAD (R132). (DEDUCED, log 54) -/
def Dev.noteCheck (d : Dev) (x : Option ImgFail) (profile : BitVec 2) : Dev :=
  let p := x.getD (0, 0)
  { d with thatch := { d.thatch with
      imgCause := BitVec.ofNat 4 p.1, imgProfile := profile, imgOffset := BitVec.ofNat 25 p.2 } }

end Sys2Proof.Machine
end

