-- ==== Sys2Proof/Machine/Inject.lean ====
section
/-! DEFINITION. Injections (chapter 18): the catalogue's instances and times, the start, detection, miss and restoration of
one injection, and its results. -/

namespace Sys2Proof.Machine

open Sys2Proof

/-! ### Instances (R517) -/

/-- The FIELD section in force on the core side. -/
def Dev.fieldNow (d : Dev) : Option (BitVec 1280) := d.gbl.cfg.map (·.field)

/-- A test of FIELD bytes under a configuration. -/
def Dev.fieldHas (d : Dev) (p : BitVec 1280 → Bool) : Bool := match d.fieldNow with | none => false | some f => p f

/-- Whether instance `i` of a bit is applicable. (DEDUCED, log 45) -/
def Dev.injApplies (d : Dev) (b i : Nat) : Bool :=
  let cfg := d.gbl.cfg.isSome
  let one := i == 0
  let mode := (getN d.str i StrChannel.reset).mode
  let axes := match d.gbl.cfg with | none => false | some c => c.axes
  let tile := d.scan.present.contains i
  let tests (k : Nat) : Bool := d.soffit.mayTest k true || d.soffit.mayTest k false
  let used (f : BitVec 1280) (k : Nat) : Bool := fLead f k == k && fOutAssign f k != 0
  if b ≤ 1 ∨ (11 ≤ b ∧ b ≤ 13) ∨ b = 31 ∨ b = 32 ∨ b = 53 ∨ b = 54 then one
  else if b = 2 then decide (i < 8)
  else if b ≤ 10 then one && cfg
  else if b ≤ 16 then one && axes
  else if b ≤ 18 then tile
  else if b ≤ 22 then tile && cfg
  else if b = 23 ∨ b = 26 then decide (i < 8) && mode == 2
  else if b ≤ 27 then decide (i < 8) && mode != 0
  else if b ≤ 30 then decide (i < 6) && (getN d.thm.ntc i Ntc.reset).en
  else if b ≤ 34 then decide (i < 8) && d.fieldHas (used · i) && tests i
  else if b = 35 then decide (i < 8) && tests i &&
    d.fieldHas fun f => used f i && (upTo 8).any fun k => k != i && used f k
  else if b = 36 then decide (i < 8) && d.fieldHas fun f => fIn f i 0 != 0 && fInMode f i 1
  else if b ≤ 38 then decide (i < 4) && d.fieldHas fun f => fPairKind f i != 0
  else if b = 39 then decide (i < 8) && d.fieldHas fun f => fIn f i 0 != 0 && fInMode f i 2
  else if b ≤ 41 then one && cfg
  else if b ≤ 45 then decide (i < 8) && match d.gbl.cfg with | none => false | some c => c.consumes d.sys.role i
  else if b = 46 then one && cfg && (if d.sys.role = 2 then d.roof.posValid else d.roof.ringUp)
  else if b = 47 then one && cfg && d.roof.twin && d.sys.role != 2
  else if b ≤ 49 then one && cfg
  else if b = 50 then d.scan.patchValid i && decide (i < 256)
  else if b ≤ 52 then one && d.vin.en
  else false

/-- The applicable instances that INSTANCE `t` selects. -/
def Dev.injInstances (d : Dev) (b : Nat) (t : Byte) : List Nat :=
  if t = 0xFF then (upTo 256).filter (d.injApplies b) else [t.toNat].filter (d.injApplies b)

/-- The dry subset (R516). -/
def dryBit (b : Nat) : Bool := decide (b ≤ 54) && b != 17 && b != 50

/-! ### Times (R516, R521) -/

/-- LCLK cycles in whole microseconds, rounded up. -/
def lclkMicro (n : Nat) : Nat := (n + 399) / 400

/-- FILTER times PERIOD times 1.05 of input `k`, in microseconds. -/
def filterMicro (f : BitVec 1280) (k : Nat) : Nat := ((fIn f k 3).toNat * (fIn f k 2).toNat * 50 * 21 + 19) / 20

/-- The detection time of an instance of a bit, in microseconds. -/
def Dev.injTimeOf (d : Dev) (b i : Nat) : Nat :=
  let tf := lclkMicro d.tf
  let ts := lclkMicro d.ts
  let f := d.fieldNow.getD defaultField
  let p (a : Nat) : Nat := match d.gbl.cfg with | none => 0 | some c => c.encPeriod a
  let c := getN d.str i StrChannel.reset
  let pair := max (filterMicro f (2 * i)) (filterMicro f (2 * i + 1))
  let texp := match d.gbl.cfg with | none => 0 | some c => c.fcTexp i
  let ridge := match d.gbl.cfg with | none => false | some c => c.fcKind i == 4
  if b ≤ 1 then 21000
  else if b = 2 then if d.sys.mode = .proof then tf else 8 * tf
  else if b = 3 then 1000
  else if b ≤ 5 then ts
  else if b = 6 then 2 * ts
  else if b ≤ 9 then tf
  else if b = 10 then ts
  else if b ≤ 13 then 20
  else if b = 14 then 2 * ts
  else if b = 15 then 3 * max (p 0) (p 1)
  else if b = 16 then 3 * max (p 2) (p 3)
  else if b ≤ 21 then 2 * tf
  else if b = 22 then 3 * tf
  else if b = 23 ∨ b = 26 then lclkMicro (d.pwmCycles i)
  else if b = 24 then if c.mode = 2 then lclkMicro (d.pwmCycles i) else 1000
  else if b = 25 then lclkMicro (8 * c.fswN.toNat)
  else if b = 27 then 1000
  else if b ≤ 29 then 10000
  else if b = 30 then 1000
  else if b ≤ 32 then 1050
  else if b ≤ 35 then 2000
  else if b = 36 then filterMicro f i
  else if b = 37 then 50 * max (fIn f (2 * i) 2).toNat (fIn f (2 * i + 1) 2).toNat
  else if b = 38 then pair + 2000
  else if b = 39 then 500
  else if b = 40 then 2000
  else if b = 41 then 1000 * fTsil f
  else if b = 42 then if ridge then 10 else 1000
  else if b ≤ 45 then 1000 * texp
  else if b ≤ 47 then 2 * tf
  else if b ≤ 49 then 20
  else if b = 50 then 2 * tf
  else if b ≤ 52 then 10
  else if b = 53 then 20000
  else 1000

/-- The detection time over every instance selected. (DEDUCED, log 46) -/
def Dev.injTime (d : Dev) (b : Nat) (t : Byte) : Nat := ((d.injInstances b t).map (d.injTimeOf b)).foldl max 0

/-! ### Output stages that an injection's reaction reaches in full form (R519) -/

/-- The channels and LIVE outputs that stop: LIVE_G, LIVE_H, GATE. -/
structure Stages where
  /-- LIVE_G stops -/
  g : Bool
  /-- LIVE_H stops -/
  h : Bool
  /-- GATE held low -/
  gates : BitVec 8
  deriving DecidableEq, Repr

/-- What one instance's reaction stops. (DEDUCED, log 45) -/
def Dev.injStages (d : Dev) (b i : Nat) : Stages :=
  let ch : BitVec 8 := setBit 0 i true
  let tile := [i].foldl (fun (m : BitVec 128) t => setBit m t true) 0
  let unfed := unfedKill d.gbl.cfg tile
  let dem (k : Nat) : Bool := d.fieldHas fun f => fPairKind f k != 0 && fPairDemand f k
  if (3 ≤ b ∧ b ≤ 6) ∨ b = 10 then { g := true, h := false, gates := 0 }
  else if b = 7 ∨ b = 8 ∨ (11 ≤ b ∧ b ≤ 13) then { g := false, h := true, gates := 0xFF }
  else if b = 19 ∨ b = 22 then { g := unfed, h := unfed, gates := killedChannels d.gbl.cfg tile }
  else if b = 23 ∨ b = 24 ∨ b = 25 ∨ b = 27 then { g := false, h := false, gates := ch }
  else if b = 32 then
    let on := d.fieldHas fun f => (upTo 8).any fun k => fIn f k 0 == 1 && fInMode f k 4
    { g := on, h := on, gates := 0 }
  else if b = 36 then { g := dem (i / 2), h := dem (i / 2), gates := 0 }
  else if b = 37 ∨ b = 38 then { g := dem i, h := dem i, gates := 0 }
  else if b = 40 then
    let on := (upTo 4).any dem
    { g := on, h := on, gates := 0 }
  else if b = 42 then
    let on := match d.gbl.cfg with | none => false | some c => c.fcKind i == 1 && c.fcFlag i 2
    { g := on, h := false, gates := 0 }
  else if b = 48 ∨ b = 49 then { g := true, h := true, gates := 0 }
  else { g := false, h := false, gates := 0 }

/-- What the whole injection stops. -/
def Dev.injAllStages (d : Dev) (b : Nat) (t : Byte) : Stages :=
  (d.injInstances b t).foldl (fun x i =>
    let y := d.injStages b i
    { g := x.g || y.g, h := x.h || y.h, gates := x.gates ||| y.gates }) { g := false, h := false, gates := 0 }

/-- The inputs whose filter an injection reaches. (DEDUCED, log 45) -/
def Dev.injInputs (d : Dev) (b : Nat) (t : Byte) : List Nat :=
  let is_ := d.injInstances b t
  (upTo 8).filter fun k => b == 32 || (b == 36 && is_.contains k) || (b == 38 && is_.contains (k / 2))

/-- The restoration bound (R521): a channel in SUPPLY mode held low, or a LIVE output stopped, cuts supply. (DEDUCED,
log 45) -/
def Dev.injRestore (d : Dev) (b : Nat) (t : Byte) : Nat :=
  let s := d.injAllStages b t
  let f := d.fieldNow.getD defaultField
  let filt := ((d.injInputs b t).map (filterMicro f)).foldl max 0
  let cut := s.g || s.h || channels.any fun ch => s.gates.getLsbD ch.val && d.str[ch.val].mode == 1
  (if cut then 2000 + 3 * lclkMicro d.tf else 1000) + filt

/-- What restoration waits for (R521), as far as the mode in force lets it come: LIVE outputs that toggle again, channels
released and regulating, two captures in a row from every tile whose supply was cut, and filtered states equal to the raw
classes. (DEDUCED, log 45) -/
def Dev.injBack (d : Dev) : Bool :=
  let s := d.inj
  let live := !d.sys.mode.liveMode || ((!s.stopG || d.liveG) && (!s.stopH || d.liveH))
  let strings := channels.all fun ch =>
    let c := d.str[ch.val]
    !s.gates.getLsbD ch.val || !channelRuns d.sys.mode c.mode (d.owned ch.val) || (d.mayRun ch && c.state == 2)
  let cut (t : Nat) : Bool := s.stopG || s.stopH || killedChannels d.gbl.cfg (setBit 0 t true) &&& s.gates != 0
  let tiles := d.scan.present.all fun t => !cut t || (getN d.prv.tiles t PrvTile.reset).passRun == 2
  let inputs := (d.injInputs s.bit.toNat s.inst).all fun k =>
    let i := getN d.soffit.inputs k FieldIn.reset
    i.filtered == i.raw
  live && strings && tiles && inputs

/-! ### Running one (R518 to R524, R530, R531) -/

/-- An injection starts: its log entry takes the next place of the 16. -/
def Dev.injStart (d : Dev) (b : Nat) (dry : Bool) (origin : InjOrigin) (hdr : Option CmdHdr) : Dev :=
  let i := d.inj
  let t : Byte := if origin = .command then i.target else 0xFF
  let head : Fin 16 := if i.count = 0 then i.head else i.head + 1
  let e : InjLog :=
    { bit := BitVec.ofNat 10 b, dry := dry, result := 0, origin := origin, inst := t,
      time := BitVec.ofNat 32 d.now, detect := 0 }
  { d with inj := { i with
      busy := true, restoring := false, bit := BitVec.ofNat 10 b, dry := dry, head := head,
      count := if i.count < 16 then i.count + 1 else i.count, active := setBit 0 b true,
      pass := setBit i.pass b false, log := upd i.log head fun _ => e, origin := origin, hdr := hdr, inst := t,
      start := d.now, detect := 0, held := false, stopG := false, stopH := false, gates := 0 } }

/-- The payload of event 0x0E01. -/
def InjLog.payload (e : InjLog) : BitVec 64 :=
  pay 0 e.bit ||| payN 10 (if e.dry then 1 else 0) ||| pay 11 e.result ||| pay 14 e.origin.code ||| pay 16 e.inst |||
    pay 32 e.detect

/-- Event 0x0E01 about the newest log entry. -/
def Dev.injEvent (d : Dev) : Dev := d.event 0x0E01 (d.inj.log[d.inj.head.val]).payload

/-- A missed injection or a failed restoration (R527). (DEDUCED, log 46) -/
def Dev.injMissed (d : Dev) : Dev :=
  { d with inj := { d.inj with
      miss := setBit d.inj.miss d.inj.bit.toNat true, missed := d.inj.missed || d.inj.origin != .proof } }

/-- The end of an injection with its result. (DEDUCED, log 46) -/
def Dev.injEnd (d : Dev) (pass : Bool) : Dev :=
  let d := d.injEvent
  let d := if pass then { d with inj := { d.inj with pass := setBit d.inj.pass d.inj.bit.toNat true } } else d.injMissed
  { d with inj := d.inj.idle }

/-- The INJECT that waits completes (R518). (DEDUCED, log 47) -/
def Dev.injComplete (d : Dev) (detect : BitVec 24) (found : Bool) : Dev :=
  match d.inj.hdr with
  | none => d
  | some h =>
    ({ d with inj := { d.inj with hdr := none } }).finishLong h 0x70 .ok (detect.setWidth 32) (if found then 1 else 0)

/-- Every instance's reaction latch has set within the detection time (R518, R519). -/
def Dev.injDetected (d : Dev) : Dev :=
  let b := d.inj.bit.toNat
  if d.inj.busy && !d.inj.restoring && decide (d.now ≤ d.inj.start + d.injTime b d.inj.inst) then
    let t : BitVec 24 := satAdd 0 (d.now - d.inj.start)
    let i := d.inj.onHead fun e => { e with result := 1, detect := t }
    let d : Dev := { d with inj := { i with detect := t } }
    let d := d.injComplete t true
    if d.inj.dry then d.injEnd true
    else
      let s := d.injAllStages b d.inj.inst
      Dev.refreshInhibits
        { d with inj := { d.inj with restoring := true, held := true, stopG := s.g, stopH := s.h, gates := s.gates } }
  else d

/-- 1 ms after the detection time an undetected injection is missed (R518). -/
def Dev.injDeadline (d : Dev) : Dev :=
  let b := d.inj.bit.toNat
  let bound := d.injTime b d.inj.inst
  if d.inj.busy && !d.inj.restoring && decide (d.inj.start + bound + 1000 ≤ d.now) then
    let t : BitVec 24 := satAdd 0 bound
    let i := d.inj.onHead fun e => { e with result := 2, detect := t }
    let d : Dev := { d with inj := { i with detect := t } }
    let d := d.injComplete t false
    if d.inj.dry then d.injEnd false else { d with inj := { d.inj with restoring := true, held := true } }
  else d

/-- Restoration (R521): the fault is withdrawn, and restoration ends once all is back, within its bound or as RESTORE_FAIL,
which a second event 0x0E01 reports (R529); after an abort with event 0x0E01 and neither PASS nor MISS. (DEDUCED,
log 46) -/
def Dev.injRestored (d : Dev) : Dev :=
  if d.inj.busy && d.inj.restoring then
    let e := d.inj.log[d.inj.head.val]
    let from_ := d.inj.start + d.inj.detect.toNat + (if e.result = 2 then 1000 else 0)
    let late := decide (from_ + d.injRestore d.inj.bit.toNat d.inj.inst < d.now)
    let d := if d.inj.held then d.withdrawInj else d
    if !late && !d.injBack then d
    else if late then
      let d := if e.result = 1 then d.injEvent else d
      let i := d.inj.onHead fun e => { e with result := 3 }
      ({ d with inj := i }).injEnd false
    else if e.result = 4 then Dev.injEvent { d with inj := d.inj.idle }
    else d.injEnd (e.result == 1)
  else d

/-! ### Injection in RUN (R526) -/

/-- The dry bits from `b` upward, wrapping. -/
def dryOrder (b : Nat) : List Nat := ((upTo 55).map fun k => (b + k) % 55).filter dryBit

/-- The scheduled injection that falls due: the next dry bit with an applicable instance. It waits for an injection that
runs. -/
def Dev.injSchedule (d : Dev) : Dev :=
  if d.inj.schedEn && d.sys.mode == .run then
    if d.inj.busy then { d with inj := { d.inj with schedDue := true } }
    else match (dryOrder d.inj.nextSched).find? fun b => !(d.injInstances b 0xFF).isEmpty with
      | none => d
      | some b =>
        (({ d with inj := { d.inj with nextSched := (b + 1) % 55, schedDue := false } }).injStart b true .schedule none)
  else d

/-- INTERVAL seconds have gone by since the schedule's last injection fell due. (DESIGN CHOICE, log 45) -/
def Dev.injInterval (d : Dev) : Dev :=
  if decide (d.inj.schedAt + 1000000 * d.inj.interval.toNat ≤ d.now) then
    Dev.injSchedule { d with inj := { d.inj with schedAt := d.now } }
  else d

end Sys2Proof.Machine
end

