-- ==== Sys2Proof/Machine/Strings.lean ====
section
/-! DEFINITION. String channels (chapter 10): switching cycles, PWM periods, protection and restarts, and the string tests of
the proving unit (09 R281, R282). -/

namespace Sys2Proof.Machine

open Sys2Proof

/-- Channel `ch` changed by `f`. -/
def Dev.onStr (d : Dev) (ch : Fin 8) (f : StrChannel → StrChannel) : Dev := { d with str := upd d.str ch f }

/-- An over-temperature condition with OTKILL holds a non-owned STRING channel at duty 0 (R305). -/
def Dev.otKilled (d : Dev) (ch : Nat) : Bool :=
  !d.owned ch && d.thm.ntc.toList.any fun (n : Ntc) => n.en && n.otkill && n.overTemp && n.chmask.getLsbD ch

/-- The duty that a PWM period of the channel runs with. -/
def Dev.dutyOf (d : Dev) (ch : Fin 8) : Nat :=
  let c := d.str[ch.val]
  if d.otKilled ch.val then 0
  else ((if c.pwmsync then c.dutyDue else c.duty).toNat) % 2 ^ c.depth.toNat

/-- Code of a fault (R315). -/
def StrFault.code : StrFault → Nat
  | .oc => 1 | .short => 2 | .ov => 3 | .opened => 4

/-- The status bit of a fault. -/
def StrChannel.mark (c : StrChannel) (f : StrFault) : StrChannel :=
  match f with
  | .oc => { c with oc := true }
  | .short => { c with short := true }
  | .ov => { c with ovFault := true }
  | .opened => { c with openFault := true }

/-- A fault of a channel (R299, R300): GATE low; a restart is due with AUTORETRY, unless the third restart in a row failed,
which the same fault within 100 ms of it tells. (DEDUCED, log 72) -/
def Dev.strFault (d : Dev) (ch : Fin 8) (f : StrFault) : Dev :=
  let c := d.str[ch.val]
  if c.state = 3 then d
  else
    let again := match c.lastRetry with
      | none => false
      | some (t, g) => g == f && decide (d.now ≤ t + 100000)
    let failed := if again then c.failed + 1 else 0
    let latch := !c.autoretry || failed == 3
    let d := d.onStr ch fun c =>
      { c.mark f with state := 3, gate := false, armed := false, ocRun := 0, ovHold := false, lowSince := none,
                      regThrough := false, latched := latch, failed := failed, faultAt := d.now,
                      retryDue := if latch then none else some f }
    d.event 0x0701 (payN 0 ch.val ||| payN 4 f.code ||| payN 8 (if latch then 1 else 0) ||| pay 16 c.vsn)

/-- Whether a condition of R299 has lasted its qualifying time on a running channel: 8 cycles in a row of overcurrent, 1 ms
above OV within 10 ms, 1 ms below UV at the current limit. The open and short tests of a string need no such time. -/
def Dev.strQualifies (d : Dev) (ch : Fin 8) (f : StrFault) : Bool :=
  let c := d.str[ch.val]
  d.mayRun ch && c.state != 0 && match f with
    | .oc => decide (8 ≤ c.ocRun.toNat)
    | .ov => decide (400000 ≤ c.ovCycles d.now)
    | .short => match c.lowSince with | none => false | some t => decide (t + 1000 ≤ d.now)
    | .opened => false

/-- A condition of R299 has lasted its qualifying time. -/
def Dev.strProtect (d : Dev) (ch : Fin 8) (f : StrFault) : Dev := if d.strQualifies ch f then d.strFault ch f else d

/-- What the VSN ball (mV) shows of overvoltage at a cycle start (R299): GATE is held low above OV until VSN has fallen 24 mV
below it, and the cycle counts towards the millisecond. -/
def StrChannel.overVoltage (c : StrChannel) (now : Nat) (vsn : BitVec 11) : StrChannel :=
  let above := decide (c.ov.toNat < vsn.toNat)
  let spans := c.ovSpans.filter fun x => decide (now < x.1 + 10000)
  { c with vsn := vsn, ovHold := above || (c.ovHold && decide (c.ov.toNat < vsn.toNat + 24)),
           ovSpans := if above then (now, c.fswN.toNat) :: spans else spans }

/-- The peak threshold of a cycle, in codes of IREF and a factor (R291, R292): in SUPPLY mode the voltage loop's command, at
most IREF; in STRING mode IREF scaled by the derate factor. -/
def StrChannel.peak (c : StrChannel) (ch now : Nat) : Nat × Nat :=
  if c.mode = 1 then
    (min c.irefNow.toNat (Config.voltageLoop ch c.loopDraws (c.target now) c.vsn.toNat).toNat, 0x10000)
  else (c.irefNow.toNat, c.derateNow.toNat)

/-- A switching cycle of a channel in its window of `w` LCLK cycles (R291, R299): `shunt` the shunt voltage at each of its LCLK
cycles, in 0.1 mV. GATE rises unless overvoltage holds it low, and falls under R291. -/
def StrChannel.switch (c : StrChannel) (ch now w : Nat) (shunt : List (BitVec 11)) : StrChannel :=
  let p := c.peak ch now
  let peak := reaches p.1 p.2
  let limit := c.mode == 1 && p.1 == c.irefNow.toNat && (firstSample shunt peak).isSome
  let oc := (firstSample shunt overCurrent).isSome
  { c with cycleOn := if c.ovHold then 0 else BitVec.ofNat 11 (gateCycles c.fswN.toNat w shunt peak),
           loopDraws := c.loopDraws + 1, gate := !c.ovHold,
           ocRun := if oc then (if c.ocRun = 15 then 15 else c.ocRun + 1) else 0,
           lowSince := if limit && c.armed && c.uv != 0 && decide (c.vsn.toNat < c.uv.toNat) then some (c.lowSince.getD now)
             else none }

/-- One switching cycle (R291, R292, R294, R299): what the shunt and the VSN ball showed. In STRING mode there is none outside
an on-interval (R293). (DEDUCED, log 72) -/
def Dev.switchingCycle (d : Dev) (ch : Fin 8) (shunt : List (BitVec 11)) (vsn : BitVec 11) : Dev :=
  let told := d.onStr ch fun c =>
    { c with vsn := vsn, sensed := (d.now, (shunt.map fun (x : BitVec 11) => x.toNat).sum, shunt.length) ::
               c.sensed.filter fun x => decide (d.now < x.1 + 1000) }
  if d.mayRun ch && d.str[ch.val].state != 0 then
    let w := d.gateWindow ch.val
    let d := told.onStr ch fun c =>
      let c := StrChannel.overVoltage { c with irefNow := if c.mode = 1 then c.iref else c.irefNow } d.now vsn
      if w = 0 then { c with gate := false, cycleOn := 0 } else c.switch ch.val d.now w shunt
    let c := d.str[ch.val]
    if d.strQualifies ch .oc then d.strFault ch .oc
    else if c.mode = 2 && decide (0 < w) && c.armed && decide (c.ov.toNat < vsn.toNat) && !((shunt.drop 24).any c.seen) then
      d.strFault ch .opened
    else (d.strProtect ch .ov).strProtect ch .short
  else told

/-- The ramp of R292 ends, and 1 ms later the short and open tests are armed (R299). -/
def Dev.rampDone (d : Dev) (ch : Fin 8) : Dev :=
  if d.mayRun ch then
    d.onStr ch fun c =>
      if c.mode = 1 ∧ c.state = 1 ∧ c.rampFrom + 1000 ≤ d.now then { c with state := 2 }
      else if c.mode = 1 ∧ c.state = 2 ∧ c.rampFrom + 2000 ≤ d.now then { c with armed := true }
      else c
  else d

/-- A PWM period starts (R293, R294, R296): pending duty, reference and factor apply; a calibration gap due is inserted. A
LAT-locked channel starts no more than K in a light period. -/
def Dev.pwmStart (d : Dev) (ch : Fin 8) : Dev :=
  let c := d.str[ch.val]
  if d.mayRun ch && c.mode == 2 && (!c.pwmsync || c.periodsLeft != 0) then
    let w := d.dutyOf ch
    let one := d.owned ch.val
    let d := d.onStr ch fun c =>
      { c with periodStart := d.now, dutyNow := BitVec.ofNat 16 w, irefNow := c.iref,
               derateNow := if one then 0x10000 else c.derate, state := 2, armed := true,
               periodsLeft := c.periodsLeft - 1, gapNow := c.gap, gap := false }
    let on := d.gateRuns ch.val
    d.onStr ch fun c => { c with gate := on }
  else d

/-- PRV_STR_c changed by `f`. -/
def Dev.onPrvStr (d : Dev) (ch : Fin 8) (f : PrvString → PrvString) : Dev :=
  { d with prv := { d.prv with strings := upd d.prv.strings ch f } }

/-- The SF3 marker channel of the configuration (11 R340). -/
def Dev.isMarker (d : Dev) (ch : Nat) : Bool :=
  match d.gbl.cfg with | none => false | some c => decide (c.sf3act = 1 ∧ c.sf3ch = ch)

/-- A string verdict (09 R282): its event; of a marker string it goes to the Gable, which reports the fallback failed and runs
its task 4 (11 R334, R340). (DEDUCED, log 64) -/
def Dev.stringVerdict (d : Dev) (ch : Fin 8) (code : BitVec 16) : Dev :=
  let d := d.eventLimited code ch.val 1000000 (payN 0 ch.val ||| payN 32 (d.str[ch.val].periodStart % 2 ^ 32))
  if d.isMarker ch.val && d.gbl.lost == 0 then (d.sf3Event 0 true).triggerG 4 else d

/-- A PWM period ends (09 R281, R286, 10 R299): `shunt` and `vsn` what the sense inputs showed at each LCLK cycle of it, in
0.1 mV and in mV. (DEDUCED, log 72) -/
def Dev.pwmEnd (d : Dev) (ch : Fin 8) (shunt vsn : List (BitVec 11)) : Dev :=
  let c := d.str[ch.val]
  if d.mayRun ch && c.mode == 2 && c.state == 2 then
    let i := d.onInterval ch.val
    let t := d.pwmTests ch.val
    let on := (samples shunt (i.1 + 800) i.2).any c.seen
    let off := runOf 400 c.seen (samples shunt (i.2 + 800) (d.pwmLength ch.val))
    let low := (samples vsn i.1 i.2).all fun x => decide (x.toNat < c.uv.toNat)
    let isOpen := t.1 && !on
    let stuck := t.2 && off
    let fails := (if isOpen then 1 else 0) + (if stuck then 1 else 0)
    let d := d.onPrvStr ch fun p =>
      { p with isOpen := p.isOpen || isOpen, stuckOn := p.stuckOn || stuck, onTested := t.1, offTested := t.2,
               provenOn := if t.1 then on else p.provenOn, provenOff := if t.2 then !off else p.provenOff,
               fails := satAdd p.fails fails }
    let d := if isOpen then d.stringVerdict ch 0x0609 else d
    let d := if stuck then d.stringVerdict ch 0x060A else d
    if d.shortTest ch.val && low then d.strFault ch .short
    else
      let run := d.gateRuns ch.val
      d.onStr ch fun c => { c with gate := run }
  else d

/-- A write of 1 to STR_c_CTRL.RESTART (R300, R297, R312): it restarts a latched channel; of an owned one only the Gable's
does. (DEDUCED, log 72) -/
def Dev.strRestart (d : Dev) (ch : Fin 8) (byGable : Bool) : Dev :=
  if d.owned ch.val != byGable then (if byGable then d else d.onStr ch fun c => { c with cfgErr := true })
  else if d.str[ch.val].latched then
    let d := d.onStr ch fun c =>
      { c with state := 0, latched := false, retries := 0, failed := 0, oc := false, short := false, ovFault := false,
               openFault := false, lastRetry := none, retryDue := none }
    (d.refreshChannel ch).event 0x0702 (payN 0 ch.val ||| payN 4 2)
  else d

/-- The Gable restarts a latched channel of its own (R297, R312); a lost Gable does not. -/
def Dev.gableRestarts (d : Dev) (ch : Fin 8) : Dev := if d.gbl.lost = 0 then d.strRestart ch true else d

/-- A channel as its inhibits leave it (R296), with a restart that waited for their release (R312). (DEDUCED, log 72) -/
def Dev.strInhibit (d : Dev) (ch : Fin 8) : Dev := ((d.refreshChannel ch).strRetry ch).noteLive

/-- GATE of the STRING channels as time leaves it: low once the on-interval is over (R293); and how long GATE has been low. -/
def Dev.gateTick (d : Dev) : Dev :=
  let runs : Vector Bool 8 := Vector.ofFn fun ch => d.mayRun ch && d.gateRuns ch.val
  { d with str := d.str.mapFinIdx fun ch c h =>
      let on := c.gate && (c.mode != 2 || runs[ch])
      { c with gate := on, lowFor := if on then 0 else min 20 (c.lowFor + 1) } }

/-- A LAT on the channels (R293, R294, 09 R279): DUTY of LAT-locked ones is due, their K periods begin, and a light period
closes. -/
def StrChannel.atLat (c : StrChannel) : StrChannel :=
  { c with dutyDue := c.duty, periodsLeft := c.pwmK, regJudged := c.regThrough, regThrough := c.state == 2 }

end Sys2Proof.Machine
end

