-- ==== Sys2Proof/Machine/SafetyLoad.lean ====
section
/-! DEFINITION. The configuration blob and every refusal of test 1 (11 R351, R352, R329, R330, 12 R374, R375, 13 R399,
R400), the change log (R353), SAFETY_LOAD (R354, R355) and SAFETY_CHANGE (R357). -/

namespace Sys2Proof.Machine

open Sys2Proof

/-! ### The blob (R351) -/

/-- Offset and length of the section of a type; none unless exactly one entry has it. -/
def blobSection (f : List Byte) (t : Nat) : Option (Nat × Nat) :=
  match (upTo (byteOf f 5)).filter fun k => byteOf f (64 + 12 * k) == t with
  | [k] => some (leField f (64 + 12 * k + 4) 4, leField f (64 + 12 * k + 8) 4)
  | _ => none

/-- The bytes of a section, empty where the blob has none. -/
def sectionBytes (f : List Byte) (t : Nat) : List Byte :=
  match blobSection f t with
  | none => []
  | some (o, n) => (f.drop o).take n

/-- The length that R351 gives a section. -/
def sectionLength (t : Nat) : Nat :=
  if t = 1 then 256 else if t = 2 then 64 else if t = 3 then 1152 else if t = 4 then 16 else if t = 6 then 4096
  else if t = 7 then 1536 else if t = 8 then 40 else if t = 9 then 160 else 136

/-- The header, and each of types 1 to 10 exactly once with its length, within the blob and behind the table (R351).
(DEDUCED, log 98) -/
def blobFormat (f : List Byte) : Bool :=
  let top := 64 + 12 * byteOf f 5
  f.take 4 == [0x53, 0x46, 0x43, 0x46] && byteOf f 4 == 1 && byteOf f 5 == 10 && leField f 8 4 == f.length &&
    (upTo 10).all fun i => match blobSection f (i + 1) with
      | none => false
      | some (o, n) =>
        decide (top ≤ o) && decide (o + n ≤ f.length) &&
          (if i + 1 = 5 then decide (n ≤ 262144) && n % 4 == 0 else n == sectionLength (i + 1))

/-- A blob's sections as the device holds them once it is in force; the three hashes are set where it is applied. -/
def blobConfig (f : List Byte) : SafetyConfig :=
  let s (t : Nat) := sectionBytes f t
  { params := packBytes 2048 (s 1), encoder := packBytes 512 (s 2), zones := packBytes 9216 (s 3),
    zoneSets := packBytes 128 (s 4), superCells := packBytes 32768 (s 6), geometry := packBytes 12288 (s 7),
    feed := packBytes 320 (s 8), field := packBytes 1280 (s 9), flashing := packBytes 1088 (s 10),
    hash := sha256Bits f, headHash := 0, gableHash := 0 }

/-! ### Values (R352, R329, R330) -/

/-- PARAMS in range (R352). -/
def SafetyConfig.paramsOk (c : SafetyConfig) : Bool :=
  let b (k : Nat) : Nat := (byteAt c.params k).toNat
  decide (10 ≤ c.tdeg) && decide (c.tdeg ≤ 3600) && decide (b 6 ≤ 1) && decide (b 7 ≤ 1) && decide (0 < c.vmax 0) &&
    decide (0 < c.vmax 1) && decide (0 < c.amax 0) && decide (0 < c.amax 1) && decide (0 ≤ c.m0) &&
    decide (6554 ≤ c.encTol) && decide (c.encTol ≤ 655360) && decide (b 32 ≤ 1) && decide (b 33 ≤ 7) &&
    (decide (b 34 ≤ 7) || b 34 == 0xFF) && decide (b 35 ≤ 7) && decide (b 36 ≤ 1) && decide (b 37 ≤ 2) &&
    decide (b 38 ≤ 7) && decide (b 39 ≤ 1) && slice c.params (8 * 120) 1088 == 0 &&
    (if c.sf3act = 1 then
       c.owns c.sf3ch && c.sf3iref != 0 && decide (c.sf3iref.toNat ≤ 1023) && c.sf3duty != 0 &&
         decide (16000 ≤ c.sf3period.toNat) && decide (c.sf3period.toNat ≤ 4000000)
     else c.sf3iref == 0 && c.sf3duty == 0 && c.sf3period == 0 && (c.sf3act != 0 || c.sf3ch == 0))

/-- ENCODER in range, checked only with AXES 1 (R330, R351). -/
def SafetyConfig.encoderOk (c : SafetyConfig) : Bool :=
  !c.axes || (upTo 4).all fun i =>
    let clk := (half16 c.encoder (16 * i + 4)).toNat
    decide (10 ≤ c.encBits i) && decide (c.encBits i ≤ 32) && decide ((byteAt c.encoder (16 * i + 1)).toNat ≤ 1) &&
      decide ((byteAt c.encoder (16 * i + 2)).toNat ≤ 1) && decide (125 ≤ clk) && decide (clk ≤ 2000) &&
      decide (100 ≤ c.encPeriod i) && decide (c.encPeriod i ≤ 2000)

/-- A convex polygon of 3 to 8 vertices listed counterclockwise (R329): distinct vertices, none to the right of an edge,
not all on one line. (DEDUCED, log 74) -/
def convexCcw (vs : List (Int × Int)) : Bool :=
  decide (3 ≤ vs.length) && decide (vs.length ≤ 8) && decide vs.Nodup &&
    (polygonEdges vs).all (fun e => vs.all fun v => decide (0 ≤ edgeCross e v)) &&
    (polygonEdges vs).any fun e => vs.any fun v => decide (0 < edgeCross e v)

/-- ZONES and ZONESETS (R329, R351). -/
def SafetyConfig.zonesOk (c : SafetyConfig) : Bool :=
  (upTo 16).all (fun z => c.zoneKind z == 0 || ((c.zoneKind z == 1 || c.zoneKind z == 2) && convexCcw (c.zoneVertices z))) &&
    (upTo 8).all fun k => (c.zonesOf (BitVec.ofNat 3 k)).all fun z => c.zoneKind z != 0

/-! ### FLASHING (12 R374, R375) -/

/-- An identifier that a used entry may hold. -/
def idOk (x : Word) : Bool := x != 0 && x != 0xFFFFFFFF

/-- One connection entry. -/
def SafetyConfig.connOk (c : SafetyConfig) (i : Nat) : Bool :=
  let k := c.fcKind i
  let flags := byteAt c.flashing (9 + 16 * i)
  k == 0 || (decide (k ≤ 4) && (if k = 1 then decide (flags.toNat ≤ 7) else flags == 0) && decide (2 ≤ c.fcTexp i) &&
    decide (c.fcTexp i ≤ 1000) && idOk (c.fcPeer i) && c.fcKey i != 0 &&
    (if k = 3 ∨ k = 4 then idOk (c.fcGroup i) && c.fcGroup i != c.deviceId else c.fcGroup i == 0))

/-- Whether two of the entries `i < j` stand in the way of each other: one peer twice in kind 1 or 2, or kind 3 or 4
twice. -/
def SafetyConfig.connClash (c : SafetyConfig) (i j : Nat) : Bool :=
  let k := c.fcKind i
  decide (i < j) && k == c.fcKind j &&
    (((k == 1 || k == 2) && c.fcPeer i == c.fcPeer j) || k == 3 || k == 4)

/-- FLASHING (R375); `roof` tells that the device is a manager or a worker (16 R450). -/
def SafetyConfig.flashingOk (c : SafetyConfig) (roof : Bool) : Bool :=
  idOk c.deviceId && (upTo 8).all c.connOk && !(upTo 8).any (fun i => (upTo 8).any fun j => c.connClash i j) &&
    (roof || (upTo 8).all fun i => decide (c.fcKind i ≤ 2))

/-! ### FIELD (13 R399, R400) -/

/-- A byte in a range. -/
def byteIn (x : Byte) (lo hi : Nat) : Bool := decide (lo ≤ x.toNat) && decide (x.toNat ≤ hi)

/-- One input entry. -/
def fieldInOk (f : BitVec 1280) (k : Nat) : Bool :=
  let b (i : Nat) : Byte := byteAt f (16 + 8 * k + i)
  byteIn (b 0) 0 2 && byteIn (b 1) 0 63 && byteIn (b 2) 1 200 && byteIn (b 3) 1 255 && (byteIn (b 4) 0 7 || b 4 == 0xFF) &&
    b 5 == 0 && b 6 == 0 && b 7 == 0 &&
    (b 4 == 0xFF || (fOutAssign f (fLead f (b 4).toNat) != 0 && half16 f (96 + 8 * fLead f (b 4).toNat + 2) != 0))

/-- Whether an input belongs to a pair. -/
def fieldPaired (f : BitVec 1280) (k : Nat) : Bool := fPairKind f (k / 2) != 0

/-- One pair entry: its inputs ASSIGN 1, DTT as its kind asks. -/
def fieldPairOk (f : BitVec 1280) (p : Nat) : Bool :=
  let disc := (half16 f (80 + 4 * p + 2)).toNat
  let kind := fPairKind f p
  let safe (k : Nat) : Bool := byteAt f (16 + 8 * k) == 1
  let dtt (k : Nat) : Bool := fInMode f k 4
  decide (kind ≤ 2) && byteIn (byteAt f (80 + 4 * p + 1)) 0 1 && decide (1 ≤ disc) && decide (disc ≤ 1000) &&
    (kind == 0 || (safe (2 * p) && safe (2 * p + 1) && dtt (2 * p) && (if kind = 1 then dtt (2 * p + 1) else !dtt (2 * p + 1))))

/-- One output entry; a member that another governs has only its ASSIGN looked at. -/
def fieldOutOk (f : BitVec 1280) (k : Nat) : Bool :=
  let b (i : Nat) : Byte := byteAt f (96 + 8 * k + i)
  let offt := (half16 f (96 + 8 * k + 2)).toNat
  b 0 == byteAt f (96 + 8 * fLead f k) &&
    (fLead f k != k || (byteIn (b 0) 0 2 && byteIn (b 1) 0 2 && (offt == 0 || (decide (200 ≤ offt) && decide (offt ≤ 1000) &&
      byteIn (b 4) 1 60)) && (b 5 == 0 || (byteIn (b 5) 10 100 && byteIn (b 6) 1 60)) && b 7 == 0))

/-- The header: times, groups that do not overlap, reserved bytes 0. -/
def fieldHeaderOk (f : BitVec 1280) : Bool :=
  let g := fGroups f
  let dms := (half16 f 2).toNat
  decide (2 ≤ fTsil f) && decide (fTsil f ≤ 200) && decide (50 ≤ dms) && decide (dms ≤ 2000) && byteIn g 0 63 &&
    slice f 40 88 == 0 && !(g.getLsbD 4 && (g.getLsbD 0 || g.getLsbD 1)) && !(g.getLsbD 5 && (g.getLsbD 2 || g.getLsbD 3))

/-- FIELD with what PARAMS asks of it (R400). -/
def SafetyConfig.fieldOk (c : SafetyConfig) : Bool :=
  let f := c.field
  let doors := ((upTo 8).filter fun k => fInMode f k 5).length
  fieldHeaderOk f && (upTo 8).all (fieldInOk f) && (upTo 4).all (fieldPairOk f) && (upTo 8).all (fieldOutOk f) &&
    byteAt f (16 + 8 * c.resetIn) == 1 && !fieldPaired f c.resetIn &&
    (if c.douser = 0xFF then doors == 0 else fOutAssign f c.douser == 1 && doors == 1) &&
    (c.sf3act != 2 || fOutAssign f c.sf3ch == 1)

/-- Test 1 of R354. -/
def blobOk (f : List Byte) (roof : Bool) : Bool :=
  let c := blobConfig f
  blobFormat f && c.paramsOk && c.encoderOk && c.zonesOk && c.flashingOk roof && c.fieldOk

/-! ### The change log (R353) -/

/-- The bytes of the device-unique key. -/
def keyBytes (k : BitVec 256) : List Byte := (upTo 32).map (byteAt k)

/-- The MAC of an entry's first 96 bytes. -/
def entryMac (e : List Byte) : List Byte := hmac (keyBytes Config.deviceKey) (0x4C :: e.take 96)

/-- Whether the MAC of a 128-byte entry verifies. -/
def entryMacOk (e : List Byte) : Bool := entryMac e == (e.drop 96).take 32

/-- COUNTER of an entry. Its bits [31:14], which R353 gives as 0 and no test of R354 names, are not looked at.
(DESIGN CHOICE, log 117) -/
def entryCounter (e : List Byte) : Nat := leField e 0 2 % 4096

/-- A new entry (R353). -/
def Dev.logEntry (d : Dev) (counter : Nat) (genesis gap : Bool) (operator : Word) (prev : List Byte) (hash : BitVec 256) :
    List Byte :=
  let e := leBytes (counter + (if genesis then 4096 else 0) + (if gap then 8192 else 0)) 4 ++ leBytes operator.toNat 4 ++
    leBytes d.now 8 ++ leBytes d.gbl.epoch.toNat 8 ++ leBytes d.gbl.epochTime.toNat 8 ++ prev ++ keyBytes hash
  e ++ entryMac e

/-! ### Tests (R354, R357) -/

/-- How the Gable answers: passed, or a status of R77 with RESULT0 and the cause of event 0x0814. -/
inductive SafetyVerdict where
  | pass
  | badArg
  | auth (cause : Nat)
  | crc
  deriving DecidableEq, Repr

/-- The device is a manager or a worker (16 R450, R472): with ROLE 00 it is a manager once its ring has formed. -/
def Dev.roofRole (d : Dev) : Bool := d.sys.role == 1 || d.sys.role == 2 || (d.sys.role == 0 && d.roof.formed)

/-- Loaded G and F images whose hashes equal GHASH and FHASH (R354). -/
def Dev.imagesMatch (d : Dev) (c : SafetyConfig) : Bool :=
  let has (i : Option Image) (h : BitVec 256) : Bool := match i with
    | none => false
    | some i => i.hash == h
  has d.thatch.gableImage c.ghash && has d.thatch.soffitImage c.fhash

/-- The Ridge's own CRC over sections 3 to 6 against RCRC (R352, R354). -/
def ridgeCrcOk (f : List Byte) : Bool :=
  crc32 (sectionBytes f 3 ++ sectionBytes f 4 ++ sectionBytes f 5 ++ sectionBytes f 6) == (blobConfig f).rcrc

/-- The tests of SAFETY_LOAD in their order (R354). -/
def Dev.safetyTests (d : Dev) (f head : List Byte) (counter : Nat) : SafetyVerdict :=
  let c := blobConfig f
  if !blobOk f d.roofRole then .badArg
  else if keyBytes c.hash != (head.drop 64).take 32 || !d.imagesMatch c then .auth 3
  else if entryCounter head != counter then .auth 4
  else if !entryMacOk head then .auth 5
  else if !ridgeCrcOk f then .crc
  else .pass

/-- The head that a change chains to (R357): its PREV_HASH, and whether the entry is GENESIS and GAP; a cause of
AUTH_FAIL where the entry at ARG3 does not serve. -/
def Dev.changeHead (d : Dev) (old : List Byte) (counter : Nat) : Except Nat (List Byte × Bool × Bool) :=
  match d.gbl.cfg with
  | some c => .ok (keyBytes c.headHash, false, false)
  | none =>
    if counter = 0 then .ok (List.replicate 32 0, true, false)
    else if entryCounter old ≠ counter ∧ entryCounter old + 1 ≠ counter then .error 4
    else if !entryMacOk old then .error 5
    else .ok (sha256 old, false, decide (entryCounter old ≠ counter))

/-- The tests of SAFETY_CHANGE (R357): the new blob's apart from the counter test, and the head's. -/
def Dev.changeTests (d : Dev) (f old : List Byte) (counter : Nat) : SafetyVerdict :=
  let c := blobConfig f
  if !blobOk f d.roofRole then .badArg
  else if !d.imagesMatch c then .auth 3
  else match d.changeHead old counter with
    | .error k => .auth k
    | .ok _ => if !ridgeCrcOk f then .crc else .pass

/-! ### A configuration applied (R354, R355) -/

/-- The configuration area of R355. -/
def configArea (f : List Byte) : List Byte :=
  let pad (n : Nat) : List Byte := List.replicate n 0
  sectionBytes f 1 ++ sectionBytes f 2 ++ sectionBytes f 3 ++ sectionBytes f 4 ++ sectionBytes f 8 ++ pad 8 ++
    sectionBytes f 9 ++ sectionBytes f 10 ++ pad 8 ++ sectionBytes f 7 ++ pad 720

/-- A verified blob with its head entry in force (R354, R355, R317): the Gable's area and hashes, the Ridge's tables, the
zone set, the FIELD section on its way to the Soffit (13 R401) and the Flashing streams started (12 R386). -/
def Dev.applyConfig (d : Dev) (f head : List Byte) : Dev :=
  let c := blobConfig f
  let cells := writeBytes d.thatch.gableMem.cells 0x1F000 (configArea f)
  let ue := d.thatch.gableMem.ue.filter fun w => decide (w < 0x1F000 / 8)
  let d : Dev := { d with thatch := { d.thatch with gableMem := { cells := cells, ue := ue } } }
  let c := { c with headHash := sha256Bits head, gableHash := d.gableHashNow }
  let d : Dev := { d with
    gbl := { d.gbl with cfg := some c, zoneSet := c.zsDefault },
    rdg := { d.rdg with staticMap := writeBytes [] 0 (sectionBytes f 5), staticLen := (sectionBytes f 5).length,
                        parityErr := [], memParity := false, enc := Vector.replicate 4 EncAxis.reset,
                        disc := false, discRun := 0, agreeRun := 0 } }
  (((d.sendField c.field).refreshCfgOk.flashStart true).refreshInhibits.sf3Hold false).refreshChannels

/-- Event 0x0814 (R370). -/
def Dev.configRefused (d : Dev) (cause : Nat) : Dev := d.event 0x0814 (payN 0 cause)

/-- Event 0x0813. -/
def Dev.configLoaded (d : Dev) (counter : Nat) : Dev :=
  match d.gbl.cfg with
  | none => d
  | some c => d.event 0x0813 (payN 0 counter ||| pay 32 (word32 c.hash 0))

end Sys2Proof.Machine
end

