-- ==== Sys2Proof/Machine/Access.lean ====
section
/-! DEFINITION. Access levels (17 R496 to R503), unlocking, OTP programming (R511, R512), the TAP (R509, R510) and debug
attach (R505, R507). -/

namespace Sys2Proof.Machine

open Sys2Proof

/-- The bytes of a 128-bit register group, byte 0 first. -/
def bytes16 (x : BitVec 128) : List Byte := (upTo 16).map (byteAt x)

/-- The bytes of the die ID, least significant first (R498). -/
def dieIdBytes : List Byte := leBytes Config.dieId.toNat 8

/-- A level or cause field. -/
def Dev.onAcc (d : Dev) (f : Acc → Acc) : Dev := { d with acc := f d.acc }

/-! ### Lapse and lock (R503, R507) -/

/-- The level falls to L0 with a cause of event 0x0D03: a debugger attached at L2 or above is detached, after which
SERVICE requests ARMED (R507); a pending attach is cancelled (R513). -/
def Dev.lapse (d : Dev) (cause : BitVec 2) : Dev :=
  let before := d.acc.level
  let d := d.onAcc fun a => { a.endDrive with level := 0, lapse := none, attachPending := false }
  let d := d.event 0x0D03 (pay 0 before ||| pay 2 cause)
  if d.acc.attached then
    let d := d.detach 2
    if d.sys.mode = .service ∧ d.sys.pending = none then
      { d with sys := { d.sys with pending := some { target := .armed, hdr := none } } }
    else d
  else d

/-- A write of 1 to ACC_CTRL.LOCK (R497, R499, R503). (DEDUCED, log 75) -/
def Dev.lock (d : Dev) : Dev := (d.onAcc fun a => { a with nonceAt := none }).lapse 1

/-- The unlock timer expires (R503); in RETENTION the wake deals with it. -/
def Dev.unlockTimeout (d : Dev) : Dev :=
  match d.acc.lapse with
  | none => d
  | some t => if d.coreUp = true ∧ t ≤ d.alwaysOn then d.lapse 2 else d

/-! ### Nonce (R498, R499) -/

/-- A nonce drawn. -/
def Dev.drawNonce (d : Dev) : Dev :=
  d.onAcc fun a => { a with nonce := Config.random a.draws, draws := a.draws + 1, nonceAt := some d.now }

/-- The nonce is valid: drawn within the last 60 s and not used. -/
def Dev.nonceValid (d : Dev) : Bool :=
  match d.acc.nonceAt with
  | none => false
  | some t => decide (d.now < t + 60000000)

/-- 60 s after its draw a nonce is void. -/
def Dev.nonceExpire (d : Dev) : Dev :=
  if d.nonceValid then d else d.onAcc fun a => { a with nonceAt := none }

/-! ### Attempts (R500 to R502) -/

/-- The delay in seconds after the `k`-th consecutive failure (R502). -/
def failDelay (k : Nat) : Nat := if k < 3 then 0 else 2 ^ min (k - 3) 10

/-- A grant of a level (R497, R501, R503): event 0x0D01 and the unlock timer. -/
def Dev.grant (d : Dev) (level : BitVec 2) (challenge jtag : Bool) : Dev :=
  let d := d.onAcc fun a => { a with
    level := if a.level < level then level else a.level, method := challenge, result := 1,
    lapse := some (d.alwaysOn + a.timeout.toNat * 60000000) }
  d.event 0x0D01 (pay 0 level ||| payN 2 challenge.toNat ||| payN 3 jtag.toNat ||| pay 4 d.acc.timeout)

/-- Event 0x0D02. -/
def Dev.unlockFail (d : Dev) (challenge jtag : Bool) (k : Nat) (fuses : BitVec 7) : Dev :=
  (d.onAcc fun a => { a with result := 2 }).event 0x0D02
    (payN 2 challenge.toNat ||| payN 3 jtag.toNat ||| payN 4 k ||| payN 16 (failDelay k) ||| pay 32 fuses)

/-- The password in ACC_PW: the bytes before the first 0 (R500). -/
def Acc.password (a : Acc) : List Byte := (bytes16 a.pw).takeWhile (· != 0)

/-- The tag of a password under a salt (R500). -/
def passwordTag (salt : BitVec 128) (pw : List Byte) : BitVec 128 :=
  packBytes 128 ((hmac (keyBytes Config.deviceKey) (0x50 :: (bytes16 salt ++ pw))).take 16)

/-- The level of the highest slot that a password matches, 0 for none (R500). -/
def Otp.passwordLevel (o : Otp) (pw : List Byte) : BitVec 2 :=
  if pw.isEmpty then 0
  else o.pws.toList.foldl (fun (l : BitVec 2) (s : PwSlot) =>
    if s.programmed && !s.revoked && s.tag == passwordTag s.salt pw && decide (l < s.level) then s.level else l) 0

/-- A password attempt that failed (R502): the count, the delay, a fuse at every eighth failure before the result. -/
def Dev.passwordWrong (d : Dev) (o : Otp) : Dev × Otp :=
  let n := satInc d.acc.pwFail
  let k := n.toNat
  let burn := k % 8 = 0 ∧ o.fuses < 64
  let o : Otp := if burn then { o with fuses := o.fuses + 1 } else o
  let d := d.onAcc fun a => { a with pwFail := n, pwUntil := d.alwaysOn + failDelay k * 1000000 }
  let d := d.unlockFail false false k o.fuses
  (if burn ∧ o.fuses = 64 then d.event 0x0D06 (pay 0 o.fuses) else d, o)

/-- A write of ACC_UNLOCK with METHOD 0 (R500 to R502): DISABLED before DELAYED, and ACC_PW cleared at its end.
(DEDUCED, log 75) -/
def Dev.unlockPassword (d : Dev) (o : Otp) : Dev × Otp :=
  let pw := d.acc.password
  let d := d.onAcc fun a => { a with pw := 0, lastPath := false }
  if 64 ≤ o.fuses then (d.onAcc fun a => { a with result := 4 }, o)
  else if d.alwaysOn < d.acc.pwUntil then (d.onAcc fun a => { a with result := 3 }, o)
  else
    let l := o.passwordLevel pw
    if l = 0 then d.passwordWrong o
    else ((d.onAcc fun a => { a with pwFail := 0, pwUntil := 0 }).grant l false false, o)

/-- The service key K2 (R498). -/
def serviceKey : List Byte := hmac (keyBytes Config.deviceKey) ([0x53, 0x56, 0x43] ++ dieIdBytes)

/-- The response that a nonce and a level call for (R498). -/
def challengeResponse (nonce : BitVec 128) (level : BitVec 2) : BitVec 128 :=
  let key := if level = 3 then keyBytes Config.deviceKey else serviceKey
  packBytes 128 ((hmac key (bytes16 nonce ++ [level.setWidth 8] ++ dieIdBytes)).take 16)

/-- A challenge attempt with a response and the level it names (R498, R499, R502, R514). (DEDUCED, log 75) -/
def Dev.unlockChallenge (d : Dev) (fuses : BitVec 7) (resp : BitVec 128) (level : Byte) (jtag : Bool) : Dev :=
  let valid := d.nonceValid
  let d := d.onAcc fun a => { a with lastPath := true, nonceAt := none, pw := 0 }
  if level ≠ 2 ∧ level ≠ 3 then d.onAcc fun a => { a with result := 6 }
  else if d.alwaysOn < d.acc.crUntil then d.onAcc fun a => { a with result := 3 }
  else if !valid then d.onAcc fun a => { a with result := 5 }
  else
    let l : BitVec 2 := level.setWidth 2
    if resp = challengeResponse d.acc.nonce l then
      (d.onAcc fun a => { a with crFail := 0, crUntil := 0 }).grant l true jtag
    else
      let n := satInc d.acc.crFail
      let d := d.onAcc fun a => { a with crFail := n, crUntil := d.alwaysOn + failDelay n.toNat * 1000000 }
      d.unlockFail true jtag n.toNat fuses

/-! ### OTP slots (R511, R512) -/

/-- The result of an operation refused, and of one done with its event 0x0D07. (DEDUCED, log 76) -/
def Dev.otpRefused (d : Dev) : Dev := d.onAcc fun a => { a with result := 9 }
/-- The result of an operation that is done, and event 0x0D07. (DEDUCED, log 76) -/
def Dev.otpDone (d : Dev) (target : BitVec 3) (revoke : Bool) (mask : BitVec 4) : Dev :=
  (d.onAcc fun a => { a with result := 8 }).event 0x0D07 (pay 0 target ||| payN 3 revoke.toNat ||| pay 8 mask)

/-- Whether a Loft range satisfies 02 R50. (DEDUCED, log 76) -/
def loftFree (a n : Nat) : Bool := decide (0x40000 ≤ a) && decide (a + n ≤ 0x1800000)

/-- The key-slot number of a TARGET. -/
def targetSlot (target : BitVec 3) : Fin 4 := ⟨target.toNat % 4, Nat.mod_lt _ (by decide)⟩

/-- An unrevoked key slot whose mask includes T. -/
def KeySlot.servesT (k : KeySlot) : Bool := k.programmed && !k.revoked && k.mask.getLsbD 0

/-- A slot programmed (R500, R512): a password slot takes ACC_PW, a key slot its hash from the Loft. (DEDUCED, log 76) -/
def Dev.otpProgram (d : Dev) (o : Otp) (target : BitVec 3) (level : BitVec 2) (mask : BitVec 4) : Dev × Otp :=
  let k := targetSlot target
  if d.sys.mode ≠ .load ∨ d.acc.level < 2 then (d.otpRefused, o)
  else if target < 4 then
    if o.pws[k].programmed ∨ level = 0 ∨ level = 3 then (d.otpRefused, o)
    else
      let salt := Config.random d.acc.draws
      let d := d.onAcc fun a => { a with draws := a.draws + 1 }
      let s : PwSlot := { programmed := true, revoked := o.pws[k].revoked, level := level, salt := salt,
                          tag := passwordTag salt d.acc.password }
      (d.otpDone target false mask, { o with pws := o.pws.set k s })
  else
    let a := d.acc.progAddr.toNat
    if o.keys[k].programmed ∨ (k = 0 ∧ d.acc.level < 3) ∨ loftFree a 32 = false then (d.otpRefused, o)
    else
      let d := d.loftTouch a 32
      let s : KeySlot := { programmed := true, revoked := o.keys[k].revoked, mask := mask,
                           hash := packBytes 256 (d.loftBytes a 32) }
      (d.otpDone target false mask, { o with keys := o.keys.set k s })

/-- A slot revoked (R512). (DEDUCED, log 76) -/
def Dev.otpRevoke (d : Dev) (o : Otp) (target : BitVec 3) (mask : BitVec 4) : Dev × Otp :=
  let k := targetSlot target
  if d.sys.mode ≠ .load ∨ d.acc.level < 2 then (d.otpRefused, o)
  else if target < 4 then
    if o.pws[k].revoked then (d.otpRefused, o)
    else (d.otpDone target true mask, { o with pws := o.pws.set k { o.pws[k] with revoked := true } })
  else
    let after := o.keys.set k { o.keys[k] with revoked := true }
    if o.keys[k].revoked ∨ (after.toList.any KeySlot.servesT) = false then (d.otpRefused, o)
    else (d.otpDone target true mask, { o with keys := after })

/-- A write of ACC_PROG (R512, R514). -/
def Dev.accProg (d : Dev) (o : Otp) (x : Word) : Dev × Otp :=
  let target : BitVec 3 := x.extractLsb' 0 3
  let mask : BitVec 4 := x.extractLsb' 8 4
  if x.getLsbD 3 then d.otpRevoke o target mask else d.otpProgram o target (x.extractLsb' 4 2) mask

/-! ### The TAP (R509, R510) -/

/-- The opcode of an instruction (R509). -/
def Jtag.opcode : Jtag → Byte
  | .extest => 0x00 | .idcode => 0x01 | .sample => 0x02 | .highz => 0x04 | .clamp => 0x05 | .accChal => 0x10 | .dbg => 0x11
  | .bypass => 0xFF

/-- The instruction that an opcode selects (R509): one that is not listed selects BYPASS. -/
def jtagOf (x : Byte) : Jtag :=
  (([.extest, .idcode, .sample, .highz, .clamp, .accChal, .dbg] : List Jtag).find? fun j => j.opcode == x).getD .bypass

/-- The TAP runs while the core rails are in range and STANDBY is not in force (R509). -/
def Dev.tapRuns (d : Dev) : Bool := d.sys.rails && d.sys.vstby && d.sys.mode != .off && d.sys.mode != .standby

/-- Whether an instruction is permitted (R504, R509, R510): RETENTION leaves IDCODE and BYPASS only; EXTEST, HIGHZ and
CLAMP need L3 in LOAD or SAFE HOLD. (DEDUCED, log 78) -/
def Dev.jtagOk (d : Dev) (j : Jtag) : Bool :=
  match j with
  | .idcode | .bypass => true
  | .extest | .highz | .clamp =>
    d.coreUp && d.acc.level == 3 && (d.sys.mode == .load || d.sys.mode == .safeHold)
  | .sample | .accChal | .dbg => d.sys.mode != .retention

/-- An instruction scan (R509): the capture, and the instruction or BYPASS in its place. (DEDUCED, log 78) -/
def Dev.jtagSelect (d : Dev) (j : Jtag) : Dev :=
  d.onAcc fun a => { a with tir := 1, jtag := if d.jtagOk j then j else .bypass }

/-- A scan of an instruction with what it captures; BYPASS captures nothing. -/
def Dev.jtagScan (d : Dev) (j : Jtag) (f : Acc → Acc) : Dev :=
  if d.tapRuns then
    let d := d.jtagSelect j
    if d.acc.jtag = j then d.onAcc f else d.onAcc fun a => { a with tdr := 0 }
  else d

/-- EXTEST and SAMPLE/PRELOAD: the balls captured, the boundary register updated. -/
def Dev.boundaryScan (d : Dev) (j : Jtag) (pins cells : List Bool) : Dev :=
  d.jtagScan j fun a => { a with captured := pins, boundary := cells }

/-- IDCODE. -/
def Dev.idcode (d : Dev) : Dev := d.jtagScan .idcode fun a => { a with tdr := 0x1A160001 }

/-- HIGHZ, CLAMP and BYPASS: the one-bit bypass register, which captures 0. (PRESUMED, log 79) -/
def Dev.bypassScan (d : Dev) (j : Jtag) : Dev := d.jtagScan j fun a => { a with tdr := 0 }

/-- BYPASS, by its opcode or by one that is not listed; an opcode of another instruction is that instruction's row. -/
def Dev.bypassOf (d : Dev) (x : Byte) : Dev := if jtagOf x = .bypass then d.bypassScan .bypass else d

/-- ACC_CHAL (R498, R509): Capture-DR draws a nonce; Update-DR submits a response and a level. -/
def Dev.accChal (d : Dev) (fuses : BitVec 7) (update : Bool) (x : BitVec 136) : Dev :=
  let on := d.tapRuns && d.jtagOk .accChal
  let d := d.jtagScan .accChal id
  if on && d.coreUp then
    if update then
      let d := d.onAcc fun a => { a with resp := x.setWidth 128 }
      d.unlockChallenge fuses (x.setWidth 128) (x.extractLsb' 128 8) true
    else
      let d := d.drawNonce
      d.onAcc fun a => { a with tdr := a.nonce.setWidth 136 }
  else d

/-! ### Attach and detach (R504, R505, R507) -/

/-- A debug request refused (R505, R506): ACC_DBG.REFUSED, counted, event 0x0D08. -/
def Dev.debugRefuse (d : Dev) (code : BitVec 4) : Dev :=
  (d.onAcc fun a => { a with refused := code, refusals := a.refusals + 1 }).event 0x0D08
    (pay 0 code ||| pay 4 d.sys.mode.code ||| pay 8 d.acc.level)

/-- The least level at which R504 marks a mode for attach; 4 where none does. (DEDUCED, log 77) -/
def attachLevel : Mode → Nat
  | .load | .armed | .run | .safeHold | .trim | .service => 2
  | .boot => 3
  | _ => 4

/-- Whether the DBG instruction reaches the access controller. (DEDUCED, log 77) -/
def Dev.dbgReaches (d : Dev) : Bool := d.tapRuns && d.coreUp

/-- The DBG instruction selected. -/
def Dev.selectDbg (d : Dev) : Dev := d.onAcc fun a => { a.endDrive with jtag := .dbg }

/-- An attach request (R505, R507): in RUN it waits for the next LAT. (DEDUCED, log 77) -/
def Dev.debugAttach (d : Dev) : Dev :=
  if !d.dbgReaches then d
  else
    let d := d.selectDbg
    let m := d.sys.mode
    if d.acc.attached then d
    else if d.acc.level < 2 then d.debugRefuse 1
    else if attachLevel m = 4 then d.debugRefuse 2
    else if d.acc.level.toNat < attachLevel m then d.debugRefuse 1
    else if m = .run then d.onAcc fun a => { a with attachPending := true }
    else (d.onAcc fun a => { a with attached := true }).event 0x0D04 (pay 0 d.acc.level ||| pay 4 m.code)

/-- A detach by the debugger (R507); a pending attach ends with it. -/
def Dev.debugDetach (d : Dev) : Dev :=
  if !d.dbgReaches then d else (d.selectDbg.onAcc fun a => { a with attachPending := false }).detach 1

end Sys2Proof.Machine
end

