-- ==== Sys2Proof/Machine/Purlin.lean ====
section
/-! DEFINITION. What crosses a Purlin hop and the SYNC link (16 R473, R474, R476, R487): the code groups of a cell and of a latch
mark on the two lanes, the levels of a sync word, and what a receiver reads from them. -/

namespace Sys2Proof.Machine

open Sys2Proof

/-! ### The two lanes (R473) -/

/-- The K-codes of Purlin (R473). -/
def purlinCodes : List KCode := [.idle, .sof, .eof, .abort, .mark]

/-- The bytes at even places, and at odd places. -/
def evens : List Byte → List Byte
  | [] => []
  | [a] => [a]
  | a :: _ :: r => a :: evens r

def odds : List Byte → List Byte
  | a :: b :: r => b :: odds r
  | _ => []

/-- Bytes of two lanes in turn. -/
def weave : List Byte → List Byte → List Byte
  | a :: x, b :: y => a :: b :: weave x y
  | _, _ => []

/-- One lane of a cell: K27.7, its bytes and K29.7 (R474). -/
def cellLane (rd : Bool) (bs : List Byte) : List (BitVec 10) :=
  let k := KCode.code rd .sof
  let gs := k :: codeBytes (groupAfter rd k) bs
  gs ++ [KCode.code (rdAfter rd gs) .eof]

/-- One lane of a latch mark: K28.1 and its bytes (R476). -/
def markLane (rd : Bool) (bs : List Byte) : List (BitVec 10) :=
  let k := KCode.code rd .mark
  k :: codeBytes (groupAfter rd k) bs

/-! ### Cells (R474) -/

/-- A payload in whole words: what a layout leaves of its last word is 0. (DESIGN CHOICE, log 15) -/
def wholeWords (bs : List Byte) : List Byte := bs ++ List.replicate ((4 - bs.length % 4) % 4) 0

/-- The header and payload of a cell. -/
def PCell.body (c : PCell) : List Byte :=
  let p := wholeWords c.payload
  [c.kind, c.dst, c.src, BitVec.ofNat 8 (p.length / 4)] ++ leBytes c.seq.toNat 2 ++ [0, 0] ++ p

/-- The bytes of a cell between its K-codes. -/
def PCell.bytes (c : PCell) : List Byte := c.body ++ leBytes (crc32 c.body).toNat 4

/-- The code groups of a cell on both lanes, at the running disparities of both. -/
def PCell.lanes (c : PCell) (rd : Bool × Bool) : Lanes :=
  (cellLane rd.1 (evens c.bytes), cellLane rd.2 (odds c.bytes))

/-- How a cell arrived (R474). -/
inductive CellRx where
  | codeError
  | crcError
  | cell (c : PCell)
  deriving DecidableEq, Repr

/-- Symbols without the latch marks among them, which preempt cells (R476). -/
def dropMarks (ks : List Sym) : List Sym :=
  (ks.foldl (fun (x : Nat × List Sym) k =>
    if k = .ctrl .mark then (6, x.2) else if x.1 = 0 then (0, k :: x.2) else (x.1 - 1, x.2)) (0, [])).2.reverse

/-- The bytes of a lane of a cell: none where a symbol is not one of a cell's. -/
def laneBytes (gs : List (BitVec 10)) : Option (List Byte) :=
  match dropMarks (symbolsOf purlinCodes gs) with
  | .ctrl .sof :: r => if r.getLast? = some (.ctrl .eof) then symBytes r.dropLast else none
  | _ => none

/-- The cell in its bytes: its CRC, and then its header (R474). -/
def cellOfBytes (bs : List Byte) : CellRx :=
  let n := bs.length - 4
  let b (k : Nat) : Byte := bs.getD k 0
  if bs.length % 4 ≠ 0 ∨ bs.length < 12 then .codeError
  else if bs.drop n ≠ leBytes (crc32 (bs.take n)).toNat 4 then .crcError
  else if n ≠ 8 + 4 * (b 3).toNat ∨ 64 < (b 3).toNat then .codeError
  else .cell { kind := b 0, dst := b 1, src := b 2, seq := b 5 ++ b 4, payload := (bs.take n).drop 8 }

/-- A cell as both lanes brought it. A length that its lanes or its LEN do not bear out counts as a code error.
(DESIGN CHOICE, log 83) -/
def cellOfLanes (x : Lanes) : CellRx :=
  match laneBytes x.1, laneBytes x.2 with
  | some a, some b => if a.length = b.length then cellOfBytes (weave a b) else .codeError
  | _, _ => .codeError

/-! ### Latch marks (R476) -/

/-- The code groups of the 12 bytes of a mark. -/
def markLanes (rd : Bool × Bool) (m : List Byte) : Lanes := (markLane rd.1 (evens m), markLane rd.2 (odds m))

/-- The bytes of a lane of a mark. -/
def markBytes (gs : List (BitVec 10)) : Option (List Byte) :=
  match symbolsOf purlinCodes gs with
  | .ctrl .mark :: r => if r.length = 6 then symBytes r else none
  | _ => none

/-- The 12 bytes of a mark as both lanes brought it; none where it has a code error. -/
def markOfLanes (x : Lanes) : Option (List Byte) :=
  match markBytes x.1, markBytes x.2 with
  | some a, some b => some (weave a b)
  | _, _ => none

/-! ### Sync words (R487) -/

/-- A sync word on the line, a level for each 50 ns: 200 ns high, 100 ns low, and 32 Manchester bits, LSB first. -/
def syncLine (w : Word) : List Bool :=
  [true, true, true, true, false, false] ++ (upTo 32).flatMap fun k => [w.getLsbD k, !w.getLsbD k]

/-- The bits of Manchester levels; none where a bit has no edge at its middle. -/
def manchester : List Bool → Option (List Bool)
  | [] => some []
  | a :: b :: r => if a == b then none else (manchester r).map (a :: ·)
  | _ => none

/-- The word that a line of levels carries; none where it is no sync word. -/
def syncOfLine (l : List Bool) : Option Word :=
  if l.take 6 ≠ [true, true, true, true, false, false] ∨ l.length ≠ 70 then none
  else (manchester (l.drop 6)).map fun bs => BitVec.ofNat 32 ((bs.zipIdx.map fun x => if x.1 then 2 ^ x.2 else 0).sum)

end Sys2Proof.Machine
end

