-- ==== Sys2Proof/Machine/Migrate.lean ====
section
/-! DEFINITION. A context's migration to another device over Purlin (06 R189 to R192): what its cells carry, and what each
device does at its LATs and when a cell arrives. -/

namespace Sys2Proof.Machine

open Sys2Proof

/-- What a MIGRATE cell carries (06 R189). (DEDUCED, log 52) -/
inductive MigratePhase where
  /-- source to target, during the render period of S - 1 -/
  | announce (ctx : Fin 64) (digest : BitVec 256) (entry : Word) (mask : BitVec 256) (rank : BitVec 6) (bindings : Word)
      (params : BitVec 2048) (ls : Bool) (frame : BitVec 16) (epoch : Byte)
  /-- target to source -/
  | answer (ctx : Fin 64) (accept : Bool)
  /-- source to target: local store, when flagged, and saved registers -/
  | transfer (ctx : Fin 64) (store : List Byte) (regs : Vector Word 32)
  /-- target to source, with the target's engine -/
  | done (ctx : Fin 64) (engine : Fin 8)
  deriving DecidableEq, Repr

/-- The content of a MIGRATE cell in the order of R189. -/
def MigratePhase.content : MigratePhase → List Byte
  | .announce c digest entry mask rank bindings params ls frame epoch =>
    [0, BitVec.ofNat 8 c.val] ++ leBytes digest.toNat 32 ++ leBytes entry.toNat 4 ++ leBytes mask.toNat 32 ++
      [rank.setWidth 8] ++ leBytes bindings.toNat 4 ++ leBytes params.toNat 256 ++ [if ls then 1 else 0] ++
      leBytes frame.toNat 2 ++ [epoch]
  | .answer c ok => [1, BitVec.ofNat 8 c.val, if ok then 1 else 0]
  | .transfer c store regs =>
    [2, BitVec.ofNat 8 c.val] ++ store ++ regs.toList.flatMap fun (r : Word) => leBytes r.toNat 4
  | .done c e => [3, BitVec.ofNat 8 c.val, BitVec.ofNat 8 e.val]

/-- A MIGRATE cell queued for a roof position (16 R474). -/
def Dev.sendMigrate (d : Dev) (peer : BitVec 3) (m : MigratePhase) : Dev :=
  d.sendCell 8 (peer.setWidth 8) (Config.cellPayload 8 m.content)

/-- Whether the device stands in a roof: a manager with its ring up, or a worker with a position (16 R472). -/
def Dev.inRoof (d : Dev) : Bool := if d.sys.role = 2 then d.roof.posValid else d.roof.ringUp

/-- The lowest handle whose image has a hash (R130, R189). -/
def Dev.handleOf (d : Dev) (digest : BitVec 256) : Option (BitVec 7) :=
  ((upTo 64).find? fun h => match getN d.thatch.handles h none with
    | none => false
    | some i => i.hash == digest).map fun h => BitVec.ofNat 7 (h + 1)

/-- The context that reserves a rank on its target device (R189, R191). (DEDUCED, log 50) -/
def Dev.rankReserved (d : Dev) (r : BitVec 6) : Option (Fin 64) :=
  ctxIds.find? fun c => match (d.ctxAt c).migration with
    | none => false
    | some m => !m.source && m.rank == r

/-- A migration of context `c` changed by `f`. -/
def Dev.onMigration (d : Dev) (c : Fin 64) (f : Migration → Migration) : Dev :=
  d.onCtx c fun x => { x with migration := x.migration.map f }

/-- The announcement of context `c` (R189). -/
def Dev.announce (d : Dev) (c : Fin 64) (m : Migration) : Dev :=
  let x := d.ctxAt c
  let digest := match d.imageOf x.handle with | none => 0 | some i => i.hash
  (d.sendMigrate m.peer (.announce c digest x.entry x.mask x.rank x.src x.params x.ls m.frame (x.epoch + 1))).onMigration c
    fun m => { m with announced := true, epoch := x.epoch + 1 }

/-- The transfer of context `c`, sent once its last invocation on this device has ended (R189). (DEDUCED, log 52) -/
def Dev.sendTransfer (d : Dev) (c : Fin 64) : Dev :=
  let x := d.ctxAt c
  match x.migration with
  | none => d
  | some m =>
    if m.source && m.decided && !m.sent && !(d.course.runs.any fun r => d.invPending c r) then
      let store := if x.ls && x.slotValid then readBytes (d.engAt x.engine).slotMem[x.slot.val] 0 4096 else []
      (d.sendMigrate m.peer (.transfer c store x.regs)).onMigration c fun m => { m with sent := true }
    else d

/-- Every transfer that may be sent now. -/
def Dev.sendTransfers (d : Dev) : Dev := ctxIds.foldl Dev.sendTransfer d

/-- The LAT that starts run `run` ends the render period of S (R190): a migration not delivered by then is over. -/
def Dev.lapseAt (d : Dev) (run : BitVec 16) : Dev :=
  ctxIds.foldl (fun d c => match (d.ctxAt c).migration with
    | none => d
    | some m => if m.decided && !precedes run (m.frame + 1) then d.abortMigration c 3 run else d) d

/-- A decide LAT at which no patch run starts: nothing is decided, and the migration is over (R189). (DEDUCED, log 52) -/
def Dev.undecided (d : Dev) (run : BitVec 16) : Dev :=
  ctxIds.foldl (fun d c => match (d.ctxAt c).migration with
    | none => d
    | some m => if !m.decided && !precedes run m.frame then d.abortMigration c 2 run else d) d

/-- The decide LAT of a migration, which starts run `run` (R189): the source, accepted, is DRAINING, and so is the target, bound
as announced; without an acceptance nothing changes. -/
def Dev.decideAt (d : Dev) (run : BitVec 16) : Dev :=
  ctxIds.foldl (fun d c => match (d.ctxAt c).migration with
    | none => d
    | some m =>
      if m.decided || precedes run m.frame then d
      else if m.source then
        if m.accepted && (d.ctxAt c).settled then
          d.onCtx c fun x => { x with state := .draining, migration := some { m with decided := true } }
        else d.abortMigration c (if m.refused then 1 else 2) run
      else if run = m.frame then
        d.onCtx c fun x =>
          { x with state := .draining, ls := m.ls, epoch := m.epoch, rank := m.rank, engine := m.engine, slot := m.slot,
                   slotValid := m.ls, switchFrame := m.frame, handle := m.handle, entry := m.entry, src := m.src,
                   mask := m.mask, params := m.params, copy := some .purlin,
                   migration := some { m with decided := true } }
      else d.abortMigration c 2 run) d

/-- The announcements of the render period that run `run` opens, as the effects due at its start leave the contexts (R189). -/
def Dev.announceAt (d : Dev) (run : BitVec 16) : Dev :=
  ctxIds.foldl (fun d c => match (d.ctxAt c).migration with
    | none => d
    | some m =>
      if m.source && !m.announced && run + 1 == m.frame && (d.ctxAt c).settled then d.announce c m else d) d

/-- Whether this device, as a target, accepts an announcement: where a context with local store is then placed (R189).
(DEDUCED, log 51) -/
def Dev.acceptsAnnounce (d : Dev) (c : Fin 64) (digest : BitVec 256) (mask : BitVec 256) (rank : BitVec 6) (ls : Bool)
    (frame : BitVec 16) : Option (BitVec 7 × Fin 8 × Fin 8) :=
  let p := d.projected .twinYield
  if c.val ≠ 0 ∧ (d.ctxAt c).state = .idle ∧ (p.ctxAt c).state = .idle ∧ (d.ctxAt c).migration.isNone ∧
      d.rankHolder rank c = none ∧ p.rankHolder rank c = none ∧ d.rankReserved rank = none ∧
      d.sys.mode.patchRuns = true ∧ d.nextRun = frame then
    match d.handleOf digest with
    | none => none
    | some h =>
      if ls then match p.placing mask c with
        | .at e => (engIds.find? fun k => (d.engAt e).slots[k.val].isNone && (p.engAt e).slots[k.val].isNone).map
            fun k => (h, e, k)
        | _ => none
      else some (h, 0, 0)
  else none

/-- Event 0x0304. -/
def Dev.migrateDone (d : Dev) (c : Fin 64) (e : Fin 8) (pos : BitVec 3) (epoch : Byte) (frame : BitVec 16) : Dev :=
  d.event 0x0304 (payN 0 c.val ||| payN 8 e.val ||| pay 12 pos ||| pay 16 epoch ||| pay 32 frame)

/-- A MIGRATE cell taken from roof position `peer` (R189). (DEDUCED, log 52) -/
def Dev.migrateCell (d : Dev) (peer : BitVec 3) (p : MigratePhase) : Dev :=
  match p with
  | .announce c digest entry mask rank bindings params ls frame epoch =>
    match d.acceptsAnnounce c digest mask rank ls frame with
    | none => d.sendMigrate peer (.answer c false)
    | some (h, e, k) =>
      let m : Migration :=
        { source := false, peer := peer, frame := frame, announced := true, accepted := true, refused := false,
          sent := false, decided := false, epoch := epoch, rank := rank, ls := ls, engine := e, slot := k, handle := h,
          entry := entry, mask := mask, src := bindings, params := params }
      let d := if ls then d.onEng e fun x => { x with slots := upd x.slots k fun _ => some c } else d
      (d.onCtx c fun x => { x with migration := some m }).sendMigrate peer (.answer c true)
  | .answer c ok =>
    d.onMigration c fun m =>
      if m.source && m.peer == peer && !m.decided then { m with accepted := ok, refused := !ok } else m
  | .transfer c store regs =>
    match (d.ctxAt c).migration with
    | none => d
    | some m =>
      if m.source || !m.decided || m.peer != peer then d
      else
        let x := d.ctxAt c
        let d := if m.ls then
            d.onEng x.engine fun g => { g with slotMem := upd g.slotMem x.slot fun _ => writeBytes [] 0 store }
          else d
        let d := d.onCtx c fun y => { y with regs := regs, copy := none, migration := none }
        let busy := d.course.active && d.invPending c d.course.run
        let d := d.onCtx c fun y => { y with state := if busy then .running else .ready }
        let d := d.advanceAll
        let d := d.sendMigrate peer (.done c x.engine)
        d.migrateDone c x.engine d.roof.position m.epoch m.frame
  | .done c e =>
    match (d.ctxAt c).migration with
    | none => d
    | some m =>
      if m.source && m.decided && m.peer == peer then
        let d := (d.releaseSlot c false).onCtx c fun _ => Context.reset
        d.migrateDone c e peer m.epoch m.frame
      else d

end Sys2Proof.Machine
end

