-- ==== Sys2Proof/Machine/Proof.lean ====
section
/-! DEFINITION. PROOF (15 R445, R446): its seven steps, their end, its failures, the set of injections (18 R525) and the age
of the last pass. -/

namespace Sys2Proof.Machine

open Sys2Proof

/-- Event 0x0104 (15 R470). -/
def Dev.proofEvent (d : Dev) (pass : Bool) : Dev :=
  d.event 0x0104 (payN 0 (if pass then 1 else 0) ||| pay 1 d.sys.proofStep ||| pay 16 d.scan.frame)

/-- A step failed, or the time ran out with STEP 8 (R445, R446). -/
def Dev.proofFails (d : Dev) (step : BitVec 4) : Dev :=
  if d.sys.mode = .proof ∧ d.sys.proofBusy = true then
    Dev.proofEvent { d with sys := { d.sys with proofBusy := false, proofFail := true, proofStep := step } } false
  else d

/-- The next step begins, its own counts from 0 (R445); step 6 begins the douser test (R408). -/
def Dev.proofStepTo (d : Dev) (step : BitVec 4) : Dev :=
  let d : Dev := { d with sys := { d.sys with proofStep := step, proofMaps := 0, proofTests := 0, proofLive := 0 } }
  if step = 6 then Dev.douserOpen { d with fld := { d.fld with douserStep := 2, douserAt := d.now } } else d

/-- The next injection of the PROOF set from bit `b` upward, or the end of step 7 (18 R525). It waits for an injection that
runs or restores (18 R524). -/
def Dev.proofInject (d : Dev) (b : Nat) : Dev :=
  if d.inj.busy then d
  else match ((upTo 55).filter fun k => decide (b ≤ k)).find? fun k => !(d.injInstances k 0xFF).isEmpty with
  | some k => d.injStart k false .proof none
  | none => { d with sys := { d.sys with proofPassed := true } }

/-- Step 6 (R408): the douser's position input, at TSTATE and then away from it; event 0x0A0B when it has passed. -/
def Dev.proofDouser (d : Dev) : Bool × Dev :=
  match d.gbl.cfg with
  | none => (false, d)
  | some c =>
    if c.douser = 0xFF then (true, d)
    else match d.douserAt with
      | none => (false, d)
      | some at_ =>
        let d : Dev := if d.fld.douserStep = 2 && at_ then
            Dev.douserClose { d with fld := { d.fld with douserStep := 3, douserAt := d.now } } else d
        if d.fld.douserStep = 3 && !at_ then
          (true, ({ d with fld := { d.fld with douserStep := 0 } } : Dev).event 0x0A0B 1)
        else (false, d)

/-- Whether the encoders hold back step 4 (11 R344). -/
def Dev.encBlocks (d : Dev) : Bool := d.rdg.gFault || d.rdg.hFault || d.rdg.disc

/-- Steps that have passed, one after another; `n` bounds the steps taken at once. -/
def Dev.proofGo (d : Dev) : Nat → Dev
  | 0 => d
  | n + 1 =>
    if d.sys.mode ≠ .proof ∨ d.sys.proofBusy = false ∨ d.sys.proofPassed = true then d
    else match d.sys.proofStep.toNat with
      | 1 =>
        if d.scan.step = .failed then d.proofFails 1
        else if d.scan.enumValid then (d.proofStepTo 2).proofGo n else d
      | 2 =>
        let x := d.enumBind
        if x.1 then (x.2.proofStepTo 3).proofGo n else x.2.proofFails 2
      | 3 => if d.fld.rxOk && d.fld.cfgOk then (d.proofStepTo 4).proofGo n else d
      | 4 =>
        if decide (8 ≤ d.sys.proofMaps.toNat) && decide (8 ≤ d.sys.proofTests.toNat) && !d.encBlocks then
          d.proofStepTo 5
        else d
      | 6 =>
        let x := d.proofDouser
        if x.1 then (x.2.proofStepTo 7).proofInject 0 else x.2
      | _ => d

/-- PROOF goes on where its conditions hold. -/
def Dev.proofAdvance (d : Dev) : Dev := d.proofGo 8

/-- Step 5 passes (R445): 1 ms of LIVE readback without a fault while both generators toggle. -/
def Dev.proofReadback (d : Dev) : Dev :=
  if d.sys.mode = .proof && d.sys.proofBusy && d.sys.proofStep == 5 && decide (1000 ≤ d.sys.proofLive) then
    (d.proofStepTo 6).proofAdvance
  else d

/-- The douser did not reach its state within DOUSER_MS (R408): its safe state, and event 0x0A0B with the failing step. -/
def Dev.douserTimeout (d : Dev) : Dev :=
  let ms := match d.gbl.cfg with | none => 0 | some c => fDouserMs c.field
  if d.sys.mode = .proof ∧ d.sys.proofBusy = true ∧ d.sys.proofStep = 6 ∧ d.fld.douserStep ≠ 0 ∧
      d.fld.douserAt + 1000 * ms < d.now then
    let d := d.douserClose.event 0x0A0B (pay 1 d.fld.douserStep)
    ({ d with fld := { d.fld with douserStep := 0 } } : Dev).proofFails 6
  else d

/-- PROOF not complete 10 s after its start (R445). -/
def Dev.proofTimeout (d : Dev) : Dev :=
  if d.sys.proofStart + 10000000 ≤ d.now then d.proofFails 8 else d

/-- What follows the end of an injection: in step 7 the set goes on, which a miss or a RESTORE_FAIL ends (18 R525), and
begins after one that was not its own; else a scheduled injection that waits starts (18 R526). (DEDUCED, log 47) -/
def Dev.injNext (d : Dev) : Dev :=
  if d.sys.mode = .proof ∧ d.sys.proofBusy = true ∧ d.sys.proofStep = 7 ∧ d.sys.proofPassed = false then
    let r := d.inj.log[d.inj.head.val].result
    if d.inj.origin ≠ .proof then d.proofInject 0
    else if r = 1 then d.proofInject (d.inj.bit.toNat + 1)
    else if r = 4 then if d.gbl.lost = 0 then d.proofInject 0 else d
    else d.proofFails 7
  else if d.inj.schedDue then Dev.injSchedule { d with inj := { d.inj with schedDue := false } }
  else d

/-- A step of an injection, and what follows when it has ended with it. (DEDUCED, log 47) -/
def Dev.injThen (d : Dev) (f : Dev → Dev) : Dev :=
  let x := f d
  if d.inj.busy && !x.inj.busy then x.injNext else x

/-- PROOF passes at the LAT at which ARMED is entered (R445, R446, 18 R527). -/
def Dev.proofComplete (d : Dev) (frame : BitVec 16) : Dev :=
  let d : Dev := { d with
    sys := { d.sys with proofDone := true, proofFail := false, proofBusy := false, proofStep := 0, proofAge := 0,
                        proofPassed := false },
    inj := { d.inj with missed := false } }
  (d.toMode .armed 2 frame).proofEvent true

/-- A minute of SYS_PROOF.AGE (R446), with event 0x0E03 at 1380 and at 1440 minutes (18 R528). -/
def Dev.proofAgeTick (d : Dev) : Dev :=
  if d.sys.proofAge = 0xFFFF then d
  else
    let a := d.sys.proofAge + 1
    let d : Dev := { d with sys := { d.sys with proofAge := a } }
    if a = 1380 ∨ a = 1440 then d.event 0x0E03 (pay 0 a) else d

end Sys2Proof.Machine
end

