-- ==== Sys2Proof/Machine/Trim.lean ====
section
/-! DEFINITION. Trim and calibration (chapter 14): runs, steps and their ends, host writes, snapshot and restore. -/

namespace Sys2Proof.Machine

open Sys2Proof

/-! ### Steps (R422, R426 to R428) -/

/-- The resource on which a step runs: channels, references, the Soffit die and links; steps of one resource run one at a
time. -/
def stepResource (k : Nat) : Nat :=
  if k < 24 then k % 8 else if k = 24 then 8 else if (25 ≤ k ∧ k ≤ 40) ∨ k = 47 then 9 else k

/-- Whether a step runs on the Soffit die. -/
def soffitStep (k : Nat) : Bool := stepResource k == 9

/-- What the circuit of step `k` must show (R422): of steps 0 to 7 a shunt voltage below 1 mV, `sense` in 0.1 mV; of steps 25
to 32 less than 0.05 mA through the open switch, `sense` in microamperes. -/
def quiet (k sense : Nat) : Bool :=
  if k < 8 then decide (sense < 10) else if 25 ≤ k ∧ k ≤ 32 then decide (sense < 50) else true

/-- A channel at 100 % duty, which has no off-gap (R427). -/
def Dev.fullDuty (d : Dev) (ch : Fin 8) : Bool :=
  let c := d.str[ch.val]
  d.mayRun ch && c.state != 0 && c.mode == 2 && c.dutyNow.toNat == maxWord c.depth.toNat

/-- Why steps `k` of channel `ch` must wait outside LOAD and TRIM (R422, R427, R438). An inserted gap is asked for as the step
starts, and takes the place of the 20 µs. (DEDUCED, log 35) -/
def Dev.channelReason (d : Dev) (k : Nat) (ch : Fin 8) (sense : Nat) (starts : Bool) : Nat :=
  let c := d.str[ch.val]
  if c.mode = 2 ∧ d.otKilled ch.val = true then 3
  else if d.fullDuty ch && !c.insertGap then 2
  else if d.mayRun ch && c.state != 0 && c.mode == 1 then 5
  else if d.fullDuty ch && (starts || c.gap) then 0
  else if (c.gapNow || decide (20 ≤ c.lowFor)) && quiet k sense then 0 else 1

/-- A test pulse of the Soffit in progress, and one that may start within 100 µs (R422). -/
def Soffit.testsSoon (s : Soffit) : Bool :=
  (List.finRange 8).any fun j => [true, false].any fun off =>
    s.mayTest j.val off && Soffit.testDue { s with us := s.us + 100 } j off

/-- Why a step of the Soffit die must wait while the link is up (R422). A test pulse that falls due in a readback step waits for
it (R436). (DEDUCED, log 35) -/
def Soffit.stepReason (s : Soffit) (k sense : Nat) (starts : Bool) : Nat :=
  let ok :=
    if k < 33 then quiet k sense && (s.input (k - 25)).count == 0 && (s.pair ((k - 25) / 2)).since.isNone
    else if k < 41 then
      decide ((s.output (k - 33)).movedAt + 10000 ≤ s.us) && s.test.isNone && !(starts && s.testsSoon)
    else true
  if ok then 0 else 1

/-- No transfer window is open, and at least 20 µs pass before the next SOF, which leaves 10 µs after its LAT (R422, 08 R233). -/
def Dev.farFromSof (d : Dev) : Bool :=
  let s := d.scan
  !s.lats || match s.xfer with
    | some x => !s.window && x.closed && decide (d.now + 10 ≤ s.periodEnd)
    | none => decide (d.now + 10 ≤ s.latFrom) || d.roof.yieldHold != 0 || d.roof.holding

/-- Why a step must wait (R422, R427, R428, R438), 0 when nothing holds it back; `sense` is what its circuit shows, and `starts`
tells a step that would start from one in progress. -/
def Dev.stepReason (d : Dev) (k sense : Nat) (starts : Bool) : Nat :=
  if k < 24 then
    if d.sys.mode = .load ∨ d.sys.mode = .trim then 0 else d.channelReason k (Fin.ofNat 8 k) sense starts
  else if soffitStep k then if d.fld.rxOk then d.soffit.stepReason k sense starts else 4
  else if k = 41 then if d.vin.en && d.vin.hs then 1 else 0
  else if k = 42 then if d.vin.en && !d.vin.stop then 1 else 0
  else if k = 43 ∨ k = 44 then if d.farFromSof then 0 else 1
  else 0

/-- A calibration step of input `k`'s threshold, or of an output's readback, is in progress (R422, 13 R419, R436). -/
def Dev.thresholdStep (d : Dev) (k : Fin 8) : Bool := d.trim.running && d.trim.active.getLsbD (25 + k.val)
def Dev.readbackStep (d : Dev) : Bool := d.trim.running && (upTo 8).any fun k => d.trim.active.getLsbD (33 + k)

/-- Whether another step holds the resource, or a lower one on it that is not deferred comes first. -/
def Trim.blocked (t : Trim) (k : Nat) : Bool :=
  (upTo 48).any fun j => j != k && stepResource j == stepResource k &&
    (t.active.getLsbD j || (decide (j < k) && t.pend.getLsbD j && !t.deferredRun.getLsbD j))

/-- A step deferred (R426): counted and reported once a run. -/
def Dev.deferStep (d : Dev) (k reason : Nat) : Dev :=
  if d.trim.deferredRun.getLsbD k then d
  else
    ({ d with trim := { d.trim with
        deferredRun := setBit d.trim.deferredRun k true, deferred := satInc d.trim.deferred } } : Dev).event 0x0B03
      (payN 0 k ||| payN 8 reason)

/-- What a step of channel `ch` does to it at its start: in LOAD and TRIM GATE is held low (R428); elsewhere at 100 % duty a gap is
asked for (R427). -/
def Dev.stepHold (d : Dev) (ch : Fin 8) : Dev :=
  if d.sys.mode = .load ∨ d.sys.mode = .trim then d.onStr ch fun c => { c with gate := false }
  else if d.fullDuty ch then d.onStr ch fun c => { c with gap := true } else d

/-! ### Runs (R424, R425, R430) -/

/-- The modes that CAL_RUN allows (03 R80). -/
def Mode.calRuns : Mode → Bool
  | .armed | .run | .degraded | .trim | .service => true
  | _ => false

/-- The queued run starts (R424, R425): a CAL_RUN of it in a mode that its row does not allow is cancelled (03 R85). -/
def Dev.calStart (d : Dev) : Dev :=
  if d.sys.mode.calibrates && !d.trim.running && d.coreUp then
    let late := d.trim.queued.filterMap fun a => if d.sys.mode.calRuns then none else a.cmd
    let asks := d.trim.queued.filter fun a => d.sys.mode.calRuns || a.cmd.isNone
    let d := late.foldl (fun d x => d.cancelled x.1 x.2) ({ d with trim := { d.trim with queued := [] } } : Dev)
    match asks with
    | [] => d
    | a :: _ =>
      let steps := asks.foldl (fun m x => m ||| x.steps) 0
      let d : Dev := { d with trim := { d.trim with
        running := true, shadow := d.trim.applied, pend := steps, steps := steps, trigger := a.trigger,
        startTime := d.now, startTemp := d.thm.dieTemp, deferredRun := 0, active := 0 } }
      d.event 0x0B06 (pay 0 a.trigger ||| payN 8 (popcount steps))
  else d

/-- A set applied (R430): every shadow code becomes the applied one. -/
def Trim.apply (t : Trim) : Trim := { t with applied := t.shadow, gen := t.gen + 1 }

/-- A run ends and applies its set (R430): what is still pending was deferred. -/
def Dev.calEnd (d : Dev) : Dev :=
  let left := d.trim.pend
  let t := d.trim.apply
  let d : Dev := { d with trim := { t with
    running := false, stale := left, pend := 0, count := t.count + 1, lastTime := BitVec.ofNat 64 t.startTime,
    lastTemp := t.startTemp, lastEnd := if left = 0 then 1 else 2 } }
  d.event 0x0B01 (pay 0 d.trim.count ||| pay 32 d.trim.gen ||| payN 56 (if left = 0 then 0 else 1) |||
    payN 57 (popcount left))

/-- TIMEOUT seconds have passed since the run's start (R430). -/
def Dev.calExpired (d : Dev) : Bool :=
  d.trim.timeout != 0 && decide (d.trim.startTime + 1000000 * d.trim.timeout.toNat ≤ d.now)

/-- Step `k` of the run at an opportunity (R426): started, or deferred with its reason. -/
def Dev.calStep (d : Dev) (k : Fin 48) (sense : Nat) : Dev :=
  if d.trim.running && d.trim.pend.getLsbD k.val && !d.trim.active.getLsbD k.val && !d.trim.blocked k.val &&
      !d.calExpired then
    let r := d.stepReason k.val sense true
    if r ≠ 0 then d.deferStep k.val r
    else
      let d := if k.val < 24 then d.stepHold (Fin.ofNat 8 k.val) else d
      { d with trim := { d.trim with active := setBit d.trim.active k.val true, began := upd d.trim.began k fun _ => d.now } }
  else d

/-- A partial end: steps in progress complete first (R430). -/
def Dev.calTimeout (d : Dev) : Dev :=
  if d.trim.running && d.calExpired && d.trim.active == 0 then d.calEnd else d

/-- A step in progress is given up for reason `r` (R426, R436): it is deferred, and repeated in full. -/
def Dev.dropStep (d : Dev) (k r : Nat) : Dev :=
  ({ d with trim := { d.trim with active := setBit d.trim.active k false } } : Dev).deferStep k r

/-- The steps in progress whose precondition no longer holds (R422, R436). (DESIGN CHOICE, log 35) -/
def Dev.calCheck (d : Dev) : Dev :=
  if d.trim.running then
    ((upTo 48).filter fun k => d.trim.active.getLsbD k).foldl (fun d k =>
      let r := d.stepReason k 0 false
      if r = 0 then d else d.dropStep k r) d
  else d

/-- Whether a step in progress has had its time (R422, R427): a gap asked for has been made, NTC_REF has had its millisecond, an
input its sample period. -/
def Dev.stepOver (d : Dev) (k : Fin 48) : Bool :=
  if k.val < 24 then
    let c := d.str[k.val % 8]
    !(c.gap && d.mayRun (Fin.ofNat 8 k.val)) && !(c.gapNow && decide (d.now < c.periodStart + 20))
  else if k.val = 24 then decide (d.trim.began[k] + 1000 ≤ d.now)
  else if k.val < 33 ∧ soffitStep k.val = true then
    decide (d.trim.began[k] + 50 * (fIn d.soffit.field (k.val - 25) 2).toNat ≤ d.now)
  else true

/-- A step in progress ends (R429): `found` when a code brought its circuit within tolerance, and `sense` the most its circuit
showed while the step lasted. -/
def Dev.calStepDone (d : Dev) (k : Fin 48) (found : Bool) (code : BitVec 10) (sense : Nat) : Dev :=
  if !(d.trim.running && d.trim.active.getLsbD k.val && d.stepOver k) then d
  else if d.stepReason k.val sense false ≠ 0 then d.dropStep k.val (d.stepReason k.val sense false)
  else
    let far := ((code.toNat : Int) - ((Config.factoryTrim k).toNat : Int)).natAbs
    if !found || decide (128 < far) then d.abortTrim 1 3 (BitVec.ofNat 6 k.val)
    else
      let d : Dev := { d with trim := { d.trim with
        shadow := upd d.trim.shadow k fun _ => code, pend := setBit d.trim.pend k.val false,
        active := setBit d.trim.active k.val false } }
      if d.trim.pend = 0 then d.calEnd else d.calTimeout

/-- The temperature trigger of R424, evaluated at a THM_DIE update (R425). -/
def Dev.calTemp (d : Dev) : Dev :=
  let t := d.trim
  let diff := (d.thm.dieTemp.toInt - t.lastTemp.toInt).natAbs
  if d.sys.mode.calibrates && t.dt != 0 && !t.running && t.queued.isEmpty && decide (16 * t.dt.toNat < diff) then
    { d with trim := t.queue (BitVec.allOnes 48) 1 }
  else d

/-! ### The host's writes (R432) -/

/-- LOAD or TRIM with no run in progress. -/
def Dev.trimWritable (d : Dev) : Bool := (d.sys.mode == .load || d.sys.mode == .trim) && !d.trim.running

/-- A write ignored. -/
def Dev.trimCfgErr (d : Dev) : Dev := { d with trim := { d.trim with cfgErr := true } }

/-- A write of TRM_DAC_k. -/
def Dev.dacWrite (d : Dev) (k : Fin 48) (code : BitVec 10) : Dev :=
  if d.trimWritable then { d with trim := { d.trim with shadow := upd d.trim.shadow k fun _ => code } } else d.trimCfgErr

/-- A write of 1 to TRM_CTRL.APPLY. -/
def Dev.trimApply (d : Dev) : Dev :=
  if d.trimWritable then
    let d : Dev := { d with trim := { d.trim.apply with lastEnd := 6 } }
    d.event 0x0B05 (pay 0 d.trim.gen)
  else d.trimCfgErr

/-- A write of 1 to TRM_CTRL.ABORT (R431). -/
def Dev.trimAbort (d : Dev) : Dev := if d.trim.running then d.abortTrim 3 5 0 else d

/-! ### Snapshot and restore (R433, R434) -/

/-- The record of the applied set. -/
def Dev.snapshot (d : Dev) : List Byte :=
  let t := d.trim
  let body := [0x54, 0x52, 0x4D, 0x53] ++ leBytes t.gen.toNat 3 ++ [1] ++ leBytes Config.dieId.toNat 8 ++
    leBytes t.lastTemp.toNat 2 ++ [0, 0] ++ leBytes t.count.toNat 4 ++
    t.applied.toList.flatMap (fun (c : BitVec 10) => leBytes c.toNat 2) ++ [0, 0, 0, 0]
  body ++ leBytes (crc32 body).toNat 4

/-- The first check of R434 that a record fails, 1 when it is accepted. -/
def Dev.restoreCheck (d : Dev) (f : List Byte) : Nat :=
  let n (k w : Nat) : Nat := leNat ((f.drop k).take w)
  let temp : BitVec 16 := BitVec.ofNat 16 (n 16 2)
  let dt := if d.trim.dt = 0 then 8 else d.trim.dt.toNat
  if n 124 4 ≠ (crc32 (f.take 124)).toNat then 2
  else if f.take 4 ≠ [0x54, 0x52, 0x4D, 0x53] ∨ n 18 2 ≠ 0 ∨ n 120 4 ≠ 0 ∨
      ((upTo 48).any fun k => decide (1023 < n (24 + 2 * k) 2)) = true then 3
  else if n 8 8 ≠ Config.dieId.toNat then 4
  else if n 7 1 ≠ 1 then 5
  else if 16 * dt < (temp.toInt - d.thm.dieTemp.toInt).natAbs then 6
  else 1

/-- CAL_RESTORE of a record: whether it is accepted, and what it does. -/
def Dev.restore (d : Dev) (f : List Byte) : Bool × Dev :=
  let n (k w : Nat) : Nat := leNat ((f.drop k).take w)
  let r := d.restoreCheck f
  let d : Dev := { d with trim := { d.trim with rres := BitVec.ofNat 3 r } }
  let told (d : Dev) : Dev := d.event 0x0B04 (payN 0 r ||| payN 8 (n 4 3))
  if r = 1 then
    let codes : Vector (BitVec 10) 48 := Vector.ofFn fun k => BitVec.ofNat 10 (n (24 + 2 * k.val) 2)
    (true, told { d with trim := { d.trim with
      applied := codes, shadow := codes, gen := BitVec.ofNat 24 (n 4 3), lastTemp := BitVec.ofNat 16 (n 16 2),
      lastTime := d.sys.htime, stale := 0, lastEnd := 7 } })
  else
    let d := told d
    (false, { d with trim := d.trim.queue (BitVec.allOnes 48) 4 })

end Sys2Proof.Machine
end

