-- ==== Sys2Proof/Machine/Thermal.lean ====
section
/-! DEFINITION. Lamp-board and die temperature (chapter 10): NTC inputs, tile temperatures, derating, the die warning and the
thermal shutdown. -/

namespace Sys2Proof.Machine

open Sys2Proof

/-- NTC input `n` changed by `f`. -/
def Dev.onNtc (d : Dev) (n : Fin 6) (f : Ntc → Ntc) : Dev := { d with thm := { d.thm with ntc := upd d.thm.ntc n f } }

/-- The temperature of a code through a conversion table (R302). -/
def ntcTemp (lut : Vector (BitVec 16) 33) (code : BitVec 12) : BitVec 16 :=
  let k := code.toNat / 128
  let r : Int := ((code.toNat % 128 : Nat) : Int)
  let e (i : Nat) : Int := (getN lut i 0).toInt
  if 32 ≤ k then getN lut 32 0 else BitVec.ofInt 16 (e k + Int.fdiv ((e (k + 1) - e k) * r + 64) 128)

/-- Event 0x0704. -/
def Dev.overTempEvent (d : Dev) (source : Nat) (on : Bool) (t : BitVec 16) : Dev :=
  d.event 0x0704 (payN 0 source ||| payN 8 (if on then 1 else 0) ||| pay 16 t)

/-- The over-temperature condition after a value (R305): entered at OT, left 32 units below. -/
def overTempNow (was : Bool) (t ot : BitVec 16) : Bool :=
  if was then !decide (t.toInt ≤ ot.toInt - 32) else decide (ot.toInt ≤ t.toInt)

/-- One conversion of a ratiometric input (R301): round(4095 x V_NTC / V_NTC_REF), of two voltages in one unit; no code is above
4095. (DEDUCED, log 100) -/
def ntcCode (v ref : Nat) : Nat := if ref = 0 then 4095 else min 4095 (nearest (4095 * v) ref)

/-- The mean of the eight conversions of a millisecond, rounded (R301). -/
def ntcMean (v : Vector (Nat × Nat) 8) : BitVec 12 :=
  BitVec.ofNat 12 (nearest (v.toList.map fun x => ntcCode x.1 x.2).sum 8)

/-- One published value of an NTC input (R301 to R305, R312), from eight conversions of V_NTC and V_NTC_REF; while calibration
step 24 has the converter the published values are held (14 R422). (DEDUCED, log 100) -/
def Dev.ntcPublish (d : Dev) (n : Fin 6) (v : Vector (Nat × Nat) 8) : Dev :=
  let x := d.thm.ntc[n.val]
  let code := ntcMean v
  if !x.en || d.trim.active.getLsbD 24 then d
  else
    let t := ntcTemp d.thm.lut[(if x.table then 1 else 0 : Fin 2).val] code
    let opn := decide (4064 ≤ code.toNat)
    let sht := decide (code.toNat ≤ 31)
    let oRun := if opn then (if x.openRun = 10 then 10 else x.openRun + 1) else 0
    let sRun := if sht then (if x.shortRun = 10 then 10 else x.shortRun + 1) else 0
    let newOpen := oRun == 10 && !x.isOpen
    let newShort := sRun == 10 && !x.isShort
    let good := !opn && !sht
    let back := good && (x.isOpen || x.isShort)
    let isOpen := if good then false else x.isOpen || newOpen
    let ot := if isOpen then false else overTempNow x.overTemp t x.ot
    let d := d.onNtc n fun x =>
      { x with code := code, temp := t, openRun := oRun, shortRun := sRun,
               isOpen := isOpen,
               isShort := if good then false else x.isShort || newShort,
               valid := if good then true else x.valid && !(newOpen || newShort), overTemp := ot }
    let told (d : Dev) (kind : Nat) : Dev := d.event 0x0703 (payN 0 n.val ||| payN 4 kind ||| pay 16 code)
    let d := if newOpen then told d 1 else d
    let d := if newShort then told d 2 else d
    let d := if back then told d 3 else d
    if ot != x.overTemp then d.overTempEvent n.val ot t else d

/-- A tile's temperature from a good capture (R304, R305). -/
def Dev.tileTemp (d : Dev) (t : Nat) (x : BitVec 16) : Dev :=
  let was := d.thm.tileHot.getLsbD t
  let hot := overTempNow was x d.thm.tileOt
  let d : Dev := { d with
    scan := { d.scan with tiles := updN d.scan.tiles t fun y => { y with temp := x, tempAge := some 0 } },
    thm := { d.thm with tileStale := setBit d.thm.tileStale t false, tileHot := setBit d.thm.tileHot t hot } }
  if hot != was then d.overTempEvent (0x80 + t) hot x else d

/-- A tile's temperature becomes stale (R304). -/
def Dev.tileStaleNow (d : Dev) (t : Fin 128) : Dev :=
  match (d.scan.tile t.val).tempAge with
  | none => d
  | some a =>
    if 64 < a ∧ d.thm.tileStale.getLsbD t.val = false then
      ({ d with thm := { d.thm with tileStale := setBit d.thm.tileStale t.val true } } : Dev).event 0x0708
        (payN 0 t.val ||| pay 16 d.scan.frame)
    else d

/-- Tile temperatures grow a frame older at a LAT (R304). -/
def Scan.ageTiles (s : Scan) : Scan :=
  { s with tiles := s.tiles.map fun (t : Tile) => { t with tempAge := t.tempAge.map (fun (a : Nat) => min (a + 1) 65) } }

/-! ### Derating (R306, R307, R309) -/

/-- The factor of a temperature (R306). -/
def deratePoint (t knee limit : BitVec 16) (fmin : BitVec 16) : Nat :=
  let k := knee.toInt
  let l := limit.toInt
  if t.toInt ≤ k then 0x10000
  else if l ≤ t.toInt then fmin.toNat
  else (0x10000 - Int.tdiv ((0x10000 - (fmin.toNat : Int)) * (t.toInt - k) + Int.tdiv (l - k) 2) (l - k)).toNat

/-- The factor of an NTC input: FMIN while it is not valid (R303). -/
def Ntc.factor (n : Ntc) : Nat := if n.valid then deratePoint n.temp n.knee n.limit n.fmin else n.fmin.toNat

/-- The factor of a tile's own curve: FMIN while its temperature is not valid (R304). (DEDUCED, log 67) -/
def Dev.tileFactor (d : Dev) (t : Nat) : Nat :=
  let x := d.scan.tile t
  let ok := match x.tempAge with | none => false | some a => decide (a ≤ 64)
  if ok then deratePoint x.temp d.thm.tileKnee d.thm.tileLimit d.thm.tileFmin else d.thm.tileFmin.toNat

/-- The NTC inputs enabled and meeting `p`, with their factors. -/
def Dev.ntcFactors (d : Dev) (p : Ntc → Bool) : List (Nat × Nat) :=
  (upTo 6).filterMap fun n =>
    let x := getN d.thm.ntc n Ntc.reset
    if x.en && p x then some (x.factor, n) else none

/-- The lowest of a list of factors with its source, the first on a tie; 1.0 when there is none. -/
def lowest (l : List (Nat × Nat)) : Nat × Nat := l.foldl (fun b x => if x.1 < b.1 then x else b) (0x10000, 0)

/-- The target of a present tile, and of a channel (R307). (DEDUCED, log 67) -/
def Dev.tileTarget (d : Dev) (t : Nat) : Nat × Nat :=
  lowest ((d.tileFactor t, 0x80 + t) :: d.ntcFactors (·.global))
def Dev.channelTarget (d : Dev) (c : Nat) : Nat × Nat := lowest (d.ntcFactors fun n => n.chmask.getLsbD c)

/-- A factor one update nearer its target: by at most 0x100, or at once at the first update. -/
def stepFactor (first : Bool) (now target : Nat) : Nat :=
  if first then target else if now < target then min target (now + 0x100) else max target (now - 0x100)

/-- With EN at 0 every channel factor is 1.0 (R307). -/
def Dev.noDerate (d : Dev) : Dev := { d with str := d.str.map fun (c : StrChannel) => { c with derate := 0x10000 } }

/-- The update of every 10 ms (R307, R309): the tile table goes out as 128 aligned 32-bit writes. -/
def Dev.derateUpdate (d : Dev) : Dev :=
  if !d.thm.drtEn then d.noDerate
  else
    let first := d.thm.drtFirst
    let present := d.scan.present
    let tiles : Vector (BitVec 17) 128 := Vector.ofFn fun t =>
      if present.contains t.val then
        BitVec.ofNat 17 (stepFactor first (d.thm.tileFactor[t.val]).toNat (d.tileTarget t.val).1)
      else 0x10000
    let str : Vector StrChannel 8 := d.str.mapFinIdx fun c (x : StrChannel) _ =>
      { x with derate := BitVec.ofNat 17 (stepFactor first x.derate.toNat (d.channelTarget c).1) }
    let targets := present.map d.tileTarget ++ (upTo 8).map d.channelTarget
    let low := lowest targets
    let values := tiles.toList.map (fun (x : BitVec 17) => x.toNat) ++ str.toList.map fun (c : StrChannel) => c.derate.toNat
    let least := values.foldl min 0x10000
    let below := decide (least < 0x10000)
    let was := d.thm.below
    let d : Dev := { d with str := str, thm := { d.thm with tileFactor := tiles, drtFirst := false, below := below } }
    let d := (upTo 128).foldl (fun d t =>
      d.loftWrite (d.thm.drtAddr.toNat + 4 * t) (leBytes (getN tiles t 0x10000).toNat 4)) d
    if below != was then d.event 0x0705 (payN 0 low.2 ||| payN 8 (if below then 1 else 0) ||| payN 32 least) else d

/-- A write of THM_DRT_ADDR (R308, 02 R50). -/
def Dev.drtAddrWrite (d : Dev) (x : Word) : Dev :=
  let a := (x.toNat % 2 ^ 25) / 4 * 4
  if d.inRegion [4] (a, 512) then { d with thm := { d.thm with drtAddr := BitVec.ofNat 25 a } }
  else { d with thm := { d.thm with cfgErr := true } }

/-! ### The core die (R310, R311) -/

/-- THM_DIE.TEMP updated with the highest of the four sensors (R310), and the temperature trigger of calibration (14 R424). -/
def Dev.dieTemp (d : Dev) (sensors : Vector (BitVec 16) 4) : Dev :=
  let t := sensors.toList.foldl (fun m x => if m.toInt < x.toInt then x else m) sensors[0]
  let was := d.thm.warned
  let now := if was then !decide (t.toInt ≤ d.thm.dieWarn.toInt - 32) else decide (d.thm.dieWarn.toInt ≤ t.toInt)
  let d : Dev := { d with thm := { d.thm with
    dieTemp := t, dieMax := if d.thm.dieMax.toInt < t.toInt then t else d.thm.dieMax, warned := now } }
  let d := if now != was then d.event 0x0706 (pay 0 t ||| payN 16 (if now then 1 else 0)) else d
  d.calTemp

/-- A sensor reaches 165 degrees (R311) in a core die that has power. -/
def Dev.thermalShutdown (d : Dev) : Dev :=
  if d.sys.mode = .off ∨ d.sys.mode = .standby then d
  else
    let d : Dev := { d with thm := { d.thm with shutdownEvent := true } }
    d.beginReset 2 fun h => { h with thermal := true }

/-- Every sensor is below 150 degrees (R311, 15 R458): thermal shutdown no longer holds the core die.
(DEDUCED, log 66) -/
def Dev.thermalEnd (d : Dev) : Dev :=
  { d with sys := { d.sys with hold := { d.sys.hold with thermal := false } } }

end Sys2Proof.Machine
end

