-- ==== Sys2Proof/Machine/Scan.lean ====
section
/-! DEFINITION. The frame period (08 R233): the LAT with all that happens at it, the start of a transfer window with the words
as they leave the ports under every ceiling (R251, 11 R324), and its close with what the captures tell. -/

namespace Sys2Proof.Machine

open Sys2Proof

/-! ### The LAT (01 R13, 08 R221, R233) -/

/-- The light moves on at a LAT (01 R13, 08 R235): the transfer that closed becomes the light, and the light's captures shift
out next. A LAT that ends no closed transfer leaves the light, and the period it opens is not judged (09 R265). -/
def Scan.latch (s : Scan) (l : BitVec 16) (now : Nat) : Scan :=
  let closed := match s.xfer with | some x => x.closed | none => false
  { s with frame := l, latAt := now, firstLat := false, judged := s.light, xfer := none,
           light := if closed then s.xfer else s.light.map fun x => { x with depth := 0 } }

/-- LATs withheld (08 R250, 16 R490): the transfer is closed with ABORT, and no tile keeps a valid one. -/
def Dev.withhold (d : Dev) : Dev :=
  let d := d.abortXfer
  { d with scan := { d.scan with light := none, judged := none, state := 1 } }

/-- Whether a worker follows the manager's marks (16 R478): not during an enumeration. -/
def Dev.followsMarks (d : Dev) : Bool :=
  d.sys.role == 2 && d.roof.posValid && (d.roof.marks || d.roof.flywheel || d.roof.holding) && d.scan.step == .done

/-- Whether the twin is in force on this device (16 R487). -/
def Dev.twinHere (d : Dev) : Bool := d.roof.twin && d.sys.role != 2

/-- Whether the coming LAT takes its frame number and slot from another device (16 R478, R488). -/
def Dev.follows (d : Dev) : Bool := d.followsMarks || (d.twinHere && d.roof.genlocked)

/-- What is named for the coming LAT: its frame, slot, SHADOW and HOLD; none while a worker that follows marks has none. -/
def Dev.latPlan (d : Dev) : Option (BitVec 16 × Fin 8 × Bool × Bool) :=
  let own := (d.nextLat, d.scan.slot, d.scan.shadow, d.roof.yieldHold != 0)
  if d.followsMarks then if d.roof.holding then some (d.nextLat, d.scan.slot, d.scan.shadow, true) else d.roof.nextMark
  else if d.follows then match d.roof.nextMark with
    | none => some own
    | some m => some (m.1, m.2.1, d.scan.shadow, d.roof.yieldHold != 0)
  else some own

/-- The checks of an enumeration transfer before the next LAT: in E1 to E4 each period's transfer has closed (R238). -/
def Scan.enumReady (s : Scan) : Bool :=
  match s.step with
  | .e1 | .e2 | .e3 | .e4 => (match s.xfer with | some x => x.closed | none => false)
  | _ => true

/-- Whether the LAT that is named, or the frame period's end, has come (R233, 16 R477, R488). -/
def Dev.latInstant (d : Dev) : Bool :=
  if d.follows && d.roof.nextMark.isSome then decide (d.roof.markLat / 400 ≤ d.now) else decide (d.scan.periodEnd ≤ d.now)

/-- Whether a LAT can come now. (DESIGN CHOICE, log 25) -/
def Dev.latDue (d : Dev) : Bool :=
  d.coreUp && d.scan.lats && decide (d.scan.latFrom ≤ d.now) && !d.scan.window && d.scan.enumReady && d.latInstant

/-- A slot taken at a LAT, L0 (08 R248, R249): a change of DIV retrains the chains, with event 0x0504. -/
def Dev.takeSlotMode (d : Dev) (slot : Fin 8) (result0 : BitVec 16) : Dev :=
  let old := d.scan.slotNow
  let new := d.scan.tmode[slot.val]
  let retrain := old.div != new.div && d.scan.step == .done
  let d : Dev := { d with scan := { d.scan with
    slot := slot, change := some { result0 := result0, retrain := retrain, oldDepth := old.depth, oldDiv := old.div } } }
  if retrain then d.event 0x0504 (payN 0 slot.val ||| pay 4 new.div ||| pay 16 result0) else d

/-- The timing mode at a LAT: the end of a seamless change (event 0x0503 at L1), then the selection due, the host's or the
one a mark names (16 R478). -/
def Dev.slotAtLat (d : Dev) (mark : Fin 8) (run : BitVec 16) : Dev :=
  let d := match d.scan.change with
    | none => d
    | some c =>
      let d : Dev := { d with scan := { d.scan with change := none } }
      if c.retrain then d else d.event 0x0503 (payN 0 d.scan.slot.val ||| pay 16 c.result0)
  let due := d.effects.filterMap fun e => match e.op with | .tmodeSelect s => some s | _ => none
  let d : Dev := { d with effects := d.effects.filter fun e => match e.op with | .tmodeSelect _ => false | _ => true }
  match due with
  | s :: _ => d.takeSlotMode s run
  | [] => if d.follows && mark != d.scan.slot && !d.roof.slotMismatch then d.takeSlotMode mark run else d

/-- A change of role, with event 0x0C08 (16 R489). -/
def Dev.twinRole (d : Dev) (drives : Bool) (cause : Nat) (frame : BitVec 16) : Dev :=
  if d.roof.driving == drives then d
  else
    let d : Dev := { d with roof := { d.roof with driving := drives, genlocked := d.roof.genlocked && !drives } }
    d.event 0x0C08 (payN 0 (if drives then 1 else 0) ||| payN 1 cause ||| pay 16 frame)

/-- A yield (16 R490): DRIVING 0 now, and the next two LATs withheld. -/
def Dev.yieldNow (d : Dev) (cause : Nat) (frame : BitVec 16) : Dev :=
  let d := d.twinRole false cause frame
  { d with roof := { d.roof with yieldHold := 2 } }

/-- The modes in which a side may drive. -/
def Mode.mayDrive (m : Mode) : Bool := m == .run || m == .degraded || m == .service

/-- The role rules at a timebase instant (16 R489), the first row that applies. -/
def Dev.twinStep (d : Dev) (frame : BitVec 16) : Dev :=
  if !d.twinHere then d
  else
    let yields := d.effects.filter fun e => match e.op with | .twinYield => true | _ => false
    let d : Dev := { d with effects := d.effects.filter fun e => match e.op with | .twinYield => false | _ => true }
    let allowed := d.sys.mode == .run || d.sys.mode == .degraded
    let asked := allowed && !yields.isEmpty
    let d := if allowed then d else yields.foldl Dev.cancelEvent d
    let r := d.roof
    let lone := !r.peerOk || r.peerHealth == 0
    if !d.sys.mode.mayDrive then d.twinRole false 1 frame
    else if asked && d.sys.role == 0 && !(lone && r.driving) then
      if r.driving then d.yieldNow 2 frame else d.twinRole true 2 frame
    else if !r.driving && (lone || !r.peerDriving) then d.twinRole true (if lone then 3 else 1) frame
    else if r.driving && r.peerDriving && !lone && d.sys.role == 1 then d.yieldNow 4 frame
    else if r.driving && d.sys.mode == .degraded && r.peerOk && r.peerHealth == 2 && r.autoyield then d.yieldNow 5 frame
    else d

/-- A pending MODE_REQUEST at its LAT (15 R441 to R443, 11 R344). (DEDUCED, log 42) -/
def Dev.modeAtLat (d : Dev) (l : BitVec 16) : Dev :=
  match d.sys.pending with
  | none => d
  | some p =>
    let d : Dev := { d with sys := { d.sys with pending := none } }
    let finish (d : Dev) (st : CmdStatus) (r0 : Word) (r1 : Word) : Dev :=
      match p.hdr with
      | none => d
      | some h => d.finishLong h 0x01 st r0 r1
    let lights := p.target = .run ∨ p.target = .service
    if lights ∧ (d.rdg.gFault || d.rdg.hFault) = true then finish d .fault 0x0807 0
    else if lights ∧ d.rdg.disc = true then finish d .fault 0x0806 0
    else
      (finish d .ok (p.target.code.setWidth 32) (l.setWidth 32)).toMode p.target (if p.hdr.isSome then 1 else 2) l

/-- A pending debug attach at the LAT (17 R507): the mode becomes SERVICE. -/
def Dev.attachAtLat (d : Dev) (l : BitVec 16) : Dev :=
  if d.acc.attachPending && d.sys.mode == .run then
    let d : Dev := { d with acc := { d.acc with attached := true, attachPending := false } }
    let d := d.toMode .service 4 l
    d.event 0x0D04 (pay 0 d.acc.level ||| pay 4 d.sys.mode.code)
  else d

/-- The patch run that starts at a LAT, with all that falls due at its start (06 R163, R178, 07 R209). -/
def Dev.runAtLat (d : Dev) (run : BitVec 16) : Dev :=
  let due := d.effects.filter fun e => e.op.atRun
  let d : Dev := { d with effects := d.effects.filter fun e => !e.op.atRun }
  let d := due.foldl (fun d e => d.applyEffect run e) d
  let descs := due.filterMap fun e => match e.op with | .srcDesc i x => some (i, x) | _ => none
  let mask := due.foldl (fun m e => match e.op with | .srcCommit x => m ||| x | _ => m) 0
  let d := d.sourcesAt run descs mask
  let d := (d.decideAt run).suspendTrapped run
  (d.announceAt run).startRun run

/-- The enumeration at a LAT (08 R238): the next transfer's step, and the array in force at the LAT of step 6. -/
def Dev.enumAtLat (d : Dev) : Dev :=
  let goTo (x : EnumStep) : Dev := { d with scan := { d.scan with step := x } }
  match d.scan.step with
  | .begun => goTo .e1
  | .e1 => goTo .e2
  | .e2 => goTo .e3
  | .e3 => goTo .e4
  | .e4 => d.enumDone
  | _ => d

/-- What a fired LAT does, in order (15 R442): the light, the mode, the timing mode, the role, the safety tick, the patch
run and the enumeration. -/
def Dev.latFire (d : Dev) (l : BitVec 16) (mark : Fin 8) (shadow : Bool) : Dev :=
  let run := l + 1
  let closed := d.scan.xfer.isSome
  let d : Dev := { d with
    scan := { d.scan.latch l d.now with shadow := if d.twinHere then !d.roof.driving else shadow },
    prv := { d.prv with liveJudged := d.prv.liveThrough, liveThrough := d.liveG && d.liveH },
    str := d.str.map StrChannel.atLat,
    roof := { d.roof with nextMark := none,
                          offset := if d.followsMarks && d.roof.marks then d.roof.markMht - BitVec.ofNat 32 d.now else d.roof.offset } }
  let d := d.modeAtLat l
  let d := if d.sys.proofPassed && d.sys.mode == .proof then d.proofComplete l else d
  let d := d.attachAtLat l
  let d := d.slotAtLat mark run
  let d := d.twinStep l
  let d : Dev := if d.twinHere then { d with scan := { d.scan with shadow := !d.roof.driving } } else d
  let d := d.closeFrame l closed
  let d := if d.tickLat l then d.tick l closed else d
  let d := d.leaveDegraded l
  let runs := d.sys.mode.patchRuns
  let d := (d.endRun runs).lapseAt run
  let d := if runs then d.forgetRetired.runAtLat run else d.undecided run
  let d := d.enumAtLat
  let d : Dev := { d with scan := d.scan.ageTiles }
  (((d.trussPend 1).releaseHeld).sendTransfers).proofAdvance

/-- LAT (01 R13, 08 R221): fired, or withheld under a HOLD mark, a lost roof or a yield. -/
def Dev.lat (d : Dev) : Dev :=
  if !d.latDue then d
  else match d.latPlan with
    | none => d
    | some (l, slot, shadow, hold) =>
      if hold then
        let d := d.withhold
        { d with scan := { d.scan with frame := l },
                 roof := { d.roof with nextMark := none,
                                       yieldHold := if d.roof.yieldHold = 0 then 0 else d.roof.yieldHold - 1 } }
      else d.latFire l slot shadow

/-! ### What a transfer carries (08 R226, R227, R248, R250, R251) -/

/-- The command and the depth fields of a transfer at its window start. -/
structure XferPlan where
  cmd : BattenCmd
  depth : BitVec 5
  ndepth : BitVec 5
  period : BitVec 24
  pwmper : BitVec 4
  g : BitVec 7
  div : BitVec 4
  deriving DecidableEq, Repr

/-- The plan of the transfer of this period (08 R238, R248 to R250): the steps of an enumeration, the transfer of L0's period,
or a transfer at the slot's timing. G is that of the slot in force throughout (R255). (DEDUCED, log 111) -/
def Dev.xferPlan (d : Dev) : XferPlan :=
  let m := d.scan.slotNow
  let per : BitVec 4 := BitVec.ofNat 4 (m.pwmper.toNat - 1)
  let enum (cmd : BattenCmd) : XferPlan :=
    { cmd := cmd, depth := 0, ndepth := 0, period := 400000, pwmper := 0, g := m.g, div := 8 }
  match d.scan.step with
  | .e1 | .e2 | .e3 | .begun => enum .enum
  | .failed => enum .dark
  | .e4 => { cmd := .retrain, depth := 0, ndepth := m.depth, period := m.period, pwmper := per, g := m.g, div := 8 }
  | .done =>
    let normal := d.sys.mode.mayDrive && !(d.followsMarks && d.roof.slotMismatch)
    let cmd := if normal then BattenCmd.normal else .dark
    match d.scan.change with
    | none => { cmd := cmd, depth := m.depth, ndepth := m.depth, period := m.period, pwmper := per, g := m.g, div := m.div }
    | some c =>
      { cmd := if c.retrain then .retrain else cmd, depth := c.oldDepth, ndepth := m.depth, period := m.period,
        pwmper := per, g := m.g, div := c.oldDiv }

def BattenCmd.code : BattenCmd → BitVec 4
  | .normal => 0 | .dark => 1 | .enum => 2 | .retrain => 3

/-- GPHASE: FRAME mod G, 0 when G is 0 (R226). -/
def gPhase (frame : BitVec 16) (g : BitVec 7) : Nat := if g = 0 then 0 else frame.toNat % g.toNat

/-- The frame header of a transfer (R226). -/
def Transfer.header (x : Transfer) : List Byte :=
  let h : List Byte := leBytes x.frame.toNat 2 ++
    [BitVec.ofNat 8 (x.depth.toNat + 32 * x.slot.toNat), x.ndepth.setWidth 8] ++ leBytes x.period.toNat 3 ++
    [BitVec.ofNat 8 (x.pwmper.toNat + 16 * x.cmd.code.toNat), BitVec.ofNat 8 (gPhase x.frame x.g), x.g.setWidth 8,
      if x.shadow then 1 else 0]
  h ++ [crc8 h]

/-- The state code of SCO_STATUS for a transfer (R258). -/
def Dev.xferState (d : Dev) (c : BattenCmd) : BitVec 3 :=
  if d.scan.enumBusy then 2 else match c with | .normal => 4 | .dark => 3 | .retrain => 5 | .enum => 2

/-- The commit sampled at a window start (R253, R258): what it applies to is this transfer. -/
def Dev.sampleCommit (d : Dev) : Dev :=
  let s := d.scan
  let buf := if s.pending then s.pbuf else s.cbuf
  let b : Fin 2 := if buf then 1 else 0
  { d with
    effects := d.effects.filter fun e => match e.op with | .frameCommit _ => false | _ => true,
    scan := { s with cbuf := buf, pending := false, cbufFrame := if s.pending then s.frame else s.cbufFrame,
                     xferSrc := s.srcFrame[b.val], xferRepeat := buf == s.cbuf } }

/-- A commit whose mode no longer allows it is cancelled at its boundary (03 R80, R85). -/
def Dev.cancelCommit (d : Dev) : Dev :=
  let allowed := d.sys.mode = .armed ∨ d.sys.mode = .run ∨ d.sys.mode = .degraded ∨ d.sys.mode = .service
  let due := d.effects.filter fun e => match e.op with | .frameCommit _ => true | _ => false
  if allowed ∨ due.isEmpty = true then d
  else
    let d : Dev := { d with
      effects := d.effects.filter fun e => match e.op with | .frameCommit _ => false | _ => true,
      scan := { d.scan with pending := false } }
    due.foldl (fun d e => if e.ring = 0xFF then d else d.cancelEvent e) d

/-! ### Words (08 R251 to R255, 01 R21, R22) -/

/-- One word of a transfer on its way out. -/
structure WordOut where
  index : Nat
  /-- its entry of the static ceiling map (11 R324) -/
  static : Nat
  /-- patch -/
  patch : Nat
  /-- the word as it leaves the port -/
  word : Nat
  /-- the lowest ceiling in force -/
  ceil : Nat
  /-- the rung that lowered it, 0 when none did -/
  rung : Nat
  underrun : Bool
  gathered : Bool
  /-- its ceiling-map entries have a parity error (11 R321) -/
  parity : Bool
  /-- its effective ceiling is dark although it is mandated (11 R327) -/
  darkMandated : Bool
  deriving DecidableEq, Repr

/-- Pulse gathering of a clamped word of index `n` (R255): the word sent, and whether it is gathered. -/
def gather (x : Transfer) (wth n w : Nat) (free : Bool) : Nat × Bool :=
  let g := x.g.toNat
  if x.cmd = .normal ∧ g ≠ 0 ∧ 0 < w ∧ w < wth ∧ g * w ≤ maxWord x.depth.toNat ∧ free = true then
    (if (x.frame.toNat + n) % g = 0 then (g * w, true) else (0, true))
  else (w, false)

/-- The w_th of tile `t` in transfer `x` (R255). -/
def Dev.thresholdOf (d : Dev) (x : Transfer) (t : Nat) : Nat :=
  threshold (descTdiag (d.scan.tile t).desc) (x.pwmper.toNat + 1) x.depth.toNat x.period.toNat

/-- The ceilings that a word of transfer `x` meets now: those of its window start, and a Degraded ceiling that came into force
since (01 R22, 11 R343). -/
def Dev.ceilNow (d : Dev) (x : Transfer) : Ceilings :=
  { x.ceil with degraded := if d.rdg.deg = .none then x.ceil.degraded else d.rdg.deg }

/-- The word of index `n` of tile `t` at offset `k` in transfer `x`; `last` is the word that left the lane before it
(R251, R254). Injection bit 50 replaces the words of its patch as in an underrun that nothing counts, and raises none (18 R516, R519,
R523). -/
def Dev.wordAt (d : Dev) (x : Transfer) (t k n last : Nat) : WordOut :=
  let depth := x.depth.toNat
  let place := d.scan.placeIn t k
  let p := d.scan.patchAt place.1 place.2
  let cell := d.scan.cellAt place.1 place.2
  let ceil := d.ceilNow x
  let static := mapEntry d.rdg.staticMap n
  let eff := effCeiling depth static (mapEntry ceil.map cell) ceil.capWord
  let c := ceilingAt ceil d.rdg.staticMap depth n p cell
  let parity := d.rdg.parityErr.contains n || d.rdg.cellParity.contains (d.rdg.mapBuf, cell)
  let a := frameBase x.buf + 2 * n
  let b : Fin 2 := if x.buf then 1 else 0
  let late := x.cmd == .normal && !(d.scan.bitmap[b.val]).getLsbD p
  let raw := if x.cmd ≠ .normal ∨ d.loftUe a 2 = true then 0 else (read16 d.loft.cells a).toNat
  let hit := x.cmd == .normal && !late && d.inj.presents 50 p && decide (d.inj.start ≤ x.start)
  let m := if late then (last, false)
    else gather x (d.thresholdOf x t) n
      (min raw (maxWord depth)) (eff == maxWord depth && (static == 0 || static == 3) && mapEntry ceil.map cell == 0)
  let out := if parity then 0 else if hit then min last (min m.1 c.1) else min m.1 c.1
  { index := n, static := static, patch := p, word := out, ceil := if parity then 0 else c.1, rung := if c.1 < m.1 then c.2 else 0,
    underrun := late, gathered := m.2, parity := parity, darkMandated := static == 3 && eff == 0 }

/-- The record of a word on the wire (01 R12, R21). -/
def sentWord (port : Bool) (w : WordOut) : SentWord :=
  { port := port, index := w.index, static := BitVec.ofNat 2 w.static, ceil := BitVec.ofNat 16 (min w.ceil 0xFFFF), word := BitVec.ofNat 16 (min w.word 0xFFFF) }

/-- A lowered word counted, with the lowest rung that lowered one (11 R328). -/
def Rdg.lowered (r : Rdg) (port : Bool) (rung : Nat) : Rdg :=
  let low (x : BitVec 3) : BitVec 3 := if x = 0 ∨ rung < x.toNat then BitVec.ofNat 3 rung else x
  if rung = 0 then r
  else if port then { r with block := true, blockB := satInc r.blockB, rungB := low r.rungB }
  else { r with block := true, blockA := satInc r.blockA, rungA := low r.rungA }

/-- What a word does as it leaves (08 R254, R263, 11 R321, R327, R328): an underrun and a lowered word are counted, its sent
class is noted, and a parity error that its check met loses the Ridge. -/
def Dev.noteWord (d : Dev) (x : Transfer) (t : Nat) (w : WordOut) : Dev :=
  let port := portOf t
  let s := d.scan
  let cls : BitVec 2 := BitVec.ofNat 2 (sentClass w.word w.gathered (d.thresholdOf x t))
  let d : Dev := { d with
    rdg := d.rdg.lowered port w.rung,
    prv := { d.prv with sent := d.prv.sent ++ [(w.index, cls)] },
    scan := { s with
      underA := if w.underrun && !port then satInc s.underA else s.underA,
      underB := if w.underrun && port then satInc s.underB else s.underB,
      late := if w.underrun then setBit s.late w.patch true else s.late,
      xfer := s.xfer.map fun y => { y with
        underA := if w.underrun && !port then y.underA + 1 else y.underA,
        underB := if w.underrun && port then y.underB + 1 else y.underB } } }
  let d := if w.darkMandated then d.eventLimited 0x0811 0 1000000 (payN 0 w.index ||| pay 32 x.frame) else d
  if w.parity then d.ridgeLost 3 else d

/-- The device with the words that have left it (01 R12). -/
abbrev Sending := Dev × List SentWord

/-- The next word of lane `c`, of tile `t`, leaves (R251): it is read with error correction (02 R57, R58), goes out in its
segment, and does what `noteWord` says. A word of any transfer but a NORMAL one is 0 without a read. -/
def sendWord (m : Sending) (x : Transfer) (c t : Nat) : Sending :=
  let d := m.1
  let l := d.scan.lane c
  let n := d.scan.base t + l.next
  let w := d.wordAt x t l.next n l.last.toNat
  let d : Dev := { d with scan := { d.scan with
    lanes := updN d.scan.lanes c fun l => l.word x.depth.toNat (d.scan.tile t) w.word (d.inj.presents 17 t) } }
  let d := d.noteWord x t w
  (if x.cmd = .normal then d.loftTouch (frameBase x.buf + 2 * n) 2 else d, m.2 ++ [sentWord (portOf t) w])

/-- The words of lane `c` that leave before symbol offset `limit`, or all of them: at most the count given. -/
def sendLane (m : Sending) (c : Nat) (limit : Option Nat) : Nat → Sending
  | 0 => m
  | n + 1 =>
    let l := m.1.scan.lane c
    let due := match limit with | none => true | some k => decide (l.offset < k)
    match m.1.scan.xfer, l.todo with
    | some x, t :: _ => if m.1.scan.window && due then sendLane (sendWord m x c t) c limit n else m
    | _, _ => m

/-- The words that lane `c` has still to send. -/
def Scan.laneLeft (s : Scan) (c : Nat) : Nat :=
  let l := s.lane c
  (l.todo.map fun t => (s.tile t).emitters).sum - l.next

/-- The words of every lane that leave before symbol offset `limit`, or all of them (R225). -/
def Dev.sendWords (d : Dev) (limit : Option Nat) : Sending :=
  (upTo 16).foldl (fun m c => sendLane m c limit (m.1.scan.laneLeft c)) (d, [])

/-- The words that leave in the microsecond that begins now: symbol k leaves 12.5 ns times DIV times k after the SOF (R221),
and a word is read in the microsecond in which it leaves (R254). (DESIGN CHOICE, log 39) -/
def Dev.sendDue (d : Dev) : Sending :=
  match d.scan.xfer with
  | none => (d, [])
  | some x =>
    if d.scan.window then d.sendWords (some ((80 * (d.now - x.start + 1) + x.div.toNat - 1) / x.div.toNat)) else (d, [])

/-- The words still to leave at the window's close. -/
def Dev.sendRest (d : Dev) : Sending := if d.scan.window then d.sendWords none else (d, [])

/-! ### The window start (08 R233, 11 R320, R323, R326, R337) -/

/-- The map of the frame at its window start (01 R16, 11 R320, R326): the Ridge switches to an accepted one; a frame without one is counted and reported, and two ticks without one for reasons 1 to 4 lose the Gable.
(DEDUCED, log 41) -/
def Dev.mapAtWindow (d : Dev) : Dev :=
  match d.gbl.cfg, d.rdg.tickResult with
  | some _, some r =>
    let d : Dev := { d with rdg := match d.rdg.mapDue with
      | none => d.rdg
      | some p => { d.rdg with mapDue := none, mapBuf := p.buf, mapZoneSet := p.zoneSet, mapFrame := p.frame } }
    if r = 0 then { d with rdg := { d.rdg with missRun := 0, missTicks := 0 } }
    else
      let first := !d.fastTick || !d.scan.frame.getLsbD 0
      let ticks := if r.toNat ≤ 4 then (if first then satInc d.rdg.missTicks else d.rdg.missTicks) else 0
      let d : Dev := { d with rdg := { d.rdg with
        missRun := satInc d.rdg.missRun, missTotal := satInc d.rdg.missTotal, missTicks := ticks } }
      let d := d.event 0x0804 (pay 0 d.scan.frame ||| pay 16 r)
      if 2 ≤ ticks.toNat then d.gableLost 3 0 else d
  | _, _ => d

/-- The map with the super-cells that failed the Ridge's coarse test dark: they are sent as 0 (11 R332). -/
def darkenMap (m : Mem) (cells : BitVec 256) : Mem :=
  (bitsOf cells).foldl (fun m s => writeBytes m (16 * s) (List.replicate 16 0xAA)) m

/-- The service cap in force (01 R22): in SERVICE, and in DEGRADED entered from it; an engineering sample with its no-cap
fuse burnt has none at L3 with a debugger attached (17 R508). -/
def Dev.serviceCap (d : Dev) (noCap : Bool) : Option (BitVec 16) :=
  match d.gbl.cfg with
  | none => none
  | some c =>
    if d.sys.mode = .service ∨ (d.sys.mode = .degraded ∧ d.rdg.fromService = true) then
      if noCap && d.acc.level == 3 && d.acc.attached && d.sys.mode == .service then none else some c.svc16
    else none

/-- The ceilings a transfer is checked against (01 R22, 11 R324, R326, R343). -/
def Dev.ceilings (d : Dev) (noCap : Bool) : Ceilings :=
  match d.gbl.cfg with
  | none => { map := [], degraded := .none, service := none, capWord := 0xFFFF }
  | some c =>
    let missing := match d.rdg.tickResult with | some r => r != 0 | none => false
    { map := darkenMap (getN d.rdg.buffers (if d.rdg.mapBuf then 1 else 0) []) (if missing then d.rdg.mismatch else 0),
      degraded := if d.rdg.deg = .none ∧ missing = true then d.degKind c else d.rdg.deg,
      service := d.serviceCap noCap, capWord := c.cap16 }

/-- Whether a transfer window can open: after a LAT, once in its period (08 R233). (DESIGN CHOICE, log 25) -/
def Dev.windowDue (d : Dev) : Bool :=
  d.coreUp && d.scan.lats && !d.scan.firstLat && !d.scan.window && d.scan.xfer.isNone && d.scan.step != .begun &&
    decide (d.scan.latAt + 10 ≤ d.now) && d.roof.yieldHold == 0 && !d.roof.holding

/-- The transfer of this period (08 R226). -/
def Dev.newXfer (d : Dev) (noCap : Bool) : Transfer :=
  let p := d.xferPlan
  { frame := d.scan.frame, cmd := p.cmd, depth := p.depth, ndepth := p.ndepth, slot := BitVec.ofNat 3 d.scan.slot.val,
    period := p.period, pwmper := p.pwmper, g := p.g, shadow := d.scan.shadow, buf := d.scan.cbuf, div := p.div,
    start := d.now, underA := 0, underB := 0, ceil := d.ceilings noCap, closed := false }

/-- SOF and the header leave every lane of the transfer (R225), and both channels act on the frame's map (11 R337). -/
def Dev.openXfer (d : Dev) (x : Transfer) : Dev :=
  let lit := d.scan.light.map fun y => y.ceil
  let d : Dev := { d with
    scan := { d.scan with
      xfer := some x, window := true, state := d.xferState x.cmd, late := 0,
      lanes := d.scan.lanes.mapFinIdx fun c _ _ => d.scan.laneStart x.depth x.header c },
    rdg := { d.rdg with blockA := 0, rungA := 0, blockB := 0, rungB := 0 },
    prv := { d.prv with sent := [] } }
  if d.gbl.cfg.isSome && x.depth != 0 then d.windowKills x.ceil lit x.frame else d

/-- SOF leaves both ports (08 R233): the commit is sampled, the Ridge takes the frame's map, and the transfer opens. -/
def Dev.windowStart (d : Dev) (noCap : Bool) : Dev :=
  if !d.windowDue then d
  else
    let d := ((d.cancelCommit).sampleCommit).mapAtWindow
    if !d.scan.lats then d else d.openXfer (d.newXfer noCap)

/-! ### The window close (08 R232, R233, R238, R257) -/

/-- The tile positions whose captures failed by CRC, and by a code error, of a chain's stream. -/
def failedCaptures (tiles : List Nat) (r : ChainRx) : List Nat × List Nat :=
  let caps := tiles.zip r.captures
  ((caps.filter fun t => t.2.crcFail).map fun t => t.1 % 8 + 1, (caps.filter fun t => t.2.codeError).map fun t => t.1 % 8 + 1)

/-- One chain's stream (08 R232, R260, R262): every failure counted, and one event 0x0506 with the first in order of severity.
(DESIGN CHOICE, log 111) -/
def Dev.streamCheck (d : Dev) (frame : BitVec 16) (tiles : List Nat) (r : ChainRx) (c : Nat) : Dev :=
  let f := failedCaptures tiles r
  let d : Dev := { d with scan := { d.scan with chains := updN d.scan.chains c fun e =>
    { missing := if r.missing then satInc e.missing else e.missing,
      length := if r.length || r.echo then satInc e.length else e.length,
      code := if r.code then satInc e.code else e.code,
      capCrc := satAdd e.capCrc f.1.length } } }
  let tell (pos kind : Nat) : Dev := d.event 0x0506 (payN 0 c ||| payN 4 pos ||| payN 8 kind ||| pay 16 frame)
  if r.missing then tell 0 4
  else if r.length then tell 0 2
  else if r.echo then tell 0 5
  else match f with
    | (p :: _, _) => tell p 1
    | ([], p :: _) => tell p 3
    | ([], []) => if r.code then tell 0 3 else d

/-- The stream of chain `c`; the device ignores that of a chain without tiles (R222). -/
def Dev.chainCheck (d : Dev) (x : Transfer) (rx : List ChainRx) (c : Nat) : Dev :=
  let tiles := d.scan.chainTiles c
  if tiles.isEmpty then d else d.streamCheck x.frame tiles (rxOf rx c) c

/-- The streams of an E2 or E3 transfer checked (R232, R238): a silent lane of E2 is a missing stream only once E3 shows that
its chain is not empty. (DEDUCED, log 111) -/
def Dev.enumStreams (d : Dev) (x : Transfer) (got : List (ChainEnum × ChainRx)) (third : Bool) : Dev :=
  (got.zipIdx).foldl (fun (d : Dev) g =>
    let c := g.2
    let e := g.1.1
    let before := (chainEnumOf d.scan.e2 c).empty
    let none2 : ChainRx := { missing := true, length := false, echo := false, code := false, captures := [] }
    let d := if third && before && !e.empty then d.streamCheck (x.frame - 1) [] none2 c else d
    if e.empty && (!third || before) then d
    else if g.1.2.fails || g.1.2.code then d.streamCheck x.frame [] g.1.2 c else d) d

/-- Tile `t` changed by `f`. -/
def Dev.onTile (d : Dev) (t : Nat) (f : Tile → Tile) : Dev := { d with scan := { d.scan with tiles := updN d.scan.tiles t f } }

/-- A good capture's header (08 R231, R261, R262, 10 R304): the tile is observed again (09 R268). -/
def Dev.telemetry (d : Dev) (x : Transfer) (t : Nat) (c : Capture) : Dev :=
  let d := d.observed t x.frame
  let was := (d.scan.tile t).flags
  let flags : BitVec 5 := setBit (setBit (setBit (setBit (setBit 0 0 c.segErr) 1 c.blanked) 2 c.active) 3 c.hot) 4 c.supply
  let id := descId (d.scan.tile t).desc
  let d := d.onTile t fun u => { u with flags := flags, side := some c.active }
  let d := if c.segErr then d.eventLimited 0x0502 t 1000000 (payN 0 t ||| pay 16 x.frame) else d
  let d := if c.blanked && !was.getLsbD 1 then d.event 0x0508 (payN 0 t ||| pay 16 x.frame) else d
  match c.item.toNat with
  | 0 => d.tileTemp t (c.value.setWidth 16)
  | 1 => d.onTile t fun u => { u with vsup := c.value.setWidth 16 }
  | 2 =>
    if c.value = id.setWidth 24 then d
    else d.event 0x0507 (payN 0 t ||| pay 32 ((id &&& 0xFF000000) ||| c.value.setWidth 32))
  | 3 =>
    if c.value.setWidth 8 = id.extractLsb' 24 8 then d
    else d.event 0x0507 (payN 0 t ||| pay 32 ((id &&& 0x00FFFFFF) ||| (((c.value.setWidth 8 : Byte).setWidth 32 : Word) <<< (24 : Nat))))
  | 4 => d.onTile t fun u => { u with errs := c.value.setWidth 16 }
  | _ => d

/-- Events 0x0509 and 0x050A (08 R257). -/
def Dev.sideEvents (d : Dev) (x : Transfer) (caps : List (Nat × Capture)) : Dev :=
  let act := (caps.filter fun c => c.2.active).length
  let lost := (caps.filter fun c => !c.2.active && descDual (d.scan.tile c.1).desc).length
  if x.shadow then (if act = 0 then d else d.event 0x0509 (payN 0 act ||| pay 16 x.frame))
  else if lost = 0 then d else d.event 0x050A (payN 0 lost ||| pay 16 x.frame)

/-- The captures of a window judged (08 R232, 09 R265). -/
def Dev.judgeWindow (d : Dev) (x : Transfer) (rx : List ChainRx) : Dev :=
  let d := (upTo 16).foldl (fun d c => d.chainCheck x rx c) d
  let caps := d.scan.present.filterMap fun t => (d.scan.captureOf rx t).map fun c => (t, c)
  let d := (d.scan.present.filter fun t => (d.scan.captureOf rx t).isNone).foldl
    (fun (d : Dev) t => d.onPrvTile t fun x => { x with passRun := 0 }) d
  let d := caps.foldl (fun d c => d.telemetry x c.1 c.2) d
  let d := d.sideEvents x caps
  match d.scan.judged with
  | none => d.refreshInhibits
  | some y => if y.isJudged then d.judge y rx else d.refreshInhibits

/-- Whether a window's captures are looked at: not while the RX content is descriptors or ignored (08 R238). -/
def Dev.readsCaptures (d : Dev) : Bool :=
  d.scan.step == .done && (match d.scan.light with | none => true | some y => y.ndepth != 0)

/-- The descriptors that E2 and E3 return (R238). -/
def Dev.enumWindow (d : Dev) (x : Transfer) (rx : List (List (BitVec 10))) : Dev :=
  let got := (upTo 16).map (d.scan.enumReceived x.header rx)
  match d.scan.step with
  | .e2 => ({ d with scan := { d.scan with e2 := got.map (·.1) } } : Dev).enumStreams x got false
  | .e3 => Dev.enumChecks (({ d with scan := { d.scan with e3 := got.map (·.1) } } : Dev).enumStreams x got true)
  | _ => d

/-- The last EOF has returned (08 R233), the last word having left: every capture has been checked, and the classes
of the transfer enter the records (09 R264); the Ridge's self-test runs in the blanking interval that follows (11 R321).
(DEDUCED, log 38) -/
def Dev.windowClose (d : Dev) (rx : List (List (BitVec 10))) (selfTest : Bool) : Dev :=
  match d.scan.xfer with
  | none => d
  | some x =>
    if !d.scan.window then d
    else
      let d : Dev := { d with scan := { d.scan with window := false, xfer := some { x with closed := true } } }
      let d := (d.enumWindow x rx).xferEvents x
      let d := if d.readsCaptures then d.judgeWindow x (d.scan.receive x.header (wordBytes x.depth.toNat) rx) else d
      let d : Dev := { d with prv := d.prv.storeClasses x.frame }
      let d := if selfTest then { d with sys := { d.sys with proofTests := satInc d.sys.proofTests } } else d.ridgeLost 1
      d.proofAdvance

end Sys2Proof.Machine
end

