-- ==== Sys2Proof/Machine/Roof.lean ====
section
/-! DEFINITION. The roof and its twin (chapter 16): positions, cells on Purlin, latch marks, worker status, relay rings,
admission of a worker, sync words and the twin's role. -/

namespace Sys2Proof.Machine

open Sys2Proof

/-- The 64 bytes of an entry or frame given as a bit vector. -/
def bytes64 (x : BitVec 512) : List Byte := (upTo 64).map (byteAt x)

/-- Whether the device is a manager, standalone or twin. -/
def Dev.manager (d : Dev) : Bool := d.sys.role == 0 || d.sys.role == 1

/-- Whether the device is a worker with a position. -/
def Dev.worker (d : Dev) : Bool := d.sys.role == 2 && d.roof.posValid

/-- The manager's view of roof position `k` changed by `f`. -/
def Dev.onWorker (d : Dev) (k : BitVec 3) (f : WorkerView → WorkerView) : Dev :=
  { d with roof := { d.roof with worker := updN d.roof.worker k.toNat f } }

def Dev.workerAt (d : Dev) (k : BitVec 3) : WorkerView := getN d.roof.worker k.toNat WorkerView.reset

/-! ### Positions and cells (16 R472 to R475) -/

/-- TRAIN (R472): sent by the manager once a millisecond, or received with its HOP. A ring declared broken comes up at
the return of a mark (R480). -/
def Dev.train (d : Dev) (hop : Option Byte) : Dev :=
  match hop with
  | none =>
    if d.manager && decide (d.roof.trainAt ≤ d.now) then
      Dev.sendCell { d with roof := { d.roof with trainAt := d.now + 1000 } } 1 0xFF [1]
    else d
  | some h =>
    if d.manager then
      if 8 < h.toNat then d.event 0x0C0B (pay 0 h)
      else if h.toNat = 0 then d
      else
        let w := h.toNat - 1
        { d with roof := { d.roof with
          ringUp := d.roof.ringUp || decide (d.roof.returnRun < 2), formed := d.roof.formed || decide (d.roof.returnRun < 2),
          workers := BitVec.ofNat 3 w,
          worker := d.roof.worker.mapFinIdx fun i (x : WorkerView) _ =>
            let here := decide (0 < i ∧ i ≤ w)
            { x with present := here, seenAt := if here && !x.present then d.now else x.seenAt } } }
    else if d.sys.role = 2 then
      let d : Dev := if 7 < h.toNat ∨ h = 0 then d
        else { d with roof := { d.roof with position := h.setWidth 3, posValid := true } }
      { d with roof := { d.roof with
        fwd := d.roof.fwd ++ [{ kind := 1, dst := 0xFF, src := 0, seq := 0, payload := [h + 1] }] } }
    else d

/-- Whether a cell type is one of R474. -/
def cellKnown (k : Byte) : Bool := decide (1 ≤ k.toNat) && decide (k.toNat ≤ 0x0B)

/-- Whether this device takes a cell. -/
def Dev.takes (d : Dev) (dst : Byte) : Bool := dst == d.roof.position.setWidth 8 || dst == 0xFF

/-- A cell that both lanes brought, dropped or forwarded round the ring (R474); what a taken cell does is its own command's, as
is the forwarding of TRAIN with its HOP. (DEDUCED, log 83) -/
def Dev.cellReceive (d : Dev) (x : Lanes) : Dev :=
  let me : Byte := d.roof.position.setWidth 8
  let bad : Dev := { d with roof := { d.roof with linkCode := satInc d.roof.linkCode } }
  match cellOfLanes x with
  | .crcError => { d with roof := { d.roof with linkCrc := satInc d.roof.linkCrc } }
  | .codeError => bad
  | .cell c =>
    if !cellKnown c.kind then bad
    else if c.dst = me ∨ c.src = me ∨ c.kind = 1 then d
    else { d with roof := { d.roof with fwd := d.roof.fwd ++ [c] } }

/-- ACK of a cell taken (R475). (DEDUCED, log 83) -/
def Dev.ack (d : Dev) (src kind : Byte) (seq : BitVec 16) : Dev :=
  d.sendCell 7 src (Config.cellPayload 7 (kind :: leBytes seq.toNat 2))

/-- An ACK from `src` (R475). -/
def Dev.ackReceive (d : Dev) (src kind : Byte) (seq : BitVec 16) : Dev :=
  { d with roof := { d.roof with
    unacked := d.roof.unacked.filter fun u => !(u.1.dst == src && u.1.kind == kind && u.1.seq == seq) } }

/-- An UNDELIVERED entry of ring 31 for a ring 30 entry (R483). -/
def Dev.undelivered (d : Dev) (entry : List Byte) (cause : Byte) : Dev :=
  d.putEntry 31 (relayEntry 5 ((entry[1]?).getD 0) (BitVec.ofNat 16 (leNat ((entry.drop 2).take 2)))
    (BitVec.ofNat 32 (leNat ((entry.drop 4).take 4))) cause [])

/-- The oldest unacknowledged cell is repeated after 100 us, or lost after three repeats (R475); a lost RELAY_DOWN is
answered UNDELIVERED (R483). -/
def Dev.purlinRetry (d : Dev) : Dev :=
  match d.roof.unacked with
  | [] => d
  | (c, n, t) :: rest =>
    if d.now < t + 100 then d
    else if n < 3 then
      { d with roof := { d.roof with unacked := rest ++ [(c, n + 1, d.now)], out := insertCell c d.roof.out } }
    else
      let d : Dev := { d with roof := { d.roof with unacked := rest, retryFail := satInc d.roof.retryFail } }
      if c.kind = 9 then d.undelivered c.payload 2 else d

/-! ### Encoder frames (R481, 12 R385) -/

/-- An encoder frame taken over Purlin: kind 3 by the Gable, kind 4 by the Ridge; after it counts the roof's stop. -/
def Dev.encFrame (d : Dev) (kind : Nat) (frame : BitVec 512) : Dev :=
  if d.worker && d.coreUp then
    if kind = 3 ∧ d.gbl.cfg.isSome ∧ d.gableChecks = false then d else d.flashReceive [kind] (bytes64 frame)
  else d

/-! ### Worker status (R482) -/

/-- What a STATUS cell reports. -/
structure StatusCell where
  position : BitVec 3
  mode : BitVec 4
  live : Bool
  cfg : Bool
  degCause : BitVec 4
  holdCause : BitVec 4
  attempts : Byte
  proofDone : Bool
  /-- streams in RESET: kind 3, kind 4 -/
  reset : BitVec 2
  frame : BitVec 16
  deriving DecidableEq, Repr

/-- Whether a stream of a kind waits for a restart (R481, 12 R378, R379). -/
def Dev.streamReset (d : Dev) (kind : Nat) : Bool :=
  match d.gbl.cfg with
  | none => false
  | some c => match c.fcOf kind with
    | none => false
    | some i => let x := d.flash.conns[i.val]; x.state == .reset || x.state == .timeout

/-- The STATUS cell a worker sends (R482), its content in the order of that rule. -/
def Dev.statusContent (d : Dev) : List Byte :=
  [d.sys.mode.code.setWidth 8, if d.liveG && d.liveH then 1 else 0, if d.gbl.cfg.isSome then 1 else 0,
    d.gbl.degCause.setWidth 8, d.gbl.holdCause.setWidth 8, d.sys.attempts, if d.sys.proofDone then 1 else 0,
    BitVec.ofNat 8 ((if d.streamReset 3 then 1 else 0) + if d.streamReset 4 then 2 else 0)] ++ leBytes d.scan.frame.toNat 2

/-- Event 0x0C06: the end of a ROOF_REENUM (R486). (DEDUCED, log 59) -/
def Dev.reenumEnd (d : Dev) (cause : BitVec 4) (r0 : Word) : Dev :=
  match d.roof.reenum with
  | none => d
  | some r =>
    let d : Dev := { d with roof := { d.roof with reenum := none } }
    let d := d.finishLong r.hdr 0x78 (if cause = 0 then .ok else .fault) (if cause = 0 then r0 else 0x0C06) 0
    d.event 0x0C06 (pay 0 r.position ||| pay 4 cause)

/-- STATUS (R482): sent by a worker every 10 ms, or received by the manager and shown in ROOF_W_k. -/
def Dev.status (d : Dev) (cell : Option StatusCell) : Dev :=
  match cell with
  | none =>
    if d.worker && decide (d.roof.statusAt ≤ d.now) then
      Dev.sendCell { d with roof := { d.roof with statusAt := d.now + 10000 } } 2 0 (Config.cellPayload 2 d.statusContent)
    else d
  | some s =>
    if d.manager && s.position != 0 then
      let lost := (d.workerAt s.position).lost
      let d := d.onWorker s.position fun w =>
        { w with ok := true, lost := false, seenAt := d.now, mode := s.mode, live := s.live, cfg := s.cfg, degCause := s.degCause,
                 holdCause := s.holdCause, frame := s.frame, attempts := s.attempts, proofDone := s.proofDone }
      let d : Dev := { d with roof := { d.roof with restartStream := d.roof.restartStream ||| s.reset } }
      let d := if lost then d.event 0x0C05 (pay 0 s.position) else d
      match d.roof.reenum with
      | none => d
      | some r =>
        if r.position = s.position ∧ s.mode = 6 then d.reenumEnd 0 (if s.proofDone then 1 else 0) else d
    else d

/-- Three consecutive STATUS cells of a present worker are missing (R482). -/
def Dev.statusMissing (d : Dev) (k : BitVec 3) : Dev :=
  let w := d.workerAt k
  if d.manager && w.present && !w.lost && decide (w.seenAt + 30000 < d.now) then
    (d.onWorker k fun w => { w with ok := false, lost := true }).event 0x0C05 (pay 0 k ||| payN 3 1)
  else d

/-! ### The relay rings (R483, 03 R89) -/

/-- Loft bytes as Purlin sends them: 0 in a word with an uncorrectable error (02 R58). -/
def Dev.purlinBytes (d : Dev) (a n : Nat) : List Byte :=
  (upTo n).map fun i => if d.loft.ue.contains ((a + i) / 8) then (0 : Byte) else cellGet d.loft.cells (a + i)

/-- The next entry of ring 30: relayed, answered UNDELIVERED, or dropped while Purlin is down. (DEDUCED, log 57) -/
def Dev.ring30 (d : Dev) : Dev :=
  let r := d.ringAt 30
  if r.enabled && !r.stopping && decide (0 < r.held) && d.coreUp then
    let a := r.base.toNat + 64 * (r.cons.toNat % r.entries)
    let e := d.purlinBytes a 64
    let d := (d.loftTouch a 64).ring 30 fun r => { r with cons := r.cons + 1 }
    if !d.manager || !d.roof.ringUp then d.ring 30 fun r => { r with drop := satInc r.drop }
    else
      let kind := ((e[0]?).getD 0).toNat
      let dst := ((e[1]?).getD 0)
      if kind = 0 ∨ 3 < kind then d.undelivered e 3
      else if 7 < dst.toNat ∨ (d.workerAt (dst.setWidth 3)).present = false then d.undelivered e 1
      else d.sendCell 9 dst e
  else d

/-- A RELAY_UP cell taken from a worker: its entry goes to ring 31. -/
def Dev.relayUp (d : Dev) (src : Byte) (seq : BitVec 16) (entry : BitVec 512) : Dev :=
  if d.manager && d.coreUp then (d.ack src 0x0A seq).putEntry 31 (bytes64 entry) else d

/-! ### Worker boot and admission, the manager's side (R485, R486) -/

/-- BOOTDATA cells for `n` blocks of 252 bytes from offset `off` (R474). (DEDUCED, log 80) -/
def Dev.bootCells (d : Dev) (dst : Byte) (base len off : Nat) : Nat → Dev
  | 0 => d
  | n + 1 =>
    if len ≤ off then d
    else (d.sendCell 6 dst (leBytes off 4 ++ d.purlinBytes (base + off) (min 252 (len - off)))).bootCells dst base len (off + 252) n

/-- BOOTREQ from a worker (R485): the image at ROOF_BOOT_ADDR goes out, with event 0x0C04. A range outside the host's
Loft is not sent (DEDUCED from 02 R50). -/
def Dev.bootReq (d : Dev) (src : BitVec 3) (attempts : Byte) : Dev :=
  if d.manager && d.coreUp && d.sys.mode.served && d.roof.bootLen != 0 &&
      (decide (0x40000 ≤ d.roof.bootAddr.toNat) && decide (d.roof.bootAddr.toNat + d.roof.bootLen.toNat ≤ 0x1800000)) then
    let n := d.roof.bootLen.toNat
    let a := d.roof.bootAddr.toNat
    let d := d.loftTouch a n
    let d := d.bootCells (src.setWidth 8) a n 0 (n / 252 + 1)
    d.event 0x0C04 (pay 0 src ||| pay 8 attempts)
  else d

/-- ROOF_REENUM at its start (R486), after test 6: REENUM is sent, or the command ends with its cause. -/
def Dev.reenumStart (d : Dev) (h : CmdHdr) (k : BitVec 3) : Dev :=
  let w := d.workerAt k
  let d : Dev := { d with roof := { d.roof with reenum := some { position := k, hdr := h, since := d.now } } }
  if k = 0 ∨ w.present = false ∨ d.roof.ringUp = false then d.reenumEnd 1 0
  else if w.mode ≠ 4 ∨ w.cfg = false then d.reenumEnd 2 0
  else d.sendCell 0x0B (k.setWidth 8) []

/-- ROOF_REENUM without success: PROOF failed on the worker, or 1 s has passed. (DEDUCED, log 59) -/
def Dev.reenumFail (d : Dev) : Dev :=
  match d.roof.reenum with
  | none => d
  | some r => d.reenumEnd (if r.since + 1000000 ≤ d.now then 4 else 3) 0

/-! ### Latch marks (R476 to R480) -/

/-- The slot of the coming LAT: the selection due, else the slot in force. -/
def Dev.comingSlot (d : Dev) : Fin 8 :=
  match d.effects.filterMap fun e => match e.op with | .tmodeSelect s => some s | _ => none with
  | s :: _ => s
  | [] => d.scan.slot

/-- The 12 bytes of a mark leave on PL_TX (R473, R476). -/
def Dev.putMark (d : Dev) (m : List Byte) : Dev :=
  let x := markLanes d.roof.txRd m
  { d with roof := { d.roof with mark := x, txRd := (rdAfter d.roof.txRd.1 x.1, rdAfter d.roof.txRd.2 x.2) } }

/-- A latch mark sent 16 us before a timebase instant (R476), from LOAD entry onward. While the manager sends no LATs, the
frame number of the marks counts on by itself. -/
def Dev.markSend (d : Dev) : Dev :=
  if d.manager && d.coreUp && d.sys.mode != .boot then
    let frame := if d.scan.lats && d.scan.step == .done then d.nextLat else d.roof.frame + 1
    let slot := d.comingSlot
    let flags := slot.val + (if d.twinHere && !d.roof.driving then 8 else 0) + (if d.roof.yieldHold = 0 then 0 else 16) +
      (if d.twinHere then 32 else 0)
    let m : List Byte := leBytes frame.toNat 2 ++ [BitVec.ofNat 8 flags] ++
      leBytes (d.scan.tmode[slot.val]).period.toNat 3 ++ leBytes (d.now + 16) 4 ++ [d.roof.cable]
    Dev.putMark { d with roof := { d.roof with frame := frame, marksOut := (d.roof.marksOut ++ [d.now]).take 2 } } (m ++ [crc8 m])
  else d

/-- CABLE of a measured RTT in LCLK cycles over `n` workers (R477): one LCLK cycle is 2.5 ns, one forwarding 64 cycles. -/
def cableOf (rtt n : Nat) : Byte :=
  let x := (2 * (rtt - 64 * n) + (n + 1)) / (2 * (n + 1))
  if x < 256 then BitVec.ofNat 8 x else 0xFF

/-- A mark returns to the manager (R477, R480). -/
def Dev.markReturn (d : Dev) (rtt : BitVec 16) : Dev :=
  if d.manager && d.coreUp then
    let up := d.roof.ringUp
    let d : Dev := { d with roof := { d.roof with
      rtt := rtt, cable := cableOf rtt.toNat d.roof.workers.toNat, returnRun := 0, marksOut := [],
      ringUp := true, formed := true } }
    if up then d else d.event 0x0C01 (pay 0 d.roof.workers ||| pay 16 rtt)
  else d

/-- Whether a mark sent at `t` has failed to return within RTT + 2 us (R480). -/
def Dev.markLate (d : Dev) (t : Nat) : Bool := decide (400 * t + d.roof.rtt.toNat + 800 < 400 * d.now)

/-- Two consecutive marks have not returned (R480). -/
def Dev.ringBroken (d : Dev) : Dev :=
  if d.manager && d.coreUp && d.roof.ringUp && decide (2 ≤ (d.roof.marksOut.filter d.markLate).length) then
    Dev.event { d with roof := { d.roof with ringUp := false, returnRun := 2 } } 0x0C02 (payN 3 1)
  else d

/-- The PERIOD of the frame period in progress: the light's, else the slot's (08 R248). -/
def Dev.periodNow (d : Dev) : Nat :=
  match d.scan.light with | none => d.tf | some x => x.period.toNat

/-- The LCLK time of the LAT that a mark with a CABLE names at position `k`, where it arrives at LCLK time `t` (R477): k hops and
k - 1 forwardings of 64 LCLK cycles. -/
def latOfMark (t k cable : Nat) : Nat := t + 6400 - k * cable - 64 * (k - 1)

/-- A valid mark taken by a worker (R478, R479). -/
def Dev.markTake (d : Dev) (m : BitVec 96) : Dev :=
  let frame := half16 m 0
  let flags := byteAt m 2
  let slot : Fin 8 := Fin.ofNat 8 (flags.toNat % 8)
  let period : BitVec 24 := slice m 24 24
  let lat := latOfMark (400 * d.now) d.roof.position.toNat (byteAt m 10).toNat
  let own := 400 * d.scan.latAt + d.periodNow
  let near := decide (lat ≤ own + 400 ∧ own ≤ lat + 400)
  let d : Dev := { d with roof := { d.roof with
    frame := frame, cable := byteAt m 10, markTwin := flags.getLsbD 5, markRun := 0, markAt := 400 * d.now,
    markPeriod := period, markLat := lat, markMht := word32 m 6 } }
  if d.scan.step ≠ .done then
    { d with roof := { d.roof with marks := false, flywheel := false, holding := false, nextMark := none } }
  else
    let following := d.roof.marks && !d.roof.flywheel && !d.roof.holding
    let abort := d.scan.window
    let jump := !following && !near && d.scan.lats
    let d := if jump && abort then d.abortXfer else d
    let differs := (d.scan.tmode[slot.val]).period != period
    let told := d.roof.slotMismatch
    let d : Dev := { d with roof := { d.roof with
      marks := true, flywheel := false, holding := false, slotMismatch := differs,
      nextMark := some (frame, slot, flags.getLsbD 3, flags.getLsbD 4) } }
    let d := if jump then d.event 0x0C03 (pay 0 frame ||| payN 16 (if abort then 1 else 0)) else d
    if differs && !told then d.event 0x0C0A (payN 0 slot.val ||| pay 16 period) else d

/-- A latch mark at a worker (R476, R478): forwarded, and taken where the worker has a position; one with a code error or
without a valid HCRC is no mark. (DEDUCED, log 83) -/
def Dev.markReceive (d : Dev) (x : Lanes) : Dev :=
  if d.sys.role = 2 then
    match markOfLanes x with
    | none => { d with roof := { d.roof with linkCode := satInc d.roof.linkCode } }
    | some m =>
      let d := d.putMark m
      if d.worker && crc8 (m.take 11) == m.getD 11 0 then d.markTake (BitVec.ofNat 96 (leNat m)) else d
  else d

/-- Whether no mark has come within 1 us of its expected time (R479). -/
def Dev.markOverdue (d : Dev) : Bool := decide (d.roof.markAt + d.roof.markPeriod.toNat + 400 < 400 * d.now)

/-- A mark is missing (R479): the worker flywheels, or withholds its LATs when the marks carried TWIN. -/
def Dev.markMissing (d : Dev) : Dev :=
  if d.worker && d.coreUp && (d.roof.marks || d.roof.flywheel || d.roof.holding) && d.markOverdue then
    let n := d.roof.markRun + 1
    let step := d.roof.markPeriod.toNat
    let d : Dev := { d with roof := { d.roof with
      markRun := n, markMiss := satInc d.roof.markMiss, marks := false, markAt := d.roof.markAt + step,
      markLat := d.roof.markLat + step } }
    let d : Dev :=
      if d.roof.markTwin then
        let d : Dev := { d with roof := { d.roof with holding := true, flywheel := false, nextMark := none } }
        if d.scan.lats then d.withhold else d
      else { d with roof := { d.roof with flywheel := true, nextMark := some (d.nextLat, d.scan.slot, d.scan.shadow, false) } }
    if n = 2 then d.event 0x0C02 (pay 0 d.roof.position) else d
  else d

/-! ### Sync words (R487, R488) -/

/-- HEALTH of a mode. -/
def Mode.health : Mode → BitVec 2
  | .run | .service => 2
  | .degraded => 1
  | _ => 0

/-- A sync word sent 20 us before a timebase instant (R487). A side that sends no LATs stands by from here (R489). -/
def Dev.syncSend (d : Dev) : Dev :=
  if d.twinHere && d.coreUp && d.sys.mode != .boot then
    let frame := if d.scan.lats then d.nextLat else d.roof.frame + 1
    let d := if d.sys.mode.mayDrive then d else d.twinRole false 1 frame
    let w : BitVec 24 := (frame.setWidth 24) ||| (BitVec.ofNat 24 d.comingSlot.val <<< 16) |||
      (if d.roof.driving then (1 : BitVec 24) <<< 19 else 0) ||| (d.sys.mode.health.setWidth 24 <<< 20)
    let c := crc8 [byteAt w 0, byteAt w 1, byteAt w 2]
    { d with roof := { d.roof with sync := syncLine (c ++ w) } }
  else d

/-- A sync word received (R488) whose start edge came 3.5 us ago, `interval` LCLK cycles after the one before: a side that does
not drive genlocks to it, its instant 20 us after the edge, unless its own PERIOD differs from the interval by more than
1 us. (DEDUCED, log 86) -/
def Dev.syncTake (d : Dev) (w : Word) (interval : BitVec 24) : Dev :=
  let edge := 400 * d.now - 1400
  let d : Dev := { d with roof := { d.roof with syncAt := edge } }
  if crc8 [byteAt w 0, byteAt w 1, byteAt w 2] ≠ byteAt w 3 then
    { d with roof := { d.roof with badWords := satInc d.roof.badWords } }
  else
    let back := decide (2 ≤ d.roof.missRun)
    let frame := half16 w 0
    let slot := Fin.ofNat 8 ((w >>> (16 : Nat)).toNat % 8)
    let d : Dev := { d with roof := { d.roof with
      peerFrame := frame, peerSlot := slice w 16 3, peerDriving := w.getLsbD 19, peerHealth := slice w 20 2,
      peerOk := true, missRun := 0 } }
    let d := if back then d.event 0x0C07 0 else d
    if d.roof.driving then { d with roof := { d.roof with genlocked := false } }
    else
      let p := d.periodNow
      let i := interval.toNat
      if p + 400 < i ∨ i + 400 < p then
        Dev.event { d with roof := { d.roof with genlocked := false, nextMark := none } } 0x0C09 (pay 0 interval)
      else { d with roof := { d.roof with genlocked := true, markLat := edge + 8000, nextMark := some (frame, slot, true, false) } }

/-- What SYNC_IN brings of a word (R487, R488): levels that are no word are ignored. (DEDUCED, log 86) -/
def Dev.syncReceive (d : Dev) (line : List Bool) (interval : BitVec 24) : Dev :=
  if d.twinHere && d.coreUp then match syncOfLine line with | none => d | some w => d.syncTake w interval else d

/-- Whether the start of a word has not come within 2 us of its expected time (R488). -/
def Dev.syncOverdue (d : Dev) : Bool := decide (d.roof.syncAt + d.periodNow + 800 < 400 * d.now)

/-- A sync word is missing (R488): after two in a row the peer is lost. -/
def Dev.syncMissing (d : Dev) : Dev :=
  if d.twinHere && d.coreUp && d.syncOverdue then
    let n := d.roof.missRun + 1
    let d : Dev := { d with roof := { d.roof with missRun := n, misses := satInc d.roof.misses, syncAt := d.roof.syncAt + d.periodNow } }
    if n = 2 then
      Dev.event { d with roof := { d.roof with peerOk := false, genlocked := false } } 0x0C07 1
    else d
  else d

end Sys2Proof.Machine
end

