-- ==== Sys2Proof/Machine/Boot.lean ====
section
/-! DEFINITION. Power-up, resets, the boot ROM, RETENTION and STANDBY (15 R447 to R467, 16 R485). -/

namespace Sys2Proof.Machine

open Sys2Proof

def Dev.onSys (d : Dev) (f : Sys → Sys) : Dev := { d with sys := f d.sys }

/-! ### Register words that boot records (R468) -/

/-- SYS_BOOT. -/
def Sys.bootWord (s : Sys) : Word :=
  fld 0 s.attempts ||| fld 8 s.bootLast ||| bit 12 (decide (3 ≤ s.attempts)) ||| fld 16 s.window

/-- SYS_RESET_REC. -/
def Sys.resetWord (s : Sys) : Word :=
  fld 0 s.cause ||| bit 3 s.long ||| fld 4 s.duration ||| fld 24 s.resets

/-- FAULT_N is low (R456). -/
def Dev.faultLow (d : Dev) : Bool :=
  d.sys.mode != .off && d.sys.mode != .standby &&
    (decide (3 ≤ d.sys.attempts) || d.sys.refused || d.sys.lockRetry || d.sys.mode == .safeHold)

/-! ### The boot ROM (R451 to R455, 16 R485) -/

/-- The window of an attempt in milliseconds (R451). -/
def Sys.attemptMs (s : Sys) : Nat := 100 * 2 ^ min s.attempts.toNat 6

/-- An attempt opens (R451, R452): WINDOW is written; a Purlin boot sends BOOTREQ (R454, 16 R485). -/
def Dev.openAttempt (d : Dev) : Dev :=
  let d := d.onSys fun s => { s with attemptOpen := true, attemptAt := d.now, window := BitVec.ofNat 16 s.attemptMs }
  if d.sys.role = 2 ∧ d.sys.bootsel = true then
    let d : Dev := { d with roof := { d.roof with bootGot := 0 } }
    d.sendCell 5 0 (Config.cellPayload 5 [d.sys.attempts])
  else d

/-- An attempt failed (R451): ATTEMPTS counts, and the next attempt opens. -/
def Dev.failAttempt (d : Dev) (last : BitVec 3) : Dev :=
  if d.sys.mode = .boot ∧ d.sys.attemptOpen = true then
    (d.onSys fun s => { s with bootLast := last, attempts := satInc s.attempts }).openAttempt
  else d

/-- An attempt's window ends unanswered (R451). -/
def Dev.bootWindowExpire (d : Dev) : Dev :=
  if d.sys.attemptAt + 1000 * d.sys.attemptMs ≤ d.now then d.failAttempt (if d.sys.bootsel then 4 else 1) else d

/-- A T image accepted (R455): the records that events 0x0102 and 0x0103 will carry, ATTEMPTS 0, the image started, LOAD,
and event 0x0707 where a thermal shutdown owes it (10 R311). -/
def Dev.acceptBoot (d : Dev) (f : List Byte) (base : Nat) : Dev :=
  let d := d.onSys fun s => { s with
    recordOwed := true, historyOwed := decide (s.attempts ≠ 0), recordWord := s.resetWord, recordTrap := s.trapCause,
    historyWord := s.bootWord, attempts := 0, attemptOpen := false }
  let d := (d.loadTruss f base).toMode .load 2 0
  if d.thm.shutdownEvent then
    Dev.event { d with thm := { d.thm with shutdownEvent := false } } 0x0707 0
  else d

/-- The image received over Purlin, checked as an IMAGE_LOAD of a T image (R452, R454, 16 R485). -/
def Dev.purlinImage (d : Dev) (o : Otp) (len : Nat) : Dev :=
  let ue := d.loftUe 0x40000 len
  let f := d.loftBytes 0x40000 len
  let d := d.loftTouch 0x40000 len
  if ue then d
  else match imageCheck f 0x40000 len 0 with
    | some x => (d.noteCheck (some x) 0).failAttempt 2
    | none =>
      let d := d.noteCheck none 0
      if imageAuth o d.gbl.cfg f 0 = 0 then d.acceptBoot f 0x40000 else d.failAttempt 3

/-- BOOTDATA at a worker that boots over Purlin (16 R485): acknowledged and placed in order; the image is complete with
the 128 bytes of its signature (04 R127). (DESIGN CHOICE, log 27; DEDUCED, log 80) -/
def Dev.bootData (d : Dev) (o : Otp) (src : Byte) (seq : BitVec 16) (off : Word) (bytes : List Byte) : Dev :=
  if d.worker && d.coreUp then
    let d := d.ack src 6 seq
    if d.sys.mode = .boot ∧ d.sys.bootsel = true ∧ d.sys.attemptOpen = true ∧ off.toNat = d.roof.bootGot ∧
        loftFree (0x40000 + off.toNat) bytes.length = true then
      let d := d.loftWrite (0x40000 + off.toNat) bytes
      let got := d.roof.bootGot + bytes.length
      let d : Dev := { d with roof := { d.roof with bootGot := got } }
      let len := sigOffset (d.loftBytes 0x40000 64) + 128
      if 64 ≤ got ∧ len ≤ got then d.purlinImage o len else d
    else d
  else d

/-! ### Power (R447 to R449) -/

/-- Every supply within its range for 1 ms: the power-on reset ends, and the PLL locks in its 1 ms or not (R447). -/
def Dev.powerOn (d : Dev) (locked : Bool) : Dev :=
  if d.sys.hold.brown then
    let up := if d.soffit.powered then d else d.soffitPowerUp
    up.onSys fun s => { s with
      hold := { s.hold with brown := false }, vstby := true, rails := true, lock := locked, lockRetry := false,
      lockDue := if locked then none else some (d.alwaysOn + 1000) }
  else d

/-- The PLL lock restarts, 1 ms after the power-on reset and then every 10 ms (R447). -/
def Dev.pllRetry (d : Dev) (locked : Bool) : Dev :=
  match d.sys.lockDue with
  | none => d
  | some t =>
    if d.sys.hold.brown || decide (d.alwaysOn < t) then d
    else (d.onSys fun s => { s with
      lockTries := satInc s.lockTries, lock := locked, lockRetry := !locked,
      lockDue := if locked then none else some (t + 10000) }).startCk

/-- A core rail below its threshold for 2 us (R449), VDD_ANA with the Soffit's supply (13 R393); in STANDBY the rails are
removed and nothing else happens (R465). -/
def Dev.brownOut (d : Dev) (ana : Bool) : Dev :=
  let d := if ana then d.soffitPowerDown else d
  let d := d.onSys fun s => { s with rails := false }
  if d.sys.mode = .standby ∨ d.sys.mode = .off then d.onSys fun s => { s with hold := { s.hold with brown := true } }
  else (d.beginReset 4 fun h => { h with brown := true }).onSys fun s => { s with lock := false, lockRetry := false, lockDue := none }

/-- VSTBY below its range (R441, R448): OFF at once; the always-on domain forgets (R453, R468, R469, 17 R502). -/
def Dev.vstbyLoss (d : Dev) : Dev :=
  let d := d.beginReset 0 fun h => { h with brown := true, thermal := false, truss := false, ridge := false }
  let d := d.soffitPowerDown
  { d with
    sys := { d.sys with
      mode := .off, prev := d.sys.mode, resetCause := some 0, vstby := false, rails := false, stbyOut := false,
      attempts := 0, bootLast := 0, window := 0, cause := 0, long := false, duration := 0, resets := 0, trapCause := 0,
      trapTpc := 0, lock := false, lockTries := 0, lockRetry := false, lockDue := none, wakeRec := Vector.replicate 16 0,
      pending := none, lowTime := 0 },
    thm := { d.thm with shutdownEvent := false },
    acc := { d.acc with pwFail := 0, crFail := 0, pwUntil := 0, crUntil := 0, lapse := none } }

/-! ### RST_N and the device's own resets (R457 to R459) -/

/-- RST_N low for 2 ms (R457): ignored once STBY_OUT has risen; before that the reset ends STANDBY's entry (R467).
(DEDUCED, log 80) -/
def Dev.rstAssert (d : Dev) : Dev :=
  if d.sys.stbyOut then d
  else (d.beginReset 1 fun h => { h with rstN := true }).onSys fun s =>
    { s with mode := if s.mode = .standby then .boot else s.mode, rstAt := if d.sys.hold.rstN then s.rstAt else d.alwaysOn }

/-- RST_N high for 2 ms (R457): both edges are seen 2 ms late, so the low lasted from the one to the other. -/
def Dev.rstRelease (d : Dev) : Dev :=
  if d.sys.hold.rstN then
    d.onSys fun s => { s with hold := { s.hold with rstN := false }, lowTime := min ((d.alwaysOn - s.rstAt) / 10000) 6000 }
  else d

/-- The Truss has been halted by a trap for 2 ms with no debugger attached (R458). (DEDUCED, log 80) -/
def Dev.trussHaltReset (d : Dev) : Dev :=
  if d.coreUp && d.thatch.truss.mode == .halted && !d.acc.attached && decide (d.sys.haltAt + 2000 ≤ d.alwaysOn) then
    d.beginReset 3 fun h => { h with truss := true }
  else d

/-- Whether the reset in force can end: each of its causes has ended under its own rule (R458, R459). -/
def Dev.mayEnd (d : Dev) : Bool :=
  let s := d.sys
  s.resetCause.isSome && !s.hold.rstN && !s.hold.thermal && !s.hold.brown && s.lockDue.isNone && s.mode != .standby &&
    (!s.hold.ridge || decide (s.ridgeAt + 2000 ≤ d.alwaysOn))

/-- The reset record as a reset's end leaves it (R459, R468). -/
def Sys.record (s : Sys) (truss : Core) (role : BitVec 2) (bootsel : Bool) : Sys :=
  let cause := s.resetCause.getD 0
  let low := if cause = 1 then s.lowTime else 0
  { Sys.reset with
    attempts := s.attempts, bootLast := s.bootLast, window := s.window, wakeRec := s.wakeRec,
    lockTries := s.lockTries, vstby := s.vstby, rails := s.rails, cause := cause, long := decide (1000 < low),
    duration := BitVec.ofNat 13 low, resets := satInc s.resets,
    trapCause := if cause = 3 then truss.tcause else 0, trapTpc := if cause = 3 then truss.tpc else 0,
    role := role, bootsel := bootsel }

/-- The access controller as a reset leaves it (R459, 17 R502, R514); the TAP runs on (17 R509). -/
def Acc.afterReset (a : Acc) : Acc :=
  { Acc.reset with
    pwFail := a.pwFail, crFail := a.crFail, pwUntil := a.pwUntil, crUntil := a.crUntil, draws := a.draws,
    jtag := a.jtag, tdr := a.tdr, tir := a.tir, captured := a.captured, boundary := a.boundary }

/-- What the memories of the core die hold after a loss of its supplies: what they hold at power-on. (DESIGN CHOICE, log 1) -/
def Dev.forget (d : Dev) : Dev :=
  { d with
    loft := Loft.reset,
    thatch := { d.thatch with trussMem := CoreMem.reset, gableMem := CoreMem.reset },
    course := { d.course with eng := Vector.replicate 8 Engine.reset } }

/-- The memories that no rule clears, with their error marks, and the Soffit die, which has its own supply (13 R393). -/
def Dev.keptMemories (d : Dev) (role : BitVec 2) (bootsel : Bool) : Dev :=
  let t := d.thatch
  let eng := d.course.eng.map (fun (e : Engine) => { Engine.reset with slotMem := e.slotMem })
  { Dev.reset with
    loft := { Loft.reset with cells := d.loft.cells, ue := d.loft.ue, ce := d.loft.ce },
    thatch := { Thatch.reset with
      trussMem := t.trussMem, gableMem := t.gableMem, soffit := t.soffit.release, soffitMem := t.soffitMem,
      soffitImage := t.soffitImage, soffitWait := t.soffitWait, draws := t.draws },
    course := { Course.reset with eng := eng },
    thm := { Thermal.reset with shutdownEvent := d.thm.shutdownEvent },
    soffit := d.soffit,
    sys := d.sys.record t.truss role bootsel,
    roof := Roof.reset role,
    acc := d.acc.afterReset,
    alwaysOn := d.alwaysOn }

/-- The device as a reset's end leaves it (R459): after a power-up, a brown-out or STANDBY without what its memories held. -/
def Dev.afterReset (d : Dev) (role : BitVec 2) (bootsel : Bool) : Dev :=
  let x := d.keptMemories role bootsel
  if x.sys.cause = 0 ∨ x.sys.cause = 4 ∨ x.sys.cause = 5 then x.forget else x

/-- A reset ends (R450, R459): the straps sampled, the record updated, BOOT with its first attempt or, on a refused
combination, LAST 5 and no attempt. -/
def Dev.resetEnd (d : Dev) (role : BitVec 2) (bootsel : Bool) : Dev :=
  if d.mayEnd then
    let d := d.afterReset role bootsel
    let d := (d.interrupt 5).event 0x0101 (pay 0 (Mode.code .boot) ||| payN 8 2)
    if role = 3 ∨ (bootsel = true ∧ role ≠ 2) then
      d.onSys fun s => { s with refused := true, bootLast := 5, attemptOpen := false }
    else d.openAttempt
  else d

/-- Whether what a clock monitor finds is a fault (R460): a count outside 15 % of its nominal value, a microsecond without an
edge, or a PLL out of lock. -/
def ClockSeen.isFault : ClockSeen → Bool
  | .window c l => decide (c < 1360) || decide (1840 < c) || decide (l < 2720) || decide (3680 < l)
  | .noEdge c l => decide (1 ≤ c) || decide (1 ≤ l)
  | .unlocked => true

/-- A finding of the clock monitors (R460, R461), which run while the clocks do. (DESIGN CHOICE, log 84) -/
def Dev.clockFault (d : Dev) (x : ClockSeen) : Dev := if d.coreUp && x.isFault then d.ridgeLost 2 else d

/-! ### RETENTION and STANDBY (R462 to R466) -/

/-- RETENTION entered, after its MODE_REQUEST has completed (R462, 07 R213). (DESIGN CHOICE, log 84) -/
def Dev.enterRetention (d : Dev) : Dev :=
  let d := d.vinShortAll
  (d.toMode .retention 1 0).onSys fun s => { s with retStart := d.alwaysOn, lock := false }

/-- STANDBY entered, after its MODE_REQUEST has completed (R464, 17 R503); STBY_OUT rises after it.
(DESIGN CHOICE, log 84) -/
def Dev.enterStandby (d : Dev) : Dev :=
  let d := (d.vinShortAll).toMode .standby 1 0
  { d with gbl := { d.gbl with cfg := none },
           acc := { d.acc.endDrive with level := 0, lapse := none, attached := false, attachPending := false },
           sys := { d.sys with lock := false } }

/-- WAKE_N low for 100 us in RETENTION (R463, R441): the mode, event 0x0105, the streams, and a lapse of the level that
fell into the interval (17 R503). (DESIGN CHOICE, log 84) -/
def Dev.retentionWake (d : Dev) : Dev :=
  if d.sys.mode = .retention ∧ d.sys.hold.clear = true then
    let ms := min ((d.alwaysOn - d.sys.retStart) / 1000) 0xFFFFFFFF
    let m : Mode := if d.sys.retFromArmed then .proof else .load
    let d := d.onSys fun s => { s with lock := true, retMs := BitVec.ofNat 32 ms }
    let d := (d.toMode m 3 0).event 0x0105 (payN 0 ms)
    let d : Dev := { d with thatch := { d.thatch with gableWait := [] } }
    let d := d.flashStart true
    match d.acc.lapse with
    | none => d
    | some t => if t ≤ d.alwaysOn then d.lapse 2 else d
  else d

/-- WAKE_N low for 1 ms in STANDBY (R466): STBY_OUT falls, and power-up leads to BOOT with CAUSE 5.
(DESIGN CHOICE, log 84) -/
def Dev.standbyWake (d : Dev) : Dev :=
  if d.sys.mode = .standby ∧ d.sys.stbyOut = true ∧ d.sys.stbyAt + 10000 ≤ d.alwaysOn then
    { d with sys := { d.sys with
        mode := .off, prev := .standby, stbyOut := false, hold := { ResetHold.none with brown := true },
        resetCause := some 5, lock := false, lockTries := 0, lockRetry := false, lockDue := none } }
  else d

end Sys2Proof.Machine
end

