-- ==== Sys2Proof/Machine/RegRead.lean ====
section
/-! DEFINITION. What every register reads as (02 R46, R47): one table per block, and the byte that an address of the host
address map holds. A register that a table does not list is unmapped. -/

namespace Sys2Proof.Machine

open Sys2Proof

/-- A field and a bit of a register word. -/
def rf {w : Nat} (lsb : Nat) (x : BitVec w) : Word := fld lsb x
def rb (i : Nat) (b : Bool) : Word := bit i b

/-- The entry of a register table at an offset. -/
def regAt (off : Nat) (t : List (Nat × Word)) : Option Word := (t.find? fun p => p.1 == off).map (·.2)

/-- `n` registers of a bit map, 32 bits each, from offset `off`. -/
def mapRegs {w : Nat} (off : Nat) (x : BitVec w) (n : Nat) : List (Nat × Word) :=
  (upTo n).map fun m => (off + 4 * m, x.extractLsb' (32 * m) 32)

/-- Whole seconds left of a number of microseconds. -/
def secondsLeft (us : Nat) : Nat :=
  us / 1000000 + (if us % 1000000 ≠ 0 ∧ Config.roundUpSeconds (us % 1000000) = true then 1 else 0)

/-- A two-field register of 16 bits each. -/
def halves (lo hi : BitVec 16) : Word := rf 0 lo ||| rf 16 hi

/-! ### SYS_ (00 R2, 02 R40 to R45, R61, 03 R76, 04 R132, 15 R468, R469) -/

def Sys.modeWord (s : Sys) : Word :=
  rf 0 s.mode.code ||| rf 4 s.prev.code |||
    (match s.pending with | none => 0 | some p => rb 8 true ||| rf 9 p.target.code) ||| rf 16 s.modeFrame

def Sys.proofWord (s : Sys) : Word :=
  rb 0 s.proofDone ||| rb 1 s.proofFail ||| rb 2 s.proofBusy ||| rf 3 s.proofStep ||| rf 16 s.proofAge

def Dev.sysRead (d : Dev) (off : Nat) : Option Word :=
  let s := d.sys
  regAt off <|
    [(0x000, 0x1A160001), (0x004, 0x00004200), (0x010, s.modeWord), (0x014, s.proofWord),
     (0x018, rf 0 s.role ||| rb 2 s.bootsel ||| rb 3 s.refused), (0x01C, s.bootWord), (0x020, s.resetWord),
     (0x024, rf 0 s.trapCause), (0x028, s.trapTpc), (0x02C, rb 0 s.lock ||| rf 8 s.lockTries),
     (0x030, s.htime.setWidth 32), (0x034, s.htimeHi), (0x038, s.retMs),
     (0x100, rf 0 d.hp.proto ||| rf 8 d.hp.dummy), (0x104, rf 0 d.hp.flags ||| rf 8 d.hp.proto),
     (0x108, d.hp.errAddr), (0x110, rf 0 d.int.status), (0x114, rf 0 d.int.enable), (0x118, d.int.ring),
     (0x120, halves d.loft.ceCount d.loft.ueCount), (0x124, rf 0 d.loft.ueAddr ||| rb 31 d.loft.ueValid),
     (0x128, d.loft.scrubPass), (0x130, rf 0 d.unrouted),
     (0x140, rf 0 d.thatch.imgCause ||| rf 4 d.thatch.imgProfile), (0x144, rf 0 d.thatch.imgOffset)] ++
    (upTo 16).map fun k => (0x200 + 4 * k, getN s.wakeRec k 0)

/-! ### RING_ (03 R66) -/

def Dev.ringRead (d : Dev) (off : Nat) : Option Word :=
  let n := off / 64
  let r := d.ringAt n
  let cmd (x : Word) : Word := if n < 24 then x else 0
  regAt (off % 64)
    [(0x00, rf 0 r.base), (0x04, cmd (rf 0 r.cplBase)), (0x08, if r.stopping then 0 else rf 0 r.log2), (0x0C, rf 0 r.prod),
     (0x10, rf 0 r.cons), (0x14, cmd (rf 0 r.cplProd)), (0x18, cmd (rf 0 r.cplCons)),
     (0x1C, rf 0 r.prio ||| rf 8 r.irqCount ||| rf 16 r.irqTime),
     (0x20, if 24 ≤ n ∧ n < 28 then rf 1 r.classMask else 0),
     (0x24, rb 0 r.enabled ||| rb 1 r.cfgErr ||| rb 2 r.badIndex ||| rb 3 r.overflow ||| rb 4 r.stalled),
     (0x28, rf 0 r.drop)]

/-! ### ENG_ and CTX_ (05 R158, 06 R193 to R195) -/

def Engine.slotMask (e : Engine) : Byte :=
  (upTo 8).foldl (fun (m : Byte) k => setBit m k (getN e.slots k none).isSome) 0

def Dev.engineRead (d : Dev) (n off : Nat) : Option Word :=
  let e := getN d.course.eng n Engine.reset
  regAt off
    [(0x00, rf 0 e.svc ||| rf 2 e.fcause ||| rf 4 e.slotMask ||| rb 12 e.bistFail ||| rf 16 e.bistFrame),
     (0x04, rf 0 e.patches), (0x08, e.busy), (0x0C, e.bistSig), (0x10, rf 0 e.traps)]

def Dev.ctxRead (d : Dev) (n off : Nat) : Option Word :=
  let c := getN d.course.ctx n Context.reset
  let state : BitVec 3 := match c.state with
    | .idle => 0 | .ready => 1 | .running => 2 | .draining => 3 | .suspended => 4 | .retired => 5
  regAt off <|
    [(0x00, rf 0 state ||| rb 3 c.ls ||| rf 4 c.scause ||| rf 8 c.epoch ||| rf 16 c.rank),
     (0x04, (if c.slotValid then rf 0 (BitVec.ofNat 3 c.engine.val) ||| rf 3 (BitVec.ofNat 3 c.slot.val) ||| rb 6 true
             else 0) ||| rf 16 c.switchFrame),
     (0x08, rf 0 c.handle), (0x0C, c.entry), (0x10, c.src), (0x14, c.cycles),
     (0x18, rf 0 c.tcause ||| rf 8 c.tpatch ||| rf 16 c.tframe), (0x1C, c.tpc)] ++ mapRegs 0x20 c.mask 8

def Dev.runRead (d : Dev) (off : Nat) : Option Word :=
  let c := d.course
  regAt off <|
    [(0xE00, rb 0 c.latePolicy ||| rb 1 c.autocommit),
     (0xE04, rf 0 c.run.frame ||| rf 16 (BitVec.ofNat 9 (popcount c.run.done)) ||| rb 25 c.active ||| rb 26 c.late),
     (0xE08, halves c.lateRuns c.dropped), (0xE0C, rf 0 c.discard), (0xE10, rf 0 c.finish.handle),
     (0xE14, c.finish.entry), (0xE18, rf 0 (BitVec.ofNat 7 d.freeSlots)), (0xF00, rf 0 c.limit)] ++
    mapRegs 0xE20 c.run.done 8

def Dev.courseRead (d : Dev) (off : Nat) : Option Word :=
  if off < 0x100 then d.engineRead (off / 32) (off % 32)
  else if 0x1040 ≤ off ∧ off < 0x2000 then d.ctxRead ((off - 0x1000) / 64) (off % 64)
  else d.runRead off

/-! ### VIN_ (07 R198, R216 to R218) -/

def BufState.code : BufState → BitVec 2
  | .free => 0 | .filling => 1 | .ready => 2 | .held => 3

def Stream.read (st : Stream) (off : Nat) : Option Word :=
  let desc : Word := match st.desc with
    | none => 0
    | some x => rb 0 true ||| rf 1 x.vc ||| rf 3 x.nbuf ||| rb 5 x.keep ||| rb 6 x.auto
  let bufs : Word := (upTo 3).foldl (fun (w : Word) k => w ||| rf (8 + 2 * k) (getN st.bufs k .free).code) 0
  let ready := st.ready
  let of {α : Type} (v : Vector α 3) (z : α) : α := match ready with | none => z | some k => v[k]
  regAt off
    [(0x00, desc ||| rb 7 st.lost ||| bufs ||| rf 16 st.frame),
     (0x04, rf 0 (of st.bufFrame 0) ||| rb 16 ready.isSome), (0x08, of st.bufTime 0), (0x0C, rf 0 st.bytes),
     (0x10, halves st.cComplete st.cErrored), (0x14, halves st.cShort st.cLong),
     (0x18, halves st.cDropped st.cOverwritten), (0x1C, halves st.cCrc st.cOrphan)]

def Source.read (x : Source) (off : Nat) : Option Word :=
  let hold : Word := match x.hold with
    | none => 0
    | some h => rf 4 (BitVec.ofNat 2 h.buf.val) ||| rb 6 true ||| rf 16 h.frame
  let link : Word := match x.desc.bind (·.link) with
    | none => 0
    | some s => rb 1 true ||| rf 2 (BitVec.ofNat 2 s.val)
  regAt off
    [(0x0, rb 0 x.desc.isSome ||| link ||| hold),
     (0x4, match x.desc with | none => 0 | some y => rf 0 y.fmt ||| rb 4 y.range),
     (0x8, match x.desc with | none => 0 | some y => halves y.width y.height), (0xC, rf 0 x.repeats)]

def Dev.vinRead (d : Dev) (off : Nat) : Option Word :=
  let v := d.vin
  if 0x100 ≤ off ∧ off < 0x180 then (getN v.streams ((off - 0x100) / 32) Stream.reset).read (off % 32)
  else if 0x400 ≤ off ∧ off < 0x500 then (getN v.sources ((off - 0x400) / 16) Source.reset).read (off % 16)
  else regAt off
    [(0x000, rf 0 v.lanes ||| rb 2 v.en ||| rf 8 v.dpol ||| rb 12 v.cpol),
     (0x004, rb 0 v.hs ||| rb 1 v.stop ||| rb 2 v.ulps ||| rb 3 v.cfgErr), (0x008, halves v.eccCe v.eccUe),
     (0x00C, halves v.sot v.unrouted)]

/-! ### SCO_ and BAT_ (08 R258 to R261) -/

def Tile.read (t : Tile) (off : Nat) : Option Word :=
  let x := t.desc
  regAt off
    [(0x0, halves t.x t.y),
     (0x4, rf 0 (BitVec.ofNat 10 (descAcross x)) ||| rf 10 (BitVec.ofNat 10 (descDown x)) |||
        rf 20 (BitVec.ofNat 3 (descEps x)) ||| rb 23 (descDual x) ||| rb 24 t.present ||| rb 25 ((descFlags x).getLsbD 1) |||
        rf 26 ((descFlags x).extractLsb' 2 2)),
     (0x8, rf 0 (BitVec.ofNat 16 (descTdiag x)) ||| rf 16 (BitVec.ofNat 5 (descDmin x)) |||
        rf 21 (BitVec.ofNat 5 (descDmax x)) ||| rf 26 (BitVec.ofNat 5 (descPmax x))),
     (0xC, descId x)]

def Scan.chainRead (s : Scan) (c : Nat) : List (Nat × Word) :=
  let e := getN s.chains c ChainErr.reset
  let len := if s.enumValid then s.chainLen s.slotNow.depth.toNat c else 0
  [(0x200 + 8 * c, rf 0 (BitVec.ofNat 4 (s.chainTiles c).length) ||| rf 4 (BitVec.ofNat 20 len)),
   (0x204 + 8 * c, rf 0 e.capCrc ||| rf 8 e.length ||| rf 16 e.code ||| rf 24 e.missing)]

def Scan.slotRead (s : Scan) (k : Nat) : List (Nat × Word) :=
  let m := getN s.tmode k (TMode.of 0 0 0)
  [(0x100 + 8 * k, rf 0 m.period ||| rf 24 m.depth),
   (0x104 + 8 * k, rf 0 m.pwmper ||| rf 8 m.div ||| rf 16 m.g)]

def Scan.read (s : Scan) (off : Nat) : Option Word :=
  if 0x1000 ≤ off ∧ off < 0x1800 then (s.tile ((off - 0x1000) / 16)).read (off % 16)
  else if 0x2000 ≤ off ∧ off < 0x2400 then
    let t := s.tile ((off - 0x2000) / 8)
    regAt (off % 8) [(0, halves t.temp t.vsup), (4, rf 0 t.flags ||| rf 16 t.errs)]
  else if 0x200 ≤ off ∧ off < 0x280 then regAt off (s.chainRead ((off - 0x200) / 8))
  else if 0x100 ≤ off ∧ off < 0x140 then regAt off (s.slotRead ((off - 0x100) / 8))
  else regAt off <|
    [(0x00, rb 0 s.split),
     (0x04, rf 0 s.state ||| rf 3 (BitVec.ofNat 3 s.slot.val) ||| rb 6 s.shadow ||| rb 7 s.cfgErr ||| rf 16 s.frame),
     (0x08, rf 0 (if s.pending then s.commitFrame else s.cbufFrame) ||| rb 16 s.pending ||| rb 17 s.pbuf ||| rb 18 s.cbuf),
     (0x0C, rf 0 s.xferSrc ||| rb 16 s.xferRepeat), (0x10, halves s.underA s.underB),
     (0x14, rb 0 s.enumValid ||| rb 1 s.enumBusy ||| rf 2 s.enumCause ||| rf 8 s.enumTiles), (0x18, s.enumHash),
     (0x1C, halves s.gridW s.gridH)] ++ mapRegs 0x20 s.late 8

/-! ### PRV_ (09 R283 to R286) -/

def PrvTile.read (t : PrvTile) (off : Nat) : Option Word :=
  regAt off
    [(0, halves t.dwl t.stuck),
     (4, rf 0 t.unver ||| rf 16 t.mismatch ||| rb 24 t.unobs ||| rb 25 t.unobserved ||| rb 26 t.kept)]

def quarRead (q : Option Quar) (off : Nat) : Option Word :=
  match q with
  | none => regAt off [(0, 0), (4, 0)]
  | some q => regAt off [(0, rf 0 q.kind ||| rf 2 q.darkRun ||| rb 8 q.sf1 ||| rf 9 q.offset), (4, q.tileId)]

def PrvString.word (s : PrvString) : Word :=
  rb 0 s.isOpen ||| rb 1 s.stuckOn ||| rb 2 s.onTested ||| rb 3 s.offTested ||| rb 4 s.provenOn ||| rb 5 s.provenOff |||
    rf 16 s.fails

def Proving.quarStatus (p : Proving) : Word :=
  let l := p.quar.toList.filterMap id
  rf 0 (BitVec.ofNat 8 l.length) ||| rf 8 (BitVec.ofNat 8 (l.filter (·.sf1)).length)

def Dev.prvRead (d : Dev) (off : Nat) : Option Word :=
  let p := d.prv
  if 0x1000 ≤ off ∧ off < 0x1400 then
    let t := (off - 0x1000) / 8
    (if d.scan.present.contains t then getN p.tiles t PrvTile.reset else PrvTile.reset).read (off % 8)
  else if 0x2000 ≤ off ∧ off < 0x2400 then quarRead (p.quarAt ((off - 0x2000) / 8)) (off % 8)
  else if 0x3000 ≤ off ∧ off < 0x3020 then
    let c := (off - 0x3000) / 4
    regAt (off % 4)
      [(0, if (getN d.str c StrChannel.reset).mode = 2 then (getN p.strings c PrvString.reset).word else 0)]
  else regAt off <|
    [(0x00, rb 0 p.freeze), (0x04, rf 0 p.frame ||| rb 16 p.valid), (0x10, rf 0 p.sumLit), (0x14, rf 0 p.sumDark),
     (0x18, rf 0 p.sumDwl), (0x1C, rf 0 p.sumStuck), (0x20, rf 0 p.sumUnver), (0x24, rf 0 p.sumNov),
     (0x28, halves p.mandMissing p.mandUnver), (0x2C, p.quarStatus), (0x40, rf 0 p.emitSel),
     (0x44, if p.emitSel.toNat < d.scan.emitters then rf 0 (p.record p.emitSel.toNat) else 0)] ++
    mapRegs 0x80 p.patchDwl 8 ++ mapRegs 0xA0 p.patchStuck 8 ++ mapRegs 0xC0 p.patchUnver 8

/-! ### STR_ and THM_ (10 R313, R314) -/

def Dev.strStatus (d : Dev) (ch : Nat) : Word :=
  let c := getN d.str ch StrChannel.reset
  rf 0 c.state ||| rb 2 c.oc ||| rb 3 c.short ||| rb 4 c.ovFault ||| rb 5 c.openFault ||| rb 6 c.latched |||
    rb 7 (d.gbl.inh.getLsbD ch) ||| rb 8 (d.rdg.inh.getLsbD ch) ||| rb 9 (d.owned ch) ||| rb 10 c.cfgErr |||
    rf 11 c.retries

def StrChannel.cfgWord (c : StrChannel) : Word :=
  rf 0 c.mode ||| rb 2 c.pwmsync ||| rf 3 c.depth ||| rb 8 c.autoretry ||| rb 9 c.insertGap

def Dev.strRead (d : Dev) (ch off : Nat) : Option Word :=
  let c := getN d.str ch StrChannel.reset
  regAt off
    [(0x00, c.cfgWord), (0x04, rf 0 c.fswN), (0x08, rf 0 c.iref), (0x0C, rf 0 c.vset), (0x10, rf 0 c.ov ||| rf 16 c.uv),
     (0x14, rf 0 c.pwmPeriod ||| rf 24 c.pwmK), (0x18, rf 0 c.duty), (0x1C, d.strStatus ch),
     (0x20, rf 0 (c.isense d.now) ||| rf 16 c.vsn),
     (0x24, match d.gbl.cfg with | none => 0 | some x => word32 x.feed (4 * ch)), (0x28, rf 0 c.derate), (0x2C, 0)]

def Ntc.read (n : Ntc) (off : Nat) : Option Word :=
  regAt off
    [(0x0, rb 0 n.en ||| rb 1 n.table ||| rb 2 n.global ||| rb 3 n.otkill ||| rf 8 n.chmask),
     (0x4, halves n.knee n.limit), (0x8, halves n.fmin n.ot),
     (0xC, rf 0 n.temp ||| rf 16 n.code ||| rb 28 n.valid ||| rb 29 n.isOpen ||| rb 30 n.isShort)]

/-- THM_LUT_t_k. -/
def Thermal.lutRead (t : Thermal) (table k : Nat) : Word :=
  let l := getN t.lut table (Vector.replicate 33 0)
  rf 0 (getN l (2 * k) 0) ||| (if k < 16 then rf 16 (getN l (2 * k + 1) 0) else 0)

def Dev.thermalRead (d : Dev) (off : Nat) : Option Word :=
  let t := d.thm
  if off < 0x1000 + 0x60 then (getN t.ntc ((off - 0x1000) / 16) Ntc.reset).read (off % 16)
  else if 0x1100 ≤ off ∧ off < 0x1200 then
    let k := (off % 128) / 4
    if k ≤ 16 ∧ off % 4 = 0 then some (t.lutRead ((off - 0x1100) / 128) k) else none
  else regAt off
    [(0x1080, halves t.tileKnee t.tileLimit), (0x1084, halves t.tileFmin t.tileOt), (0x1088, rf 0 t.drtAddr),
     (0x108C, rb 0 t.drtEn), (0x1090, halves t.dieTemp t.dieMax), (0x1094, rf 0 t.dieWarn), (0x1098, rb 0 t.cfgErr)]

def Dev.strThmRead (d : Dev) (off : Nat) : Option Word :=
  if off < 0x200 then d.strRead (off / 64) (off % 64) else if off < 0x1000 then none else d.thermalRead off

/-! ### TRM_ (14 R437), FLD_ (13 R420) -/

def Dev.trimRead (d : Dev) (off : Nat) : Option Word :=
  let t := d.trim
  if off < 0xC0 then
    (if off % 4 = 0 then some (rf 0 (getN t.applied (off / 4) 0) ||| rf 16 (getN t.shadow (off / 4) 0)) else none)
  else regAt off
    [(0x100, 0), (0x104, rf 0 t.dt ||| rf 8 t.timeout),
     (0x108, rb 0 t.running ||| rb 1 (!t.queued.isEmpty) ||| rb 2 t.cfgErr ||| rf 3 t.lastEnd ||| rf 8 t.rres |||
        rf 16 t.failDac),
     (0x10C, t.count), (0x110, rf 0 t.gen ||| rf 24 (1 : Byte)), (0x114, t.lastTime.setWidth 32),
     (0x118, t.lastTime.extractLsb' 32 32), (0x11C, rf 0 t.lastTemp), (0x120, t.pend.setWidth 32),
     (0x124, t.pend.extractLsb' 32 16 |>.setWidth 32), (0x128, t.stale.setWidth 32),
     (0x12C, t.stale.extractLsb' 32 16 |>.setWidth 32), (0x130, halves t.deferred t.aborted)]

def Dev.fldRead (d : Dev) (off : Nat) : Option Word :=
  let f := d.fld
  regAt off <|
    [(0x00, rb 0 f.rxOk ||| rb 1 f.cfgOk ||| rb 2 (f.w[0].getLsbD 9) ||| rb 3 (f.w[0].getLsbD 11) ||| rb 4 f.silenced |||
        rf 5 (f.w[1].extractLsb' 24 2) ||| rf 16 (f.w[0].extractLsb' 16 16)),
     (0x04, f.w[1]), (0x08, f.w[2]), (0x0C, f.w[3]), (0x10, f.w[4]), (0x14, f.w[5]), (0x18, halves f.rxErr f.dropped),
     (0x1C, halves f.done f.aborted)] ++
    (upTo 8).map fun k => (0x40 + 4 * k, rb 0 (f.dqOn.getLsbD k))

/-! ### ROOF_ (16 R494) -/

def WorkerView.regs (w : WorkerView) (k : Nat) : List (Nat × Word) :=
  [(0x100 + 8 * k, rb 0 w.present ||| rb 1 w.ok ||| rf 2 w.mode ||| rb 6 w.live ||| rb 7 w.cfg ||| rf 8 w.degCause |||
      rf 12 w.holdCause ||| rf 16 w.frame),
   (0x104 + 8 * k, rf 0 w.attempts ||| rb 8 w.proofDone)]

def Roof.read (r : Roof) (off : Nat) : Option Word :=
  if 0x108 ≤ off ∧ off < 0x140 then
    let k := (off - 0x100) / 8
    regAt off ((getN r.worker k WorkerView.reset).regs k)
  else regAt off
    [(0x00, rf 0 r.position ||| rb 3 r.posValid ||| rf 4 r.workers ||| rb 7 r.ringUp ||| rb 8 r.marks |||
        rb 9 r.flywheel ||| rb 10 r.holding ||| rb 11 r.peerOk ||| rb 12 r.driving ||| rb 13 r.genlocked |||
        rb 14 r.cfgErr ||| rf 16 r.frame),
     (0x04, rb 0 r.twin ||| rb 1 r.autoyield ||| rb 2 r.relay ||| rb 3 r.evtrelay), (0x08, rf 0 r.rtt ||| rf 16 r.cable),
     (0x0C, rf 0 r.bootAddr), (0x10, rf 0 r.bootLen),
     (0x14, rf 0 r.linkCrc ||| rf 8 r.linkCode ||| rf 16 r.markMiss ||| rf 24 r.retryFail),
     (0x18, rf 0 r.peerFrame ||| rf 16 r.peerSlot ||| rb 19 r.peerDriving ||| rf 20 r.peerHealth),
     (0x1C, halves r.misses r.badWords)]

/-! ### ACC_ (17 R514) -/

/-- Minutes left on the unlock timer, rounded up. -/
def Dev.unlockRemain (d : Dev) : Nat :=
  match d.acc.lapse with
  | none => 0
  | some t => (t - d.alwaysOn + 59999999) / 60000000

/-- Seconds of delay left on the path last used. -/
def Dev.unlockWait (d : Dev) : Nat :=
  secondsLeft ((if d.acc.lastPath then d.acc.crUntil else d.acc.pwUntil) - d.alwaysOn)

/-- A bit per slot. -/
def slotBits (l : List Bool) : BitVec 4 := packBits l
where
  packBits : List Bool → BitVec 4
    | [] => 0
    | b :: r => (packBits r <<< 1) ||| (if b then 1 else 0)

def Otp.word (o : Otp) : Word :=
  rf 0 (slotBits (o.pws.toList.map (·.programmed))) ||| rf 4 (slotBits (o.pws.toList.map (·.revoked))) |||
    rf 8 (slotBits (o.keys.toList.map (·.programmed))) ||| rf 12 (slotBits (o.keys.toList.map (·.revoked))) |||
    rf 16 o.pws[0].level ||| rf 18 o.pws[1].level ||| rf 20 o.pws[2].level ||| rf 22 o.pws[3].level

def Otp.maskWord (o : Otp) : Word :=
  rf 0 o.keys[0].mask ||| rf 4 o.keys[1].mask ||| rf 8 o.keys[2].mask ||| rf 12 o.keys[3].mask

def Dev.accRead (d : Dev) (o : Otp) (off : Nat) : Option Word :=
  let a := d.acc
  regAt off <|
    [(0x00, rf 0 a.level ||| rb 2 a.method ||| rb 3 a.attached ||| rb 4 (decide (64 ≤ o.fuses)) ||| rb 5 o.engSample |||
        rb 6 (o.engSample && o.noCap) ||| rf 8 (BitVec.ofNat 8 d.unlockRemain)),
     (0x04, rf 0 a.timeout), (0x08, 0), (0x0C, 0),
     (0x10, rf 0 a.result ||| rb 4 a.cfgErr ||| rf 16 (BitVec.ofNat 16 d.unlockWait)),
     (0x14, rf 0 a.pwFail ||| rf 10 a.crFail ||| rf 20 o.fuses), (0x18, Config.dieId.setWidth 32),
     (0x1C, Config.dieId.extractLsb' 32 32)] ++ mapRegs 0x20 a.nonce 4 ++
    [(0x30, 0), (0x34, 0), (0x38, 0), (0x3C, 0), (0x40, 0), (0x44, 0), (0x48, 0), (0x4C, 0), (0x50, 0),
     (0x54, rf 0 a.progAddr), (0x58, o.word),
     (0x5C, rb 0 a.attached ||| rb 1 a.attachPending ||| rf 4 a.refused ||| rf 8 d.dbgCores), (0x60, o.maskWord)]

/-! ### INJ_ (18 R530) -/

def Inj.read (i : Inj) (off : Nat) : Option Word :=
  if 0x100 ≤ off ∧ off < 0x200 then
    let e := getN i.log ((off - 0x100) / 16) InjLog.reset
    regAt (off % 16)
      [(0x0, rf 0 e.bit ||| rb 10 e.dry ||| rf 11 e.result ||| rf 14 e.origin.code ||| rf 16 e.inst), (0x4, e.time),
       (0x8, rf 0 e.detect)]
  else regAt off <|
    [(0x00, rb 0 i.busy ||| rb 1 i.restoring ||| rb 2 i.missed ||| rb 3 i.cfgErr ||| rf 4 i.bit ||| rb 14 i.dry |||
        rf 16 (BitVec.ofNat 4 i.head.val) ||| rf 20 i.count),
     (0x04, rf 0 i.target), (0x08, rb 0 i.schedEn ||| rf 8 i.interval)] ++
    mapRegs 0x10 i.active 2 ++ mapRegs 0x18 i.pass 2 ++ mapRegs 0x20 i.miss 2

/-! ### GBL_ (11 R368, 12 R388) and RDG_ (11 R369, 12 R389) -/

/-- GBL_TDEG: seconds left in DEGRADED. -/
def Dev.tdegRemain (d : Dev) : Nat :=
  match d.gbl.tdegEnd with
  | none => 0
  | some t => if d.sys.mode = .degraded then secondsLeft (t - d.now) else 0

def FlashState.code : FlashState → BitVec 2
  | .unused => 0 | .reset => 1 | .established => 2 | .timeout => 3

/-- Whether the device produces the data stream of a connection (12 R376). -/
def flashProducer (role : BitVec 2) (kind : Nat) : Bool :=
  kind == 2 || ((kind == 3 || kind == 4) && role != 2)

def Dev.flashRead (d : Dev) (i : Fin 8) (off : Nat) : Option Word :=
  let kind := match d.gbl.cfg with | none => 0 | some c => c.fcKind i.val
  let x := d.flash.conns[i.val]
  let prod := flashProducer d.sys.role kind
  let demands := match d.gbl.cfg with | none => false | some c => d.flashDemands c i
  let z (w : Word) : Word := if kind = 0 ∨ kind = 4 then 0 else w
  regAt off
    [(0x0, z (rf 0 (BitVec.ofNat 3 kind) ||| rb 3 prod ||| rf 4 x.state.code ||| rb 6 (x.stop && kind == 1) ||| rb 7 demands |||
        (if kind = 3 then rf 8 (if prod then x.txGen else x.gen) else 0) ||| rf 16 (if prod then x.txLast else x.seq))),
     (0x4, z (rf 0 x.crc ||| rf 8 x.seqErr ||| rf 16 x.format ||| rf 24 x.dup)), (0x8, z (halves x.timeouts x.rtt)),
     (0xC, z (rf 0 x.maxGap))]

/-- DEGRADED entries in the last 3600 s. -/
def Dev.degEntries (d : Dev) : Nat := (d.gbl.entries.filter fun t => decide (d.now < t + 3600000000)).length

def Dev.gblRead (d : Dev) (o : Otp) (off : Nat) : Option Word :=
  let g := d.gbl
  let hash : BitVec 256 := match g.cfg with | none => 0 | some c => c.hash
  if 0x100 ≤ off ∧ off < 0x180 then d.flashRead (Fin.ofNat 8 ((off - 0x100) / 16)) (off % 16)
  else regAt off <|
    [(0x00, rb 0 g.cfg.isSome ||| rb 1 d.gableAlive ||| rb 2 (g.demand != 0) ||| rb 3 g.sf3 ||| rf 4 g.zoneSet |||
        rf 8 g.degCause ||| rf 12 g.holdCause),
     (0x04, rf 0 (BitVec.ofNat 12 d.tdegRemain)), (0x08, rf 0 o.counter), (0x0C, rf 0 g.demand),
     (0x10, rf 0 g.inh ||| rb 8 (unfedKill g.cfg g.killed)),
     (0x14, rf 0 g.restarts ||| rf 8 (BitVec.ofNat 8 d.degEntries)), (0x180, halves d.flash.ident d.flash.nocfg)] ++
    mapRegs 0x20 hash 8

/-- The latest valid angle of an axis (R369), G0, G1, H0, H1; 0 with no sample. -/
def Dev.encAngleWord (d : Dev) (i : Fin 4) : Word :=
  match d.gbl.cfg, d.rdg.enc[i].last with
  | some c, some (p, _) => BitVec.ofInt 32 (shownFraction (c.encAngle i.val p) (2 ^ c.encBits i.val))
  | _, _ => 0

/-- The connection of kind 4, when the configuration has one. -/
def Dev.ridgeConn (d : Dev) : Option FlashConn :=
  match d.gbl.cfg with
  | none => none
  | some c => (c.fcOf 4).map fun i => d.flash.conns[i.val]

/-- The Degraded ceiling in force (11 R369): of DEGRADED, or of the latest transfer, whose map may be missing (11 R326).
(DEDUCED, log 92) -/
def Dev.degInForce (d : Dev) : DegCeiling :=
  match d.rdg.deg with
  | .none => match d.scan.xfer.or d.scan.light with | none => .none | some x => x.ceil.degraded
  | k => k

/-- The RDG_ registers (11 R369). (DEDUCED, log 92) -/
def Dev.rdgRead (d : Dev) (off : Nat) : Option Word :=
  let r := d.rdg
  let prod := d.sys.role != 2
  let flash : Word := match d.ridgeConn with
    | none => 0
    | some x => rf 0 x.state.code ||| rb 2 prod ||| rb 3 x.stop ||| rf 8 (if prod then x.txGen else x.gen) |||
        rf 16 (if prod then x.txLast else x.seq)
  let flashErr : Word := match d.ridgeConn with
    | none => 0
    | some x => rf 0 x.crc ||| rf 8 x.seqErr ||| rf 16 x.format ||| rf 24 (BitVec.ofNat 8 (min x.timeouts.toNat 0xFF))
  let c := d.degInForce
  let deg : Bool := match c with | .none => false | _ => true
  regAt off <|
    [(0x00, rb 0 (r.fault == 0 && d.gbl.cfg.isSome) ||| rb 1 d.liveH ||| rb 2 r.block ||| rb 3 deg ||| rb 4 c.isCoarse |||
        rb 5 (d.gbl.lost != 0) ||| rf 6 r.fault ||| rb 9 r.gFault ||| rb 10 r.hFault ||| rb 11 r.disc ||| rf 16 r.mapFrame),
     (0x04, rb 0 r.mapBuf ||| rf 1 r.mapZoneSet ||| rf 8 r.missRun ||| rf 16 r.missTotal),
     (0x08, rf 0 r.blockA ||| rf 20 r.rungA), (0x0C, rf 0 r.blockB ||| rf 20 r.rungB),
     (0x10, rf 0 r.xchkCell ||| rf 16 r.xchkCount), (0x14, rf 0 r.inh), (0x20, d.encAngleWord 0), (0x24, d.encAngleWord 1),
     (0x28, d.encAngleWord 2), (0x2C, d.encAngleWord 3), (0x40, flash), (0x44, flashErr)] ++ mapRegs 0x30 r.kill 4

/-! ### The address map (02 R46) -/

/-- The register at an aligned address; none where no register lies. -/
def regRead (d : Dev) (o : Otp) (a : Nat) : Option Word :=
  let off := a % 0x10000
  match a / 0x10000 with
  | 0x2000 => d.sysRead off
  | 0x2001 => if off < 0x800 then d.ringRead off else none
  | 0x2002 => d.courseRead off
  | 0x2003 => d.vinRead off
  | 0x2004 => d.scan.read off
  | 0x2005 => d.prvRead off
  | 0x2006 => d.strThmRead off
  | 0x2007 => d.trimRead off
  | 0x2008 => d.fldRead off
  | 0x2009 => d.roof.read off
  | 0x200A => d.accRead o off
  | 0x200B => d.inj.read off
  | 0x3000 => d.gblRead o off
  | 0x3100 => d.rdgRead off
  | _ => none

/-- The byte of a window that holds no registers: Gable memory, the Ridge's static map, its cell-map buffers and the
unreadable rest of its tables (R46, 11 R322, R323). -/
def windowRead (d : Dev) (a : Nat) : Option Byte :=
  if 0x30020000 ≤ a ∧ a < 0x30040000 then some (cellGet d.thatch.gableMem.cells (a - 0x30020000))
  else if 0x31040000 ≤ a ∧ a < 0x31080000 then some (cellGet d.rdg.staticMap (a - 0x31040000))
  else if 0x31080000 ≤ a ∧ a < 0x31081000 then some (cellGet d.rdg.buffers[0] (a - 0x31080000))
  else if 0x31081000 ≤ a ∧ a < 0x31082000 then some (cellGet d.rdg.buffers[1] (a - 0x31081000))
  else if 0x31082000 ≤ a ∧ a < 0x31084000 then some 0
  else none

/-- The Loft's size. -/
def loftSize : Nat := 0x1800000

/-- The byte that a read of a host address returns; none where nothing is mapped. -/
def byteRead (d : Dev) (o : Otp) (a : Nat) : Option Byte :=
  if a < loftSize then some (cellGet d.loft.cells a)
  else match windowRead d a with
    | some b => some b
    | none => (regRead d o (a / 4 * 4)).map fun w => w.extractLsb' (8 * (a % 4)) 8

end Sys2Proof.Machine
end

