-- ==== Sys2Proof/Machine/RegWrite.lean ====
section
/-! DEFINITION. What a whole-word write of every register does (00 R4, R6, 02 R47, R49 and each chapter's register rules),
what a whole-word read clears (RC, 00 R6, 02 R47), and which writes are protected (02 R49). -/

namespace Sys2Proof.Machine

open Sys2Proof

/-- How a whole-word register write ends: carried out (a write of an RO register or field changes nothing), or as R49 says. -/
inductive RegOut where
  | done | unmapped | protect | align
  deriving DecidableEq, Repr

/-- W1C: the bits of `v` at 1 clear those of `x`. -/
def w1c {w : Nat} (x : BitVec w) (v : BitVec w) : BitVec w := x &&& ~~~v

/-- W1C of a single flag. -/
def w1cBit (x : Bool) (v : Word) (i : Nat) : Bool := x && !v.getLsbD i

/-! ### SYS_ -/

/-- SYS_HP_CFG at the end of the access that carries it (02 R40): a PROTO of 3 leaves PROTO unchanged. -/
def HostPort.config (h : HostPort) (v : Word) : HostPort :=
  { h with proto := if v.extractLsb' 0 2 = (3 : BitVec 2) then h.proto else v.extractLsb' 0 2,
           dummy := v.extractLsb' 8 5 }

def Dev.sysWrite (d : Dev) (off : Nat) (v : Word) : Dev :=
  match off with
  | 0x100 => { d with hp := d.hp.config v }
  | 0x104 => { d with hp := { d.hp with flags := w1c d.hp.flags (v.setWidth 7) } }
  | 0x110 => { d with int := { d.int with status := w1c d.int.status (v.setWidth 7) } }
  | 0x114 => { d with int := { d.int with enable := v.setWidth 7 } }
  | 0x118 => { d with int := { d.int with ring := w1c d.int.ring v } }
  | _ =>
    if 0x200 ≤ off ∧ off < 0x240 then
      { d with sys := { d.sys with wakeRec := updN d.sys.wakeRec ((off - 0x200) / 4) fun _ => v } }
    else d

/-! ### RING_ (03 R66 to R69) -/

/-- RING_n_SIZE: a nonzero LOG2 enables, 0 stops. -/
def Dev.sizeWrite (d : Dev) (n : Fin 32) (log2 : BitVec 4) : Dev :=
  if log2 = 0 then d.ringStop n else d.ringEnable n log2

/-- RING_n_CLASS: an event ring's mask; the records that wait for class 0x01 follow (15 R455). -/
def Dev.classWrite (d : Dev) (n : Fin 32) (v : Word) : Dev :=
  if 24 ≤ n.val ∧ n.val < 28 then
    (d.ring n.val fun r => { r with classMask := v.extractLsb' 1 14 }).payRecord n.val
  else d

def Dev.ringWrite (d : Dev) (off : Nat) (v : Word) : Dev :=
  let n : Fin 32 := Fin.ofNat 32 (off / 64)
  match off % 64 with
  | 0x00 => d.ringBaseWrite n false v
  | 0x04 => d.ringBaseWrite n true v
  | 0x08 => d.sizeWrite n (v.setWidth 4)
  | 0x0C => d.doorbell n (v.setWidth 16)
  | 0x10 => d.consWrite n (v.setWidth 16)
  | 0x18 => d.cplConsWrite n (v.setWidth 16)
  | 0x1C => d.ring n.val fun r =>
      { r with prio := v.extractLsb' 0 2, irqCount := v.extractLsb' 8 8, irqTime := v.extractLsb' 16 16 }
  | 0x20 => d.classWrite n v
  | 0x24 => d.ring n.val fun r =>
      { r with cfgErr := w1cBit r.cfgErr v 1, badIndex := w1cBit r.badIndex v 2, overflow := w1cBit r.overflow v 3 }
  | _ => d

/-! ### ENG_, VIN_, SCO_, BAT_, PRV_ -/

def Dev.courseWrite (d : Dev) (off : Nat) (v : Word) : Dev :=
  match off with
  | 0xE00 => { d with course := { d.course with latePolicy := v.getLsbD 0, autocommit := v.getLsbD 1 } }
  | 0xF00 => { d with course := { d.course with limit := v.setWidth 24 } }
  | _ => d

def Dev.vinWrite (d : Dev) (off : Nat) (v : Word) : Dev :=
  match off with
  | 0x000 => d.phyWrite v
  | 0x004 => { d with vin := { d.vin with cfgErr := w1cBit d.vin.cfgErr v 3 } }
  | _ => d

/-- BAT_TILE_t_ORG (08 R241, R258). -/
def Dev.tileOrgWrite (d : Dev) (t : Nat) (v : Word) : Dev :=
  if d.sys.mode = .load then
    { d with scan := { d.scan with
        tiles := updN d.scan.tiles t fun x => { x with x := v.extractLsb' 0 16, y := v.extractLsb' 16 16 } } }
  else { d with scan := { d.scan with cfgErr := true } }

def Dev.scanWrite (d : Dev) (off : Nat) (v : Word) : Dev :=
  if off = 0x00 then
    { d with scan := if d.sys.mode = .load then { d.scan with split := v.getLsbD 0 } else { d.scan with cfgErr := true } }
  else if off = 0x04 then { d with scan := { d.scan with cfgErr := w1cBit d.scan.cfgErr v 7 } }
  else if 0x1000 ≤ off ∧ off < 0x1800 ∧ off % 16 = 0 then d.tileOrgWrite ((off - 0x1000) / 16) v
  else d

def Dev.prvWrite (d : Dev) (off : Nat) (v : Word) : Dev :=
  if off = 0x00 then { d with prv := { d.prv with freeze := v.getLsbD 0 } }
  else if off = 0x40 then { d with prv := { d.prv with emitSel := v.setWidth 20 } }
  else if 0x3000 ≤ off ∧ off < 0x3020 then
    { d with prv := { d.prv with strings := updN d.prv.strings ((off - 0x3000) / 4) fun s =>
        { s with isOpen := w1cBit s.isOpen v 0, stuckOn := w1cBit s.stuckOn v 1 } } }
  else d

/-! ### STR_ and THM_ (10 R294, R297, R312 to R314) -/

/-- A write ignored. -/
def StrChannel.refuse (c : StrChannel) : StrChannel := { c with cfgErr := true }

/-- STR_c_CFG: while MODE is nonzero only a write that sets MODE to 0 is taken (R312). -/
def StrChannel.config (c : StrChannel) (v : Word) : StrChannel :=
  let mode : BitVec 2 := v.extractLsb' 0 2
  let depth : BitVec 5 := v.extractLsb' 3 5
  if mode = 3 ∨ depth < 8 ∨ 16 < depth ∨ (c.mode ≠ 0 ∧ mode ≠ 0) then c.refuse
  else { c with mode := mode, pwmsync := v.getLsbD 2, depth := depth, autoretry := v.getLsbD 8, insertGap := v.getLsbD 9 }

/-- STR_c_PWM. -/
def StrChannel.timing (c : StrChannel) (v : Word) : StrChannel :=
  let period : BitVec 22 := v.extractLsb' 0 22
  let k : BitVec 6 := v.extractLsb' 24 6
  if period.toNat < 16000 ∨ 4000000 < period.toNat ∨ k = 0 then c.refuse else { c with pwmPeriod := period, pwmK := k }

/-- The registers of a channel that the Gable may own (R297). -/
def ownedOffset (off : Nat) : Bool := off == 0x00 || off == 0x08 || off == 0x14 || off == 0x18 || off == 0x2C

def Dev.strWrite (d : Dev) (ch : Fin 8) (off : Nat) (v : Word) : Dev :=
  if d.owned ch.val && ownedOffset off then d.onStr ch StrChannel.refuse
  else match off with
    | 0x00 => (d.onStr ch fun c => c.config v).refreshChannel ch
    | 0x04 => d.onStr ch fun c =>
        let n : BitVec 11 := v.setWidth 11
        if n.toNat < 182 ∨ 2000 < n.toNat then c.refuse else { c with fswN := n }
    | 0x08 => d.onStr ch fun c => { c with iref := v.setWidth 10 }
    | 0x0C => d.onStr ch fun c =>
        let mv : BitVec 11 := v.setWidth 11
        if 1200 < mv.toNat then c.refuse else { c with vset := mv }
    | 0x10 => d.onStr ch fun c => { c with ov := v.extractLsb' 0 11, uv := v.extractLsb' 16 11 }
    | 0x14 => d.onStr ch fun c => c.timing v
    | 0x18 => d.onStr ch fun c => { c with duty := v.setWidth 16 }
    | 0x1C => d.onStr ch fun c => { c with cfgErr := w1cBit c.cfgErr v 10 }
    | 0x2C => if v.getLsbD 0 then d.strRestart ch false else d
    | _ => d

def Dev.onThm (d : Dev) (f : Thermal → Thermal) : Dev := { d with thm := f d.thm }

/-- A curve write: LIMIT at or below KNEE is refused (R306). -/
def curveOk (v : Word) : Bool := (v.extractLsb' 0 16 : BitVec 16).slt (v.extractLsb' 16 16)

def Dev.ntcWrite (d : Dev) (n : Fin 6) (off : Nat) (v : Word) : Dev :=
  match off with
  | 0x0 => d.onNtc n fun x =>
      { x with en := v.getLsbD 0, table := v.getLsbD 1, global := v.getLsbD 2, otkill := v.getLsbD 3,
               chmask := v.extractLsb' 8 8 }
  | 0x4 =>
    if curveOk v then d.onNtc n fun x => { x with knee := v.extractLsb' 0 16, limit := v.extractLsb' 16 16 }
    else d.onThm fun t => { t with cfgErr := true }
  | 0x8 => d.onNtc n fun x => { x with fmin := v.extractLsb' 0 16, ot := v.extractLsb' 16 16 }
  | _ => d

/-- THM_LUT_t_k. -/
def Thermal.lutWrite (t : Thermal) (table k : Nat) (v : Word) : Thermal :=
  let lo : BitVec 16 := v.extractLsb' 0 16
  let hi : BitVec 16 := v.extractLsb' 16 16
  { t with lut := updN t.lut table fun l => updN (updN l (2 * k) fun _ => lo) (2 * k + 1) fun _ => hi }

def Dev.thermalWrite (d : Dev) (off : Nat) (v : Word) : Dev :=
  if off < 0x1060 then d.ntcWrite (Fin.ofNat 6 ((off - 0x1000) / 16)) (off % 16) v
  else if 0x1100 ≤ off then d.onThm fun t => t.lutWrite ((off - 0x1100) / 128) (off % 128 / 4) v
  else match off with
    | 0x1080 =>
      if curveOk v then d.onThm fun t => { t with tileKnee := v.extractLsb' 0 16, tileLimit := v.extractLsb' 16 16 }
      else d.onThm fun t => { t with cfgErr := true }
    | 0x1084 => d.onThm fun t => { t with tileFmin := v.extractLsb' 0 16, tileOt := v.extractLsb' 16 16 }
    | 0x1088 => d.drtAddrWrite v
    | 0x108C =>
      let d := d.onThm fun t => { t with drtEn := v.getLsbD 0, drtFirst := v.getLsbD 0 && (t.drtFirst || !t.drtEn) }
      if v.getLsbD 0 then d else d.noDerate
    | 0x1094 => d.onThm fun t => { t with dieWarn := v.setWidth 16 }
    | 0x1098 => d.onThm fun t => { t with cfgErr := w1cBit t.cfgErr v 0 }
    | _ => d

def Dev.strThmWrite (d : Dev) (off : Nat) (v : Word) : Dev :=
  if off < 0x200 then d.strWrite (Fin.ofNat 8 (off / 64)) (off % 64) v else d.thermalWrite off v

/-! ### TRM_ (14 R431, R432, R437), FLD_ (13 R420), ROOF_ (16 R494) -/

def Dev.trimCfg (d : Dev) (v : Word) : Dev :=
  let timeout : BitVec 6 := v.extractLsb' 8 6
  if 60 < timeout.toNat then d.trimCfgErr
  else { d with trim := { d.trim with dt := v.setWidth 5, timeout := timeout } }

def Dev.trimWrite (d : Dev) (off : Nat) (v : Word) : Dev :=
  if off < 0xC0 then d.dacWrite (Fin.ofNat 48 (off / 4)) (v.setWidth 10)
  else match off with
    | 0x100 =>
      let d := if v.getLsbD 0 then d.trimApply else d
      if v.getLsbD 1 then d.trimAbort else d
    | 0x104 => d.trimCfg v
    | 0x108 => { d with trim := { d.trim with cfgErr := w1cBit d.trim.cfgErr v 2 } }
    | _ => d

/-- Whether output `k` is the host's (13 R420): ASSIGN 2 of it and of the lowest member of its group. -/
def Dev.hostOutput (d : Dev) (k : Nat) : Bool :=
  match d.gbl.cfg with
  | none => false
  | some c => fOutAssign c.field k == 2 && fOutAssign c.field (fLead c.field k) == 2

/-- FLD_DQ_k_CMD of a host output (13 R416, R420). -/
def Dev.dqCmdWrite (d : Dev) (k : Nat) (on clear : Bool) : Dev :=
  { d with fld := { d.fld with
      dqOn := setBit d.fld.dqOn k on, dqClear := if clear then setBit d.fld.dqClear k true else d.fld.dqClear } }

def Dev.fldWrite (d : Dev) (off : Nat) (v : Word) : Dev :=
  if off = 0x00 then { d with fld := { d.fld with silenced := w1cBit d.fld.silenced v 4 } }
  else if 0x40 ≤ off then d.dqCmdWrite ((off - 0x40) / 4) (v.getLsbD 0) (v.getLsbD 1)
  else d

/-- ROOF_CFG: only in LOAD; TWIN on ROLE 00, RELAY and EVTRELAY on workers. -/
def Dev.roofCfg (d : Dev) (v : Word) : Dev :=
  let r := d.roof
  if d.sys.mode = .load then
    { d with roof := { r with
        twin := if d.sys.role = 0 then v.getLsbD 0 else r.twin, autoyield := v.getLsbD 1,
        relay := if d.sys.role = 2 then v.getLsbD 2 else r.relay,
        evtrelay := if d.sys.role = 2 then v.getLsbD 3 else r.evtrelay } }
  else { d with roof := { r with cfgErr := true } }

def Dev.roofWrite (d : Dev) (off : Nat) (v : Word) : Dev :=
  match off with
  | 0x00 => { d with roof := { d.roof with cfgErr := w1cBit d.roof.cfgErr v 14 } }
  | 0x04 => d.roofCfg v
  | 0x0C => { d with roof := { d.roof with bootAddr := v.setWidth 25 } }
  | 0x10 => { d with roof := { d.roof with bootLen := v.setWidth 18 } }
  | _ => d

/-! ### ACC_ (17 R497, R498, R514), INJ_ (18 R530) -/

/-- ACC_CFG. -/
def Dev.accCfg (d : Dev) (v : Word) : Dev :=
  let t : Byte := v.setWidth 8
  if d.acc.level = 0 ∨ t = 0 ∨ 240 < t.toNat then d.onAcc fun a => { a with cfgErr := true }
  else d.onAcc fun a => { a with timeout := t }

/-- ACC_CTRL. -/
def Dev.accCtrl (d : Dev) (v : Word) : Dev :=
  let d := if v.getLsbD 0 then d.lock else d
  if v.getLsbD 1 then d.drawNonce else d

/-- 32 bits of a 128-bit register group replaced. -/
def putWord (x : BitVec 128) (m : Nat) (v : Word) : BitVec 128 :=
  (x &&& ~~~((0xFFFFFFFF : BitVec 128) <<< (32 * m))) ||| (v.setWidth 128 <<< (32 * m))

/-- ACC_UNLOCK. -/
def Dev.accUnlock (d : Dev) (o : Otp) (v : Word) : Dev × Otp :=
  if v.getLsbD 4 then (d.unlockChallenge o.fuses d.acc.resp (v &&& 3 |>.setWidth 8) false, o) else d.unlockPassword o

def Dev.accWrite (d : Dev) (o : Otp) (off : Nat) (v : Word) : Dev × Otp :=
  match off with
  | 0x04 => (d.accCfg v, o)
  | 0x08 => (d.accCtrl v, o)
  | 0x0C => d.accUnlock o v
  | 0x10 => (d.onAcc fun a => { a with cfgErr := w1cBit a.cfgErr v 4 }, o)
  | 0x50 => d.accProg o v
  | 0x54 => (d.onAcc fun a => { a with progAddr := v.setWidth 25 }, o)
  | _ =>
    if 0x30 ≤ off ∧ off < 0x40 then (d.onAcc fun a => { a with resp := putWord a.resp ((off - 0x30) / 4) v }, o)
    else if 0x40 ≤ off ∧ off < 0x50 then (d.onAcc fun a => { a with pw := putWord a.pw ((off - 0x40) / 4) v }, o)
    else (d, o)

def Dev.onInj (d : Dev) (f : Inj → Inj) : Dev := { d with inj := f d.inj }

/-- INJ_SCHED; INTERVAL runs from the write that sets EN (18 R526). (DESIGN CHOICE, log 45) -/
def Inj.sched (i : Inj) (now : Nat) (v : Word) : Inj :=
  let n : BitVec 12 := v.extractLsb' 8 12
  if i.busy || n == 0 || decide (3600 < n.toNat) then { i with cfgErr := true }
  else { i with schedEn := v.getLsbD 0, interval := n, schedAt := if i.schedEn then i.schedAt else now }

def Dev.injWrite (d : Dev) (off : Nat) (v : Word) : Dev :=
  match off with
  | 0x00 => d.onInj fun i => { i with cfgErr := w1cBit i.cfgErr v 3 }
  | 0x04 => d.onInj fun i => if i.busy then { i with cfgErr := true } else { i with target := v.setWidth 8 }
  | 0x08 => d.onInj fun i => i.sched d.now v
  | 0x20 => d.onInj fun i => { i with miss := w1c i.miss (v.setWidth 64) }
  | 0x24 => d.onInj fun i => { i with miss := w1c i.miss (v.setWidth 64 <<< 32) }
  | _ => d

/-! ### A whole-word write (02 R47, R49) -/

/-- Whether a register's writes are protected (R49): the safety windows, and an FLD_ output command that is not the
host's. -/
def protectedReg (d : Dev) (a : Nat) : Bool :=
  a / 0x10000 == 0x3000 || a / 0x10000 == 0x3100 ||
    (a / 0x10000 == 0x2008 && decide (0x40 ≤ a % 0x10000) && !d.hostOutput ((a % 0x10000 - 0x40) / 4))

/-- What a write of a mapped, unprotected register does. -/
def regEffect (d : Dev) (o : Otp) (a : Nat) (v : Word) : Dev × Otp :=
  let off := a % 0x10000
  match a / 0x10000 with
  | 0x2000 => (d.sysWrite off v, o)
  | 0x2001 => (d.ringWrite off v, o)
  | 0x2002 => (d.courseWrite off v, o)
  | 0x2003 => (d.vinWrite off v, o)
  | 0x2004 => (d.scanWrite off v, o)
  | 0x2005 => (d.prvWrite off v, o)
  | 0x2006 => (d.strThmWrite off v, o)
  | 0x2007 => (d.trimWrite off v, o)
  | 0x2008 => (d.fldWrite off v, o)
  | 0x2009 => (d.roofWrite off v, o)
  | 0x200A => d.accWrite o off v
  | 0x200B => (d.injWrite off v, o)
  | _ => (d, o)

/-- How a whole-word write of an aligned address ends; the reserved encoding of PROTO counts as ALIGN (R40). -/
def regOutcome (d : Dev) (o : Otp) (a : Nat) (v : Word) : RegOut :=
  if (regRead d o a).isNone then .unmapped
  else if protectedReg d a then .protect
  else if a = 0x20000100 ∧ v.extractLsb' 0 2 = (3 : BitVec 2) then .align
  else .done

/-- A whole-word write of an aligned address. -/
def regWrite (d : Dev) (o : Otp) (a : Nat) (v : Word) : RegOut × Dev × Otp :=
  match regOutcome d o a v with
  | .unmapped => (.unmapped, d, o)
  | .protect => (.protect, d, o)
  | .align => (.align, regEffect d o a v)
  | .done => (.done, regEffect d o a v)

/-! ### What a read changes (00 R6, 02 R47, 15 R468) -/

/-- The RC fields of a register return to their reset values when a read returns its four bytes. -/
def regClear (d : Dev) (a : Nat) : Dev :=
  let off := a % 0x10000
  match a / 0x10000 with
  | 0x2000 => match off with
    | 0x120 => { d with loft := { d.loft with ceCount := 0, ueCount := 0 } }
    | 0x124 => { d with loft := { d.loft with ueAddr := 0, ueValid := false } }
    | 0x130 => { d with unrouted := 0 }
    | _ => d
  | 0x2001 => if off < 0x800 ∧ off % 64 = 0x28 then d.ring (off / 64) fun r => { r with drop := 0 } else d
  | 0x2002 =>
    if off < 0x100 ∧ off % 32 = 0x10 then
      { d with course := { d.course with eng := updN d.course.eng (off / 32) fun e => { e with traps := 0 } } }
    else if off = 0xE08 then { d with course := { d.course with lateRuns := 0, dropped := 0 } }
    else if off = 0xE0C then { d with course := { d.course with discard := 0 } }
    else d
  | 0x2003 => match off with
    | 0x008 => { d with vin := { d.vin with eccCe := 0, eccUe := 0 } }
    | 0x00C => { d with vin := { d.vin with sot := 0, unrouted := 0 } }
    | _ =>
      let s (f : Stream → Stream) : Dev :=
        { d with vin := { d.vin with streams := updN d.vin.streams ((off - 0x100) / 32) f } }
      if 0x100 ≤ off ∧ off < 0x180 then
        match off % 32 with
        | 0x10 => s fun x => { x with cComplete := 0, cErrored := 0 }
        | 0x14 => s fun x => { x with cShort := 0, cLong := 0 }
        | 0x18 => s fun x => { x with cDropped := 0, cOverwritten := 0 }
        | 0x1C => s fun x => { x with cCrc := 0, cOrphan := 0 }
        | _ => d
      else if 0x400 ≤ off ∧ off < 0x500 ∧ off % 16 = 0xC then
        { d with vin := { d.vin with sources := updN d.vin.sources ((off - 0x400) / 16) fun x => { x with repeats := 0 } } }
      else d
  | 0x2004 =>
    if off = 0x10 then { d with scan := { d.scan with underA := 0, underB := 0 } }
    else if 0x200 ≤ off ∧ off < 0x280 ∧ off % 8 = 4 then
      { d with scan := { d.scan with chains := updN d.scan.chains ((off - 0x200) / 8) fun _ => ChainErr.reset } }
    else d
  | 0x2005 =>
    if 0x3000 ≤ off ∧ off < 0x3020 ∧ (getN d.str ((off - 0x3000) / 4) StrChannel.reset).mode = 2 then
      { d with prv := { d.prv with strings := updN d.prv.strings ((off - 0x3000) / 4) fun s => { s with fails := 0 } } }
    else d
  | 0x2006 => if off = 0x1090 then d.onThm fun t => { t with dieMax := 0 } else d
  | 0x2007 => if off = 0x130 then { d with trim := { d.trim with deferred := 0, aborted := 0 } } else d
  | 0x2008 => match off with
    | 0x18 => { d with fld := { d.fld with rxErr := 0, dropped := 0 } }
    | 0x1C => { d with fld := { d.fld with done := 0, aborted := 0 } }
    | _ => d
  | 0x2009 => match off with
    | 0x14 => { d with roof := { d.roof with linkCrc := 0, linkCode := 0, markMiss := 0, retryFail := 0 } }
    | 0x1C => { d with roof := { d.roof with misses := 0, badWords := 0 } }
    | _ => d
  | _ => d

/-- A read of SYS_HTIME_LO latches the upper half of house time (15 R468). -/
def Dev.latchTime (d : Dev) : Dev := { d with sys := { d.sys with htimeHi := d.sys.htime.extractLsb' 32 32 } }

end Sys2Proof.Machine
end

