-- ==== Sys2Proof/Machine/Host.lean ====
section
/-! DEFINITION. The host port (02 R30 to R53): its five commands byte by byte, the error flags, and the accesses that the
table names by the register they touch. -/

namespace Sys2Proof.Machine

open Sys2Proof

/-- A host access in progress: the device, the OTP and the flags of SYS_HP_STATUS the access has set. -/
structure HostAcc where
  dev : Dev
  otp : Otp
  raised : BitVec 7
  deriving DecidableEq, Repr

/-- SYS_HP_STATUS[i] is set by the byte at `a` (R42 to R44). -/
def HostAcc.flag (x : HostAcc) (i : Nat) (a : Word) : HostAcc :=
  let f := x.dev.hp.flags
  let hp : HostPort := { x.dev.hp with flags := setBit f i true, errAddr := if f = 0 then a else x.dev.hp.errAddr }
  let d : Dev := { x.dev with hp := hp }
  { x with dev := if f.getLsbD i then d else d.interrupt 4, raised := setBit x.raised i true }

/-- The rising edge of HP_CS_N: event 0x0112 where a flag that was 0 at the start was set (R62). -/
def HostAcc.close (x : HostAcc) (before : BitVec 7) : Dev × Otp :=
  if x.raised &&& ~~~before = 0 then (x.dev, x.otp)
  else (x.dev.event 0x0112 (pay 0 x.dev.hp.flags ||| pay 32 x.dev.hp.errAddr), x.otp)

/-- An access of the host port, where the port answers (R51): what it drove out is `out` of the result.
(DEDUCED, log 81) -/
def hostAccess (d : Dev) (o : Otp) (f : HostAcc → HostAcc) : Dev × Otp :=
  if d.coreUp then
    let d0 : Dev := { d with hp := { d.hp with out := [] } }
    (f { dev := d0, otp := o, raised := 0 }).close d.hp.flags
  else (d, o)

/-! ### WRITE (R37, R39, R49) -/

/-- A whole aligned register word. -/
def HostAcc.putReg (x : HostAcc) (a v : Word) : HostAcc :=
  match regWrite x.dev x.otp a.toNat v with
  | (out, d, o) =>
    let y : HostAcc := { x with dev := d, otp := o }
    match out with
    | .done => y
    | .unmapped => y.flag 0 a
    | .protect => y.flag 1 a
    | .align => y.flag 2 a

/-- A byte outside the Loft that is not part of a whole aligned word (R47, R49); `cut`: HP_CS_N rises inside its word, which
sets ABORT too where the word is a register (R39, R42). (DEDUCED, log 81) -/
def HostAcc.putPart (x : HostAcc) (a : Word) (cut : Bool) : HostAcc :=
  if (windowRead x.dev a.toNat).isSome then x.flag 1 a
  else
    let abort (x : HostAcc) : HostAcc := if cut then x.flag 6 a else x
    match regOutcome x.dev x.otp (a.toNat / 4 * 4) 0 with
    | .unmapped => x.flag 0 a
    | .protect => abort (x.flag 1 a)
    | _ => abort (x.flag 2 a)

/-- Whether an access whose last bytes, `n` of them, begin at `a` ends inside the word of `a` (R39). (DEDUCED, log 81) -/
def endsInWord (a : Word) (n : Nat) : Bool := decide (a.toNat % 4 + n < 4)

/-- The bytes of a WRITE from `a` upward, each by its own address, a run of Loft bytes as one write (R59); the address wraps
at 2^32. -/
def HostAcc.put : Nat → HostAcc → Word → List Byte → HostAcc
  | 0, x, _, _ => x
  | _ + 1, x, _, [] => x
  | n + 1, x, a, b :: bs =>
    if a.toNat < 0x40000 then (x.flag 1 a).put n (a + 1) bs
    else if a.toNat < loftSize then
      let run := (b :: bs).take (loftSize - a.toNat)
      let x : HostAcc := { x with dev := x.dev.loftWrite a.toNat run }
      x.put n (a + BitVec.ofNat 32 run.length) ((b :: bs).drop run.length)
    else match decide (a.toNat % 4 = 0), windowRead x.dev a.toNat, bs with
      | true, none, b1 :: b2 :: b3 :: rest => (x.putReg a (b3 ++ b2 ++ b1 ++ b)).put n (a + 4) rest
      | _, _, _ => (x.putPart a (endsInWord a (bs.length + 1))).put n (a + 1) bs

/-- WRITE. `addr` is none where HP_CS_N rose in the command or the address; `part`: it rose inside a byte after the complete
ones in `data` (R39). (DEDUCED, log 23) -/
def Dev.hostWrite (d : Dev) (o : Otp) (addr : Option Word) (data : List Byte) (part : Bool) : Dev × Otp :=
  hostAccess d o fun x =>
    match addr with
    | none => x.flag 6 0
    | some a =>
      let x := x.put data.length a data
      if part then x.flag 6 (a + BitVec.ofNat 32 data.length) else x

/-! ### READ (R37, R38, R47, R49) -/

/-- The byte address of the first uncorrectable byte of a Loft range. -/
def Loft.firstUe (l : Loft) (a n : Nat) : Option Nat := ((upTo n).map (a + ·)).find? fun x => l.ue.contains (x / 8)

/-- A run of Loft bytes: the stored bytes, ECC_UE where a word is uncorrectable (R57, R58). -/
def HostAcc.getLoft (x : HostAcc) (a n : Nat) : List Byte × HostAcc :=
  let bs := x.dev.loftBytes a n
  let ue := x.dev.loft.firstUe a n
  let x : HostAcc := { x with dev := x.dev.loftTouch a n }
  (bs, match ue with
    | some u => x.flag 5 (BitVec.ofNat 32 u)
    | none => x)

/-- One byte outside the Loft. `run`: the bytes of this READ before it, for the clear on read of R47. -/
def HostAcc.getByte (x : HostAcc) (a : Word) (run : Nat) : Byte × HostAcc :=
  let w := a.toNat / 4 * 4
  let x : HostAcc := if w = 0x20000030 then { x with dev := x.dev.latchTime } else x
  match byteRead x.dev x.otp a.toNat with
  | none => (0, x.flag 0 a)
  | some b => (b, if a.toNat % 4 = 3 ∧ 3 ≤ run then { x with dev := regClear x.dev w } else x)

/-- `n` bytes from `a` upward. -/
def HostAcc.get : Nat → HostAcc → Word → Nat → Nat → List Byte × HostAcc
  | 0, x, _, _, _ => ([], x)
  | fuel + 1, x, a, n, run =>
    if n = 0 then ([], x)
    else if a.toNat < loftSize then
      let k := min n (loftSize - a.toNat)
      let (bs, x) := x.getLoft a.toNat k
      let (rest, x) := x.get fuel (a + BitVec.ofNat 32 k) (n - k) (run + k)
      (bs ++ rest, x)
    else
      let (b, x) := x.getByte a run
      let (rest, x) := x.get fuel (a + 1) (n - 1) (run + 1)
      (b :: rest, x)

/-- The bytes driven out. (DEDUCED, log 81) -/
def HostAcc.drive (x : HostAcc) (bs : List Byte) : HostAcc :=
  { x with dev := { x.dev with hp := { x.dev.hp with out := bs } } }

/-- READ of `n` bytes with an SCK period of `period` picoseconds; `ready`: the first byte was there at the end of the
dummy cycles, which it always is when they last 160 ns (R38). (DEDUCED, log 81) -/
def Dev.hostRead (d : Dev) (o : Otp) (addr : Option Word) (n period : Nat) (ready : Bool) : Dev × Otp :=
  hostAccess d o fun x =>
    match addr with
    | none => x.flag 6 0
    | some a =>
      if decide (d.hp.dummy.toNat * period < 160000) && !ready then
        (x.flag 3 a).drive (List.replicate n 0)
      else
        let (bs, x) := x.get n a n 0
        x.drive bs

/-! ### READ STATUS, READ ID, PORT RESET and unknown commands (R34 to R36) -/

/-- READ STATUS clocked for `n` bytes. -/
def Dev.hostStatus (d : Dev) (o : Otp) (n : Nat) : Dev × Otp :=
  hostAccess d o fun x => x.drive (List.replicate n (x.dev.hp.flags.setWidth 8))

/-- READ ID clocked for `n` bytes. -/
def Dev.hostId (d : Dev) (o : Otp) (n : Nat) : Dev × Otp :=
  hostAccess d o fun x => x.drive ((([0x01, 0x00, 0x16, 0x1A] : List Byte) ++ List.replicate n 0).take n)

/-- PORT RESET at the rise of HP_CS_N. -/
def Dev.portReset (d : Dev) (o : Otp) : Dev × Otp :=
  hostAccess d o fun x => { x with dev := { x.dev with hp := { x.dev.hp with proto := 0, dummy := 8 } } }

/-- The five commands of R35. -/
inductive HostCommand where
  | write | readStatus | read | readId | portReset
  deriving DecidableEq, Repr

/-- The command a byte picks (R35). -/
def hostCommand (c : Byte) : Option HostCommand :=
  if c = 0x02 then some .write
  else if c = 0x05 then some .readStatus
  else if c = 0x0B then some .read
  else if c = 0x9F then some .readId
  else if c = 0xFF then some .portReset
  else none

/-- The command of an access whose command byte is `rise`; in DDR the byte `fall` of the falling edge must be its inverse,
but in PORT RESET, 0xFF on both edges (R34 to R36). -/
def HostPort.selects (h : HostPort) (rise fall : Byte) : Option HostCommand :=
  if h.proto = 2 ∧ fall ≠ ~~~rise ∧ ¬ (rise = 0xFF ∧ fall = 0xFF) then none else hostCommand rise

/-- What follows the command byte of an access: the address, none where HP_CS_N rose before it was complete, the complete
bytes of a WRITE and whether HP_CS_N rose inside one more, the number of bytes a reading command is clocked for, and the
SCK period in picoseconds and whether the first byte was ready for a READ. -/
structure HostFrame where
  addr : Option Word := none
  data : List Byte := []
  part : Bool := false
  count : Nat := 0
  period : Nat := 0
  ready : Bool := true
  deriving DecidableEq, Repr

/-- A command carried out (R35 to R39). -/
def Dev.hostCommandRun (d : Dev) (o : Otp) (f : HostFrame) : HostCommand → Dev × Otp
  | .write => d.hostWrite o f.addr f.data f.part
  | .readStatus => d.hostStatus o f.count
  | .read => d.hostRead o f.addr f.count f.period f.ready
  | .readId => d.hostId o f.count
  | .portReset => d.portReset o

/-- A whole access, from its command byte on: a byte that picks no command is ignored to the end of the access and sets
BAD_CMD (R34, R35). -/
def Dev.hostFrame (d : Dev) (o : Otp) (rise fall : Byte) (f : HostFrame) : Dev × Otp :=
  match d.hp.selects rise fall with
  | some c => d.hostCommandRun o f c
  | none => hostAccess d o fun x => x.flag 4 0

/-- An access whose command byte picks no command; one that picks a command is that command's own row.
(DESIGN CHOICE, log 25) -/
def Dev.hostUnknown (d : Dev) (o : Otp) (rise fall : Byte) : Dev × Otp :=
  if (d.hp.selects rise fall).isSome then (d, o) else d.hostFrame o rise fall {}

/-! ### Accesses named by their register -/

/-- The host writes the whole register at `a`. (DEDUCED, log 82) -/
def Dev.hostPut (d : Dev) (o : Otp) (a : Nat) (v : Word) : Dev × Otp :=
  d.hostWrite o (some (BitVec.ofNat 32 a)) (leBytes v.toNat 4) false

/-- The host writes the first `len` bytes of `v` at `a`. (DEDUCED, log 82) -/
def Dev.hostPutLen (d : Dev) (o : Otp) (a v : Word) (len : Nat) : Dev × Otp :=
  d.hostWrite o (some a) (leBytes v.toNat len) false

/-- The host reads the whole register at `a` in one READ with the data ready. (DEDUCED, log 82) -/
def Dev.hostGet (d : Dev) (o : Otp) (a : Word) : Dev × Otp := d.hostRead o (some a) 4 0 true

/-- The address of register `off` of ring `n`. -/
def ringReg (n : Fin 32) (off : Nat) : Nat := 0x20010000 + 64 * n.val + off

end Sys2Proof.Machine
end

