-- ==== Sys2Proof/Machine/Cores.lean ====
section
/-! DEFINITION. How a Thatch core executes one instruction (chapter 04): its address space and memory (R108 to R110), the
fetch, the word's own causes, its cycles and limits (R122, R124, 05 R158), and what a trap does (R117 to R120). -/

namespace Sys2Proof.Machine

open Sys2Proof

/-! ### A core and what it runs -/

def Dev.coreAt (d : Dev) : CoreId → Core
  | .truss => d.thatch.truss
  | .engine e => (d.engAt e).core
  | .gable => d.thatch.gable
  | .soffit => d.thatch.soffit

def Dev.onCore (d : Dev) (c : CoreId) (f : Core → Core) : Dev :=
  match c with
  | .truss => { d with thatch := { d.thatch with truss := f d.thatch.truss } }
  | .engine e => d.onEng e fun g => { g with core := f g.core }
  | .gable => { d with thatch := { d.thatch with gable := f d.thatch.gable } }
  | .soffit => { d with thatch := { d.thatch with soffit := f d.thatch.soffit } }

/-- The invocation in progress on an engine. -/
def Dev.invAt (d : Dev) (e : Fin 8) : Option Invocation := (d.engAt e).work.bind (·.inv)

/-- The image a core executes (05 R140 for an engine). -/
def Dev.imageAt (d : Dev) : CoreId → Option Image
  | .truss => d.thatch.trussImage
  | .engine e => (d.invAt e).bind fun i => d.imageOf i.handle
  | .gable => d.thatch.gableImage
  | .soffit => d.thatch.soffitImage

/-- Whether a core is clocked. -/
def Dev.coreOn (d : Dev) : CoreId → Bool
  | .truss | .gable => d.coreUp
  | .engine e => d.coreUp && (d.invAt e).isSome
  | .soffit => d.soffit.powered && d.linkUp

/-- Whether a core executes an instruction now: it runs, and a debugger that holds it has asked for one step (17 R506). -/
def Dev.coreRuns (d : Dev) (c : CoreId) : Bool :=
  let x := d.coreAt c
  d.coreOn c && x.mode == .running && (!x.dbgHalt || x.dbgStep)

/-- Whether an address lies in a section of a kind. -/
def Image.inSection (i : Image) (kinds : List Nat) (a : Nat) : Bool :=
  i.sections.any fun s => kinds.contains s.kind && decide (s.addr ≤ a) && decide (a < s.addr + s.length)

/-- Whether the word at an address may be fetched (R109, 05 R140). -/
def Dev.executable (d : Dev) (c : CoreId) (pc : Word) : Bool :=
  let a := pc.toNat
  decide (a % 4 = 0) && match c with
    | .truss => decide (0x40000000 ≤ a) && decide (a < 0x40020000)
    | c => match d.imageAt c with
      | none => false
      | some i => i.inSection [1] a

/-! ### Memory (R108 to R110) -/

/-- The device with its OTP, which a Truss store can program. -/
abbrev Chip := Dev × Otp

/-- Whether bytes of a core memory hold an uncorrectable word (R110). -/
def CoreMem.bad (m : CoreMem) (a n : Nat) : Bool := m.ue.any (touchesWord a n)

/-- Bytes written to a core memory: a word written whole loses its error. -/
def CoreMem.write (m : CoreMem) (a : Nat) (bs : List Byte) : CoreMem :=
  { cells := writeBytes m.cells a bs, ue := m.ue.filter fun w => !coversWord a bs.length w }

/-- An access that ends: with its bytes and effects, or with a trap code and the effects that stand. -/
abbrev Access (α : Type) := Except (Byte × Dev) α

/-- A load from a core memory. -/
def coreLoad (d : Dev) (m : CoreMem) (a n : Nat) : Access (List Byte × Dev) :=
  if m.bad a n then .error (tMemUe, d) else .ok (readBytes m.cells a n, d)

/-- A load from the Loft with its error handling (02 R57, R58). -/
def loftLoad (d : Dev) (a n : Nat) : Access (List Byte × Dev) :=
  if d.loftUe a n then .error (tMemUe, d.loftTouch a n) else .ok (d.loftBytes a n, d.loftTouch a n)

/-- A load of the Truss (R109): the host's address map and the Truss memory. -/
def trussLoad (m : Chip) (a n : Nat) : Access (List Byte × Dev) :=
  let d := m.1
  if a + n ≤ loftSize then loftLoad d a n
  else if 0x40000000 ≤ a ∧ a + n ≤ 0x40020000 then coreLoad d d.thatch.trussMem (a - 0x40000000) n
  else if 0x30020000 ≤ a ∧ a + n ≤ 0x30040000 then coreLoad d d.thatch.gableMem (a - 0x30020000) n
  else
    let d := if a / 4 * 4 = 0x20000030 then d.latchTime else d
    let bs := (upTo n).filterMap fun i => byteRead d m.2 (a + i)
    if bs.length = n ∧ loftSize ≤ a then .ok (bs, if n = 4 then regClear d a else d) else .error (tAccess, m.1)

/-- A load of an engine (05 R139). -/
def engineLoad (d : Dev) (e : Fin 8) (a n : Nat) : Access (List Byte × Dev) :=
  match d.invAt e with
  | none => .error (tAccess, d)
  | some i =>
    if a + n ≤ 0x1000 then
      if i.ls then .ok (readBytes (d.engAt i.home).slotMem[i.slot.val] a n, d) else .error (tAccess, d)
    else if 0x2000 ≤ a ∧ a + n ≤ 0x2100 then .ok ((upTo n).map fun k => byteAt i.params (a - 0x2000 + k), d)
    else if 0x10000000 ≤ a ∧ d.inRegion [1, 3, 4] (a - 0x10000000, n) = true then loftLoad d (a - 0x10000000) n
    else .error (tAccess, d)

/-- A load of the Gable (R109). -/
def gableLoad (d : Dev) (a n : Nat) : Access (List Byte × Dev) :=
  if a + n ≤ 0x20000 then coreLoad d d.thatch.gableMem a n
  else if 0x100000 ≤ a ∧ a + n ≤ 0x101000 then
    .ok (readBytes d.rdg.buffers[d.windowBuf.val] (a - 0x100000) n, d)
  else if 0x10000000 ≤ a ∧ a + n ≤ 0x10000000 + loftSize then loftLoad d (a - 0x10000000) n
  else .error (tAccess, d)

/-- A load of `n` bytes: ALIGN, ACCESS and MEM_UE in that order (R118). -/
def memLoad (m : Chip) (c : CoreId) (addr : Word) (n : Nat) : Access (List Byte × Dev) :=
  let a := addr.toNat
  if a % n ≠ 0 then .error (tAlign, m.1)
  else match c with
    | .truss => trussLoad m a n
    | .engine e => engineLoad m.1 e a n
    | .gable => gableLoad m.1 a n
    | .soffit => if a + n ≤ 0x2000 then coreLoad m.1 m.1.thatch.soffitMem a n else .error (tAccess, m.1)

/-- A store of the Truss (R109): where the host would set UNMAPPED or PROTECT it traps ACCESS, and for ALIGN it traps
ALIGN. -/
def trussStore (m : Chip) (a : Nat) (bs : List Byte) : Access Chip :=
  let d := m.1
  if a + bs.length ≤ loftSize then .ok (d.loftWrite a bs, m.2)
  else if 0x40000000 ≤ a ∧ a + bs.length ≤ 0x40020000 then
    .ok ({ d with thatch := { d.thatch with trussMem := d.thatch.trussMem.write (a - 0x40000000) bs } }, m.2)
  else match regOutcome d m.2 (a / 4 * 4) (BitVec.ofNat 32 (leNat bs)) with
    | .done =>
      if bs.length = 4 then .ok (regEffect d m.2 a (BitVec.ofNat 32 (leNat bs))) else .error (tAlign, d)
    | .align => .error (tAlign, d)
    | _ => .error (tAccess, d)

/-- A store of the Gable (R109, 11 R325, R356): memory outside code sections and the configuration area, the cell-map
window until it has published in the tick, and the log-entry area of a SAFETY_CHANGE. -/
def gableStore (d : Dev) (a : Nat) (bs : List Byte) : Access Dev :=
  let n := bs.length
  if a + n ≤ 0x20000 then
    let code : Bool := match d.thatch.gableImage with | none => false | some i => i.inSection [1] a
    if code = true ∨ 0x1F000 ≤ a then .error (tAccess, d)
    else .ok { d with thatch := { d.thatch with gableMem := d.thatch.gableMem.write a bs } }
  else if 0x100000 ≤ a ∧ a + n ≤ 0x101000 then
    if d.gbl.published then .error (tAccess, d)
    else
      .ok { d with rdg := { d.rdg with
              buffers := upd d.rdg.buffers d.windowBuf fun b => writeBytes b (a - 0x100000) bs
              cellParity := d.rdg.cellParity.filter fun x =>
                !(x.1 == decide (d.windowBuf = 1) && decide (a - 0x100000 ≤ x.2 / 4) && decide (x.2 / 4 < a - 0x100000 + n)) } }
  else match d.gbl.logArea with
    | none => .error (tAccess, d)
    | some b =>
      if 0x10000000 + b ≤ a ∧ a + n ≤ 0x10000000 + b + 128 then .ok (d.loftWrite (a - 0x10000000) bs)
      else .error (tAccess, d)

/-- A store of the Soffit sequencer (R109). -/
def soffitStore (d : Dev) (a : Nat) (bs : List Byte) : Access Dev :=
  let code : Bool := match d.thatch.soffitImage with | none => false | some i => i.inSection [1] a
  if a + bs.length ≤ 0x2000 ∧ code = false then
    .ok { d with thatch := { d.thatch with soffitMem := d.thatch.soffitMem.write a bs } }
  else .error (tAccess, d)

/-- A store of an engine: its local-store slot only (05 R139). -/
def engineStore (d : Dev) (e : Fin 8) (a : Nat) (bs : List Byte) : Access Dev :=
  match d.invAt e with
  | none => .error (tAccess, d)
  | some i =>
    if a + bs.length ≤ 0x1000 ∧ i.ls = true then
      .ok (d.onEng i.home fun g => { g with slotMem := upd g.slotMem i.slot fun t => writeBytes t a bs })
    else .error (tAccess, d)

/-- A store: ALIGN and ACCESS in that order (R118). -/
def memStore (m : Chip) (c : CoreId) (addr : Word) (bs : List Byte) : Access Chip :=
  let a := addr.toNat
  if a % bs.length ≠ 0 then .error (tAlign, m.1)
  else match c with
    | .truss => trussStore m a bs
    | .engine e => (engineStore m.1 e a bs).map (·, m.2)
    | .gable => (gableStore m.1 a bs).map (·, m.2)
    | .soffit => (soffitStore m.1 a bs).map (·, m.2)

/-- The Cycles of a load or store (R122, 05 R142). -/
def memCycles (c : CoreId) (addr : Word) (store : Bool) : Nat :=
  let a := addr.toNat
  match c with
  | .truss => if 0x40000000 ≤ a then (if store then 1 else 2) else if store then 4 else 16
  | .engine _ => if a < 0x2000 then (if store then 1 else 2) else if a < 0x10000000 then 2 else 16
  | .gable => if 0x10000000 ≤ a then 24 else 2
  | .soffit => 1

/-! ### Traps (R117 to R119) -/

/-- A trap of a core at `pc`: what it records, and what the core and the device do then. -/
def Dev.trapAt (d : Dev) (c : CoreId) (code : Byte) (pc tval : Word) : Dev :=
  let mark (x : Core) : Core := { x with tcause := code, tpc := pc, tval := tval }
  match c with
  | .truss =>
    let entry := match d.thatch.trussImage with | none => 0 | some i => i.trapEntry
    if d.thatch.truss.inHandler ∨ entry = 0 then
      Dev.onCore { d with sys := { d.sys with haltAt := d.alwaysOn } } .truss fun x => { mark x with mode := .halted }
    else d.onCore .truss fun x => { mark x with pc := entry, inHandler := true }
  | .engine e => d.trapInv e code pc tval
  | .gable => (d.onCore .gable fun x => { mark x with mode := .halted }).gableLost 2 code
  | .soffit => (d.onCore .soffit fun x => { mark x with mode := .halted }).soffitHalt

/-! ### One instruction -/

/-- How the work of an instruction ends. -/
inductive IOut where
  /-- done, and the flow goes on at the next word or a loop's start (R105) -/
  | next (m : Chip)
  /-- done, the flow already set, at this many cycles -/
  | jump (m : Chip) (cycles : Nat)
  /-- done, with what ends the flow (the end of a task or an invocation, WFI, a debug break) once its cycles are counted -/
  | stop (m : Chip) (then_ : Dev → Dev)
  /-- a trap with its TVAL; what stands of the access that met it (02 R58) -/
  | trap (d : Dev) (code : Byte) (tval : Word)

/-- The cycles an instruction takes (R122): exact in G and F, at least the table's in T and P. -/
def Dev.cyclesOf (d : Dev) (c : CoreId) (n : Nat) : Nat :=
  match c with
  | .gable | .soffit => n
  | _ => n + (Config.extraCycles d.thatch.draws).toNat

/-- The next draw of Config.extraCycles, on a core whose counts are least values. -/
def Dev.drawn (d : Dev) (c : CoreId) : Dev :=
  match c with
  | .gable | .soffit => d
  | _ => { d with thatch := { d.thatch with draws := d.thatch.draws + 1 } }

/-- Cycles counted on a core, and in an invocation (R111, 05 R141). -/
def Dev.count (d : Dev) (c : CoreId) (n : Nat) : Dev :=
  let d := (d.drawn c).onCore c fun x => { x with cycle := x.cycle + BitVec.ofNat 64 n }
  match c with
  | .engine e => d.onEng e fun g => { g with work := g.work.map fun (w : Work) =>
      { w with inv := w.inv.map fun (i : Invocation) => { i with cycles := i.cycles + n } } }
  | _ => d

/-- The bound on a core's cycles that an instruction of `n` more would pass: WATCHDOG and PATCH_OVERRUN with the count at
that cycle (R124, 05 R158); `tail` is what the end of an invocation costs besides (05 R157). (DESIGN CHOICE, log 108) -/
def Dev.overrun (d : Dev) (c : CoreId) (n tail : Nat) : Option (Byte × Nat) :=
  let task (i : Option Image) (x : Core) : Option (Byte × Nat) :=
    match i.bind (·.tasks[x.taskId.toNat]?) with
    | none => none
    | some t => if t.wcet.toNat < x.cycle.toNat + n then some (tWatchdog, t.wcet.toNat + 1) else none
  match c with
  | .truss => none
  | .gable => task d.thatch.gableImage d.thatch.gable
  | .soffit => task d.thatch.soffitImage d.thatch.soffit
  | .engine e => match (d.engAt e).work with
    | none => none
    | some w => match w.inv, d.course.runOf w.frame with
      | some i, some r =>
        if r.limit.toNat < i.cycles + n + tail then some (tPatchOverrun, r.limit.toNat + 1) else none
      | _, _ => none

/-- The invocation's count at the cycle of an overrun. -/
def Dev.countTo (d : Dev) (c : CoreId) (n : Nat) : Dev :=
  match c with
  | .engine e => d.onEng e fun g => { g with work := g.work.map fun (w : Work) =>
      { w with inv := w.inv.map fun (i : Invocation) => { i with cycles := n } } }
  | c => d.onCore c fun x => { x with cycle := BitVec.ofNat 64 n }

/-- A step that a debugger asked for is over (17 R506). -/
def Dev.endStep (d : Dev) (c : CoreId) : Dev :=
  if (d.coreAt c).dbgStep then d.onCore c fun x => { x with dbgStep := false } else d

/-- Lines of an engine's instruction cache: 16 KiB of 32 bytes each (01 R10, 05 R140). -/
def icacheLines : Nat := 512

/-- An engine's instruction fetch at Loft address `a` through its cache (05 R140): a hit reads no Loft. A miss stalls the engine
for at least 16 cycles and fills the 32-byte line, with the Loft's corrections (02 R57); an uncorrectable word in the line is
the memory-error trap (02 R58), and the line is not kept. Which lines a fill drops is Config.lineKept.
(DESIGN CHOICE, log 107) -/
def Dev.cacheFetch (d : Dev) (e : Fin 8) (a : Nat) : Access Dev :=
  let line := a / 32
  if (d.engAt e).icache.contains line then .ok d
  else
    let bad := d.loftUe (32 * line) 32
    let d := (d.loftTouch (32 * line) 32).count (.engine e) 16
    if bad then .error (tMemUe, d)
    else
      let kept := (d.engAt e).icache.filter (Config.lineKept d.thatch.draws)
      .ok (d.onEng e fun g => { g with icache := (line :: kept).take icacheLines })

/-- The fetch of the word at the program counter (R118, group 1): the device with what a cache fill changed, or FETCH, then
MEM_UE. (DESIGN CHOICE, log 29; DEDUCED, log 30) -/
def Dev.fetch (d : Dev) (c : CoreId) : Access Dev :=
  let pc := (d.coreAt c).pc
  let a := pc.toNat
  let core (m : CoreMem) (a : Nat) : Access Dev := if m.bad a 4 then .error (tMemUe, d) else .ok d
  if !d.executable c pc then .error (tFetch, d)
  else match c with
    | .truss => core d.thatch.trussMem (a - 0x40000000)
    | .gable => core d.thatch.gableMem a
    | .soffit => core d.thatch.soffitMem a
    | .engine e => d.cacheFetch e a

/-- The cycles of an outcome, for an instruction whose row gives `n`. -/
def IOut.cycles (x : IOut) (n : Nat) : Nat :=
  match x with
  | .jump _ k => k
  | _ => n

/-- An instruction's work carried out, after the fetch: the bound on the core's cycles first (R118), then its outcome. -/
def IOut.finish (x : IOut) (m : Chip) (c : CoreId) (n tail : Nat) : Chip :=
  let pc := (m.1.coreAt c).pc
  let k := m.1.cyclesOf c (x.cycles n)
  match m.1.overrun c k tail with
  | some (code, at_) => (((m.1.countTo c at_).trapAt c code pc (BitVec.ofNat 32 at_)).endStep c, m.2)
  | none => match x with
    | .next y => (((y.1.count c k).onCore c Core.fall).endStep c, y.2)
    | .jump y _ => ((y.1.count c k).endStep c, y.2)
    | .stop y f => ((f (y.1.count c k)).endStep c, y.2)
    | .trap d code tval => (((d.count c k).trapAt c code pc tval).endStep c, m.2)

/-- A core executes the instruction whose word is `w`, with `n` cycles in its row: the fetch, the causes of the word, then
its work. A core that does not run leaves the device unchanged. (DESIGN CHOICE, logs 29 and 109; DEDUCED, log 30) -/
def issue (m : Chip) (c : CoreId) (w : Word) (n tail : Nat) (work : Chip → IOut) : Chip :=
  if m.1.coreRuns c then
    match m.1.fetch c with
    | .error (code, d) => (IOut.trap d code (m.1.coreAt c).pc).finish (d, m.2) c n tail
    | .ok d => match wordCause c.profile w with
      | some code => (IOut.trap d code w).finish (d, m.2) c n tail
      | none => (work (d, m.2)).finish (d, m.2) c n tail
  else m

/-! ### Control and status registers (R111, R112, 05 R141) -/

/-- The CSRs of an invocation (05 R141). -/
def Dev.patchCsr (d : Dev) (e : Fin 8) (n : Nat) : Word :=
  let g := d.engAt e
  match g.work with
  | none => 0
  | some w =>
    let o := d.scan.patchOrigin w.patch.val
    match n with
    | 0x10 => g.vidx.setWidth 32
    | 0x11 => BitVec.ofNat 32 w.patch.val
    | 0x12 => BitVec.ofNat 16 o.2 ++ BitVec.ofNat 16 o.1
    | 0x13 => w.frame.setWidth 32
    | 0x14 => match w.inv with
      | none => 0
      | some i => BitVec.ofNat 32 (i.ctx.val + 256 * i.rank.toNat)
    | 0x15 => match d.course.runOf w.frame with
      | none => 0
      | some r => r.depth.setWidth 32
    | _ => match w.inv with
      | none => 0
      | some i => satWord i.cycles

/-- The value of a CSR that the profile has (R111). -/
def Dev.csr (d : Dev) (c : CoreId) (n : Nat) : Word :=
  let x := d.coreAt c
  match n with
  | 0x00 => x.flg.word
  | 0x01 => x.tcause.setWidth 32
  | 0x02 => x.tpc
  | 0x03 => x.tval
  | 0x04 => x.cycle.setWidth 32
  | 0x05 => x.cycle.extractLsb' 32 32
  | 0x06 => d.sys.htime.setWidth 32
  | 0x07 => d.sys.htime.extractLsb' 32 32
  | 0x08 => c.word
  | 0x09 => x.signat
  | 0x0A => x.cycle.setWidth 32
  | 0x0B => x.taskId.setWidth 32
  | 0x0C => BitVec.ofNat 32 x.rstack.length
  | 0x0D => BitVec.ofNat 32 x.lstack.length
  | 0x0E => x.tpend.setWidth 32
  | 0x0F => x.ttimer
  | n => match c with
    | .engine e => d.patchCsr e n
    | _ => 0

/-- A write of a CSR that the profile may write (R111, R112). -/
def Core.csrPut (x : Core) (n : Nat) (v : Word) : Core :=
  match n with
  | 0x00 => { x with flg := Flg.ofWord v }
  | 0x01 => { x with tcause := v.setWidth 8 }
  | 0x02 => { x with tpc := v }
  | 0x0E => { x with tpend := w1c x.tpend (v.setWidth 7) }
  | 0x0F => { x with ttimer := v }
  | _ => x

/-- An instruction that changes its core alone. (DESIGN CHOICE, log 29) -/
def issueCore (m : Chip) (c : CoreId) (w : Word) (n : Nat) (f : Core → Core) : Chip :=
  issue m c w n 0 fun m => .next (m.1.onCore c f, m.2)

end Sys2Proof.Machine
end

