-- ==== Sys2Proof/Machine/Debug.lean ====
section
/-! DEFINITION. What an attached debugger does with a core (17 R506): halt, step, resume, read and write, where the table
permits it; every other request is refused and counted. -/

namespace Sys2Proof.Machine

open Sys2Proof

/-- What a debug read or write names. -/
inductive DbgItem where
  /-- a scalar register -/
  | reg (n : BitVec 5)
  | pc
  | flg
  /-- a CSR by its number -/
  | csr (n : BitVec 14)
  /-- a lane of a vector register of an engine -/
  | lane (n k : Fin 16)
  /-- a predicate of an engine -/
  | pred (n : Fin 8)
  /-- a halfword of M of an engine -/
  | coef (k : Fin 16)
  | vidx
  /-- the aligned word at an address: the core's own memory, an engine's slots from 0 upward, the Ridge's windows -/
  | mem (a : Word)
  deriving DecidableEq, Repr

/-- The word at `a` of a sparse memory of `n` bytes. (DEDUCED, log 77) -/
def memItem (m : Mem) (base n : Nat) (a : Word) : Option Word :=
  let x := a.toNat
  if x % 4 = 0 ∧ base ≤ x ∧ x + 4 ≤ base + n then some (read32 m (x - base)) else none

/-- What a read of an item of a core returns; none where the core has no such item. (DEDUCED, log 77) -/
def Dev.dbgRead (d : Dev) (c : CoreId) (x : DbgItem) : Option Word :=
  match x, c with
  | .reg n, c => if c.profile = 3 ∧ 16 ≤ n.toNat then none else some ((d.coreAt c).get n)
  | .pc, c => some (d.coreAt c).pc
  | .flg, c => some (d.coreAt c).flg.word
  | .csr n, c => if csrPresent c.profile n.toNat then some (d.csr c n.toNat) else none
  | .lane n k, .engine e => some (d.engAt e).v[n][k]
  | .pred n, .engine e => some ((d.engAt e).p[n].setWidth 32)
  | .coef k, .engine e => some ((d.engAt e).m[k].setWidth 32)
  | .vidx, .engine e => some ((d.engAt e).vidx.setWidth 32)
  | .mem a, .truss => memItem d.thatch.trussMem.cells 0x40000000 0x20000 a
  | .mem a, .gable => memItem d.thatch.gableMem.cells 0 0x20000 a
  | .mem a, .soffit => memItem d.thatch.soffitMem.cells 0 0x2000 a
  | .mem a, .engine e =>
    memItem ((d.engAt e).slotMem[a.toNat / 0x1000 % 8]'(Nat.mod_lt _ (by decide))) (a.toNat / 0x1000 * 0x1000)
      (if a.toNat < 0x8000 then 0x1000 else 0) a
  | _, _ => none

/-- The word that the Ridge's windows and registers hold at an aligned address (R506, 02 R46). -/
def ridgeItem (m : Chip) (x : DbgItem) : Option Word :=
  match x with
  | .mem a =>
    let bs := (upTo 4).filterMap fun k => byteRead m.1 m.2 (a.toNat + k)
    if a.toNat / 0x100000 = 0x310 ∧ a.toNat % 4 = 0 ∧ bs.length = 4 then some (BitVec.ofNat 32 (leNat bs)) else none
  | _ => none

/-- An item of a core's registers written. -/
def Dev.dbgPut (d : Dev) (c : CoreId) (x : DbgItem) (v : Word) : Option Dev :=
  match x, c with
  | .reg n, c => if c.profile = 3 ∧ 16 ≤ n.toNat then none else some (d.onCore c fun y => y.put n v)
  | .pc, c => some (d.onCore c fun y => { y with pc := v })
  | .flg, c => some (d.onCore c fun y => { y with flg := Flg.ofWord v })
  | .csr n, c =>
    if csrPresent c.profile n.toNat && csrWritable c.profile n.toNat then some (d.onCore c fun y => y.csrPut n.toNat v)
    else none
  | .lane n k, .engine e => some (d.onEng e fun g => { g with v := upd g.v n fun r => r.set k v })
  | .pred n, .engine e => some (d.onEng e fun g => { g with p := g.p.set n (v.setWidth 16) })
  | .coef k, .engine e => some (d.onEng e fun g => { g with m := g.m.set k (v.setWidth 16) })
  | .vidx, .engine e => some (d.onEng e fun g => { g with vidx := v.setWidth 8 })
  | _, _ => none

/-- A word of a core's memory written. -/
def Dev.dbgPutMem (d : Dev) (c : CoreId) (a v : Word) : Option Dev :=
  let bs := leBytes v.toNat 4
  match c with
  | .truss => (memItem d.thatch.trussMem.cells 0x40000000 0x20000 a).map fun _ =>
      { d with thatch := { d.thatch with trussMem := d.thatch.trussMem.write (a.toNat - 0x40000000) bs } }
  | .gable => match memItem d.thatch.gableMem.cells 0 0x20000 a, gableStore d a.toNat bs with
    | some _, .ok d => some d
    | _, _ => none
  | .soffit => match memItem d.thatch.soffitMem.cells 0 0x2000 a, soffitStore d a.toNat bs with
    | some _, .ok d => some d
    | _, _ => none
  | .engine e => (d.dbgRead (.engine e) (.mem a)).map fun _ =>
      d.onEng e fun g => { g with slotMem := updN g.slotMem (a.toNat / 0x1000) fun t => writeBytes t (a.toNat % 0x1000) bs }

/-- The modes in which the Gable may be halted (R506). (DEDUCED, log 44) -/
def Mode.haltsGable : Mode → Bool
  | .load | .armed | .trim | .safeHold | .service => true
  | _ => false

/-- Whether a debugger may halt a core. (DEDUCED, log 44) -/
def Dev.mayHalt (d : Dev) : CoreId → Bool
  | .truss | .soffit => true
  | .engine e => !(d.engAt e).inService
  | .gable => d.sys.mode.haltsGable

/-- Whether a debugger may step a core it holds. -/
def Dev.mayStep (d : Dev) (c : CoreId) : Bool := d.mayHalt c && (c != .gable || d.acc.level == 3) && (d.coreAt c).dbgHalt

/-- Whether a debugger may resume a core: the Gable also from the DEGRADED that its halt in SERVICE leads to (DEDUCED).
(DEDUCED, log 44) -/
def Dev.mayResume (d : Dev) : CoreId → Bool
  | .gable => d.sys.mode.haltsGable || d.sys.mode == .degraded
  | _ => true

/-- A debug request on a core (R504 to R506): it reaches the controller, and is refused without an attach, and in BOOT on any
core but the Truss. (DEDUCED, log 77) -/
def Dev.dbgAsk (d : Dev) (u : Option CoreId) (f : Dev → Dev) : Dev :=
  if d.dbgReaches then
    let d := d.selectDbg
    if d.acc.attached && (d.sys.mode != .boot || u == some .truss) then f d else d.debugRefuse 3
  else d

/-- DEBUG_HALT: a halted Gable is lost with DEGCAUSE 2, a halted Soffit sequencer leaves the outputs safe. -/
def Dev.debugHalt (d : Dev) (u : Option CoreId) : Dev :=
  d.dbgAsk u fun d =>
    match u with
    | none => d.debugRefuse 3
    | some c =>
      if !d.mayHalt c then d.debugRefuse 3
      else if (d.coreAt c).dbgHalt then d
      else
        let d := d.onCore c fun x => { x with dbgHalt := true }
        match c with
        | .gable => d.gableLost 2 0
        | .soffit => d.soffitHalt
        | _ => d

/-- DEBUG_STEP: the core it holds executes its next instruction. -/
def Dev.debugStep (d : Dev) (u : Option CoreId) : Dev :=
  d.dbgAsk u fun d =>
    match u with
    | none => d.debugRefuse 3
    | some c => if d.mayStep c then d.onCore c fun x => { x with dbgStep := true } else d.debugRefuse 3

/-- DEBUG_RESUME. -/
def Dev.debugResume (d : Dev) (u : Option CoreId) : Dev :=
  d.dbgAsk u fun d =>
    match u with
    | none => d.debugRefuse 3
    | some c =>
      if !d.mayResume c then d.debugRefuse 3
      else
        let d := match c with
          | .gable => d.clearGableHalt
          | .soffit => d.soffitRelease
          | _ => d
        d.onCore c Core.release

/-- DEBUG_READ: what it returns is ACC's read data. -/
def Dev.debugRead (d : Dev) (o : Otp) (u : Option CoreId) (x : DbgItem) : Dev :=
  d.dbgAsk u fun d =>
    let v := match u with
      | none => ridgeItem (d, o) x
      | some c => d.dbgRead c x
    match v with
    | none => d.debugRefuse 3
    | some w => d.onAcc fun a => { a with dbgData := w }

/-- DEBUG_WRITE. -/
def Dev.debugWrite (d : Dev) (u : Option CoreId) (x : DbgItem) (v : Word) : Dev :=
  d.dbgAsk u fun d =>
    let r : Option Dev := match u, x with
      | some .truss, .mem a => d.dbgPutMem .truss a v
      | some .truss, x => d.dbgPut .truss x v
      | some (.engine e), .mem a => if (d.engAt e).inService then none else d.dbgPutMem (.engine e) a v
      | some (.engine e), x => if (d.engAt e).inService then none else d.dbgPut (.engine e) x v
      | some .gable, .mem a => if d.acc.level = 3 ∧ a.toNat < 0x20000 then d.dbgPutMem .gable a v else none
      | some .soffit, .mem a => d.dbgPutMem .soffit a v
      | _, _ => none
    match r with
    | none => d.debugRefuse 3
    | some d => d

/-! ### A debug break (04 R120) -/

/-- BRK with a debugger attached halts the core as a debugger's halt does. -/
def Dev.breakCore (d : Dev) (c : CoreId) : Dev :=
  let d := d.onCore c fun x =>
    let x := if Config.brkAdvances then x.fall else x
    { x with dbgHalt := true }
  match c with
  | .gable => d.gableLost 2 0
  | .soffit => d.soffitHalt
  | _ => d

end Sys2Proof.Machine
end

