-- ==== Sys2Proof/Machine/Relay.lean ====
section
/-! DEFINITION. The worker's side of the relay rings (16 R483, R484): relayed writes and reads as host accesses, and the
queue of relayed commands that is the worker's ring 23. -/

namespace Sys2Proof.Machine

open Sys2Proof

/-- A cell taken by this device: TPEND.PURLIN (04 R115). (DEDUCED, log 34) -/
def Dev.purlinTaken (d : Dev) : Dev := d.trussPend 4

/-- The same where the cell was this device's to take. (DEDUCED, log 34) -/
def Dev.purlinTakenIf (d : Dev) (b : Bool) : Dev := if b then d.purlinTaken else d

/-- A MIGRATE cell taken from roof position `src` (R474, 06 R189): acknowledged, then its phase. -/
def Dev.takeMigrate (d : Dev) (src : BitVec 3) (seq : BitVec 16) (p : MigratePhase) : Dev :=
  if d.inRoof then ((d.ack (src.setWidth 8) 8 seq).purlinTaken).migrateCell src p else d

/-- The bytes `k` to `k + n - 1` of a ring 30 entry as a number. -/
def entryField (e : List Byte) (k n : Nat) : Nat := leNat ((e.drop k).take n)

/-- The answer of a worker to a relayed access: a ring 31 entry of `kind` with the flags the access set (R483). -/
def Dev.relayAnswer (d : Dev) (kind : Nat) (e : List Byte) (flags : BitVec 7) (body : List Byte) : Dev :=
  d.sendCell 0x0A 0 (relayEntry kind (d.roof.position.setWidth 8) (BitVec.ofNat 16 (entryField e 2 2))
    (BitVec.ofNat 32 (entryField e 4 4)) (flags.setWidth 8) body)

/-- A relayed WRITE of LEN bytes, executed as a host WRITE (R484). -/
def Chip.relayWrite (m : Chip) (e : List Byte) : Chip :=
  let bs := (e.drop 16).take (entryField e 8 1)
  let x : HostAcc := { dev := m.1, otp := m.2, raised := 0 }
  let x := x.put bs.length (BitVec.ofNat 32 (entryField e 4 4)) bs
  let c := x.close m.1.hp.flags
  (c.1.relayAnswer 4 e x.raised [], c.2)

/-- A relayed READ of LEN bytes, executed as a host READ that is never late (R484). -/
def Chip.relayRead (m : Chip) (e : List Byte) : Chip :=
  let n := entryField e 8 1
  let x : HostAcc := { dev := m.1, otp := m.2, raised := 0 }
  let r := x.get n (BitVec.ofNat 32 (entryField e 4 4)) n 0
  let c := r.2.close m.1.hp.flags
  (c.1.relayAnswer 3 e r.2.raised r.1, c.2)

/-- A ring 30 entry at its worker (R484). A LEN outside 1 to 48 is not executed, and a command that comes while RELAY is 0
is not served (DEDUCED). (DEDUCED, log 57) -/
def Chip.relayEntry (m : Chip) (e : List Byte) : Chip :=
  let kind := entryField e 0 1
  let n := entryField e 8 1
  if kind = 1 then
    if m.1.roof.relay then
      ({ m.1 with roof := { m.1.roof with relayQueue := m.1.roof.relayQueue ++ [(e.drop 32).take 32] } }, m.2)
    else m
  else if n = 0 ∨ 48 < n then m
  else if kind = 2 then m.relayWrite e
  else if kind = 3 then m.relayRead e
  else m

/-- A RELAY_DOWN cell taken from the manager (R474, R484): acknowledged, then executed. (DEDUCED, log 57) -/
def Chip.relayDown (m : Chip) (src : Byte) (seq : BitVec 16) (entry : BitVec 512) : Chip :=
  if m.1.worker && m.1.coreUp then
    Chip.relayEntry ((m.1.ack src 9 seq).purlinTaken, m.2) (bytes64 entry)
  else m

end Sys2Proof.Machine
end

