-- ==== Sys2Proof/Machine/Commands.lean ====
section
/-! DEFINITION. How a command of a ring is tested and answered (03 R77, R78, R80 to R87), for every command alike. -/

namespace Sys2Proof.Machine

open Sys2Proof

/-- ARG0 to ARG6 (R73). -/
abbrev Args := Vector Word 7

/-- STATUS, RESULT0 and RESULT1 of a completion (R77). -/
structure Answer where
  st : CmdStatus
  r0 : Word
  r1 : Word
  deriving DecidableEq, Repr

/-- What a command does at its fetch: what happens before its completion, the answer, none where a long command goes on,
and the effect that follows the completion (R86). -/
structure CmdOut where
  pre : Dev → Dev
  ans : Option Answer
  eff : Chip → Chip

namespace CmdOut

/-- A refusal: nothing changes (R77). -/
def fail (st : CmdStatus) (r0 : Word) (r1 : Word := 0) : CmdOut := { pre := id, ans := some ⟨st, r0, r1⟩, eff := id }

def badArg (i : Nat) : CmdOut := fail .badArg (BitVec.ofNat 32 i)
def busy (id : Nat) : CmdOut := fail .busy (BitVec.ofNat 32 id)
def zero : CmdOut := fail .noopZero 0
/-- A FAULT answer with its code. (DEDUCED, log 55) -/
def fault (code : Word) : CmdOut := fail .fault code

/-- An effect on the device after an answer. -/
def answer (st : CmdStatus) (r0 r1 : Word) (f : Dev → Dev) : CmdOut :=
  { pre := id, ans := some ⟨st, r0, r1⟩, eff := fun m => (f m.1, m.2) }

/-- OK with its effect. -/
def ok (r0 r1 : Word) (f : Dev → Dev) : CmdOut := answer .ok r0 r1 f

/-- A long command that goes on after its fetch. -/
def long (f : Dev → Dev) : CmdOut := { pre := id, ans := none, eff := fun m => (f m.1, m.2) }

/-- Something that happens before the completion whatever the answer is. -/
def also (x : CmdOut) (f : Dev → Dev) : CmdOut := { x with pre := fun d => x.pre (f d) }

end CmdOut

/-- DEFERRED with RESULT0 and house time [31:0] at fetch (R77). -/
def Dev.deferred (d : Dev) (r0 : Word) (f : Dev → Dev) : CmdOut := .answer .deferred r0 (d.sys.htime.setWidth 32) f

/-- DEFERRED with an effect scheduled (R84). -/
def Dev.scheduled (d : Dev) (h : CmdHdr) (r0 : Word) (op : EffectOp) : CmdOut :=
  d.deferred r0 fun d => d.schedule { ring := BitVec.ofNat 8 h.ring.val, tag := h.tag, op := op }

/-- RESULT0 of an effect at the next patch-run start: the first frame rendered under it (R78). (DEDUCED, log 58) -/
def Dev.runResult (d : Dev) : Word := d.nextRun.setWidth 32

/-- Loft data a command reads: an uncorrectable error in it completes the command FAULT with RESULT0 0x0111 (R77, 02 R58). -/
def Dev.reading (d : Dev) (a n : Nat) (k : List Byte → CmdOut) : CmdOut :=
  (if d.loftUe a n then CmdOut.fault 0x0111 else k (d.loftBytes a n)).also fun d => d.loftTouch a n

/-! ### Tests 1 to 3 (R77, R80, R443) -/

/-- The row of R441 by which a MODE_REQUEST leads from a mode to a target; `true` when it takes effect at a LAT.
(DEDUCED, log 62) -/
def modeRow (fromArmed : Bool) : Mode → Mode → Option Bool
  | .load, .proof => some false
  | .load, .trim => some false
  | .load, .retention => some false
  | .load, .standby => some false
  | .armed, .retention => some false
  | .armed, .standby => some false
  | .armed, .proof => some false
  | .armed, .load => some false
  | .armed, .run => some true
  | .armed, .trim => some true
  | .armed, .service => some true
  | .proof, .proof => some false
  | .proof, .load => some false
  | .run, .armed => some true
  | .run, .service => some true
  | .service, .armed => some true
  | .service, .run => some true
  | .trim, .load => some false
  | .trim, .armed => if fromArmed then some true else none
  | _, _ => none

/-- The modes that a MODE_REQUEST may name while in force (R443). -/
def Mode.requestSelf : Mode → Bool
  | .load | .proof | .armed | .run | .trim | .service => true
  | _ => false

/-- Test 3 of MODE_REQUEST (R443): a row, the mode in force itself, or a code beyond the modes, which test 5 refuses. -/
def Dev.modeRequestAllowed (d : Dev) (target : BitVec 4) : Bool :=
  d.sys.mode.served && match Mode.ofCode target with
    | none => true
    | some t => (modeRow d.sys.trimFromArmed d.sys.mode t).isSome || (t == d.sys.mode && t.requestSelf)

/-- The modes of the command-set table (R80). (DEDUCED, log 42) -/
def Dev.modeAllowed (d : Dev) (op : Byte) (a : Args) : Bool :=
  let m := d.sys.mode
  let served := m.served
  let course := served && m != .safeHold
  let lit := m == .armed || m == .run || m == .degraded
  if op = 0x00 then served || m == .boot
  else if op = 0x01 then d.modeRequestAllowed (slice a[0] 0 4)
  else if op = 0x03 then m == .safeHold
  else if op = 0x10 then
    match (slice a[2] 0 2).toNat with
    | 0 => m == .boot && !d.sys.refused
    | 1 => course
    | _ => m == .load
  else if 0x20 ≤ op.toNat ∧ op.toNat ≤ 0x31 then course
  else if op = 0x41 then course
  else if op = 0x42 then lit || m == .service
  else if op = 0x50 then lit || m == .trim || m == .service
  else if op = 0x52 then m == .load || m == .trim
  else if op = 0x60 ∨ op = 0x61 then m == .load
  else if op = 0x62 ∨ op = 0x78 then lit
  else if op = 0x70 then if a[1].getLsbD 0 then m == .run else m == .proof || m == .armed
  else if op = 0x79 then m == .run || m == .degraded
  else served

/-- The access level a command needs (R80). (DEDUCED, log 62) -/
def Dev.levelNeeded (d : Dev) (op : Byte) (a : Args) : Nat :=
  if op = 0x03 ∨ op = 0x61 ∨ op = 0x62 then 1
  else if op = 0x01 ∧ slice a[0] 0 4 = Mode.service.code ∧ d.sys.mode ≠ .service then 2
  else 0

/-- SYS_IMG_CHECK at the end of an IMAGE_LOAD that ended before its checks (04 R132): PROFILE is its ARG2; CAUSE, of which
the spec says nothing for it, is a free value. (DESIGN CHOICE, log 106) -/
def Dev.noteUnchecked (d : Dev) (a : Args) : Dev :=
  { d with thatch := { d.thatch with
      imgCause := BitVec.ofNat 4 Config.uncheckedCause.val, imgProfile := slice a[2] 0 2,
      imgOffset := if Config.uncheckedCause = 0 then 0 else Config.uncheckedOffset } }

/-- A refusal of an IMAGE_LOAD before its checks is the end of one (04 R132). -/
def CmdOut.endsLoad (x : CmdOut) (op : Byte) (a : Args) : CmdOut :=
  if op = 0x10 then { x with eff := fun m => let n := x.eff m; (n.1.noteUnchecked a, n.2) } else x

/-- A command's meaning after tests 1 to 3. -/
abbrev CmdBody := Chip → CmdHdr → Args → CmdOut

/-- Tests 2 and 3, then the command's own (R77). -/
def Chip.tests (m : Chip) (h : CmdHdr) (op : Byte) (a : Args) (f : CmdBody) : CmdOut :=
  let need := m.1.levelNeeded op a
  if m.1.acc.level.toNat < need then
    (CmdOut.fail .denied (BitVec.ofNat 32 need) (m.1.acc.level.setWidth 32)).endsLoad op a
  else if m.1.modeAllowed op a then f m h a
  else (CmdOut.fail .wrongMode (m.1.sys.mode.code.setWidth 32)).endsLoad op a

/-- The completion, then the effect (R86); a long command that goes on is in service on its ring (R83). -/
def Chip.conclude (m : Chip) (h : CmdHdr) (op : Byte) (a : Args) (x : CmdOut) : Chip :=
  let d := x.pre m.1
  match x.ans with
  | some y => x.eff (d.complete h op y.st y.r0 y.r1, m.2)
  | none => x.eff (d.ring h.ring.val fun r => { r with inService := some { hdr := h, opcode := op, args := a } }, m.2)

/-- Whether the relayed commands of a worker stand for its ring 23 (16 R484). -/
def Dev.relayRing (d : Dev) (n : Fin 24) : Bool := n == 23 && d.roof.relay && d.sys.role == 2

/-- Whether a Truss with a debugger's or a trap's halt leaves rings unserved (04 R119, 17 R506); the ROM of BOOT does not.
(DEDUCED, log 60) -/
def Dev.trussServes (d : Dev) : Bool :=
  d.sys.mode == .boot || (d.thatch.truss.mode != .halted && !d.thatch.truss.dbgHalt)

/-- Whether a ring is in the scope of service (R80): every command ring in a served mode, ring 0 in BOOT. -/
def Dev.inScope (d : Dev) (n : Fin 24) : Bool := d.sys.mode.served || (d.sys.mode == .boot && n == 0)

/-- Whether the device can fetch a command of ring `n` now (R68, R79, R80, R83): in scope, enabled and not stopped, with a
free completion slot and no command in service. (DEDUCED, log 60) -/
def Dev.servesRing (d : Dev) (n : Fin 24) : Bool :=
  let r := d.rings[n.val]
  d.coreUp && d.trussServes && d.inScope n && r.inService.isNone &&
    (d.relayRing n || (r.enabled && !r.stopping && decide (r.cplHeld < r.entries)))

/-- Whether a ring holds an unfetched command; a stopped ring is not fetched from (R68). -/
def Dev.unfetched (d : Dev) (n : Fin 24) : Bool :=
  if d.relayRing n then !d.roof.relayQueue.isEmpty
  else
    let r := d.rings[n.val]
    r.enabled && !r.stopping && decide (0 < r.held)

/-- PRIO of a ring; the relayed commands are served at 1 (16 R484). (DEDUCED, log 56) -/
def Dev.prioOf (d : Dev) (n : Fin 24) : BitVec 2 := if d.relayRing n then 1 else d.rings[n.val].prio

/-- The rings that hold an unfetched command, ring `also` counted among them, and no ring of higher PRIO that holds one
(R79). -/
def Dev.waitingRings (d : Dev) (also : Option (Fin 24)) : List (Fin 24) :=
  let all := (List.finRange 24).filter fun n => d.inScope n && (d.unfetched n || also == some n)
  all.filter fun n => all.all fun m => decide (d.prioOf m ≤ d.prioOf n)

/-- The ring served next: of the rings that can be, the first after the one of their PRIO served last, round robin (R79).
(DEDUCED, log 56) -/
def Dev.nextRing (d : Dev) (also : Option (Fin 24)) : Option (Fin 24) :=
  let ok := (d.waitingRings also).filter d.servesRing
  match ok.find? fun n => decide ((d.served[(d.prioOf n).toFin]).val < n.val) with
  | some n => some n
  | none => ok.head?

/-- Ring `n` has been served at its PRIO. -/
def Dev.noteServed (d : Dev) (n : Fin 24) : Dev := { d with served := d.served.set (d.prioOf n).toFin n }

/-- A command of a ring, fetched when its ring's turn has come: every test, the completion and the effect.
(DEDUCED, log 60) -/
def Chip.command (m : Chip) (h : CmdHdr) (op : Byte) (a : Args) (f : CmdBody) : Chip :=
  if m.1.nextRing (some h.ring) = some h.ring then
    let m : Chip := (m.1.noteServed h.ring, m.2)
    m.conclude h op a (m.tests h op a f)
  else m

end Sys2Proof.Machine
end

