-- ==== Sys2Proof/Syntax.lean ====
section
/-! DEFINITION. The commands of the block: one constructor for every row of the spec's table, in its order, with the row's
mnemonic and rule. A Thatch row names the core that executes it and the fields of its word; a row about something that
happens carries what the rest of the world contributes to it. -/

namespace Sys2Proof

open Sys2Proof.Machine

/-- A command of the table. -/
inductive Instr where
  /-- WRITE [R35]: Host-port WRITE command (0x02) writes data bytes from the host to successive addresses -/
  | write (addr : Option Word) (data : List Byte) (part : Bool)
  /-- READ_STATUS [R35]: Host-port READ STATUS command (0x05) returns SYS_HP_STATUS[7:0] repeatedly while clocked -/
  | readStatus (n : Nat)
  /-- READ [R38]: Host-port READ command (0x0B) returns data from successive addresses after the dummy cycles, or
  zeros if the data is late -/
  | read (addr : Option Word) (n period : Nat) (ready : Bool)
  /-- READ_ID [R35]: Host-port READ ID command (0x9F) returns the four bytes of SYS_DEVID -/
  | readId (n : Nat)
  /-- PORT_RESET [R36]: PORT RESET (0xFF on all lines) returns the port to 1-1-1 with DUMMY 8 at the HP_CS_N rise -/
  | portReset
  /-- HP_UNKNOWN_COMMAND [R35]: An unknown command byte, or a DDR command whose inverse does not match, is ignored and
  sets BAD_CMD -/
  | hpUnknownCommand (rise fall : Byte)
  /-- REGISTER_WRITE [R47]: Host or Truss write to a register that has no row of its own; a write covering less than
  the whole word sets ALIGN, and protected or unmapped targets are refused -/
  | registerWrite (addr value : Word) (len : Fin 5)
  /-- RC_REGISTER_READ [R47]: A read that returns all four bytes of an RC register clears it to its reset value -/
  | rcRegisterRead (addr : Word)
  /-- SYS_HTIME_LO_READ [R468]: A read of SYS_HTIME_LO latches house time [63:32] into SYS_HTIME_HI -/
  | sysHtimeLoRead
  /-- SYS_HP_CFG_WRITE [R40]: A write to SYS_HP_CFG changes PROTO and DUMMY at the HP_CS_N rise that ends the access
  -/
  | sysHpCfgWrite (value : Word)
  /-- RING_BASE_WRITE [R66]: A write to RING_n_BASE or CPL_BASE sets the area address, or is ignored with CFG_ERR when
  it is misaligned or the ring is enabled -/
  | ringBaseWrite (n : Fin 32) (cpl : Bool) (value : Word)
  /-- RING_ENABLE [R67]: A nonzero LOG2 write to a disabled ring checks size, areas and overlaps, then enables the
  ring or refuses the enable with CFG_ERR -/
  | ringEnable (n : Fin 32) (log2 : BitVec 4)
  /-- RING_STOP [R68]: A LOG2 write of 0 stops fetching from the ring; ENABLED clears after the last write to the
  ring's areas -/
  | ringStop (n : Fin 32)
  /-- RING_DISABLE_DONE [R68]: ENABLED clears once the stopped ring's last command has completed and the last write to
  its areas is done -/
  | ringDisableDone (n : Fin 32)
  /-- RING_DOORBELL [R69]: A host write of PROD on a host-produced ring advances the producer index, or is ignored
  with BAD_INDEX -/
  | ringDoorbell (n : Fin 32) (value : BitVec 16)
  /-- RING_CONS_WRITE [R69]: A host write of CONS on a device-produced ring frees entries, or is ignored with
  BAD_INDEX -/
  | ringConsWrite (n : Fin 32) (value : BitVec 16)
  /-- RING_CPL_CONS_WRITE [R69]: A host write of CPL_CONS frees completion slots, or is ignored with BAD_INDEX -/
  | ringCplConsWrite (n : Fin 32) (value : BitVec 16)
  /-- COMMAND_FETCH [R79]: The Truss fetches a command from an enabled command ring once the previous command has
  completed, a completion slot is free and no ring of higher priority waits -/
  | commandFetch
  /-- LONG_COMMAND_COMPLETE [R78]: A long command finishes its work and writes its completion with OK or a failure
  status -/
  | longCommandComplete (n : Fin 24)
  /-- RING_IRQ_TIMER [R71]: IRQ_TIME microseconds after the oldest unsignalled write, the ring signals and sets
  SYS_INT_RING and SYS_INT_STATUS -/
  | ringIrqTimer (n : Fin 32)
  /-- RING_DROP_REPORT [R88]: Once a full device-produced ring has room again, event 0x0201 is raised with the number
  of entries lost -/
  | ringDropReport (n : Fin 32)
  /-- NOP [R80]: The NOP command completes OK with RESULT0 = SYS_DEVID -/
  | nop (h : CmdHdr) (args : Args)
  /-- MODE_REQUEST [R443]: Requests a change to a target mode, tested against the transition table and taking effect
  at once or at the next LAT -/
  | modeRequest (h : CmdHdr) (args : Args)
  /-- HOUSE_EPOCH [R80]: Pairs the host epoch with the current house time and returns that time -/
  | houseEpoch (h : CmdHdr) (args : Args)
  /-- SAFE_HOLD_RESET [R349]: Forwarded to the Gable; opens the 10 s window for the reset-input edge that leaves SAFE
  HOLD -/
  | safeHoldReset (h : CmdHdr) (args : Args)
  /-- IMAGE_LOAD [R131]: Checks a THCH image, authenticates it and loads it, returning a handle for P images or
  starting the T firmware -/
  | imageLoad (h : CmdHdr) (args : Args)
  /-- IMAGE_DROP [R80]: Removes a loaded P image handle unless a context or the finish program uses it -/
  | imageDrop (h : CmdHdr) (args : Args)
  /-- REGION_SET [R82]: Declares or replaces a Loft region of a given kind, with checks for alignment, range and
  overlap -/
  | regionSet (h : CmdHdr) (args : Args)
  /-- REGION_CLEAR [R82]: Removes a declared region unless it is referenced -/
  | regionClear (h : CmdHdr) (args : Args)
  /-- CTX_BIND [R161]: Binds an idle context to a program, mask, parameters, sources and rank at the next patch-run
  start -/
  | ctxBind (h : CmdHdr) (args : Args)
  /-- CTX_SWAP [R179]: Replaces a context's program and entry from the boundary's run onward -/
  | ctxSwap (h : CmdHdr) (args : Args)
  /-- CTX_PARAM [R163]: Copies a new parameter block for a context, applied at the next patch-run start -/
  | ctxParam (h : CmdHdr) (args : Args)
  /-- CTX_PLACE [R180]: Replaces a context's mask and rank, exchanging ranks with a holder of the new rank -/
  | ctxPlace (h : CmdHdr) (args : Args)
  /-- CTX_SUSPEND [R165]: Suspends a context at the boundary and saves its local store -/
  | ctxSuspend (h : CmdHdr) (args : Args)
  /-- CTX_RESUME [R165]: Resumes a suspended context at the boundary, through DRAINING when it has local store -/
  | ctxResume (h : CmdHdr) (args : Args)
  /-- CTX_RETIRE [R165]: Retires a context at the boundary; it becomes IDLE at the run after that -/
  | ctxRetire (h : CmdHdr) (args : Args)
  /-- CTX_MIGRATE [R188]: Moves a context's placement to another engine or, over Purlin, to another device from a
  switch frame -/
  | ctxMigrate (h : CmdHdr) (args : Args)
  /-- FINISH_SET [R181]: Replaces the finish program, its entry and its parameter block from the boundary's run onward
  -/
  | finishSet (h : CmdHdr) (args : Args)
  /-- ENG_RETIRE [R184]: Retires an engine at the boundary and re-places its placement groups -/
  | engRetire (h : CmdHdr) (args : Args)
  /-- ENG_RETURN [R186]: Returns a retired engine to service at the boundary -/
  | engReturn (h : CmdHdr) (args : Args)
  /-- VIN_DESC [R211]: Sets an input stream's descriptor, taking effect at the next Vertical Sync Start on its channel
  -/
  | vinDesc (h : CmdHdr) (args : Args)
  /-- SRC_DESC [R208]: Sets a source descriptor with format, size and planes, applied at the next patch-run start -/
  | srcDesc (h : CmdHdr) (args : Args)
  /-- SRC_COMMIT [R209]: Makes the named linked sources take their stream's READY frame at the next patch-run start -/
  | srcCommit (h : CmdHdr) (args : Args)
  /-- TMODE_LOAD [R245]: Loads a timing-mode record into a slot that is not in use -/
  | tmodeLoad (h : CmdHdr) (args : Args)
  /-- TMODE_SELECT [R247]: Selects a timing-mode slot from the next LAT, retraining the chains when DIV changes -/
  | tmodeSelect (h : CmdHdr) (args : Args)
  /-- FRAME_COMMIT [R253]: Commits an output frame for the transfer that its cutoff selects -/
  | frameCommit (h : CmdHdr) (args : Args)
  /-- CAL_RUN [R424]: Requests a calibration run of the trim DACs in its mask -/
  | calRun (h : CmdHdr) (args : Args)
  /-- CAL_SNAPSHOT [R433]: Writes the applied trim set as a 128-byte record to the Loft -/
  | calSnapshot (h : CmdHdr) (args : Args)
  /-- CAL_RESTORE [R434]: Checks a trim snapshot record and applies it, or refuses it and starts a recalibration -/
  | calRestore (h : CmdHdr) (args : Args)
  /-- SAFETY_LOAD [R354]: The Gable verifies a configuration blob against the change-log head and the OTP counter,
  then applies it -/
  | safetyLoad (h : CmdHdr) (args : Args)
  /-- SAFETY_CHANGE [R357]: Verifies a new blob, writes a change-log entry, increments the OTP counter and applies the
  configuration -/
  | safetyChange (h : CmdHdr) (args : Args)
  /-- ZONESET_SELECT [R335]: Selects a zone set from the next safety tick -/
  | zonesetSelect (h : CmdHdr) (args : Args)
  /-- INJECT [R518]: Runs a detector injection in full or dry form and reports its detection time -/
  | inject (h : CmdHdr) (args : Args)
  /-- ROOF_REENUM [R486]: The manager admits a worker by sending REENUM and waits until the worker reports ARMED -/
  | roofReenum (h : CmdHdr) (args : Args)
  /-- TWIN_YIELD [R490]: Makes the driving side of a twin roof yield at the next LAT -/
  | twinYield (h : CmdHdr) (args : Args)
  /-- ADD [R100]: Thatch ADD: d = a + b -/
  | add (c : CoreId) (dst a b : BitVec 5)
  /-- SUB [R100]: Thatch SUB: d = a − b -/
  | sub (c : CoreId) (dst a b : BitVec 5)
  /-- ADDI [R100]: Thatch ADDI: d = a + sx(imm14) -/
  | addi (c : CoreId) (dst a : BitVec 5) (imm : BitVec 14)
  /-- ADDC [R100]: Thatch ADDC: add with carry -/
  | addc (c : CoreId) (dst a b : BitVec 5)
  /-- SUBB [R100]: Thatch SUBB: subtract with borrow -/
  | subb (c : CoreId) (dst a b : BitVec 5)
  /-- AND [R100]: Thatch AND: bitwise and -/
  | and (c : CoreId) (dst a b : BitVec 5)
  /-- OR [R100]: Thatch OR: bitwise or -/
  | or (c : CoreId) (dst a b : BitVec 5)
  /-- XOR [R100]: Thatch XOR: bitwise exclusive or -/
  | xor (c : CoreId) (dst a b : BitVec 5)
  /-- ANDI [R100]: Thatch ANDI: and with a zero-extended immediate -/
  | andi (c : CoreId) (dst a : BitVec 5) (imm : BitVec 14)
  /-- ORI [R100]: Thatch ORI: or with a zero-extended immediate -/
  | ori (c : CoreId) (dst a : BitVec 5) (imm : BitVec 14)
  /-- XORI [R100]: Thatch XORI: exclusive or with a zero-extended immediate -/
  | xori (c : CoreId) (dst a : BitVec 5) (imm : BitVec 14)
  /-- SHL [R100]: Thatch SHL: shift left by b[4:0] -/
  | shl (c : CoreId) (dst a b : BitVec 5)
  /-- SHR [R100]: Thatch SHR: logical shift right -/
  | shr (c : CoreId) (dst a b : BitVec 5)
  /-- SAR [R100]: Thatch SAR: arithmetic shift right -/
  | sar (c : CoreId) (dst a b : BitVec 5)
  /-- SHLI [R100]: Thatch SHLI: shift left by an immediate -/
  | shli (c : CoreId) (dst a : BitVec 5) (imm : BitVec 14)
  /-- SHRI [R100]: Thatch SHRI: logical shift right by an immediate -/
  | shri (c : CoreId) (dst a : BitVec 5) (imm : BitVec 14)
  /-- SARI [R100]: Thatch SARI: arithmetic shift right by an immediate -/
  | sari (c : CoreId) (dst a : BitVec 5) (imm : BitVec 14)
  /-- CLZ [R100]: Thatch CLZ: count leading zeros -/
  | clz (c : CoreId) (dst a : BitVec 5)
  /-- MUL [R100]: Thatch MUL: low 32 bits of the product -/
  | mul (c : CoreId) (dst a b : BitVec 5)
  /-- MULH [R100]: Thatch MULH: high 32 bits of the signed product -/
  | mulh (c : CoreId) (dst a b : BitVec 5)
  /-- MULHU [R100]: Thatch MULHU: high 32 bits of the unsigned product -/
  | mulhu (c : CoreId) (dst a b : BitVec 5)
  /-- FXMUL [R102]: Thatch FXMUL: signed fixed-point multiply with shift, rounding and saturation -/
  | fxmul (c : CoreId) (dst a b : BitVec 5) (mod : BitVec 9)
  /-- FXMULU [R102]: Thatch FXMULU: unsigned fixed-point multiply -/
  | fxmulu (c : CoreId) (dst a b : BitVec 5) (mod : BitVec 9)
  /-- DIV [R100]: Thatch DIV: signed division, trapping DIVZERO on a zero divisor -/
  | div (c : CoreId) (dst a b : BitVec 5)
  /-- DIVU [R100]: Thatch DIVU: unsigned division -/
  | divu (c : CoreId) (dst a b : BitVec 5)
  /-- REM [R100]: Thatch REM: signed remainder -/
  | rem (c : CoreId) (dst a b : BitVec 5)
  /-- REMU [R100]: Thatch REMU: unsigned remainder -/
  | remu (c : CoreId) (dst a b : BitVec 5)
  /-- SADD [R100]: Thatch SADD: signed saturated add -/
  | sadd (c : CoreId) (dst a b : BitVec 5)
  /-- SSUB [R100]: Thatch SSUB: signed saturated subtract -/
  | ssub (c : CoreId) (dst a b : BitVec 5)
  /-- UADDS [R100]: Thatch UADDS: unsigned saturated add -/
  | uadds (c : CoreId) (dst a b : BitVec 5)
  /-- USUBS [R100]: Thatch USUBS: unsigned saturated subtract -/
  | usubs (c : CoreId) (dst a b : BitVec 5)
  /-- MIN [R100]: Thatch MIN: signed minimum -/
  | min (c : CoreId) (dst a b : BitVec 5)
  /-- MAX [R100]: Thatch MAX: signed maximum -/
  | max (c : CoreId) (dst a b : BitVec 5)
  /-- MINU [R100]: Thatch MINU: unsigned minimum -/
  | minu (c : CoreId) (dst a b : BitVec 5)
  /-- MAXU [R100]: Thatch MAXU: unsigned maximum -/
  | maxu (c : CoreId) (dst a b : BitVec 5)
  /-- SLT [R100]: Thatch SLT: set if less than, signed -/
  | slt (c : CoreId) (dst a b : BitVec 5)
  /-- SLTU [R100]: Thatch SLTU: set if less than, unsigned -/
  | sltu (c : CoreId) (dst a b : BitVec 5)
  /-- SEQ [R100]: Thatch SEQ: set if equal -/
  | seq (c : CoreId) (dst a b : BitVec 5)
  /-- SLTI [R100]: Thatch SLTI: set if less than a signed immediate -/
  | slti (c : CoreId) (dst a : BitVec 5) (imm : BitVec 14)
  /-- SLTIU [R100]: Thatch SLTIU: set if less than an unsigned immediate -/
  | sltiu (c : CoreId) (dst a : BitVec 5) (imm : BitVec 14)
  /-- SEL [R100]: Thatch SEL: select a or b by a condition register -/
  | sel (c : CoreId) (dst a b : BitVec 5) (mod : BitVec 9)
  /-- LUI [R100]: Thatch LUI: load imm19 << 13 -/
  | lui (c : CoreId) (dst : BitVec 5) (imm : BitVec 19)
  /-- LI [R100]: Thatch LI: load sign-extended imm19 -/
  | li (c : CoreId) (dst : BitVec 5) (imm : BitVec 19)
  /-- FXSAT [R100]: Thatch FXSAT: clamp to a signed k-bit range -/
  | fxsat (c : CoreId) (dst a : BitVec 5) (mod : BitVec 9)
  /-- FXSATU [R100]: Thatch FXSATU: clamp to an unsigned k-bit range -/
  | fxsatu (c : CoreId) (dst a : BitVec 5) (mod : BitVec 9)
  /-- THATCH_NOP [R104]: Thatch NOP instruction: no operation -/
  | thatchNop (c : CoreId)
  /-- BEQ [R104]: Thatch BEQ: branch if equal -/
  | beq (c : CoreId) (a b : BitVec 5) (off : BitVec 14)
  /-- BNE [R104]: Thatch BNE: branch if not equal -/
  | bne (c : CoreId) (a b : BitVec 5) (off : BitVec 14)
  /-- BLT [R104]: Thatch BLT: branch if less than, signed -/
  | blt (c : CoreId) (a b : BitVec 5) (off : BitVec 14)
  /-- BGE [R104]: Thatch BGE: branch if greater than or equal, signed -/
  | bge (c : CoreId) (a b : BitVec 5) (off : BitVec 14)
  /-- BLTU [R104]: Thatch BLTU: branch if less than, unsigned -/
  | bltu (c : CoreId) (a b : BitVec 5) (off : BitVec 14)
  /-- BGEU [R104]: Thatch BGEU: branch if greater than or equal, unsigned -/
  | bgeu (c : CoreId) (a b : BitVec 5) (off : BitVec 14)
  /-- JMP [R104]: Thatch JMP: relative jump -/
  | jmp (c : CoreId) (off : BitVec 19)
  /-- CALL [R104]: Thatch CALL: push the return address and jump -/
  | call (c : CoreId) (off : BitVec 19)
  /-- RET [R104]: Thatch RET: pop the return address and return -/
  | ret (c : CoreId)
  /-- JR [R104]: Thatch JR: jump to a register address -/
  | jr (c : CoreId) (a : BitVec 5)
  /-- CALLR [R104]: Thatch CALLR: call a register address -/
  | callr (c : CoreId) (a : BitVec 5)
  /-- LOOPI [R105]: Thatch LOOPI: start a hardware loop with an immediate count -/
  | loopi (c : CoreId) (imm : BitVec 19)
  /-- LOOP [R105]: Thatch LOOP: start a hardware loop with a register count -/
  | loop (c : CoreId) (a : BitVec 5) (len : BitVec 9)
  /-- CSRR [R111]: Thatch CSRR: read a CSR -/
  | csrr (c : CoreId) (dst : BitVec 5) (csr : BitVec 14)
  /-- CSRW [R111]: Thatch CSRW: write a CSR and return its old value -/
  | csrw (c : CoreId) (dst a : BitVec 5) (csr : BitVec 14)
  /-- TRAP [R104]: Thatch TRAP: software trap with TVAL = zx(i) -/
  | trap (c : CoreId) (imm : BitVec 14)
  /-- BRK [R120]: Thatch BRK: debug break, or a BREAK trap when no debugger is attached -/
  | brk (c : CoreId)
  /-- FENCE [R104]: Thatch FENCE: wait until earlier accesses of this core are visible -/
  | fence (c : CoreId)
  /-- UNASSIGNED_INSTRUCTION [R99]: Executing an unassigned, zero or foreign-profile opcode traps OPCODE_ZERO, ILLEGAL
  or PROFILE -/
  | unassignedInstruction (c : CoreId) (word : Word)
  /-- LD [R108]: Thatch LD: load a 32-bit word -/
  | ld (c : CoreId) (dst a : BitVec 5) (imm : BitVec 14)
  /-- LDH [R108]: Thatch LDH: load a sign-extended halfword -/
  | ldh (c : CoreId) (dst a : BitVec 5) (imm : BitVec 14)
  /-- LDHU [R108]: Thatch LDHU: load a zero-extended halfword -/
  | ldhu (c : CoreId) (dst a : BitVec 5) (imm : BitVec 14)
  /-- LDB [R108]: Thatch LDB: load a sign-extended byte -/
  | ldb (c : CoreId) (dst a : BitVec 5) (imm : BitVec 14)
  /-- LDBU [R108]: Thatch LDBU: load a zero-extended byte -/
  | ldbu (c : CoreId) (dst a : BitVec 5) (imm : BitVec 14)
  /-- ST [R108]: Thatch ST: store 32 bits -/
  | st (c : CoreId) (src a : BitVec 5) (imm : BitVec 14)
  /-- STH [R108]: Thatch STH: store a halfword -/
  | sth (c : CoreId) (src a : BitVec 5) (imm : BitVec 14)
  /-- STB [R108]: Thatch STB: store a byte -/
  | stb (c : CoreId) (src a : BitVec 5) (imm : BitVec 14)
  /-- ZROW [R114]: Gable ZROW: half-plane test of 16 cell directions -/
  | zrow (dst a b : BitVec 5) (strict : Bool)
  /-- ENCG [R113]: Gable ENCG: read the latest encoder-G position or sample time -/
  | encg (dst : BitVec 5) (item : BitVec 2)
  /-- SIG [R113]: Gable SIG: update the program-flow signature -/
  | sig (imm : BitVec 14)
  /-- TEND [R125]: Gable TEND: end the task after comparing SIGNAT with SIG_EXPECT -/
  | tend
  /-- PUBL [R325]: Gable PUBL: publish the cell-map buffer for a named frame and zone set -/
  | publ (a : BitVec 5)
  /-- HBT [R320]: Gable HBT: heartbeat to the Ridge -/
  | hbt
  /-- SOFX [R396]: Gable SOFX: append a word to the Soffit command stream; a complete frame is sent -/
  | sofx (dst a : BitVec 5)
  /-- AMOADD [R115]: Truss AMOADD: atomic fetch-and-add -/
  | amoadd (dst a b : BitVec 5)
  /-- AMOSWP [R115]: Truss AMOSWP: atomic swap -/
  | amoswp (dst a b : BitVec 5)
  /-- EVPOST [R115]: Truss EVPOST: post an event to the event rings -/
  | evpost (a b : BitVec 5)
  /-- WFI [R115]: Truss WFI: wait until a selected TPEND source is set -/
  | wfi (dst a : BitVec 5)
  /-- WFI_WAKE [R115]: A selected TPEND source sets, and a waiting WFI completes with the pending bits -/
  | wfiWake
  /-- TRET [R115]: Truss TRET: leave the trap handler at TPC -/
  | tret
  /-- DIRD [R116]: Soffit DIRD: read the filtered input state word -/
  | dird (dst : BitVec 5)
  /-- DQWR [R417]: Soffit DQWR: apply an output command word to safety outputs -/
  | dqwr (a : BitVec 5)
  /-- TPLS [R417]: Soffit TPLS: request extra test pulses -/
  | tpls (a : BitVec 5)
  /-- BFRX [R416]: Soffit BFRX: read the next payload word of the latest valid data frame -/
  | bfrx (dst : BitVec 5)
  /-- BFTX [R116]: Soffit BFTX: append a word to the outgoing input frame -/
  | bftx (a : BitVec 5)
  /-- FEND [R116]: Soffit FEND: end the task -/
  | fend
  /-- VADD [R143]: Vector add -/
  | vadd (e : Fin 8) (dst a b : BitVec 5) (p : Option (BitVec 3))
  /-- VSUB [R143]: Vector subtract -/
  | vsub (e : Fin 8) (dst a b : BitVec 5) (p : Option (BitVec 3))
  /-- VADDS [R143]: Vector signed saturated add -/
  | vadds (e : Fin 8) (dst a b : BitVec 5) (p : Option (BitVec 3))
  /-- VADDUS [R143]: Vector unsigned saturated add -/
  | vaddus (e : Fin 8) (dst a b : BitVec 5) (p : Option (BitVec 3))
  /-- VSUBUS [R143]: Vector unsigned saturated subtract -/
  | vsubus (e : Fin 8) (dst a b : BitVec 5) (p : Option (BitVec 3))
  /-- VFMUL [R144]: Vector signed fixed-point multiply -/
  | vfmul (e : Fin 8) (dst a b n : BitVec 5) (p : Option (BitVec 3))
  /-- VFMULU [R144]: Vector unsigned fixed-point multiply -/
  | vfmulu (e : Fin 8) (dst a b n : BitVec 5) (p : Option (BitVec 3))
  /-- VFMAC [R144]: Vector fixed-point multiply-accumulate -/
  | vfmac (e : Fin 8) (dst a b n : BitVec 5) (p : Option (BitVec 3))
  /-- VMIN [R143]: Vector signed minimum -/
  | vmin (e : Fin 8) (dst a b : BitVec 5) (p : Option (BitVec 3))
  /-- VMAX [R143]: Vector signed maximum -/
  | vmax (e : Fin 8) (dst a b : BitVec 5) (p : Option (BitVec 3))
  /-- VMINU [R143]: Vector unsigned minimum -/
  | vminu (e : Fin 8) (dst a b : BitVec 5) (p : Option (BitVec 3))
  /-- VMAXU [R143]: Vector unsigned maximum -/
  | vmaxu (e : Fin 8) (dst a b : BitVec 5) (p : Option (BitVec 3))
  /-- VAND [R143]: Vector bitwise and -/
  | vand (e : Fin 8) (dst a b : BitVec 5) (p : Option (BitVec 3))
  /-- VOR [R143]: Vector bitwise or -/
  | vor (e : Fin 8) (dst a b : BitVec 5) (p : Option (BitVec 3))
  /-- VXOR [R143]: Vector bitwise exclusive or -/
  | vxor (e : Fin 8) (dst a b : BitVec 5) (p : Option (BitVec 3))
  /-- VCLU [R143]: Vector clamp to 0 to 1.0 -/
  | vclu (e : Fin 8) (dst a : BitVec 5) (p : Option (BitVec 3))
  /-- VSHLI [R143]: Vector shift left by an immediate -/
  | vshli (e : Fin 8) (dst a n : BitVec 5)
  /-- VSHRI [R143]: Vector logical shift right by an immediate -/
  | vshri (e : Fin 8) (dst a n : BitVec 5)
  /-- VSARI [R143]: Vector arithmetic shift right by an immediate -/
  | vsari (e : Fin 8) (dst a n : BitVec 5)
  /-- VLI [R143]: Vector load of an immediate into every lane -/
  | vli (e : Fin 8) (dst : BitVec 5) (imm : BitVec 19)
  /-- VSPLAT [R143]: Broadcast a scalar to every lane -/
  | vsplat (e : Fin 8) (dst a : BitVec 5) (p : Option (BitVec 3))
  /-- VGET [R143]: Read one lane into a scalar -/
  | vget (e : Fin 8) (dst a : BitVec 5) (lane : Fin 16)
  /-- VSET [R143]: Write a scalar into one lane -/
  | vset (e : Fin 8) (dst a : BitVec 5) (lane : Fin 16)
  /-- VSEL [R143]: Select per lane by a predicate -/
  | vsel (e : Fin 8) (dst a b : BitVec 5) (p : BitVec 3)
  /-- VCMPEQ [R143]: Vector compare equal into a predicate -/
  | vcmpeq (e : Fin 8) (dst a b : BitVec 5)
  /-- VCMPLT [R143]: Vector compare less than, signed -/
  | vcmplt (e : Fin 8) (dst a b : BitVec 5)
  /-- VCMPLTU [R143]: Vector compare less than, unsigned -/
  | vcmpltu (e : Fin 8) (dst a b : BitVec 5)
  /-- VCMPLE [R143]: Vector compare less than or equal, signed -/
  | vcmple (e : Fin 8) (dst a b : BitVec 5)
  /-- PAND [R143]: Predicate and -/
  | pand (e : Fin 8) (dst a b : BitVec 5)
  /-- POR [R143]: Predicate or -/
  | por (e : Fin 8) (dst a b : BitVec 5)
  /-- PXOR [R143]: Predicate exclusive or -/
  | pxor (e : Fin 8) (dst a b : BitVec 5)
  /-- PNOT [R143]: Predicate not -/
  | pnot (e : Fin 8) (dst a : BitVec 5)
  /-- PMOV [R143]: Predicate from a scalar -/
  | pmov (e : Fin 8) (dst a : BitVec 5)
  /-- PGET [R143]: Scalar from a predicate -/
  | pget (e : Fin 8) (dst a : BitVec 5)
  /-- VPOS [R138]: Load a lane attribute of the current vector -/
  | vpos (e : Fin 8) (dst : BitVec 5) (item : BitVec 3)
  /-- VLD [R143]: Vector load of 64 bytes -/
  | vld (e : Fin 8) (dst a : BitVec 5) (imm : BitVec 14)
  /-- VST [R143]: Vector store of 64 bytes -/
  | vst (e : Fin 8) (src a : BitVec 5) (imm : BitVec 14)
  /-- VLDS [R147]: Source sample load into four vector registers -/
  | vlds (e : Fin 8) (dst a b : BitVec 5) (binding : BitVec 2) (bilinear clamp : Bool)
  /-- VGATH [R153]: Vector gather of 32-bit words -/
  | vgath (e : Fin 8) (dst a b : BitVec 5)
  /-- VMLD [R149]: Load the colour-to-emitter matrix -/
  | vmld (e : Fin 8) (a : BitVec 5) (imm : BitVec 14)
  /-- VCMX [R149]: Apply the colour-to-emitter matrix -/
  | vcmx (e : Fin 8) (dst a : BitVec 5) (p : Option (BitVec 3))
  /-- VBLEND [R150]: Blend into the patch accumulator -/
  | vblend (e : Fin 8) (a b : BitVec 5) (mode : BitVec 3) (p : Option (BitVec 3))
  /-- VACCR [R143]: Read the accumulator vector -/
  | vaccr (e : Fin 8) (dst : BitVec 5)
  /-- VSTEP [R143]: Advance VIDX -/
  | vstep (e : Fin 8)
  /-- VSETIDX [R143]: Set VIDX from a scalar -/
  | vsetidx (e : Fin 8) (a : BitVec 5)
  /-- VUNI [R151]: Apply the uniformity gain -/
  | vuni (e : Fin 8) (dst a b : BitVec 5)
  /-- VLUT [R152]: Interpolated table lookup -/
  | vlut (e : Fin 8) (dst a b : BitVec 5)
  /-- VQNT [R154]: Quantise to the frame's depth -/
  | vqnt (e : Fin 8) (dst a : BitVec 5)
  /-- VOUT [R155]: Write patch output words -/
  | vout (e : Fin 8) (a : BitVec 5)
  /-- PEND [R157]: End the invocation; save the registers of a context with local store -/
  | pend (e : Fin 8)
  /-- WATCHDOG [R124]: TASKCYC passes WCET_BOUND and the task traps WATCHDOG -/
  | watchdog (soffit : Bool)
  /-- PATCH_OVERRUN [R158]: INVCYC passes ENG_PATCH_LIMIT and the invocation traps PATCH_OVERRUN -/
  | patchOverrun (e : Fin 8)
  /-- TASK_START [R123]: A waiting G or F task starts on its trigger once no other task runs, lowest index first -/
  | taskStart (soffit : Bool)
  /-- LAT [R13]: The LAT at each PERIOD opens a frame period on both ports and makes the transferred frame the light
  -/
  | lat
  /-- ENGINE_TAKE_PATCH [R171]: A free engine in service takes the patch needed first from its queues -/
  | engineTakePatch (e : Fin 8)
  /-- PATCH_DRAIN_DONE [R187]: A drain ends, the epoch check accepts or discards the patch, and the patch bit is set
  -/
  | patchDrainDone (e : Fin 8)
  /-- RUN_COMPLETE [R173]: The last patch of a run completes; with AUTOCOMMIT the run's output frame is committed -/
  | runComplete
  /-- ENGINE_BIST_DONE [R182]: An engine's 50 µs BIST ends with a signature and a verdict; a failure retires an engine
  in service -/
  | engineBistDone (e : Fin 8) (sig : Word) (pass : Bool)
  /-- ENGINE_STALL [R183]: An engine that ends no invocation for LIMIT + 65,536 cycles is retired and its patches are
  requeued -/
  | engineStall (e : Fin 8)
  /-- CONTEXT_COPY_DONE [R185]: A context's slot and saved registers reach the new engine and the context leaves
  DRAINING -/
  | contextCopyDone (ctx : Fin 64)
  /-- TRANSFER_WINDOW_START [R233]: SOF leaves both ports 10 µs after LAT; the commit is sampled and the Ridge
  switches to the frame's cell map -/
  | transferWindowStart
  /-- TRANSFER_WINDOW_CLOSE [R232]: The last EOF returns; every capture has been checked, and verdicts, quarantine and
  events follow -/
  | transferWindowClose (rx : List (List (BitVec 10))) (selfTest : Bool)
  /-- DSI_VERTICAL_SYNC_START [R204]: A Vertical Sync Start packet starts a frame on its channel's stream and chooses
  a buffer -/
  | dsiVerticalSyncStart (vc : BitVec 2) (corrected : Bool) (ends : BurstEnd)
  /-- DSI_LONG_PACKET [R203]: A long packet's payload is appended to its stream's frame; reaching the frame size
  completes the frame -/
  | dsiLongPacket (vc : BitVec 2) (corrected crcOk : Bool) (bytes : List Byte) (ends : BurstEnd)
  /-- DSI_SHORT_PACKET [R199]: Other short packets are ignored after the ECC check -/
  | dsiShortPacket (corrected : Bool) (ends : BurstEnd)
  /-- DSI_NULL_BLANKING [R199]: Null and blanking packets are discarded -/
  | dsiNullBlanking (corrected : Bool) (ends : BurstEnd)
  /-- DSI_SOT_ERROR [R200]: A start-of-transmission error discards the burst and marks frames errored -/
  | dsiSotError (ends : BurstEnd)
  /-- DSI_ULPS [R197]: The lanes enter or leave the ultra-low-power state -/
  | dsiUlps (enter : Bool)
  /-- DSI_TURNAROUND_REQUEST [R197]: A bus turnaround request is never answered -/
  | dsiTurnaroundRequest
  /-- VIN_PHY_CFG_WRITE [R198]: Configures and enables the DSI receiver; while enabled only EN changes, and clearing
  EN ends frames as short -/
  | vinPhyCfgWrite (value : Word)
  /-- VIN_LOSS [R212]: No complete frame for LOSS_MS sets LOST and raises event 0x0407 -/
  | vinLoss (n : Fin 4)
  /-- SCRUB_READ [R60]: Every 256 PCLK the scrub reads one granule per bank, corrects single-bit errors and reports
  double-bit errors -/
  | scrubRead (soft : List SoftError)
  /-- BAT_TILE_ORG_WRITE [R241]: Writes a tile origin in LOAD, used at the next enumeration; ignored outside LOAD -/
  | batTileOrgWrite (t : Fin 128) (value : Word)
  /-- SWITCHING_CYCLE [R291]: A string channel starts a switching cycle and regulates by peak current mode -/
  | switchingCycle (ch : Fin 8) (shunt : List (BitVec 11)) (vsn : BitVec 11)
  /-- SUPPLY_RAMP_DONE [R292]: The 1 ms SUPPLY ramp ends and, 1 ms later, the short and open tests are armed -/
  | supplyRampDone (ch : Fin 8)
  /-- PWM_PERIOD_START [R293]: A string PWM period starts and pending duty and derate changes apply -/
  | pwmPeriodStart (ch : Fin 8)
  /-- PWM_PERIOD_END [R281]: At the end of a PWM period the string on-test and off-test give open or stuck-on verdicts
  -/
  | pwmPeriodEnd (ch : Fin 8) (shunt vsn : List (BitVec 11))
  /-- STRING_PROTECT_TIMEOUT [R299]: An overcurrent, overvoltage or short condition lasts its qualifying time and
  becomes a fault -/
  | stringProtectTimeout (ch : Fin 8) (cause : StrFault)
  /-- STRING_RETRY [R300]: 100 ms after a fault with AUTORETRY, the channel restarts or latches -/
  | stringRetry (ch : Fin 8)
  /-- STR_RESTART [R300]: A write of 1 to STR_c_CTRL.RESTART restarts a latched channel -/
  | strRestart (ch : Fin 8) (byGable : Bool)
  /-- STRING_INHIBIT [R296]: A Gable or Ridge inhibit is asserted or released; GATE goes low within 1 µs, or the
  channel restarts -/
  | stringInhibit (ch : Fin 8)
  /-- NTC_PUBLISH [R301]: Every 1 ms each NTC's mean code and temperature are published, with open, short and
  over-temperature checks -/
  | ntcPublish (n : Fin 6) (v : Vector (Nat × Nat) 8)
  /-- DERATE_UPDATE [R307]: Every 10 ms the derate factors move toward their targets and the tile table is written -/
  | derateUpdate
  /-- THM_DRT_ADDR_WRITE [R308]: Sets the tile derate table address, or is ignored with CFG_ERR outside a kind 4
  region -/
  | thmDrtAddrWrite (value : Word)
  /-- TILE_TEMP_STALE [R304]: A tile temperature older than 64 frames becomes stale -/
  | tileTempStale (t : Fin 128)
  /-- DIE_TEMP_UPDATE [R310]: Every 1 ms THM_DIE.TEMP is updated, with the warning and calibration temperature
  triggers -/
  | dieTempUpdate (sensors : Vector (BitVec 16) 4)
  /-- THERMAL_SHUTDOWN [R311]: A sensor at 165 °C shuts the core die down as under RST_N within 1 µs -/
  | thermalShutdown
  /-- THERMAL_SHUTDOWN_END [R311]: Every sensor below 150 °C releases the core die into BOOT -/
  | thermalShutdownEnd
  /-- ENCODER_SAMPLE [R330]: Each sample period an SSI burst reads an encoder axis and the sample is validated -/
  | encoderSample (i : Fin 4) (idleHigh endLow : Bool) (code : Word)
  /-- ENCODER_SAMPLE_TIMEOUT [R330]: No valid sample for 4 × P makes an encoder fault -/
  | encoderSampleTimeout (i : Fin 4)
  /-- GABLE_RESET [R346]: 1 ms after a Gable loss the Gable core is reset and its images are checked -/
  | gableReset
  /-- GABLE_RESTART [R346]: When the image hashes agree, the Gable starts with trigger 8 -/
  | gableRestart
  /-- RIDGE_CRC_CHECK [R321]: Once per second the Ridge recomputes the static-map CRC -/
  | ridgeCrcCheck
  /-- LIVE_READBACK [R319]: A LIVE ball showing a wrong level is a readback fault leading to SAFE HOLD -/
  | liveReadback (ridge phase g h : Bool)
  /-- TDEG_EXPIRE [R345]: T_deg expires in DEGRADED and the device enters SAFE HOLD -/
  | tdegExpire
  /-- RESET_INPUT_EDGE [R349]: A rising edge on the reset input leaves SAFE HOLD for PROOF or re-enables the light
  after SF2 -/
  | resetInputEdge (selfTest g h : Bool)
  /-- SAFE_HOLD_RESET_WINDOW [R349]: The 10 s window for the reset-input edge expires without an edge -/
  | safeHoldResetWindow
  /-- SF3_FALLBACK_TIMER [R340]: The fallback ends once no reported emitter has MISS above 0 and at least 1 s has
  passed -/
  | sf3FallbackTimer
  /-- SOFFIT_POWER_UP [R393]: The Soffit supply rises and the Soffit starts with its defaults -/
  | soffitPowerUp
  /-- SOFFIT_DATA_FRAME [R396]: The Soffit receives a data command frame, checks it, applies the HOST word and
  triggers F task 1 -/
  | soffitDataFrame (noise : List (BitVec 10))
  /-- SOFFIT_CONFIG_FRAME [R401]: The Soffit receives a configuration frame and applies the FIELD section at word 39
  -/
  | soffitConfigFrame (noise : List (BitVec 10))
  /-- SOFFIT_INPUT_FRAME_SEND [R397]: The Soffit sends an input frame at least every 500 µs or within 50 µs of a
  change -/
  | soffitInputFrameSend
  /-- SOFFIT_INPUT_FRAME [R397]: The core side accepts an input frame, delivers it to the Gable and Ridge and updates
  the FLD_ mirror -/
  | soffitInputFrame (noise : List (BitVec 10))
  /-- SOFFIT_SILENT [R398]: No input frame accepted for 2 ms clears RX_OK and treats inputs as INVALID -/
  | soffitSilent
  /-- INPUT_SAMPLE [R404]: Each input sample is classed, filtered and evaluated for its pair -/
  | inputSample (k : Fin 8) (ua : Nat)
  /-- PAIR_DISC_TIMEOUT [R406]: The channels of a pair differ for longer than DISC and DISC is set -/
  | pairDiscTimeout (p : Fin 4)
  /-- TEST_PULSE_START [R412]: A due off-test or on-test pulse starts on an output -/
  | testPulseStart (k : Fin 8) (off : Bool)
  /-- TEST_PULSE_END [R411]: A test pulse ends with diagnosis and the tied-input cross-circuit check; F task 4 is
  triggered -/
  | testPulseEnd (mv ua : Vector Nat 8)
  /-- OUTPUT_SHORT_TIMER [R411]: Current at the limit for 200 µs, or readback LOW 300 µs after switch-on, latches a
  short to M -/
  | outputShortTimer (k : Fin 8) (ma mv : Nat)
  /-- OUTPUT_THERMAL [R411]: An output switch reaches its cutoff and latches off -/
  | outputThermal (k : Fin 8) (hot : Bool)
  /-- LPLUS_CHANGE [R414]: L+ crosses a threshold for 1 ms and the monitor changes state -/
  | lplusChange (lp1 lp2 : Nat)
  /-- LOGIC_SILENCE [R415]: No valid command frame for TSIL sends every output to its safe state -/
  | logicSilence
  /-- DOUSER_TEST_TIMEOUT [R408]: The douser position input fails to reach its state within DOUSER_MS and the test
  fails -/
  | douserTestTimeout
  /-- FLD_DQ_CMD_WRITE [R420]: The host commands a host-assigned output on, off or clear, carried in the HOST word -/
  | fldDqCmdWrite (k : Fin 8) (on clear : Bool)
  /-- FLASHING_FRAME_RX [R377]: A Flashing frame taken from ring 28 is tested for identity, CRC, format and sequence,
  and acted on -/
  | flashingFrameRx
  /-- FLASHING_TIMEOUT [R379]: A consumed stream's gap exceeds t_exp, giving TIMEOUT and possibly an SF2 demand -/
  | flashingTimeout (i : Fin 8)
  /-- FLASHING_ECHO_SEND [R380]: The Gable sends an ECHO on ring 29 after accepted frames or periodically while in
  RESET -/
  | flashingEchoSend (i : Fin 8)
  /-- FLASHING_STATUS_SEND [R382]: The device sends a STATUS frame every max(1, t_exp/4) ms and on changes -/
  | flashingStatusSend (i : Fin 8)
  /-- CAL_RUN_START [R424]: A queued calibration run starts: shadows are loaded and the pending steps are set -/
  | calRunStart
  /-- CAL_STEP [R426]: A calibration step starts at the first opportunity at which its precondition holds -/
  | calStep (k : Fin 48) (sense : Nat)
  /-- CAL_STEP_DONE [R429]: A step ends with a code found or a failed check; the last step applies the set -/
  | calStepDone (k : Fin 48) (found : Bool) (code : BitVec 10) (sense : Nat)
  /-- CAL_TIMEOUT [R430]: TIMEOUT seconds after the start, a run ends partial and applies its set -/
  | calTimeout
  /-- TRM_DAC_WRITE [R432]: A write of TRM_DAC_k sets the shadow code in LOAD or TRIM -/
  | trmDacWrite (k : Fin 48) (code : BitVec 10)
  /-- TRIM_APPLY [R432]: A write of 1 to TRM_CTRL.APPLY applies the shadow set -/
  | trimApply
  /-- TRIM_ABORT [R431]: A write of 1 to TRM_CTRL.ABORT aborts the run -/
  | trimAbort
  /-- POWER_ON [R447]: Supplies stay in range for 1 ms, the power-on reset ends and the PLL locks -/
  | powerOn (locked : Bool)
  /-- PLL_LOCK_RETRY [R447]: The PLL is not locked and the lock restarts every 10 ms -/
  | pllLockRetry (locked : Bool)
  /-- BROWN_OUT [R449]: A core rail below its threshold for 2 µs stops LIVE, Batten and GATE and resets -/
  | brownOut (ana : Bool)
  /-- VSTBY_LOSS [R441]: VSTBY below its range takes the device to OFF -/
  | vstbyLoss
  /-- RST_N_ASSERT [R457]: RST_N low for 2 ms asserts reset -/
  | rstNAssert
  /-- RST_N_RELEASE [R457]: RST_N high for 2 ms releases reset and records the duration -/
  | rstNRelease
  /-- TRUSS_HALT_RESET [R458]: 2 ms after a Truss halt with no debugger, the device resets itself -/
  | trussHaltReset
  /-- RESET_END [R459]: A reset ends, the straps are sampled, the reset record is updated and BOOT starts -/
  | resetEnd (role : BitVec 2) (bootsel : Bool)
  /-- BOOT_WINDOW_EXPIRE [R451]: A boot attempt's window ends unanswered; ATTEMPTS increments and the next attempt
  opens -/
  | bootWindowExpire
  /-- CLOCK_FAULT [R460]: A clock-monitor window count out of band, a lock loss or a missing edge is a clock fault -/
  | clockFault (x : Machine.ClockSeen)
  /-- RETENTION_WAKE [R463]: WAKE_N low for 100 µs wakes the device from RETENTION -/
  | retentionWake
  /-- STANDBY_WAKE [R466]: WAKE_N low for 1 ms ends STANDBY; STBY_OUT falls -/
  | standbyWake
  /-- PROOF_TIMEOUT [R445]: PROOF not complete 10 s after its start fails -/
  | proofTimeout
  /-- PROOF_AGE_TICK [R446]: Each minute SYS_PROOF.AGE increments, with events at 1380 and 1440 minutes -/
  | proofAgeTick
  /-- TRAIN [R472]: The manager sends a TRAIN cell every 1 ms and workers take positions from HOP -/
  | train (hop : Option Byte)
  /-- PURLIN_CELL_RECEIVE [R474]: A Purlin cell arrives and is taken, forwarded or dropped -/
  | purlinCellReceive (x : Lanes)
  /-- STATUS [R482]: A worker sends a STATUS cell every 10 ms -/
  | status (cell : Option StatusCell)
  /-- WORKER_STATUS_MISSING [R482]: Three consecutive STATUS cells of a worker are missing and event 0x0C05 is raised
  -/
  | workerStatusMissing (k : BitVec 3)
  /-- GFRAME [R385]: A kind 3 encoder Flashing frame received over Purlin is checked by the Gable -/
  | gframe (frame : BitVec 512)
  /-- RFRAME [R385]: A kind 4 encoder Flashing frame received over Purlin is checked by the Ridge -/
  | rframe (frame : BitVec 512)
  /-- BOOTREQ [R485]: A worker's boot request makes the manager send its image in BOOTDATA cells -/
  | bootreq (src : BitVec 3) (attempts : Byte)
  /-- BOOTDATA [R485]: A BOOTDATA cell delivers image bytes to the worker's ROM -/
  | bootdata (src : Byte) (seq : BitVec 16) (off : Word) (bytes : List Byte)
  /-- ACK [R475]: An ACK cell confirms an acknowledged cell -/
  | ack (src kind : Byte) (seq : BitVec 16)
  /-- PURLIN_RETRY [R475]: An unacknowledged cell is repeated after 100 µs, and is lost after three repeats -/
  | purlinRetry
  /-- MIGRATE [R189]: A MIGRATE cell carries an announce, answer, transfer or acknowledgement of a Purlin migration -/
  | migrate (src : BitVec 3) (seq : BitVec 16) (phase : MigratePhase)
  /-- RELAY_DOWN [R484]: A worker executes a relayed command, write or read from the manager's ring 30 -/
  | relayDown (src : Byte) (seq : BitVec 16) (entry : BitVec 512)
  /-- RELAY_UP [R483]: The manager places a worker's answer or event in ring 31 -/
  | relayUp (src : Byte) (seq : BitVec 16) (entry : BitVec 512)
  /-- PURLIN_RING_30_ENTRY [R89]: A ring 30 entry is consumed and relayed, or dropped when Purlin is down -/
  | purlinRing30Entry
  /-- REENUM [R486]: A worker takes a REENUM cell as MODE_REQUEST PROOF -/
  | reenum (src : Byte) (seq : BitVec 16)
  /-- LATCH_MARK_SEND [R476]: 16 µs before each timebase instant the manager sends a latch mark -/
  | latchMarkSend
  /-- LATCH_MARK_RECEIVE [R478]: A worker takes a latch mark, schedules its LAT, frame and slot, and resynchronises -/
  | latchMarkReceive (mark : Lanes)
  /-- LATCH_MARK_MISSING [R479]: No mark within ±1 µs; the worker flywheels or withholds its LAT -/
  | latchMarkMissing
  /-- RING_BROKEN [R480]: Two marks fail to return and the manager declares the ring broken -/
  | ringBroken
  /-- SYNC_WORD_SEND [R487]: A twin manager sends a sync word 20 µs before each instant -/
  | syncWordSend
  /-- SYNC_WORD_RECEIVE [R488]: A valid sync word genlocks a non-driving manager and feeds the role rules -/
  | syncWordReceive (line : List Bool) (interval : BitVec 24)
  /-- SYNC_WORD_MISSING [R488]: A sync word is missing; two consecutive misses lose the peer -/
  | syncWordMissing
  /-- ACC_NONCE [R498]: A write of 1 to ACC_CTRL.NONCE draws a fresh nonce -/
  | accNonce
  /-- ACC_LOCK [R503]: A write of 1 to ACC_CTRL.LOCK sets L0 at once -/
  | accLock
  /-- UNLOCK_PASSWORD [R500]: An ACC_UNLOCK write with METHOD 0 compares the password with the slots and grants a
  level -/
  | unlockPassword (level : BitVec 2)
  /-- UNLOCK_CHALLENGE [R498]: An ACC_UNLOCK write with METHOD 1 checks the HMAC response against the nonce -/
  | unlockChallenge (level : BitVec 2)
  /-- NONCE_EXPIRE [R499]: A nonce becomes void after 60 s -/
  | nonceExpire
  /-- UNLOCK_TIMEOUT [R503]: The unlock timer expires and the level returns to L0 -/
  | unlockTimeout
  /-- OTP_PROGRAM [R512]: An ACC_PROG write programs a password or image-key slot in LOAD -/
  | otpProgram (target : BitVec 3) (level : BitVec 2) (mask : BitVec 4)
  /-- OTP_REVOKE [R512]: An ACC_PROG write with REVOKE revokes a slot -/
  | otpRevoke (target : BitVec 3) (mask : BitVec 4)
  /-- EXTEST [R510]: JTAG EXTEST in LOAD or SAFE HOLD at L3 -/
  | extest (pins cells : List Bool)
  /-- IDCODE [R509]: JTAG IDCODE returns 0x1A16_0001 -/
  | idcode
  /-- SAMPLE_PRELOAD [R509]: JTAG SAMPLE/PRELOAD on the boundary register -/
  | samplePreload (pins cells : List Bool)
  /-- HIGHZ [R510]: JTAG HIGHZ at L3 in LOAD or SAFE HOLD -/
  | highz
  /-- CLAMP [R510]: JTAG CLAMP at L3 in LOAD or SAFE HOLD -/
  | clamp
  /-- ACC_CHAL [R498]: JTAG ACC_CHAL captures a nonce and submits a challenge response -/
  | accChal (update : Bool) (value : BitVec 136)
  /-- BYPASS [R509]: JTAG BYPASS, also selected by unlisted or unpermitted opcodes -/
  | bypass (opcode : Byte)
  /-- DEBUG_ATTACH [R505]: An attach request on DBG succeeds at L2 in a permitted mode, pends until the next LAT in
  RUN, or is refused -/
  | debugAttach
  /-- DEBUG_DETACH [R507]: A detach resumes halted cores; an automatic detach follows a level lapse or PROOF entry -/
  | debugDetach
  /-- DEBUG_HALT [R506]: An attached debugger halts a core where the table permits -/
  | debugHalt (u : Option CoreId)
  /-- DEBUG_STEP [R506]: An attached debugger steps a halted core -/
  | debugStep (u : Option CoreId)
  /-- DEBUG_RESUME [R506]: An attached debugger resumes a halted core; a resumed Gable clears its loss -/
  | debugResume (u : Option CoreId)
  /-- DEBUG_READ [R506]: An attached debugger reads a core's registers or memory -/
  | debugRead (u : Option CoreId) (item : DbgItem)
  /-- DEBUG_WRITE [R506]: An attached debugger writes a core's registers or memory where the table permits -/
  | debugWrite (u : Option CoreId) (item : DbgItem) (value : Word)
  /-- INJECTION_SCHEDULE [R526]: Every INTERVAL seconds in RUN the next dry injection starts -/
  | injectionSchedule
  /-- INJECTION_DEADLINE [R518]: 1 ms after the detection time, an undetected injection completes as missed -/
  | injectionDeadline
  /-- INJECTION_DETECTED [R518]: The detector's reaction latch sets for every instance -/
  | injectionDetected
  /-- INJECTION_RESTORED [R521]: Restoration after a full injection ends, or overruns with RESTORE_FAIL -/
  | injectionRestored
  /-- DSI_HEADER_ECC_ERROR [R200]: A DSI packet header with an uncorrectable ECC error discards the rest of the
  high-speed burst, marks the frame in progress on every stream errored, counts ECC_UE and raises event 0x0401 -/
  | dsiHeaderEccError (ends : BurstEnd)
  /-- LATCH_MARK_RETURN [R480]: The manager receives its own latch mark back at PL_RX, measures RTT, sets CABLE and
  declares the ring up again with event 0x0C01 -/
  | latchMarkReturn (rtt : BitVec 16)
  /-- PROOF_READBACK_PASS [R445]: After 1 ms of LIVE readback with no fault and both generators toggling, PROOF step 5
  passes and the douser test of step 6 starts -/
  | proofReadbackPass
  deriving DecidableEq, Repr

end Sys2Proof
end

