-- ==== Sys2Proof/Decode.lean ====
section
/-! DEFINITION. The command that a word of the table spells. -/

namespace Sys2Proof

/-- The command read from a word whose bits the table numbers. Every row of the table has an empty list of fields: the
commands of this block are accesses, events and instructions of cores inside it, and no word of the table spells one.
(DESIGN CHOICE, log 27) -/
def decodeTableWord (_nbits _w : Nat) : Option Instr := none

end Sys2Proof
end

