-- ==== Sys2Proof/Machine/State.lean ====
section
/-! DEFINITION. The machine: the device's state, its OTP and the queue of commands that wait. -/

namespace Sys2Proof.Machine

open Sys2Proof

/-- The state of the block. -/
structure State where
  /-- everything the core and Soffit dies hold but the OTP (see Machine/Device.lean) -/
  dev : Dev
  /-- [17 R511] the one-time-programmable memory -/
  otp : Otp
  /-- [01 R12] the words that left both ports in the current or last transfer, with the ceilings they were checked against |
  empty -/
  wire : List SentWord
  /-- the commands that wait, first in, first out (the model's own field; empty at reset) -/
  pending : List Instr
  deriving DecidableEq, Repr

/-- Why the machine stops: it never does. The spec gives every command of its table an effect, and turns what it calls an
error into a flag, an event, a trap, a completion status or a mode, all of which are state. -/
inductive Fault where
  /-- no meaning of this model answers with it (safe: it would stop a run that the hardware goes on with) -/
  | halted
  deriving DecidableEq, Repr

/-- Why a command is turned away. -/
inductive Refusal where
  /-- a command without a meaning in the model, by its mnemonic; no arm of exec answers with it (safe) -/
  | notModelled (mnemonic : String)
  deriving DecidableEq, Repr

/-- The machine right after reset: every field at the value the spec gives it, or that the log names. -/
def State.reset : State := { dev := Dev.reset, otp := Otp.shipped, wire := [], pending := [] }

end Sys2Proof.Machine
end

