-- ==== Sys2Proof/Machine/Lift.lean ====
section
/-! DEFINITION. How a meaning written over the device, or over the device with its OTP, acts on the whole state. -/

namespace Sys2Proof.Machine

open Sys2Proof

/-- Something that happens whatever the core die's state. -/
def State.any (s : State) (f : Dev → Dev) : State := { s with dev := f s.dev }

/-- Something that happens only while the core die is up: powered, out of reset and clocked (15 R441, R457, R462).
(DESIGN CHOICE, log 25) -/
def State.core (s : State) (f : Dev → Dev) : State := if s.dev.coreUp then s.any f else s

/-- Something that acts on the OTP too. -/
def State.chip (s : State) (f : Chip → Chip) : State :=
  { s with dev := (f (s.dev, s.otp)).1, otp := (f (s.dev, s.otp)).2 }

/-- The same, only while the core die is up. (DESIGN CHOICE, log 25) -/
def State.chipUp (s : State) (f : Chip → Chip) : State := if s.dev.coreUp then s.chip f else s

/-- A transfer window opens (08 R233), and the first words leave. The no-cap fuse counts on an engineering sample only
(17 R508). (DEDUCED, log 37) -/
def State.window (s : State) : State :=
  let d := s.dev.windowStart (s.otp.engSample && s.otp.noCap)
  if s.dev.windowDue && d.scan.window then { s with dev := d.sendDue.1, wire := d.sendDue.2 } else { s with dev := d }

/-- A transfer window closes (08 R232, R233): its last words leave before. -/
def State.closeWindow (s : State) (rx : List (List (BitVec 10))) (selfTest : Bool) : State :=
  { s with dev := s.dev.sendRest.1.windowClose rx selfTest, wire := s.wire ++ s.dev.sendRest.2 }

end Sys2Proof.Machine
end

