-- ==== Sys2Proof/Machine/AccessRows.lean ====
section
/-! DEFINITION. Access, OTP, the TAP and the debugger (17): each row's meaning, over the operations it shares. -/

namespace Sys2Proof.Machine

open Sys2Proof


/-- ACC_NONCE (R498): A write of 1 to ACC_CTRL.NONCE draws a fresh nonce. -/
def execAccNonce (s : State) : Host.Outcome State Fault Refusal :=
  .next (s.chip fun m => m.1.hostPut m.2 0x200A0008 2)

/-- ACC_LOCK (R503): A write of 1 to ACC_CTRL.LOCK sets L0 at once. -/
def execAccLock (s : State) : Host.Outcome State Fault Refusal :=
  .next (s.chip fun m => m.1.hostPut m.2 0x200A0008 1)

/-- UNLOCK_PASSWORD (R500): An ACC_UNLOCK write with METHOD 0 compares the password with the slots and grants a level.
-/
def execUnlockPassword (level : BitVec 2) (s : State) : Host.Outcome State Fault Refusal :=
  .next (s.chip fun m => m.1.hostPut m.2 0x200A000C (level.setWidth 32))

/-- UNLOCK_CHALLENGE (R498): An ACC_UNLOCK write with METHOD 1 checks the HMAC response against the nonce. -/
def execUnlockChallenge (level : BitVec 2) (s : State) : Host.Outcome State Fault Refusal :=
  .next (s.chip fun m => m.1.hostPut m.2 0x200A000C (16 + level.setWidth 32))

/-- NONCE_EXPIRE (R499): A nonce becomes void after 60 s. -/
def execNonceExpire (s : State) : Host.Outcome State Fault Refusal :=
  .next (s.core fun d => d.nonceExpire)

/-- UNLOCK_TIMEOUT (R503): The unlock timer expires and the level returns to L0. -/
def execUnlockTimeout (s : State) : Host.Outcome State Fault Refusal :=
  .next (s.any fun d => d.unlockTimeout)

/-- OTP_PROGRAM (R512): An ACC_PROG write programs a password or image-key slot in LOAD. -/
def execOtpProgram (target : BitVec 3) (level : BitVec 2) (mask : BitVec 4)
    (s : State) : Host.Outcome State Fault Refusal :=
  .next (s.chip fun m => m.1.hostPut m.2 0x200A0050 (fld 0 target ||| fld 4 level ||| fld 8 mask))

/-- OTP_REVOKE (R512): An ACC_PROG write with REVOKE revokes a slot. -/
def execOtpRevoke (target : BitVec 3) (mask : BitVec 4) (s : State) : Host.Outcome State Fault Refusal :=
  .next (s.chip fun m => m.1.hostPut m.2 0x200A0050 (fld 0 target ||| bit 3 true ||| fld 8 mask))

/-- EXTEST (R510): JTAG EXTEST in LOAD or SAFE HOLD at L3. -/
def execExtest (pins cells : List Bool) (s : State) : Host.Outcome State Fault Refusal :=
  .next (s.any fun d => d.boundaryScan .extest pins cells)

/-- IDCODE (R509): JTAG IDCODE returns 0x1A16_0001. -/
def execIdcode (s : State) : Host.Outcome State Fault Refusal :=
  .next (s.any fun d => d.idcode)

/-- SAMPLE_PRELOAD (R509): JTAG SAMPLE/PRELOAD on the boundary register. -/
def execSamplePreload (pins cells : List Bool) (s : State) : Host.Outcome State Fault Refusal :=
  .next (s.any fun d => d.boundaryScan .sample pins cells)

/-- HIGHZ (R510): JTAG HIGHZ at L3 in LOAD or SAFE HOLD. -/
def execHighz (s : State) : Host.Outcome State Fault Refusal :=
  .next (s.any fun d => d.bypassScan .highz)

/-- CLAMP (R510): JTAG CLAMP at L3 in LOAD or SAFE HOLD. -/
def execClamp (s : State) : Host.Outcome State Fault Refusal :=
  .next (s.any fun d => d.bypassScan .clamp)

/-- ACC_CHAL (R498): JTAG ACC_CHAL captures a nonce and submits a challenge response. -/
def execAccChal (update : Bool) (value : BitVec 136) (s : State) : Host.Outcome State Fault Refusal :=
  .next (s.chip fun m => (m.1.accChal m.2.fuses update value, m.2))

/-- BYPASS (R509): JTAG BYPASS, also selected by unlisted or unpermitted opcodes. -/
def execBypass (opcode : Byte) (s : State) : Host.Outcome State Fault Refusal :=
  .next (s.any fun d => d.bypassOf opcode)

/-- DEBUG_ATTACH (R505): An attach request on DBG succeeds at L2 in a permitted mode, pends until the next LAT in RUN,
or is refused. -/
def execDebugAttach (s : State) : Host.Outcome State Fault Refusal :=
  .next (s.any fun d => d.debugAttach)

/-- DEBUG_DETACH (R507): A detach resumes halted cores; an automatic detach follows a level lapse or PROOF entry. -/
def execDebugDetach (s : State) : Host.Outcome State Fault Refusal :=
  .next (s.any fun d => d.debugDetach)

/-- DEBUG_HALT (R506): An attached debugger halts a core where the table permits. -/
def execDebugHalt (u : Option CoreId) (s : State) : Host.Outcome State Fault Refusal :=
  .next (s.any fun d => d.debugHalt u)

/-- DEBUG_STEP (R506): An attached debugger steps a halted core. -/
def execDebugStep (u : Option CoreId) (s : State) : Host.Outcome State Fault Refusal :=
  .next (s.any fun d => d.debugStep u)

/-- DEBUG_RESUME (R506): An attached debugger resumes a halted core; a resumed Gable clears its loss. -/
def execDebugResume (u : Option CoreId) (s : State) : Host.Outcome State Fault Refusal :=
  .next (s.any fun d => d.debugResume u)

/-- DEBUG_READ (R506): An attached debugger reads a core's registers or memory. -/
def execDebugRead (u : Option CoreId) (item : DbgItem) (s : State) : Host.Outcome State Fault Refusal :=
  .next (s.chip fun m => (m.1.debugRead m.2 u item, m.2))

/-- DEBUG_WRITE (R506): An attached debugger writes a core's registers or memory where the table permits. -/
def execDebugWrite (u : Option CoreId) (item : DbgItem) (value : Word) (s : State) : Host.Outcome State Fault Refusal :=
  .next (s.any fun d => d.debugWrite u item value)

end Sys2Proof.Machine
end

