-- ==== Sys2Proof/Machine/CmdSystem.lean ====
section
/-! DEFINITION. The commands on modes, images and regions (03 R80, R82, 04 R131, 15 R443): NOP, MODE_REQUEST, HOUSE_EPOCH,
SAFE_HOLD_RESET, IMAGE_LOAD, IMAGE_DROP, REGION_SET and REGION_CLEAR, after tests 1 to 3. -/

namespace Sys2Proof.Machine

open Sys2Proof

/-- SYS_DEVID (02 R35). -/
def deviceId : Word := 0x1A160001

def cmdNop : CmdBody := fun _ _ _ => .ok deviceId 0 id

/-! ### MODE_REQUEST (15 R443) -/

/-- A mode entered at once at a MODE_REQUEST (15 R441, R462, R464). -/
def Dev.enterNow (d : Dev) : Mode → Dev
  | .retention => d.enterRetention
  | .standby => d.enterStandby
  | m => d.toMode m 1 0

/-- Test 8 of MODE_REQUEST: the code of RESULT0 and the event it raises itself (15 R443, 11 R317, R344, 13 R407, 17 R507).
(DEDUCED, log 94) -/
def Dev.modeFault (d : Dev) (t : Mode) : Option (Word × (Dev → Dev)) :=
  let lights := t == .run || t == .service
  if d.sys.mode == .load && (t == .proof || t == .trim) && d.gbl.cfg.isNone then some (0x0814, fun d => d.configRefused 9)
  else if d.sys.mode == .load && (t == .proof || t == .trim) && !d.gbl.hbtHeld then some (0x0808, id)
  else if t == .run && d.startPending != 0 then some (0x0A09, fun d => d.event 0x0A09 (pay 0 d.startPending))
  else if lights && (d.rdg.gFault || d.rdg.hFault) then some (0x0807, id)
  else if lights && d.rdg.disc then some (0x0806, id)
  else if (t == .run || t == .retention) && d.acc.attached then some (0x0D04, id)
  else none

def cmdModeRequest : CmdBody := fun m h a =>
  let d := m.1
  match Mode.ofCode (slice a[0] 0 4), d.sys.pending with
  | none, _ => .badArg 0
  | some _, some p => .busy p.target.code.toNat
  | some t, none =>
    match d.modeFault t with
    | some (code, f) => .answer .fault code 0 f
    | none =>
      let code : Word := t.code.setWidth 32
      if t = d.sys.mode then .ok code 0 fun d => if t = .proof then d.restartProof else d
      else match modeRow d.sys.trimFromArmed d.sys.mode t with
        | some true => .long fun d => { d with sys := { d.sys with pending := some { target := t, hdr := some h } } }
        | _ => .ok code 0 fun d => d.enterNow t

/-! ### HOUSE_EPOCH and SAFE_HOLD_RESET -/

def cmdHouseEpoch : CmdBody := fun m _ a =>
  let t := m.1.sys.htime
  .ok (t.setWidth 32) (slice t 32 32) fun d => { d with gbl := { d.gbl with epoch := a[1] ++ a[0], epochTime := t } }

/-- A command that the Truss forwards (R81): the Gable's trigger at its fetch (04 R129), TPEND.GABLE at its answer. -/
def CmdOut.forwarded (x : CmdOut) : CmdOut :=
  { (x.also fun d => d.triggerG 5) with eff := fun m => let n := x.eff m; (n.1.trussPend 5, n.2) }

/-- Event 0x0808 where the Gable is lost already: its cause, and whether SF3 is missing (R335, R340, R370).
(DEDUCED, log 55) -/
def Dev.gableLostEvent (d : Dev) : Dev :=
  let sf3 := match d.gbl.cfg with | none => false | some c => c.sf3act != 0
  let trap : Byte := if d.thatch.gable.mode = .halted then d.thatch.gable.tcause else 0
  d.event 0x0808 (pay 0 d.gbl.lost ||| payN 4 (if sf3 then 1 else 0) ||| pay 8 trap)

/-- What a forwarded command answers while the Gable is lost (R81, 11 R335): the tests of the Gable cannot be made.
(DEDUCED, log 55) -/
def CmdOut.gableLost : CmdOut := .answer .fault 0x0808 0 Dev.gableLostEvent

/-- SAFE_HOLD_RESET (11 R349): the 10 s window for the reset input opens. -/
def cmdSafeHoldReset : CmdBody := fun m _ _ =>
  let t := m.1.now + 10000000
  if m.1.gbl.lost ≠ 0 then CmdOut.gableLost
  else (m.1.deferred (BitVec.ofNat 32 t) fun d => { d with gbl := { d.gbl with resetWindow := some t } }).forwarded

/-! ### Images -/

def cmdImageLoad : CmdBody := fun _ _ a => if a[1] = 0 then CmdOut.zero.endsLoad 0x10 a else .long id

/-- The argument that a failed check of R131 names. -/
def imageArg (cause : Nat) : Nat := if cause = 2 then 2 else if cause = 3 then 1 else 0

/-- The lowest free handle's place. -/
def Dev.freeHandle (d : Dev) : Option (Fin 64) := (List.finRange 64).find? fun k => d.thatch.handles[k.val].isNone

/-- An image accepted in its profile (03 R80, 04 R128, R131). -/
def Dev.imageAccepted (d : Dev) (f : List Byte) (base profile : Nat) (k : Fin 64) : Dev :=
  match profile with
  | 0 => d.acceptBoot f base
  | 1 => { d with thatch := { d.thatch with handles := upd d.thatch.handles k fun _ => some (parseImage f base) } }
  | 2 => d.loadGable f base
  | _ => d.loadSoffit f base

/-- Tests 5 to 8 of IMAGE_LOAD and its effect (R80, 04 R130, R131), made when its work ends. A refused T image ends its
boot attempt (15 R451). (DESIGN CHOICE, log 27; DEDUCED, log 54) -/
def imageLoadEnd : CmdBody := fun m _ a =>
  let d := m.1
  let base := a[0].toNat
  let len := a[1].toNat
  let p := (slice a[2] 0 2).toNat
  let lost (last : BitVec 3) (d : Dev) : Dev := if p = 0 then d.failAttempt last else d
  if !loftFree base len || (p == 1 && !d.inRegion [2] (base, len)) then
    CmdOut.answer .badArg 0 0 fun d => lost 2 (d.noteUnchecked a)
  else if d.loftUe base len then (d.reading base len fun _ => .fault 0x0111).endsLoad 0x10 a
  else d.reading base len fun f =>
    match imageCheck f base len p with
    | some x =>
      .answer .badArg (BitVec.ofNat 32 (imageArg x.1)) 0 fun d => lost 2 (d.noteCheck (some x) (BitVec.ofNat 2 p))
    | none =>
      let noted (d : Dev) : Dev := d.noteCheck none (BitVec.ofNat 2 p)
      let k := d.freeHandle
      if p = 1 ∧ k = none then .answer .busy Config.handlesBusy 0 noted
      else
        let cause := imageAuth m.2 d.gbl.cfg f p
        if cause ≠ 0 then .answer .authFail (BitVec.ofNat 32 cause) 0 fun d => lost 3 (noted d)
        else
          let k := k.getD 0
          .ok (if p = 1 then BitVec.ofNat 32 (k.val + 1) else 0) 0 fun d => (noted d).imageAccepted f base p k

/-- The place of a handle 1 to 64 that names a loaded image (R80). -/
def Dev.handleArg (d : Dev) (x : Word) : Option (Fin 64) :=
  (List.finRange 64).find? fun k => x == BitVec.ofNat 32 (k.val + 1) && d.thatch.handles[k.val].isSome

/-- The handle that an effect waiting for its boundary names. -/
def EffectOp.handle : EffectOp → BitVec 7
  | .ctxBind _ h .. => h
  | .ctxSwap _ h _ => h
  | .finishSet h .. => h
  | _ => 0

/-- Whether a context, the finish program, an effect due or an unfinished run uses a handle (R80, 06 R179). -/
def Dev.handleUsed (d : Dev) (h : BitVec 7) : Bool :=
  ctxIds.any (fun c => ((d.ctxAt c).state != .idle && (d.ctxAt c).handle == h) ||
      match (d.ctxAt c).migration with | none => false | some x => !x.source && x.handle == h) ||
    d.course.finish.handle == h || d.effects.any (fun e => e.op.handle == h) ||
    d.course.runs.any fun r => r.finish.handle == h || r.contexts.any fun x => x.handle == h

/-- IMAGE_DROP (R80). (DEDUCED, log 58) -/
def cmdImageDrop : CmdBody := fun m _ a =>
  match m.1.handleArg a[0] with
  | none => .badArg 0
  | some k =>
    if m.1.handleUsed (BitVec.ofNat 7 (k.val + 1)) then .busy (k.val + 1)
    else .ok 0 0 fun d => { d with thatch := { d.thatch with handles := upd d.thatch.handles k fun _ => none } }

/-! ### Regions (R82) -/

/-- The Loft ranges that name addresses of regions (R82): buffers of input descriptors, planes of static sources, P images
and the derate table. -/
def Dev.namedRanges (d : Dev) : List (Nat × Nat) :=
  ((upTo 4).flatMap fun s => (d.streamDescs s).flatMap fun x => (x.bases.toList.take x.nbuf.toNat).map fun b => (b, x.extent)) ++
    ((upTo 16).flatMap fun i => (d.sourceDescs i).flatMap fun x => if x.link.isNone then x.ranges else []) ++
    (d.thatch.handles.toList.filterMap fun x => x.map fun i => (i.base, i.length)) ++
    if d.thm.drtEn then [(d.thm.drtAddr.toNat, 512)] else []

/-- Whether region `k` is referenced. -/
def Dev.regionUsed (d : Dev) (k : Fin 64) : Bool :=
  match d.regions[k.val] with
  | none => false
  | some g => d.namedRanges.any (rangesMeet (g.base, g.length))

/-- The region ID of ARG0[5:0]. -/
def regionArg (x : Word) : Fin 64 := ⟨(slice x 0 6).toNat, (slice x 0 6).isLt⟩

/-- The ranges that a new region `k` may not overlap. -/
def Dev.takenRanges (d : Dev) (k : Fin 64) : List (Nat × Nat) :=
  d.ringAreasBut 32 ++ ((upTo 64).filter (· != k.val)).filterMap fun i =>
    (getN d.regions i none).map fun g => (g.base, g.length)

def cmdRegionSet : CmdBody := fun m _ a =>
  let d := m.1
  let k := regionArg a[0]
  let kind := (slice a[0] 8 4).toNat
  let r := (a[1].toNat, a[2].toNat)
  if a[2] = 0 then .zero
  else if 4 < kind then .badArg 0
  else if r.1 % 64 ≠ 0 ∨ inFreeLoft r = false ∨ (d.takenRanges k).any (rangesMeet r) = true then .badArg 1
  else if r.2 % 64 ≠ 0 then .badArg 2
  else if d.regionUsed k then .busy k.val
  else .ok 0 0 fun d =>
    { d with regions := upd d.regions k fun _ => some { kind := kind, base := r.1, length := r.2 } }

def cmdRegionClear : CmdBody := fun m _ a =>
  let k := regionArg a[0]
  if m.1.regions[k.val].isNone then .badArg 0
  else if m.1.regionUsed k then .busy k.val
  else .ok 0 0 fun d => { d with regions := upd d.regions k fun _ => none }

end Sys2Proof.Machine
end

