-- ==== Sys2Proof/Machine/CmdContext.lean ====
section
/-! DEFINITION. The commands on contexts, the finish program and engines (06 R161 to R191) after tests 1 to 3. -/

namespace Sys2Proof.Machine

open Sys2Proof

/-- The context that ARG0[5:0] names, 1 to 63 (R80). (DEDUCED, log 49) -/
def ctxArg (x : Word) : Option (Fin 64) :=
  let c : Fin 64 := ⟨(slice x 0 6).toNat, (slice x 0 6).isLt⟩
  if c = 0 then none else some c

/-- A handle argument as seven bits. -/
def handleOfPlace (k : Fin 64) : BitVec 7 := BitVec.ofNat 7 (k.val + 1)

/-- A 32-byte mask of the Loft. -/
def maskOf (f : List Byte) : BitVec 256 := packBytes 256 f

/-- A context of a Purlin migration, whose every command is BUSY (R191). (DEDUCED, log 51) -/
def Dev.migrating (d : Dev) (c : Fin 64) : Bool := (d.ctxAt c).migration.isSome

/-- A migration of any kind in progress: over Purlin, due at its boundary, or draining a copy (R80, R188, R191).
(DEDUCED, log 51) -/
def Dev.moving (d : Dev) (c : Fin 64) : Bool :=
  d.migrating c || (d.ctxAt c).moving ||
    d.effects.any fun e => match e.op with
      | .ctxMigrate x .. => x == c
      | _ => false

/-- What a command that takes a slot meets (R167, R168, R191): a split group, or the RESULT0 of BUSY. -/
inductive SlotTest where
  | split
  | busy (id : Nat)
  | free
  deriving DecidableEq, Repr

/-- RESULT0 where no slot of an engine may be taken (R168, R191): the lowest context that reserves one there, else 64.
(DEDUCED, log 50) -/
def Dev.reserver (d : Dev) (e : Option (Fin 8)) : Nat :=
  match e.bind fun e => (d.reservedOn e).head? with
  | some c => c.val
  | none => 64

/-- The slot test of `op`, which takes a slot for context `c` with a mask: in the state that its boundary will find (R167,
R168, R191). (DEDUCED, log 48) -/
def Dev.slotTest (d : Dev) (op : EffectOp) (m : BitVec 256) (c : Fin 64) : SlotTest :=
  let p := d.projected op
  match p.placing m c with
  | .split => .split
  | .full e => .busy (p.reserver e)
  | .at _ => if p.freeSlots ≤ 1 then .busy 64 else .free

/-- Whether another context holds a rank, now or at the boundary of `op` (R80, R161). (DEDUCED, log 48) -/
def Dev.rankTaken (d : Dev) (op : EffectOp) (r : BitVec 6) (c : Fin 64) : Bool :=
  (d.rankHolder r c).isSome || ((d.projected op).rankHolder r c).isSome

/-- Whether four source indices are each 0 to 15 or 0xFF. -/
def bindingsOk (x : Word) : Bool := (upTo 4).all fun k => (byteAt x k).toNat < 16 || byteAt x k == 0xFF

/-- A mask read at test 4: a zero mask in a Loft range that R50 allows completes NOOP_ZERO (R180, R77). -/
def Dev.readingMask (d : Dev) (x : Word) (k : Option (BitVec 256) → CmdOut) : CmdOut :=
  if loftFree x.toNat 32 then
    d.reading x.toNat 32 fun f => if maskOf f = 0 then .zero else k (some (maskOf f))
  else k none

/-- CTX_BIND (R161, R163, R167, R168). (DEDUCED, log 50) -/
def cmdCtxBind : CmdBody := fun m h a =>
  let d := m.1
  let rank : BitVec 6 := slice a[6] 0 6
  let ls := a[6].getLsbD 8
  d.readingMask a[3] fun mask? =>
    match ctxArg a[0], d.handleArg a[1], mask? with
    | none, _, _ => .badArg 0
    | _, none, _ => .badArg 1
    | _, _, none => .badArg 3
    | some c, some k, some mask =>
      let op (params : BitVec 2048) : EffectOp := .ctxBind c (handleOfPlace k) a[2] a[5] mask params rank ls
      let slot := if ls then d.slotTest (op 0) mask c else .free
      if slot = .split then .badArg 3
      else if loftFree a[4].toNat 256 = false then .badArg 4
      else if bindingsOk a[5] = false then .badArg 5
      else if rank = 63 ∨ d.rankTaken (op 0) rank c = true then .badArg 6
      else d.reading a[4].toNat 256 fun f =>
        if (d.ctxAt c).state ≠ .idle ∨ d.migrating c = true then .busy c.val
        else match d.rankReserved rank, slot with
          | some x, _ => .busy x.val
          | none, .busy id => .busy id
          | none, _ => d.scheduled h d.runResult (op (packBytes 2048 f))

/-- CTX_SWAP (R179). -/
def cmdCtxSwap : CmdBody := fun m h a =>
  let d := m.1
  match ctxArg a[0], d.handleArg a[1] with
  | none, _ => .badArg 0
  | _, none => .badArg 1
  | some c, some k =>
    if d.moving c then .busy c.val else d.scheduled h d.runResult (.ctxSwap c (handleOfPlace k) a[2])

/-- CTX_PARAM (R163). -/
def cmdCtxParam : CmdBody := fun m h a =>
  let d := m.1
  match ctxArg a[0] with
  | none => .badArg 0
  | some c =>
    if loftFree a[1].toNat 256 then
      d.reading a[1].toNat 256 fun f =>
        if d.migrating c then .busy c.val else d.scheduled h d.runResult (.ctxParam c (packBytes 2048 f))
    else .badArg 1

/-- CTX_PLACE (R180). (DEDUCED, log 50) -/
def cmdCtxPlace : CmdBody := fun m h a =>
  let d := m.1
  let rank : BitVec 6 := slice a[2] 0 6
  d.readingMask a[1] fun mask? =>
    match ctxArg a[0], mask? with
    | none, _ => .badArg 0
    | _, none => .badArg 1
    | some c, some mask =>
      if (d.projected (.ctxPlace c mask rank)).placeSplits c mask then .badArg 1
      else if rank = 63 then .badArg 2
      else if d.migrating c then .busy c.val
      else match d.rankReserved rank with
        | some x => .busy x.val
        | none => d.scheduled h d.runResult (.ctxPlace c mask rank)

/-- A command that names only a context and is BUSY for one in migration (R191). -/
def ctxOnly (op : Fin 64 → EffectOp) : CmdBody := fun m h a =>
  match ctxArg a[0] with
  | none => .badArg 0
  | some c => if m.1.migrating c then .busy c.val else m.1.scheduled h m.1.runResult (op c)

/-- CTX_SUSPEND and CTX_RETIRE (R165). -/
def cmdCtxSuspend : CmdBody := ctxOnly .ctxSuspend
def cmdCtxRetire : CmdBody := ctxOnly .ctxRetire

/-- CTX_RESUME (R165, R167). (DEDUCED, log 50) -/
def cmdCtxResume : CmdBody := fun m h a =>
  let d := m.1
  match ctxArg a[0] with
  | none => .badArg 0
  | some c =>
    let x := d.ctxAt c
    let slot := if x.state = .suspended ∧ x.ls = true then d.slotTest (.ctxResume c) x.mask c else .free
    if slot = .split then .badArg 0
    else if d.migrating c then .busy c.val
    else match slot with
      | .busy id => .busy id
      | _ => d.scheduled h d.runResult (.ctxResume c)

/-- CTX_MIGRATE within the device (R188). (DEDUCED, log 51) -/
def Dev.migrateHere (d : Dev) (h : CmdHdr) (c : Fin 64) (e : Fin 8) : CmdOut :=
  let p := d.projected (.ctxMigrate c e d.nextRun)
  let x := p.ctxAt c
  let g := p.engAt e
  if (d.ctxAt c).ls = false ∨ g.inService = false ∨ (x.slotValid = true ∧ x.engine = e) ∨
      g.freeSlots < (p.groupOf c).length then
    .badArg 1
  else if d.moving c then .busy c.val
  else d.scheduled h d.runResult (.ctxMigrate c e d.nextRun)

/-- Whether a roof position lies in the roof: 0 to WORKERS, as far as this device knows (R189, 16 R472). -/
def Dev.inRoofRange (d : Dev) (pos : BitVec 3) : Bool := d.sys.role == 2 || decide (pos.toNat ≤ d.roof.workers.toNat)

/-- The source's side of a migration of context `c` to roof position `pos` with switch frame `s`, from its fetch (R189). -/
def Dev.beginMigration (d : Dev) (c : Fin 64) (pos : BitVec 3) (s : BitVec 16) : Dev :=
  d.onCtx c fun x =>
    let m : Migration :=
      { source := true, peer := pos, frame := s, announced := false, accepted := false, refused := false, sent := false,
        decided := false, epoch := x.epoch + 1, rank := x.rank, ls := x.ls, engine := x.engine, slot := x.slot,
        handle := x.handle, entry := x.entry, mask := x.mask, src := x.src, params := x.params }
    { x with migration := some m }

/-- CTX_MIGRATE over Purlin (R189): the announcement goes out in the render period before the switch frame.
(DEDUCED, log 51) -/
def Dev.migrateAway (d : Dev) (c : Fin 64) (pos : BitVec 3) : CmdOut :=
  let s := d.nextRun + 1
  if d.inRoof = false ∨ pos = d.roof.position ∨ d.inRoofRange pos = false ∨
      1 < ((d.projected (.ctxMigrate c 0 s)).groupOf c).length then .badArg 1
  else if d.moving c then .busy c.val
  else d.deferred (s.setWidth 32) fun d => if (d.ctxAt c).live then d.beginMigration c pos s else d

/-- CTX_MIGRATE. -/
def cmdCtxMigrate : CmdBody := fun m h a =>
  match ctxArg a[0] with
  | none => .badArg 0
  | some c =>
    if a[1].getLsbD 15 then m.1.migrateAway c (slice a[1] 8 3)
    else m.1.migrateHere h c ⟨(slice a[1] 0 3).toNat, (slice a[1] 0 3).isLt⟩

/-- FINISH_SET (R181). -/
def cmdFinishSet : CmdBody := fun m h a =>
  let d := m.1
  match d.handleArg a[0] with
  | none => .badArg 0
  | some k =>
    if loftFree a[2].toNat 256 then
      d.reading a[2].toNat 256 fun f => d.scheduled h d.runResult (.finishSet (handleOfPlace k) a[1] (packBytes 2048 f))
    else .badArg 2

/-- The engine of ARG0[2:0]. -/
def engArg (x : Word) : Fin 8 := ⟨(slice x 0 3).toNat, (slice x 0 3).isLt⟩

/-- Engines that stay in service without engine `e` once the retirements due are made (R184). -/
def Dev.servingBut (d : Dev) (e : Fin 8) : List (Fin 8) :=
  engIds.filter fun x => x != e && (d.engAt x).inService && !d.effects.any fun y => y.op == .engRetire x

/-- Whether an engine is the source or target of a migration (R184). (DEDUCED, log 50) -/
def Dev.engineMoves (d : Dev) (e : Fin 8) : Bool :=
  !(d.movingOn e).isEmpty || ctxIds.any fun c =>
    let x := d.ctxAt c
    (match x.migration with | none => false | some y => y.ls && y.engine == e) ||
      d.effects.any fun y => match y.op with
        | .ctxMigrate z t _ => z == c && (t == e || (x.slotValid && x.engine == e))
        | _ => false

/-- ENG_RETIRE (R184). (DEDUCED, log 50) -/
def cmdEngRetire : CmdBody := fun m h a =>
  let d := m.1
  let e := engArg a[0]
  if (d.engAt e).inService && (d.servingBut e).isEmpty then .badArg 0
  else if d.engineMoves e then .busy e.val
  else d.scheduled h d.runResult (.engRetire e)

/-- ENG_RETURN (R186). -/
def cmdEngReturn : CmdBody := fun m h a =>
  let d := m.1
  let e := engArg a[0]
  if (d.engAt e).bistFail then .busy e.val else d.scheduled h d.runResult (.engReturn e)

end Sys2Proof.Machine
end

