-- ==== Sys2Proof/Machine/CmdPicture.lean ====
section
/-! DEFINITION. The commands on inputs, sources, timing modes, output frames and calibration (07 R201 to R211, 08 R245 to
R253, 14 R424 to R434) after tests 1 to 3. -/

namespace Sys2Proof.Machine

open Sys2Proof

/-- VIN_DESC (07 R201, R202, R211): NBUF 0 takes effect at once when no frame is in progress. -/
def cmdVinDesc : CmdBody := fun m h a =>
  let d := m.1
  let s : Fin 4 := ⟨(slice a[0] 0 2).toNat, (slice a[0] 0 2).isLt⟩
  if loftFree a[1].toNat 64 = false then .badArg 1
  else d.reading a[1].toNat 64 fun f =>
    match parseStreamDesc f with
    | none => .badArg 1
    | some x =>
      if d.streamOk s.val x = false then .badArg 1
      else if x.nbuf = 0 then
        d.deferred 0 fun d =>
          let d := d.schedule { ring := BitVec.ofNat 8 h.ring.val, tag := h.tag, op := .vinDesc s none }
          if (d.vin.streams[s.val]).filling then d else d.applyDisable s
      else d.scheduled h 0 (.vinDesc s (some x))

/-- SRC_DESC (07 R208). -/
def cmdSrcDesc : CmdBody := fun m h a =>
  let d := m.1
  let i : Fin 16 := ⟨(slice a[0] 0 4).toNat, (slice a[0] 0 4).isLt⟩
  if loftFree a[1].toNat 48 = false then .badArg 1
  else d.reading a[1].toNat 48 fun f =>
    match parseSourceDesc f with
    | none => .badArg 1
    | some none => d.scheduled h d.runResult (.srcDesc i none)
    | some (some x) => if d.sourceOk x then d.scheduled h d.runResult (.srcDesc i (some x)) else .badArg 1

/-- SRC_COMMIT (07 R209, R210). -/
def cmdSrcCommit : CmdBody := fun m h a =>
  let d := m.1
  let mask : BitVec 16 := slice a[0] 0 16
  if mask = 0 then .zero
  else if (bitsOf mask).any fun i => (d.sourceDescs i).isEmpty then .badArg 0
  else d.scheduled h d.runResult (.srcCommit mask)

/-- The timing-mode record of R245, none when a field is out of its range. -/
def parseTMode (f : List Byte) : Option TMode :=
  let n (k w : Nat) : Nat := leNat ((f.drop k).take w)
  let p := n 0 4
  let dv := n 6 1
  let g := n 7 1
  if 416667 ≤ p ∧ p ≤ 16666667 ∧ 8 ≤ n 4 1 ∧ n 4 1 ≤ 16 ∧ 1 ≤ n 5 1 ∧ n 5 1 ≤ 16 ∧
      (dv = 1 ∨ dv = 2 ∨ dv = 4 ∨ dv = 8) ∧ (g = 0 ∨ (2 ≤ g ∧ g ≤ 64)) ∧ n 8 8 = 0 then
    some { period := BitVec.ofNat 24 p, depth := BitVec.ofNat 5 (n 4 1), pwmper := BitVec.ofNat 5 (n 5 1),
           div := BitVec.ofNat 4 dv, g := BitVec.ofNat 7 g }
  else none

/-- The slot of ARG0[2:0]. -/
def slotArg (x : Word) : Fin 8 := ⟨(slice x 0 3).toNat, (slice x 0 3).isLt⟩

/-- TMODE_LOAD (08 R245). -/
def cmdTmodeLoad : CmdBody := fun m _ a =>
  let d := m.1
  let k := slotArg a[0]
  if loftFree a[1].toNat 16 = false then .badArg 1
  else d.reading a[1].toNat 16 fun f =>
    match parseTMode f with
    | none => .badArg 1
    | some x =>
      if k = d.scan.slot then .busy k.val
      else .ok 0 0 fun d => { d with scan := { d.scan with tmode := upd d.scan.tmode k fun _ => x } }

/-- Whether TMODE_SELECT refuses a slot (08 R247, 16 R478). -/
def Dev.slotRefused (d : Dev) (k : Fin 8) : Bool :=
  let x := d.scan.tmode[k.val]
  d.follows || (d.scan.enumValid && !d.scan.slotFits x) || (d.gbl.cfg.isSome && decide (4000000 < x.period.toNat))

/-- TMODE_SELECT (08 R247, R248). (DEDUCED, log 58) -/
def cmdTmodeSelect : CmdBody := fun m h a =>
  let k := slotArg a[0]
  if m.1.slotRefused k then .badArg 0 else m.1.scheduled h m.1.runResult (.tmodeSelect k)

/-- SCO_COMMIT_STATUS (08 R258). -/
def Dev.commitStatus (d : Dev) : Word := (d.scan.read 0x08).getD 0

/-- FRAME_COMMIT (08 R253, R258): recorded at its fetch. -/
def cmdFrameCommit : CmdBody := fun m h a =>
  if a[0] = 0x01400000 ∨ a[0] = 0x01600000 then
    let commit (d : Dev) : Dev := d.recordCommit (BitVec.ofNat 8 h.ring.val) h.tag (a[0] == 0x01600000)
    m.1.deferred (commit m.1).commitStatus commit
  else .badArg 0

/-- CAL_RUN (14 R424, R425): RESULT0 is the calibration count. -/
def cmdCalRun : CmdBody := fun m h a =>
  let steps : BitVec 48 := (slice a[1] 0 16 : BitVec 16) ++ a[0]
  if steps = 0 then .zero
  else m.1.deferred m.1.trim.count fun d =>
    { d with trim := { d.trim with queued := d.trim.queued ++ [{ steps := steps, trigger := 2, cmd := some (BitVec.ofNat 8 h.ring.val, h.tag) }] } }

/-- CAL_SNAPSHOT (14 R433): the record is written before the completion. -/
def cmdCalSnapshot : CmdBody := fun _ _ a =>
  let x := a[0].toNat
  if x % 8 ≠ 0 ∨ loftFree x 128 = false then .badArg 0
  else (CmdOut.ok 0 0 id).also fun d => d.loftWrite x d.snapshot

/-- CAL_RESTORE (14 R434). (DEDUCED, log 58) -/
def cmdCalRestore : CmdBody := fun m _ a =>
  let d := m.1
  let x := a[0].toNat
  if loftFree x 128 = false then .badArg 0
  else d.reading x 128 fun f =>
    if d.restoreCheck f ≠ 1 then .answer .badArg 0 0 fun d => (d.restore f).2
    else if d.trim.running || !d.trim.queued.isEmpty then .busy 0
    else .ok 0 0 fun d => (d.restore f).2

end Sys2Proof.Machine
end

