-- ==== Sys2Proof/Machine/CmdSafety.lean ====
section
/-! DEFINITION. The commands on the safety configuration, zones, injections and the roof (11 R335, R354, R357, 16 R486,
R490, 18 R518) after tests 1 to 3. -/

namespace Sys2Proof.Machine

open Sys2Proof

/-! ### SAFETY_LOAD and SAFETY_CHANGE (11 R354, R357) -/

/-- SAFETY_LOAD at its fetch (R81): forwarded to the Gable. -/
def cmdSafetyLoad : CmdBody := fun _ _ a => if a[1] = 0 then .zero else .long fun d => d.triggerG 5

/-- SAFETY_CHANGE at its fetch: forwarded; from then on the Gable may write the new entry's place (11 R357, 04 R109). -/
def cmdSafetyChange : CmdBody := fun _ _ a =>
  let x := a[3].toNat
  if a[1] = 0 then .zero
  else .long fun d =>
    let d := d.triggerG 5
    { d with gbl := { d.gbl with logArea := if loftFree x 128 then some x else none } }

/-- The answer of the Gable: TPEND.GABLE, and the place of the log entry closed. -/
def Dev.safetyAnswered (d : Dev) : Dev := ({ d with gbl := { d.gbl with logArea := none } }).trussPend 5

/-- A refusal by the Gable's verifier, with event 0x0814 where R354 and R370 give a cause. (DEDUCED, log 55) -/
def safetyRefused : SafetyVerdict → CmdOut
  | .pass => .fail .fault 0
  | .badArg => .badArg 0
  | .auth k => .answer .authFail (BitVec.ofNat 32 k) 0 fun d => d.configRefused k
  | .crc => .answer .fault 0x0814 0 fun d => d.configRefused 8

/-- Tests 5 to 8 of SAFETY_LOAD and its effect. -/
def safetyLoadTests : CmdBody := fun m _ a =>
  let d := m.1
  let n := a[1].toNat
  if d.gbl.lost ≠ 0 then CmdOut.gableLost
  else if loftFree a[0].toNat n = false then .badArg 0
  else if loftFree a[2].toNat 128 = false then .badArg 2
  else d.reading a[0].toNat n fun f => d.reading a[2].toNat 128 fun head =>
    match d.safetyTests f head m.2.counter.toNat with
    | .pass =>
      .ok (m.2.counter.setWidth 32) 0 fun d => (d.applyConfig f head).configLoaded m.2.counter.toNat
    | v => safetyRefused v

/-- A change accepted (R357): the new entry written, the counter advanced, the configuration applied, event 0x0815. -/
def changeAccepted (f entry : List Byte) (counter : Nat) (genesis gap : Bool) (operator : Word) (m : Chip) :
    Chip :=
  let d := m.1.applyConfig f entry
  (d.event 0x0815 (payN 0 counter ||| payN 12 (if gap then 1 else 0) ||| payN 13 (if genesis then 1 else 0) |||
      pay 32 operator),
   { m.2 with counter := BitVec.ofNat 12 counter })

/-- Whether a change reads the entry that stands at ARG3 (R357, the third choice). -/
def readsOldHead (m : Chip) : Bool := m.1.gbl.cfg.isNone && m.2.counter != 0

/-- Tests 5 to 8 of SAFETY_CHANGE and its effect. -/
def safetyChangeTests : CmdBody := fun m _ a =>
  let d := m.1
  let n := a[1].toNat
  let place := a[3].toNat
  let counter := m.2.counter.toNat
  let withHead (k : List Byte → CmdOut) : CmdOut := if readsOldHead m then d.reading place 128 k else k []
  if d.gbl.lost ≠ 0 then CmdOut.gableLost
  else if loftFree a[0].toNat n = false then .badArg 0
  else if loftFree place 128 = false then .badArg 3
  else d.reading a[0].toNat n fun f => withHead fun old =>
    match d.changeTests f old counter, d.changeHead old counter with
    | .pass, .ok (prev, genesis, gap) =>
      if counter = 4095 then .fault Config.exhaustedResult
      else
        let entry := d.logEntry (counter + 1) genesis gap a[2] prev (blobConfig f).hash
        { pre := fun d => d.loftWrite place entry, ans := some ⟨.ok, BitVec.ofNat 32 (counter + 1), 0⟩,
          eff := changeAccepted f entry (counter + 1) genesis gap a[2] }
    | .pass, .error k => safetyRefused (.auth k)
    | v, _ => safetyRefused v

/-- The Gable answers when its work ends. -/
def answeredByGable (f : CmdBody) : CmdBody := fun m h a =>
  let x := f m h a
  { x with eff := fun m => let n := x.eff m; (n.1.safetyAnswered, n.2) }

/-- The end of a SAFETY_LOAD (11 R354). (DEDUCED, log 54) -/
def safetyLoadEnd : CmdBody := answeredByGable safetyLoadTests
/-- The end of a SAFETY_CHANGE (11 R357). (DEDUCED, log 54) -/
def safetyChangeEnd : CmdBody := answeredByGable safetyChangeTests

/-! ### ZONESET_SELECT (11 R335) -/

/-- The first frame that the map of the next safety tick serves (R331). (DEDUCED, log 58) -/
def Dev.nextTickFrame (d : Dev) : BitVec 16 := if d.tickLat d.nextLat then d.nextRun else d.nextRun + 1

/-- ZONESET_SELECT (11 R335). (DEDUCED, log 55, 58) -/
def cmdZonesetSelect : CmdBody := fun m h a =>
  let d := m.1
  if d.gbl.lost ≠ 0 then CmdOut.gableLost
  else (d.scheduled h (d.nextTickFrame.setWidth 32) (.zonesetSelect (slice a[0] 0 3))).forwarded

/-! ### INJECT (18 R516 to R518) -/

/-- INJECT (18 R518). (DEDUCED, log 46) -/
def cmdInject : CmdBody := fun m h a =>
  let d := m.1
  let b := (slice a[0] 0 10).toNat
  let dry := a[1].getLsbD 0
  if 55 ≤ b ∨ (d.injInstances b d.inj.target).isEmpty = true ∨ (dry = true ∧ dryBit b = false) then .badArg 0
  else if d.inj.busy then .busy d.inj.bit.toNat
  else .long fun d => d.injStart b dry .command (some h)

/-! ### ROOF_REENUM and TWIN_YIELD (16 R486, R490) -/

/-- Whether a worker reports ARMED, RUN, DEGRADED or SERVICE. -/
def WorkerView.lit (w : WorkerView) : Bool := w.mode == 6 || w.mode == 7 || w.mode == 8 || w.mode == 11

/-- ROOF_REENUM (16 R490). (DEDUCED, log 59) -/
def cmdRoofReenum : CmdBody := fun m h a =>
  let d := m.1
  let k : BitVec 3 := slice a[0] 0 3
  if d.sys.role = 2 ∨ k = 0 then .badArg 0
  else if (d.workerAt k).lit then .busy k.toNat
  else match d.roof.reenum with
    | some r => .busy r.position.toNat
    | none => .long fun d => d.reenumStart h k

/-- TWIN_YIELD (16). (DEDUCED, log 58) -/
def cmdTwinYield : CmdBody := fun m h _ =>
  let d := m.1
  if d.sys.role ≠ 0 ∨ d.roof.twin = false then .badArg 0
  else if d.roof.peerOk = false ∨ d.roof.peerHealth = 0 then .busy 1
  else d.scheduled h (d.nextLat.setWidth 32) .twinYield

end Sys2Proof.Machine
end

