-- ==== Sys2Proof/Machine/Fetch.lean ====
section
/-! DEFINITION. Commands fetched from their rings, and long commands that end (03 R77 to R83). -/

namespace Sys2Proof.Machine

open Sys2Proof

/-- The command-set table (R80): what each opcode does after tests 1 to 3; none fails test 1. -/
def commandOf (op : Byte) : Option CmdBody :=
  match op.toNat with
  | 0x00 => some cmdNop
  | 0x01 => some cmdModeRequest
  | 0x02 => some cmdHouseEpoch
  | 0x03 => some cmdSafeHoldReset
  | 0x10 => some cmdImageLoad
  | 0x11 => some cmdImageDrop
  | 0x18 => some cmdRegionSet
  | 0x19 => some cmdRegionClear
  | 0x20 => some cmdCtxBind
  | 0x21 => some cmdCtxSwap
  | 0x22 => some cmdCtxParam
  | 0x23 => some cmdCtxPlace
  | 0x24 => some cmdCtxSuspend
  | 0x25 => some cmdCtxResume
  | 0x26 => some cmdCtxRetire
  | 0x27 => some cmdCtxMigrate
  | 0x28 => some cmdFinishSet
  | 0x30 => some cmdEngRetire
  | 0x31 => some cmdEngReturn
  | 0x38 => some cmdVinDesc
  | 0x39 => some cmdSrcDesc
  | 0x3A => some cmdSrcCommit
  | 0x40 => some cmdTmodeLoad
  | 0x41 => some cmdTmodeSelect
  | 0x42 => some cmdFrameCommit
  | 0x50 => some cmdCalRun
  | 0x51 => some cmdCalSnapshot
  | 0x52 => some cmdCalRestore
  | 0x60 => some cmdSafetyLoad
  | 0x61 => some cmdSafetyChange
  | 0x62 => some cmdZonesetSelect
  | 0x70 => some cmdInject
  | 0x78 => some cmdRoofReenum
  | 0x79 => some cmdTwinYield
  | _ => none

/-! ### STALLED (R79) -/

/-- STALLED of every enabled command ring: no completion slot is free for an unfetched command (R79). It is set when the
device looks for a command to fetch and finds one that waits for a slot, with none in service on its ring.
(DESIGN CHOICE, log 103) -/
def Dev.noteStalls (d : Dev) : Dev :=
  (List.finRange 24).foldl (fun d n =>
    let r := d.rings[n.val]
    if r.enabled && d.inScope n then
      d.ring n.val fun r => { r with stalled := d.unfetched n && r.inService.isNone && decide (r.entries ≤ r.cplHeld) }
    else d) d

/-! ### A fetch -/

/-- The bytes of the next entry of a ring, and whether one of their words is uncorrectable. -/
def Dev.nextEntry (d : Dev) (n : Fin 24) : List Byte × Bool × Dev :=
  if d.relayRing n then
    match d.roof.relayQueue with
    | [] => ([], false, d)
    | e :: rest => (e, false, { d with roof := { d.roof with relayQueue := rest } })
  else
    let r := d.rings[n.val]
    let a := r.base.toNat + 32 * (r.cons.toNat % r.entries)
    (d.loftBytes a 32, d.loftUe a 32, d.loftTouch a 32)

/-- ARG0 to ARG6 of an entry (R73). -/
def entryArgs (e : List Byte) : Args := Vector.ofFn fun k => BitVec.ofNat 32 (entryField e (4 + 4 * k.val) 4)

/-- A fetched entry executed: test 1, then the rest (R77); an entry with an uncorrectable error is not executed (02 R58). -/
def Chip.runEntry (m : Chip) (h : CmdHdr) (e : List Byte) (ue : Bool) : Chip :=
  let op : Byte := BitVec.ofNat 8 (entryField e 0 1)
  let a := entryArgs e
  m.conclude h op a <|
    if ue then .fault 0x0111
    else match commandOf op with
      | none => .fail .badOpcode 0
      | some f => m.tests h op a f

/-- The next command fetched from ring `n` (R79). INDEX of the completion of a relayed command, of which the spec says
nothing, is RING_23_CONS, which counts the relayed commands. (DESIGN CHOICE, log 102) -/
def Chip.fetchFrom (m : Chip) (n : Fin 24) : Chip :=
  let index := m.1.rings[n.val].cons
  let x := m.1.nextEntry n
  let h : CmdHdr :=
    { ring := n, index := index, tag := BitVec.ofNat 16 (entryField x.1 2 2), irq := (entryField x.1 1 1) % 2 == 1 }
  let d := x.2.2.ring n.val fun r => { r with cons := r.cons + 1 }
  Chip.runEntry (d.noteServed n, m.2) h x.1 x.2.1

/-- COMMAND_FETCH: the device serves the ring whose turn it is; with none, STALLED shows why. -/
def Chip.fetch (m : Chip) : Chip :=
  if m.1.coreUp && m.1.trussServes then
    let d := m.1.noteStalls
    match d.nextRing none with
    | none => (d, m.2)
    | some n => Chip.fetchFrom (d, m.2) n
  else m

/-! ### Long commands that end (R78) -/

/-- What the rest of a long command does, for those whose work ends by itself; MODE_REQUEST and INJECT end with the LAT
and the detection, ROOF_REENUM with the worker's report of ARMED. -/
def longEnd (op : Byte) : Option CmdBody :=
  match op.toNat with
  | 0x10 => some imageLoadEnd
  | 0x60 => some safetyLoadEnd
  | 0x61 => some safetyChangeEnd
  | _ => none

/-- LONG_COMMAND_COMPLETE on ring `n`. A ROOF_REENUM ended so has failed: by the 1 s once that has passed, before it by
the PROOF that failed on the worker (R486). (DEDUCED, log 54) -/
def Chip.longComplete (m : Chip) (n : Fin 24) : Chip :=
  match m.1.rings[n.val].inService with
  | none => m
  | some c =>
    if m.1.coreUp && m.1.trussServes then
      match longEnd c.opcode with
      | none => if c.opcode = 0x78 then (m.1.reenumFail, m.2) else m
      | some f =>
        let x := f m c.hdr c.args
        match x.ans with
        | none => m
        | some y => x.eff ((x.pre m.1).finishLong c.hdr c.opcode y.st y.r0 y.r1, m.2)
    else m

/-! ### REENUM at a worker (16 R474, R486) -/

/-- MODE_REQUEST PROOF without a completion, as a REENUM cell makes it. -/
def Dev.reenumProof (d : Dev) : Dev :=
  if d.modeRequestAllowed Mode.proof.code && d.sys.pending.isNone then
    match d.modeFault .proof with
    | some (_, f) => f d
    | none => if d.sys.mode = .proof then d.restartProof else d.enterNow .proof
  else d

/-- A REENUM cell taken by a worker. -/
def Dev.reenum (d : Dev) (src : Byte) (seq : BitVec 16) : Dev :=
  if d.worker && d.coreUp then ((d.ack src 0x0B seq).purlinTaken).reenumProof else d

end Sys2Proof.Machine
end

