-- ==== Sys2Proof/Machine/CommandRows.lean ====
section
/-! DEFINITION. The ring commands (03 R80): each row's meaning, over the operations it shares. -/

namespace Sys2Proof.Machine

open Sys2Proof


/-- NOP (R80): The NOP command completes OK with RESULT0 = SYS_DEVID. -/
def execNop (h : CmdHdr) (args : Args) (s : State) : Host.Outcome State Fault Refusal :=
  .next (s.chip fun m => m.command h 0x00 args cmdNop)

/-- MODE_REQUEST (R443): Requests a change to a target mode, tested against the transition table and taking effect at
once or at the next LAT. -/
def execModeRequest (h : CmdHdr) (args : Args) (s : State) : Host.Outcome State Fault Refusal :=
  .next (s.chip fun m => m.command h 0x01 args cmdModeRequest)

/-- HOUSE_EPOCH (R80): Pairs the host epoch with the current house time and returns that time. -/
def execHouseEpoch (h : CmdHdr) (args : Args) (s : State) : Host.Outcome State Fault Refusal :=
  .next (s.chip fun m => m.command h 0x02 args cmdHouseEpoch)

/-- SAFE_HOLD_RESET (R349): Forwarded to the Gable; opens the 10 s window for the reset-input edge that leaves SAFE
HOLD. -/
def execSafeHoldReset (h : CmdHdr) (args : Args) (s : State) : Host.Outcome State Fault Refusal :=
  .next (s.chip fun m => m.command h 0x03 args cmdSafeHoldReset)

/-- IMAGE_LOAD (R131): Checks a THCH image, authenticates it and loads it, returning a handle for P images or starting
the T firmware. -/
def execImageLoad (h : CmdHdr) (args : Args) (s : State) : Host.Outcome State Fault Refusal :=
  .next (s.chip fun m => m.command h 0x10 args cmdImageLoad)

/-- IMAGE_DROP (R80): Removes a loaded P image handle unless a context or the finish program uses it. -/
def execImageDrop (h : CmdHdr) (args : Args) (s : State) : Host.Outcome State Fault Refusal :=
  .next (s.chip fun m => m.command h 0x11 args cmdImageDrop)

/-- REGION_SET (R82): Declares or replaces a Loft region of a given kind, with checks for alignment, range and
overlap. -/
def execRegionSet (h : CmdHdr) (args : Args) (s : State) : Host.Outcome State Fault Refusal :=
  .next (s.chip fun m => m.command h 0x18 args cmdRegionSet)

/-- REGION_CLEAR (R82): Removes a declared region unless it is referenced. -/
def execRegionClear (h : CmdHdr) (args : Args) (s : State) : Host.Outcome State Fault Refusal :=
  .next (s.chip fun m => m.command h 0x19 args cmdRegionClear)

/-- CTX_BIND (R161): Binds an idle context to a program, mask, parameters, sources and rank at the next patch-run
start. -/
def execCtxBind (h : CmdHdr) (args : Args) (s : State) : Host.Outcome State Fault Refusal :=
  .next (s.chip fun m => m.command h 0x20 args cmdCtxBind)

/-- CTX_SWAP (R179): Replaces a context's program and entry from the boundary's run onward. -/
def execCtxSwap (h : CmdHdr) (args : Args) (s : State) : Host.Outcome State Fault Refusal :=
  .next (s.chip fun m => m.command h 0x21 args cmdCtxSwap)

/-- CTX_PARAM (R163): Copies a new parameter block for a context, applied at the next patch-run start. -/
def execCtxParam (h : CmdHdr) (args : Args) (s : State) : Host.Outcome State Fault Refusal :=
  .next (s.chip fun m => m.command h 0x22 args cmdCtxParam)

/-- CTX_PLACE (R180): Replaces a context's mask and rank, exchanging ranks with a holder of the new rank. -/
def execCtxPlace (h : CmdHdr) (args : Args) (s : State) : Host.Outcome State Fault Refusal :=
  .next (s.chip fun m => m.command h 0x23 args cmdCtxPlace)

/-- CTX_SUSPEND (R165): Suspends a context at the boundary and saves its local store. -/
def execCtxSuspend (h : CmdHdr) (args : Args) (s : State) : Host.Outcome State Fault Refusal :=
  .next (s.chip fun m => m.command h 0x24 args cmdCtxSuspend)

/-- CTX_RESUME (R165): Resumes a suspended context at the boundary, through DRAINING when it has local store. -/
def execCtxResume (h : CmdHdr) (args : Args) (s : State) : Host.Outcome State Fault Refusal :=
  .next (s.chip fun m => m.command h 0x25 args cmdCtxResume)

/-- CTX_RETIRE (R165): Retires a context at the boundary; it becomes IDLE at the run after that. -/
def execCtxRetire (h : CmdHdr) (args : Args) (s : State) : Host.Outcome State Fault Refusal :=
  .next (s.chip fun m => m.command h 0x26 args cmdCtxRetire)

/-- CTX_MIGRATE (R188): Moves a context's placement to another engine or, over Purlin, to another device from a switch
frame. -/
def execCtxMigrate (h : CmdHdr) (args : Args) (s : State) : Host.Outcome State Fault Refusal :=
  .next (s.chip fun m => m.command h 0x27 args cmdCtxMigrate)

/-- FINISH_SET (R181): Replaces the finish program, its entry and its parameter block from the boundary's run onward.
-/
def execFinishSet (h : CmdHdr) (args : Args) (s : State) : Host.Outcome State Fault Refusal :=
  .next (s.chip fun m => m.command h 0x28 args cmdFinishSet)

/-- ENG_RETIRE (R184): Retires an engine at the boundary and re-places its placement groups. -/
def execEngRetire (h : CmdHdr) (args : Args) (s : State) : Host.Outcome State Fault Refusal :=
  .next (s.chip fun m => m.command h 0x30 args cmdEngRetire)

/-- ENG_RETURN (R186): Returns a retired engine to service at the boundary. -/
def execEngReturn (h : CmdHdr) (args : Args) (s : State) : Host.Outcome State Fault Refusal :=
  .next (s.chip fun m => m.command h 0x31 args cmdEngReturn)

/-- VIN_DESC (R211): Sets an input stream's descriptor, taking effect at the next Vertical Sync Start on its channel.
-/
def execVinDesc (h : CmdHdr) (args : Args) (s : State) : Host.Outcome State Fault Refusal :=
  .next (s.chip fun m => m.command h 0x38 args cmdVinDesc)

/-- SRC_DESC (R208): Sets a source descriptor with format, size and planes, applied at the next patch-run start. -/
def execSrcDesc (h : CmdHdr) (args : Args) (s : State) : Host.Outcome State Fault Refusal :=
  .next (s.chip fun m => m.command h 0x39 args cmdSrcDesc)

/-- SRC_COMMIT (R209): Makes the named linked sources take their stream's READY frame at the next patch-run start. -/
def execSrcCommit (h : CmdHdr) (args : Args) (s : State) : Host.Outcome State Fault Refusal :=
  .next (s.chip fun m => m.command h 0x3A args cmdSrcCommit)

/-- TMODE_LOAD (R245): Loads a timing-mode record into a slot that is not in use. -/
def execTmodeLoad (h : CmdHdr) (args : Args) (s : State) : Host.Outcome State Fault Refusal :=
  .next (s.chip fun m => m.command h 0x40 args cmdTmodeLoad)

/-- TMODE_SELECT (R247): Selects a timing-mode slot from the next LAT, retraining the chains when DIV changes. -/
def execTmodeSelect (h : CmdHdr) (args : Args) (s : State) : Host.Outcome State Fault Refusal :=
  .next (s.chip fun m => m.command h 0x41 args cmdTmodeSelect)

/-- FRAME_COMMIT (R253): Commits an output frame for the transfer that its cutoff selects. -/
def execFrameCommit (h : CmdHdr) (args : Args) (s : State) : Host.Outcome State Fault Refusal :=
  .next (s.chip fun m => m.command h 0x42 args cmdFrameCommit)

/-- CAL_RUN (R424): Requests a calibration run of the trim DACs in its mask. -/
def execCalRun (h : CmdHdr) (args : Args) (s : State) : Host.Outcome State Fault Refusal :=
  .next (s.chip fun m => m.command h 0x50 args cmdCalRun)

/-- CAL_SNAPSHOT (R433): Writes the applied trim set as a 128-byte record to the Loft. -/
def execCalSnapshot (h : CmdHdr) (args : Args) (s : State) : Host.Outcome State Fault Refusal :=
  .next (s.chip fun m => m.command h 0x51 args cmdCalSnapshot)

/-- CAL_RESTORE (R434): Checks a trim snapshot record and applies it, or refuses it and starts a recalibration. -/
def execCalRestore (h : CmdHdr) (args : Args) (s : State) : Host.Outcome State Fault Refusal :=
  .next (s.chip fun m => m.command h 0x52 args cmdCalRestore)

/-- SAFETY_LOAD (R354): The Gable verifies a configuration blob against the change-log head and the OTP counter, then
applies it. -/
def execSafetyLoad (h : CmdHdr) (args : Args) (s : State) : Host.Outcome State Fault Refusal :=
  .next (s.chip fun m => m.command h 0x60 args cmdSafetyLoad)

/-- SAFETY_CHANGE (R357): Verifies a new blob, writes a change-log entry, increments the OTP counter and applies the
configuration. -/
def execSafetyChange (h : CmdHdr) (args : Args) (s : State) : Host.Outcome State Fault Refusal :=
  .next (s.chip fun m => m.command h 0x61 args cmdSafetyChange)

/-- ZONESET_SELECT (R335): Selects a zone set from the next safety tick. -/
def execZonesetSelect (h : CmdHdr) (args : Args) (s : State) : Host.Outcome State Fault Refusal :=
  .next (s.chip fun m => m.command h 0x62 args cmdZonesetSelect)

/-- INJECT (R518): Runs a detector injection in full or dry form and reports its detection time. -/
def execInject (h : CmdHdr) (args : Args) (s : State) : Host.Outcome State Fault Refusal :=
  .next (s.chip fun m => m.command h 0x70 args cmdInject)

/-- ROOF_REENUM (R486): The manager admits a worker by sending REENUM and waits until the worker reports ARMED. -/
def execRoofReenum (h : CmdHdr) (args : Args) (s : State) : Host.Outcome State Fault Refusal :=
  .next (s.chip fun m => m.command h 0x78 args cmdRoofReenum)

/-- TWIN_YIELD (R490): Makes the driving side of a twin roof yield at the next LAT. -/
def execTwinYield (h : CmdHdr) (args : Args) (s : State) : Host.Outcome State Fault Refusal :=
  .next (s.chip fun m => m.command h 0x79 args cmdTwinYield)

end Sys2Proof.Machine
end

