-- ==== Sys2Proof/Machine/ThatchCore.lean ====
section
/-! DEFINITION. The shapes of the scalar, control and memory instructions of a Thatch core (04 R96 to R111): every
instruction's meaning is one of these over its own operation. -/

namespace Sys2Proof.Machine

open Sys2Proof

/-- The Cycles of an opcode's row (R100, R104, R113 to R116, 05 R143); of a branch, not taken. -/
def rowCycles (op : Byte) : Nat :=
  match isa op.toNat with
  | none => 1
  | some i => i.cycles

/-! ### Scalar (R100) -/

/-- A result with its flags. -/
def Core.result (x : Core) (r : BitVec 5) (o : AluOut) : Core := { x.put r o.1 with flg := o.2 }

/-- R format: d from FLG, a and b. -/
def aluR (m : Chip) (c : CoreId) (op : Byte) (dst a b : BitVec 5) (mod : BitVec 9)
    (f : Flg → Word → Word → AluOut) : Chip :=
  issueCore m c (encR op dst a b mod) (rowCycles op) fun x => x.result dst (f x.flg (x.get a) (x.get b))

/-- I format: d from FLG, a and the immediate. -/
def aluI (m : Chip) (c : CoreId) (op : Byte) (dst a : BitVec 5) (imm : BitVec 14)
    (f : Flg → Word → BitVec 14 → AluOut) : Chip :=
  issueCore m c (encI op dst a imm) (rowCycles op) fun x => x.result dst (f x.flg (x.get a) imm)

/-- L format: d from the immediate, no flag. -/
def aluL (m : Chip) (c : CoreId) (op : Byte) (dst : BitVec 5) (imm : BitVec 19) (f : BitVec 19 → Word) : Chip :=
  issueCore m c (encL op dst imm) (rowCycles op) fun x => x.put dst (f imm)

/-- A division: DIVZERO for a divisor of 0 (R117). -/
def divOp (m : Chip) (c : CoreId) (op : Byte) (dst a b : BitVec 5) (mod : BitVec 9)
    (f : Flg → Word → Word → AluOut) : Chip :=
  issue m c (encR op dst a b mod) (rowCycles op) 0 fun m =>
    let x := m.1.coreAt c
    if x.get b = 0 then .trap m.1 tDivzero 0
    else .next (m.1.onCore c fun x => x.result dst (f x.flg (x.get a) (x.get b)), m.2)

/-- SEL (R100): the condition register stands in the modifier. -/
def selOp (m : Chip) (c : CoreId) (dst a b : BitVec 5) (mod : BitVec 9) : Chip :=
  issueCore m c (encR 0x29 dst a b mod) (rowCycles 0x29) fun x =>
    x.put dst (if x.get (mod.extractLsb' 0 5) ≠ 0 then x.get a else x.get b)

/-! ### Control flow (R104 to R107) -/

/-- A branch: 2 cycles when taken, 1 when not. -/
def branchOp (m : Chip) (c : CoreId) (op : Byte) (a b : BitVec 5) (off : BitVec 14) (taken : Word → Word → Bool) : Chip :=
  issue m c (encB op a b off) (rowCycles op) 0 fun m =>
    let x := m.1.coreAt c
    if taken (x.get a) (x.get b) then .jump (m.1.onCore c fun x => x.jump (branchTarget x.pc off), m.2) 2
    else .next m

/-- JMP. -/
def jmpOp (m : Chip) (c : CoreId) (w : Word) (off : BitVec 19) : Chip :=
  issue m c w (rowCycles 0x47) 0 fun m => .jump (m.1.onCore c fun x => x.jump (branchTarget x.pc off), m.2) 2

/-- A call to `target`: STACK on a full return stack; loops stay (R106, R107). -/
def callTo (m : Chip) (c : CoreId) (target : Word) : IOut :=
  let x := m.1.coreAt c
  if c.rmax ≤ x.rstack.length then .trap m.1 tStack (BitVec.ofNat 32 x.rstack.length)
  else .jump (m.1.onCore c fun x => { x with rstack := (x.pc + 4) :: x.rstack, pc := target }, m.2) 2

/-- CALL. -/
def callOp (m : Chip) (c : CoreId) (w : Word) (off : BitVec 19) : Chip :=
  issue m c w (rowCycles 0x48) 0 fun m => callTo m c (branchTarget (m.1.coreAt c).pc off)

/-- A return to the top of the return stack, ending every loop pushed deeper (R106). -/
def Core.ret (x : Core) (target : Word) (rest : List Word) : Core :=
  { x with pc := target, rstack := rest, lstack := x.lstack.filter fun e => decide (e.depth ≤ rest.length) }

/-- RET. -/
def retOp (m : Chip) (c : CoreId) (w : Word) : Chip :=
  issue m c w (rowCycles 0x49) 0 fun m =>
    match (m.1.coreAt c).rstack with
    | [] => .trap m.1 tStack 0
    | t :: r => .jump (m.1.onCore c fun x => x.ret t r, m.2) 2

/-- JR: FETCH for a target that is not executable. (DEDUCED, log 30) -/
def jrOp (m : Chip) (c : CoreId) (w : Word) (a : BitVec 5) : Chip :=
  issue m c w (rowCycles 0x4A) 0 fun m =>
    let t := (m.1.coreAt c).get a
    if m.1.executable c t then .jump (m.1.onCore c fun x => x.jump t, m.2) 2 else .trap m.1 tFetch t

/-- CALLR. (DEDUCED, log 30) -/
def callrOp (m : Chip) (c : CoreId) (w : Word) (a : BitVec 5) : Chip :=
  issue m c w (rowCycles 0x4B) 0 fun m =>
    let t := (m.1.coreAt c).get a
    if m.1.executable c t then callTo m c t else .trap m.1 tFetch t

/-- A loop of `n` words run `count` times (R105). One that stands at the end of an enclosing body starts its own body without
the enclosing loop's end test. (DEDUCED, log 31) -/
def loopOp (m : Chip) (c : CoreId) (op : Byte) (w : Word) (count : Core → Word) (n : BitVec 9) : Chip :=
  issue m c w (rowCycles op) 0 fun m =>
    let x := m.1.coreAt c
    let words : Word := zx n <<< 2
    if n = 0 then .next m
    else if count x = 0 then .jump (m.1.onCore c fun x => { x with pc := x.pc + 4 + words }, m.2) 1
    else if c.lmax ≤ x.lstack.length then .trap m.1 tLoop (BitVec.ofNat 32 x.lstack.length)
    else
      let e : LoopEntry :=
        { start := x.pc + 4, last := x.pc + words, left := count x, depth := x.rstack.length }
      .jump (m.1.onCore c fun x => { x with lstack := e :: x.lstack, pc := x.pc + 4 }, m.2) 1

/-- LOOPI and LOOP. (DEDUCED, log 31) -/
def loopiOp (m : Chip) (c : CoreId) (w : Word) (imm : BitVec 19) : Chip :=
  loopOp m c 0x4C w (fun _ => zx (imm.extractLsb' 9 10)) (imm.extractLsb' 0 9)
def loopRegOp (m : Chip) (c : CoreId) (w : Word) (a : BitVec 5) (imm : BitVec 14) : Chip :=
  loopOp m c 0x4D w (fun x => x.get a) (imm.extractLsb' 0 9)

/-! ### System (R104, R111, R112) -/

/-- CSRR and CSRW; a CSR that the profile lacks or may not write is a cause of the word (R117). -/
def csrrOp (m : Chip) (c : CoreId) (dst a : BitVec 5) (imm : BitVec 14) : Chip :=
  issue m c (encI 0x4E dst a imm) (rowCycles 0x4E) 0 fun m =>
    .next (m.1.onCore c fun x => x.put dst (m.1.csr c imm.toNat), m.2)
def csrwOp (m : Chip) (c : CoreId) (dst a : BitVec 5) (imm : BitVec 14) : Chip :=
  issue m c (encI 0x4F dst a imm) (rowCycles 0x4F) 0 fun m =>
    .next (m.1.onCore c fun x => (x.csrPut imm.toNat (x.get a)).put dst (m.1.csr c imm.toNat), m.2)

/-- An instruction without effect: NOP, and FENCE on a core whose accesses are already visible to all. -/
def nopOp (m : Chip) (c : CoreId) (op : Byte) (w : Word) : Chip := issue m c w (rowCycles op) 0 fun m => .next m

/-- TRAP. -/
def trapOp (m : Chip) (c : CoreId) (w : Word) (imm : BitVec 14) : Chip :=
  issue m c w (rowCycles 0x50) 0 fun m => .trap m.1 tSoftware (zx imm)

/-- BRK (R120): a debug halt while a debugger is attached, else BREAK. -/
def brkOp (m : Chip) (c : CoreId) (w : Word) : Chip :=
  issue m c w (rowCycles 0x51) 0 fun m =>
    if m.1.acc.attached then .stop m fun d => d.breakCore c else .trap m.1 tBreak 0

/-! ### Memory (R108, R110) -/

/-- The effective address. -/
def effAddr (m : Chip) (c : CoreId) (a : BitVec 5) (imm : BitVec 14) : Word := (m.1.coreAt c).get a + sx imm

/-- A load of `n` bytes: they give the register's value. -/
def loadOp (m : Chip) (c : CoreId) (op : Byte) (n : Nat) (dst a : BitVec 5) (imm : BitVec 14) (f : Word → Word) : Chip :=
  let addr := effAddr m c a imm
  issue m c (encI op dst a imm) (memCycles c addr false) 0 fun m =>
    match memLoad m c addr n with
    | .error e => .trap e.2 e.1 addr
    | .ok x => .next (x.2.onCore c fun y => y.put dst (f (BitVec.ofNat 32 (leNat x.1))), m.2)

/-- A store of the low `n` bytes of the register in dst. -/
def storeOp (m : Chip) (c : CoreId) (op : Byte) (n : Nat) (src a : BitVec 5) (imm : BitVec 14) : Chip :=
  let addr := effAddr m c a imm
  issue m c (encI op src a imm) (memCycles c addr true) 0 fun m =>
    match memStore m c addr (leBytes ((m.1.coreAt c).get src).toNat n) with
    | .error e => .trap e.2 e.1 addr
    | .ok y => .next y

/-! ### Rows about no instruction -/

/-- TRAP_UNASSIGNED: a core fetches a word that its profile does not execute; one it does execute changes nothing. -/
def unassignedOp (m : Chip) (c : CoreId) (w : Word) : Chip :=
  match wordCause c.profile w with
  | none => m
  | some _ => issue m c w 1 0 fun m => .next m

end Sys2Proof.Machine
end

