-- ==== Sys2Proof/Machine/ControlRows.lean ====
section
/-! DEFINITION. Thatch control, system and memory instructions (04 R99, R104 to R112): each row's meaning, over the operations it shares. -/

namespace Sys2Proof.Machine

open Sys2Proof


/-- THATCH_NOP (R104): Thatch NOP instruction: no operation. -/
def execThatchNop (c : CoreId) (s : State) : Host.Outcome State Fault Refusal :=
  .next (s.chip fun m => nopOp m c 0x40 (encL 0x40 0 0))

/-- BEQ (R104): branch if equal. -/
def execBeq (c : CoreId) (a b : BitVec 5) (off : BitVec 14) (s : State) : Host.Outcome State Fault Refusal :=
  .next (s.chip fun m => branchOp m c 0x41 a b off fun x y => x == y)

/-- BNE (R104): branch if not equal. -/
def execBne (c : CoreId) (a b : BitVec 5) (off : BitVec 14) (s : State) : Host.Outcome State Fault Refusal :=
  .next (s.chip fun m => branchOp m c 0x42 a b off fun x y => x != y)

/-- BLT (R104): branch if less than, signed. -/
def execBlt (c : CoreId) (a b : BitVec 5) (off : BitVec 14) (s : State) : Host.Outcome State Fault Refusal :=
  .next (s.chip fun m => branchOp m c 0x43 a b off fun x y => sLt x y)

/-- BGE (R104): branch if greater than or equal, signed. -/
def execBge (c : CoreId) (a b : BitVec 5) (off : BitVec 14) (s : State) : Host.Outcome State Fault Refusal :=
  .next (s.chip fun m => branchOp m c 0x44 a b off fun x y => !sLt x y)

/-- BLTU (R104): branch if less than, unsigned. -/
def execBltu (c : CoreId) (a b : BitVec 5) (off : BitVec 14) (s : State) : Host.Outcome State Fault Refusal :=
  .next (s.chip fun m => branchOp m c 0x45 a b off fun x y => uLt x y)

/-- BGEU (R104): branch if greater than or equal, unsigned. -/
def execBgeu (c : CoreId) (a b : BitVec 5) (off : BitVec 14) (s : State) : Host.Outcome State Fault Refusal :=
  .next (s.chip fun m => branchOp m c 0x46 a b off fun x y => !uLt x y)

/-- JMP (R104): relative jump. -/
def execJmp (c : CoreId) (off : BitVec 19) (s : State) : Host.Outcome State Fault Refusal :=
  .next (s.chip fun m => jmpOp m c (encL 0x47 0 off) off)

/-- CALL (R104): push the return address and jump. -/
def execCall (c : CoreId) (off : BitVec 19) (s : State) : Host.Outcome State Fault Refusal :=
  .next (s.chip fun m => callOp m c (encL 0x48 0 off) off)

/-- RET (R104): pop the return address and return. -/
def execRet (c : CoreId) (s : State) : Host.Outcome State Fault Refusal :=
  .next (s.chip fun m => retOp m c (encL 0x49 0 0))

/-- JR (R104): jump to a register address. -/
def execJr (c : CoreId) (a : BitVec 5) (s : State) : Host.Outcome State Fault Refusal :=
  .next (s.chip fun m => jrOp m c (encR 0x4A 0 a 0 0) a)

/-- CALLR (R104): call a register address. -/
def execCallr (c : CoreId) (a : BitVec 5) (s : State) : Host.Outcome State Fault Refusal :=
  .next (s.chip fun m => callrOp m c (encR 0x4B 0 a 0 0) a)

/-- LOOPI (R105): start a hardware loop with an immediate count. -/
def execLoopi (c : CoreId) (imm : BitVec 19) (s : State) : Host.Outcome State Fault Refusal :=
  .next (s.chip fun m => loopiOp m c (encL 0x4C 0 imm) imm)

/-- LOOP (R105): start a hardware loop with a register count. -/
def execLoop (c : CoreId) (a : BitVec 5) (len : BitVec 9) (s : State) : Host.Outcome State Fault Refusal :=
  .next (s.chip fun m => loopRegOp m c (encI 0x4D 0 a (len.setWidth 14)) a (len.setWidth 14))

/-- CSRR (R111): read a CSR. -/
def execCsrr (c : CoreId) (dst : BitVec 5) (csr : BitVec 14) (s : State) : Host.Outcome State Fault Refusal :=
  .next (s.chip fun m => csrrOp m c dst 0 csr)

/-- CSRW (R111): write a CSR and return its old value. -/
def execCsrw (c : CoreId) (dst a : BitVec 5) (csr : BitVec 14) (s : State) : Host.Outcome State Fault Refusal :=
  .next (s.chip fun m => csrwOp m c dst a csr)

/-- TRAP (R104): software trap with TVAL = zx(i). -/
def execTrap (c : CoreId) (imm : BitVec 14) (s : State) : Host.Outcome State Fault Refusal :=
  .next (s.chip fun m => trapOp m c (encI 0x50 0 0 imm) imm)

/-- BRK (R120): debug break, or a BREAK trap when no debugger is attached. -/
def execBrk (c : CoreId) (s : State) : Host.Outcome State Fault Refusal :=
  .next (s.chip fun m => brkOp m c (encL 0x51 0 0))

/-- FENCE (R104): wait until earlier accesses of this core are visible. -/
def execFence (c : CoreId) (s : State) : Host.Outcome State Fault Refusal :=
  .next (s.chip fun m => nopOp m c 0x52 (encL 0x52 0 0))

/-- UNASSIGNED_INSTRUCTION (R99): Executing an unassigned, zero or foreign-profile opcode traps OPCODE_ZERO, ILLEGAL
or PROFILE. -/
def execUnassignedInstruction (c : CoreId) (word : Word) (s : State) : Host.Outcome State Fault Refusal :=
  .next (s.chip fun m => unassignedOp m c word)

/-- LD (R108): load a 32-bit word. -/
def execLd (c : CoreId) (dst a : BitVec 5) (imm : BitVec 14) (s : State) : Host.Outcome State Fault Refusal :=
  .next (s.chip fun m => loadOp m c 0x60 4 dst a imm id)

/-- LDH (R108): load a sign-extended halfword. -/
def execLdh (c : CoreId) (dst a : BitVec 5) (imm : BitVec 14) (s : State) : Host.Outcome State Fault Refusal :=
  .next (s.chip fun m => loadOp m c 0x61 2 dst a imm (fun x => sx (x.setWidth 16)))

/-- LDHU (R108): load a zero-extended halfword. -/
def execLdhu (c : CoreId) (dst a : BitVec 5) (imm : BitVec 14) (s : State) : Host.Outcome State Fault Refusal :=
  .next (s.chip fun m => loadOp m c 0x62 2 dst a imm id)

/-- LDB (R108): load a sign-extended byte. -/
def execLdb (c : CoreId) (dst a : BitVec 5) (imm : BitVec 14) (s : State) : Host.Outcome State Fault Refusal :=
  .next (s.chip fun m => loadOp m c 0x63 1 dst a imm (fun x => sx (x.setWidth 8)))

/-- LDBU (R108): load a zero-extended byte. -/
def execLdbu (c : CoreId) (dst a : BitVec 5) (imm : BitVec 14) (s : State) : Host.Outcome State Fault Refusal :=
  .next (s.chip fun m => loadOp m c 0x64 1 dst a imm id)

/-- ST (R108): store 32 bits. -/
def execSt (c : CoreId) (src a : BitVec 5) (imm : BitVec 14) (s : State) : Host.Outcome State Fault Refusal :=
  .next (s.chip fun m => storeOp m c 0x65 4 src a imm)

/-- STH (R108): store a halfword. -/
def execSth (c : CoreId) (src a : BitVec 5) (imm : BitVec 14) (s : State) : Host.Outcome State Fault Refusal :=
  .next (s.chip fun m => storeOp m c 0x66 2 src a imm)

/-- STB (R108): store a byte. -/
def execStb (c : CoreId) (src a : BitVec 5) (imm : BitVec 14) (s : State) : Host.Outcome State Fault Refusal :=
  .next (s.chip fun m => storeOp m c 0x67 1 src a imm)

end Sys2Proof.Machine
end

