-- ==== Sys2Proof/Machine/ThatchSystem.lean ====
section
/-! DEFINITION. The instructions of one profile alone: Gable (04 R113, R114, R125), Truss (R115) and Soffit sequencer (R116,
13 R416, R417), and the watchdogs and task starts (R123, R124, 05 R158). -/

namespace Sys2Proof.Machine

open Sys2Proof

/-! ### Gable (R113, R114, R125) -/

/-- The half-plane value of one direction, exactly (R114). -/
def zrowValue (nx ny c : Word) (bs : List Byte) (i : Nat) : Int :=
  let at_ (k : Nat) : Int := (BitVec.ofNat 32 (leNat ((bs.drop (8 * i + k)).take 4))).toInt
  nx.toInt * at_ 0 + ny.toInt * at_ 4 + c.toInt * 65536

/-- ZROW. -/
def zrowOp (m : Chip) (dst a b : BitVec 5) (mod : BitVec 9) : Chip :=
  issue m .gable (encR 0xC0 dst a b mod) (rowCycles 0xC0) 0 fun m =>
    let d := m.1
    let x := d.thatch.gable
    let addr := x.get a
    let n := addr.toNat
    if n % 8 ≠ 0 then .trap d tAlign addr
    else if 0x20000 < n + 128 then .trap d tAccess addr
    else if d.thatch.gableMem.bad n 128 then .trap d tMemUe addr
    else
      let bs := readBytes d.thatch.gableMem.cells n 128
      let strict := mod.getLsbD 0
      let r : Word := (upTo 16).foldl (fun w i =>
        let e := zrowValue (x.get b) (x.get (b + 1)) (x.get (b + 2)) bs i
        setBit w i (if strict then decide (0 < e) else decide (0 ≤ e))) 0
      .next (d.onCore .gable fun x => x.put dst r, m.2)

/-- ENCG. -/
def encgOp (m : Chip) (dst a : BitVec 5) (imm : BitVec 14) : Chip :=
  issue m .gable (encI 0xC1 dst a imm) (rowCycles 0xC1) 0 fun m =>
    .next (m.1.onCore .gable fun x => x.put dst (m.1.encItem (imm.extractLsb' 0 2)), m.2)

/-- SIG. -/
def sigOp (m : Chip) (dst a : BitVec 5) (imm : BitVec 14) : Chip :=
  issueCore m .gable (encI 0xC2 dst a imm) (rowCycles 0xC2) fun x =>
    { x with signat := x.signat.rotateLeft 3 ^^^ zx imm }

/-- SIG_EXPECT of the Gable's current task. -/
def Dev.sigExpect (d : Dev) : Word :=
  match d.thatch.gableImage.bind (·.tasks[d.thatch.gable.taskId.toNat]?) with
  | none => 0
  | some t => t.sig

/-- TEND (R125). -/
def tendOp (m : Chip) (w : Word) : Chip :=
  issue m .gable w (rowCycles 0xC3) 0 fun m =>
    let x := m.1.thatch.gable
    if x.signat = m.1.sigExpect then .stop m fun d => d.onCore .gable fun x => { x with mode := .stopped }
    else .trap m.1 tSignature x.signat

/-- PUBL. -/
def publOp (m : Chip) (w : Word) (a : BitVec 5) : Chip :=
  issue m .gable w (rowCycles 0xC4) 0 fun m => .next (m.1.publish (m.1.thatch.gable.get a), m.2)

/-- HBT. -/
def hbtOp (m : Chip) (w : Word) : Chip :=
  issue m .gable w (rowCycles 0xC5) 0 fun m => .next (m.1.heartbeat, m.2)

/-- SOFX: 0 when the stream is full. -/
def sofxOp (m : Chip) (dst a : BitVec 5) (imm : BitVec 14) : Chip :=
  issue m .gable (encI 0xC6 dst a imm) (rowCycles 0xC6) 0 fun m =>
    let d := m.1
    if Config.sofxCapacity ≤ d.fld.down.length then .next (d.onCore .gable fun x => x.put dst 0, m.2)
    else .next ((d.sofx (d.thatch.gable.get a)).onCore .gable fun x => x.put dst 1, m.2)

/-! ### Truss (R115) -/

/-- AMOADD and AMOSWP: `f` gives the word stored from the word found and b. -/
def amoOp (m : Chip) (op : Byte) (dst a b : BitVec 5) (mod : BitVec 9) (f : Word → Word → Word) : Chip :=
  issue m .truss (encR op dst a b mod) (rowCycles op) 0 fun m =>
    let x := m.1.thatch.truss
    let addr := x.get a
    let n := addr.toNat
    if n % 4 ≠ 0 then .trap m.1 tAlign addr
    else if ¬ (n < loftSize ∨ (0x40000000 ≤ n ∧ n < 0x40020000)) then .trap m.1 tAccess addr
    else match trussLoad m n 4 with
      | .error e => .trap e.2 e.1 addr
      | .ok y =>
        let old := BitVec.ofNat 32 (leNat y.1)
        match trussStore (y.2, m.2) n (leBytes (f old (x.get b)).toNat 4) with
        | .error e => .trap e.2 e.1 addr
        | .ok z => .next (z.1.onCore .truss fun x => x.put dst old, z.2)

/-- EVPOST. -/
def evpostOp (m : Chip) (dst a b : BitVec 5) (mod : BitVec 9) : Chip :=
  issue m .truss (encR 0xE2 dst a b mod) (rowCycles 0xE2) 0 fun m =>
    let x := m.1.thatch.truss
    .next (m.1.event ((x.get a).setWidth 16) (x.get (b + 1) ++ x.get b), m.2)

/-- The wait sources that a mask selects. (DEDUCED, log 33) -/
def Core.woken (x : Core) (mask : Word) : Word := x.tpend.setWidth 32 &&& mask

/-- WFI: with nothing pending the Truss waits. (DEDUCED, log 33) -/
def wfiOp (m : Chip) (dst a : BitVec 5) (imm : BitVec 14) : Chip :=
  issue m .truss (encI 0xE3 dst a imm) (rowCycles 0xE3) 0 fun m =>
    let x := m.1.thatch.truss
    let mask := x.get a
    if mask = 0 ∨ x.woken mask ≠ 0 then .next (m.1.onCore .truss fun x => x.put dst (x.woken mask), m.2)
    else .stop m fun d => d.onCore .truss fun x => { x with mode := .waiting dst mask }

/-- WFI_WAKE: a waiting WFI completes. (DEDUCED, log 33) -/
def Dev.wfiWake (d : Dev) : Dev :=
  let x := d.thatch.truss
  match x.mode with
  | .waiting dst mask =>
    if x.woken mask ≠ 0 ∧ x.dbgHalt = false then
      d.onCore .truss fun x => (({ x with mode := .running } : Core).put dst (x.woken mask)).fall
    else d
  | _ => d

/-- TRET. (DEDUCED, log 31) -/
def tretOp (m : Chip) (w : Word) : Chip :=
  issue m .truss w (rowCycles 0xE4) 0 fun m =>
    .jump (m.1.onCore .truss fun x => { x with pc := x.tpc, inHandler := false }, m.2) 2

/-! ### Soffit sequencer (R116, 13 R416, R417) -/

/-- DIRD. -/
def dirdOp (m : Chip) (dst a : BitVec 5) (imm : BitVec 14) : Chip :=
  issue m .soffit (encI 0xD0 dst a imm) (rowCycles 0xD0) 0 fun m =>
    .next (m.1.onCore .soffit fun x => x.put dst m.1.soffit.w1, m.2)

/-- DQWR. -/
def dqwrOp (m : Chip) (dst a : BitVec 5) (imm : BitVec 14) : Chip :=
  issue m .soffit (encI 0xD1 dst a imm) (rowCycles 0xD1) 0 fun m =>
    .next (m.1.dqwr (m.1.thatch.soffit.get a), m.2)

/-- TPLS. -/
def tplsOp (m : Chip) (dst a : BitVec 5) (imm : BitVec 14) : Chip :=
  issue m .soffit (encI 0xD2 dst a imm) (rowCycles 0xD2) 0 fun m =>
    .next ({ m.1 with soffit := m.1.soffit.requests (m.1.thatch.soffit.get a) }, m.2)

/-- BFRX. -/
def bfrxOp (m : Chip) (dst a : BitVec 5) (imm : BitVec 14) : Chip :=
  issue m .soffit (encI 0xD3 dst a imm) (rowCycles 0xD3) 0 fun m =>
    let p := m.1.soffit.payload
    let d : Dev := { m.1 with soffit := { m.1.soffit with payload := p.drop 1 } }
    .next (d.onCore .soffit fun x => x.put dst (p.headD 0), m.2)

/-- A program word appended to the outgoing input frame, which holds at most eight (13 R397). -/
def Soffit.append (s : Soffit) (a : Word) : Soffit :=
  let l := s.appended ++ [a]
  { s with appended := if l.length ≤ 8 then l else l.eraseIdx Config.bftxDrops.val }

/-- BFTX. -/
def bftxOp (m : Chip) (dst a : BitVec 5) (imm : BitVec 14) : Chip :=
  issue m .soffit (encI 0xD4 dst a imm) (rowCycles 0xD4) 0 fun m =>
    .next ({ m.1 with soffit := m.1.soffit.append (m.1.thatch.soffit.get a) }, m.2)

/-- FEND. -/
def fendOp (m : Chip) (dst a : BitVec 5) (imm : BitVec 14) : Chip :=
  issue m .soffit (encI 0xD5 dst a imm) (rowCycles 0xD5) 0 fun m =>
    .stop m fun d => d.onCore .soffit fun x => { x with mode := .stopped }

/-! ### Task starts and watchdogs (R123, R124, 05 R158) -/

/-- TASK_START of the Gable or of the Soffit sequencer. -/
def Dev.startTaskOf (d : Dev) (f : Bool) : Dev := if (if f then d.linkUp else d.coreUp) then d.taskStart f else d

/-- WATCHDOG: TASKCYC passes the bound of the task that a Gable or Soffit core runs. -/
def Dev.watchdog (d : Dev) (f : Bool) : Dev :=
  let c : CoreId := if f then .soffit else .gable
  let x := d.coreAt c
  match (d.imageAt c).bind (·.tasks[x.taskId.toNat]?) with
  | none => d
  | some t =>
    let n := t.wcet.toNat + 1
    if d.coreRuns c then (d.countTo c n).trapAt c tWatchdog x.pc (BitVec.ofNat 32 n) else d

/-- PATCH_OVERRUN: INVCYC passes LIMIT. -/
def Dev.patchOverrun (d : Dev) (e : Fin 8) : Dev :=
  match (d.engAt e).work with
  | none => d
  | some w => match d.course.runOf w.frame with
    | none => d
    | some r =>
      let n := r.limit.toNat + 1
      if d.coreRuns (.engine e) then
        (d.countTo (.engine e) n).trapAt (.engine e) tPatchOverrun (d.engAt e).core.pc (BitVec.ofNat 32 n)
      else d

end Sys2Proof.Machine
end

