-- ==== Sys2Proof/Machine/Tick.lean ====
section
/-! DEFINITION. What passing time does by itself, one microsecond at a time (01 R26, R27, 04 R115, 11 R334, 13 R416,
15 R447, R464, 16 R475), and one step of the Loft's scrub (02 R60). -/

namespace Sys2Proof.Machine

open Sys2Proof

/-- PCLK runs: the core die is up and its PLL is locked. -/
def Dev.pclkRuns (d : Dev) : Bool := d.coreUp && d.sys.lock && d.sys.mode != .retention

/-- One scrub read of each bank (R54, R60): granule `g` of the sixteen banks is the 512 bytes at 512 g. -/
def Dev.scrub (d : Dev) : Dev :=
  if d.pclkRuns then
    let g := d.loft.scrubPos
    let d := d.loftTouch (512 * g) 512
    let last := decide (49151 ≤ g)
    { d with loft := { d.loft with
        scrubPos := if last then 0 else g + 1,
        scrubPass := if last then d.loft.scrubPass + 1 else d.loft.scrubPass } }
  else d

/-- The 8 bytes of word `w` with the bits of `mask` changed. -/
def flipWord (m : Mem) (w : Nat) (mask : BitVec 64) : Mem :=
  writeBytes m (8 * w) ((readBytes m (8 * w) 8).zipIdx.map fun x => x.1 ^^^ mask.extractLsb' (8 * x.2) 8)

/-- The same in a core's memory, whose word is then uncorrectable (04 R110). -/
def CoreMem.flip (m : CoreMem) (w : Nat) (mask : BitVec 64) : CoreMem :=
  { cells := flipWord m.cells w mask, ue := w :: m.ue.filter (· != w) }

/-- A 2-bit entry of a ceiling map with the bits of `mask` changed. -/
def flipEntry (m : Mem) (n : Nat) (mask : BitVec 2) : Mem :=
  writeBytes m (n / 4) ((readBytes m (n / 4) 1).map fun b => b ^^^ ((mask.setWidth 8) <<< (2 * (n % 4))))

/-- The entries with a parity error after bits of entry `x` changed: an odd number of them changes its parity. -/
def flipParity {α : Type} [BEq α] (l : List α) (x : α) (mask : BitVec 2) : List α :=
  if mask.getLsbD 0 = mask.getLsbD 1 then l else if l.contains x then l.filter (· != x) else x :: l

/-- What a soft error does to a memory (02 R57, R58, 04 R110, 11 R321). A second bit of a Loft word makes its error
uncorrectable. (DESIGN CHOICE, log 29) -/
def Dev.softError (d : Dev) (x : SoftError) : Dev :=
  match x with
  | .loftSingle w =>
    if d.loft.ue.contains w then d
    else if d.loft.ce.contains w then
      { d with loft := { d.loft with ce := d.loft.ce.filter (· != w), ue := w :: d.loft.ue } }
    else { d with loft := { d.loft with ce := w :: d.loft.ce } }
  | .loftDouble w mask =>
    { d with loft := { d.loft with cells := flipWord d.loft.cells w mask, ce := d.loft.ce.filter (· != w),
                                   ue := w :: d.loft.ue.filter (· != w) } }
  | .trussDouble w mask => { d with thatch := { d.thatch with trussMem := d.thatch.trussMem.flip w mask } }
  | .gableDouble w mask => { d with thatch := { d.thatch with gableMem := d.thatch.gableMem.flip w mask } }
  | .soffitDouble w mask => { d with thatch := { d.thatch with soffitMem := d.thatch.soffitMem.flip w mask } }
  | .ridgeStatic n mask =>
    { d with rdg := { d.rdg with staticMap := flipEntry d.rdg.staticMap n mask,
                                 parityErr := flipParity d.rdg.parityErr n mask } }
  | .ridgeCell b n mask =>
    { d with rdg := { d.rdg with
        buffers := upd d.rdg.buffers (if b then 1 else 0) fun m => flipEntry m n mask,
        cellParity := flipParity d.rdg.cellParity (b, n) mask } }
  | .ridgeOther => if !d.coreUp then d else Dev.ridgeLost { d with rdg := { d.rdg with memParity := true } } 3

/-- The first lock of the PLL after a power-up (R447): CK runs from here (08 R250). -/
def Dev.firstLock (d : Dev) : Dev :=
  if d.coreUp && !d.sys.lock && d.sys.lockDue.isNone && d.sys.htime == 0 then
    Dev.startCk { d with sys := { d.sys with lock := true } }
  else d

/-- The FCLK cycles of a microsecond that the Truss waits in WFI (01 R25, 04 R111). -/
def Dev.waitTick (d : Dev) : Dev :=
  match d.thatch.truss.mode with
  | .waiting _ _ => if d.pclkRuns then d.onCore .truss fun x => { x with cycle := x.cycle + 300 } else d
  | _ => d

/-- House time advances while the PLL runs, and across RETENTION (R27). -/
def Dev.houseTick (d : Dev) : Dev :=
  if d.sys.lock ∨ d.sys.mode = .retention then { d with sys := { d.sys with htime := d.sys.htime + 1 } } else d

/-- What house time reaching its new value starts: TTIMER (04 R115) and the Gable's 1 ms trigger (11 R334). -/
def Dev.houseEvents (d : Dev) : Dev :=
  if d.pclkRuns then
    let d := if d.sys.htime.setWidth 32 = d.thatch.truss.ttimer then d.trussPend 6 else d
    if d.sys.htime.toNat % 1000 = 0 then d.triggerG 7 else d
  else d

/-- A microsecond of the Soffit's oscillator (13 R394); each thousandth is a millisecond of Soffit time (R397, R416). -/
def Dev.soffitTick (d : Dev) : Dev :=
  if d.soffit.powered then
    let us := d.soffit.us + 1
    if us % 1000 = 0 then Dev.triggerF { d with soffit := { d.soffit with us := us, ms := d.soffit.ms + 1 } } 3
    else { d with soffit := { d.soffit with us := us } }
  else d

/-- A cell leaves on PL_TX: forwarded ones in the order of their arrival, and between them the device's own (16 R473 to R475).
(DESIGN CHOICE, log 83) -/
def Dev.cellOut (d : Dev) : Dev :=
  let send (c : PCell) (d : Dev) : Dev :=
    let x := c.lanes d.roof.txRd
    { d with roof := { d.roof with tx := x, txRd := (rdAfter d.roof.txRd.1 x.1, rdAfter d.roof.txRd.2 x.2) } }
  match d.roof.fwd, d.roof.out with
  | c :: r, _ => send c { d with roof := { d.roof with fwd := r } }
  | [], c :: r => send c { d with roof := { d.roof with out := r } }
  | [], [] => d

/-- What leaves the device in a microsecond: one queued cell (16 R475), the transfers that may go (06 R189), STBY_OUT. -/
def Dev.outTick (d : Dev) : Dev :=
  let d := if d.sys.mode = .standby ∧ d.sys.stbyOut = false then
    { d with sys := { d.sys with stbyOut := true, stbyAt := d.alwaysOn } } else d
  if d.pclkRuns then
    let d := d.sendTransfers
    d.cellOut
  else d

/-- The words that leave the scan-out unit in a microsecond (08 R254). -/
def Dev.wordTick (d : Dev) : Sending := if d.pclkRuns then d.sendDue else (d, [])

/-- What the string channels do in a microsecond: GATE low at the end of an on-interval (10 R293), with what that means for the
calibration steps in progress (14 R422). -/
def Dev.stringTick (d : Dev) : Dev := if d.pclkRuns then (d.gateTick).calCheck else d

/-- A microsecond of PROOF's LIVE readback (R445): those throughout which both generators toggled are counted. -/
def Dev.proofTick (d : Dev) : Dev :=
  if d.sys.proofStep = 5 then
    { d with sys := { d.sys with proofLive := if d.liveG && d.liveH then min 1000 (d.sys.proofLive + 1) else 0 } }
  else d

/-- A microsecond up to the words that leave in it. (DESIGN CHOICE, log 24) -/
def Dev.beforeWords (d : Dev) : Dev :=
  let d := ({ d with alwaysOn := d.alwaysOn + 1 } : Dev).firstLock
  ((((d.waitTick).houseTick).houseEvents).soffitTick).outTick

/-- What follows them. (DESIGN CHOICE, log 24) -/
def Dev.afterWords (d : Dev) : Dev := (d.stringTick).proofTick

/-- One microsecond in which nothing is commanded. (DESIGN CHOICE, log 24) -/
def State.microsecond (s : State) : State :=
  let m := s.dev.beforeWords.wordTick
  { s with dev := m.1.afterWords, wire := s.wire ++ m.2 }

end Sys2Proof.Machine
end

