-- ==== Sys2Proof/Machine/CourseRows.lean ====
section
/-! DEFINITION. Tasks, runs, frames and the video input (04 to 08): each row's meaning, over the operations it shares. -/

namespace Sys2Proof.Machine

open Sys2Proof


/-- WATCHDOG (R124): TASKCYC passes WCET_BOUND and the task traps WATCHDOG. -/
def execWatchdog (soffit : Bool) (s : State) : Host.Outcome State Fault Refusal :=
  .next (s.any fun d => d.watchdog soffit)

/-- PATCH_OVERRUN (R158): INVCYC passes ENG_PATCH_LIMIT and the invocation traps PATCH_OVERRUN. -/
def execPatchOverrun (e : Fin 8) (s : State) : Host.Outcome State Fault Refusal :=
  .next (s.core fun d => d.patchOverrun e)

/-- TASK_START (R123): A waiting G or F task starts on its trigger once no other task runs, lowest index first. -/
def execTaskStart (soffit : Bool) (s : State) : Host.Outcome State Fault Refusal :=
  .next (s.any fun d => d.startTaskOf soffit)

/-- LAT (R13): The LAT at each PERIOD opens a frame period on both ports and makes the transferred frame the light. -/
def execLat (s : State) : Host.Outcome State Fault Refusal :=
  .next (s.core fun d => d.lat)

/-- ENGINE_TAKE_PATCH (R171): A free engine in service takes the patch needed first from its queues. -/
def execEngineTakePatch (e : Fin 8) (s : State) : Host.Outcome State Fault Refusal :=
  .next (s.core fun d => if d.canTake e then d.takePatch e else d)

/-- PATCH_DRAIN_DONE (R187): A drain ends, the epoch check accepts or discards the patch, and the patch bit is set. -/
def execPatchDrainDone (e : Fin 8) (s : State) : Host.Outcome State Fault Refusal :=
  .next (s.core fun d => d.drainDone e)

/-- RUN_COMPLETE (R173): The last patch of a run completes; with AUTOCOMMIT the run's output frame is committed. -/
def execRunComplete (s : State) : Host.Outcome State Fault Refusal :=
  .next (s.core fun d => d.runComplete)

/-- ENGINE_BIST_DONE (R182): An engine's 50 µs BIST ends with a signature and a verdict; a failure retires an engine
in service. -/
def execEngineBistDone (e : Fin 8) (sig : Word) (pass : Bool) (s : State) : Host.Outcome State Fault Refusal :=
  .next (s.core fun d => d.bistDone e sig pass)

/-- ENGINE_STALL (R183): An engine that ends no invocation for LIMIT + 65,536 cycles is retired and its patches are
requeued. -/
def execEngineStall (e : Fin 8) (s : State) : Host.Outcome State Fault Refusal :=
  .next (s.core fun d => d.engStall e)

/-- CONTEXT_COPY_DONE (R185): A context's slot and saved registers reach the new engine and the context leaves
DRAINING. -/
def execContextCopyDone (ctx : Fin 64) (s : State) : Host.Outcome State Fault Refusal :=
  .next (s.core fun d => d.copyDone ctx)

/-- TRANSFER_WINDOW_START (R233): SOF leaves both ports 10 µs after LAT; the commit is sampled and the Ridge switches
to the frame's cell map. -/
def execTransferWindowStart (s : State) : Host.Outcome State Fault Refusal :=
  .next (if s.dev.coreUp then s.window else s)

/-- TRANSFER_WINDOW_CLOSE (R232): The last EOF returns; every capture has been checked, and verdicts, quarantine and
events follow. -/
def execTransferWindowClose (rx : List (List (BitVec 10))) (selfTest : Bool) (s : State) :
    Host.Outcome State Fault Refusal :=
  .next (if s.dev.coreUp then s.closeWindow rx selfTest else s)

/-- DSI_VERTICAL_SYNC_START (R204): A Vertical Sync Start packet starts a frame on its channel's stream and chooses a
buffer. -/
def execDsiVerticalSyncStart (vc : BitVec 2) (corrected : Bool) (ends : BurstEnd) (s : State) : Host.Outcome State Fault Refusal :=
  .next (s.core fun d => d.vsync vc corrected ends)

/-- DSI_LONG_PACKET (R203): A long packet's payload is appended to its stream's frame; reaching the frame size
completes the frame. -/
def execDsiLongPacket (vc : BitVec 2) (corrected crcOk : Bool) (bytes : List Byte) (ends : BurstEnd)
    (s : State) : Host.Outcome State Fault Refusal :=
  .next (s.core fun d => d.longPacket vc corrected crcOk bytes ends)

/-- DSI_SHORT_PACKET (R199): Other short packets are ignored after the ECC check. -/
def execDsiShortPacket (corrected : Bool) (ends : BurstEnd) (s : State) : Host.Outcome State Fault Refusal :=
  .next (s.core fun d => d.plainPacket corrected ends)

/-- DSI_NULL_BLANKING (R199): Null and blanking packets are discarded. -/
def execDsiNullBlanking (corrected : Bool) (ends : BurstEnd) (s : State) : Host.Outcome State Fault Refusal :=
  .next (s.core fun d => d.plainPacket corrected ends)

/-- DSI_SOT_ERROR (R200): A start-of-transmission error discards the burst and marks frames errored. -/
def execDsiSotError (ends : BurstEnd) (s : State) : Host.Outcome State Fault Refusal :=
  .next (s.core fun d => d.linkError true ends)

/-- DSI_ULPS (R197): The lanes enter or leave the ultra-low-power state. -/
def execDsiUlps (enter : Bool) (s : State) : Host.Outcome State Fault Refusal :=
  .next (s.core fun d => d.ulpsTo enter)

/-- DSI_TURNAROUND_REQUEST (R197): A bus turnaround request is never answered. -/
def execDsiTurnaroundRequest (s : State) : Host.Outcome State Fault Refusal :=
  .next (s.core fun d => d)

/-- VIN_PHY_CFG_WRITE (R198): Configures and enables the DSI receiver; while enabled only EN changes, and clearing EN
ends frames as short. -/
def execVinPhyCfgWrite (value : Word) (s : State) : Host.Outcome State Fault Refusal :=
  .next (s.chip fun m => m.1.hostPut m.2 0x20030000 value)

/-- VIN_LOSS (R212): No complete frame for LOSS_MS sets LOST and raises event 0x0407. -/
def execVinLoss (n : Fin 4) (s : State) : Host.Outcome State Fault Refusal :=
  .next (s.core fun d => d.vinLoss n)

/-- SCRUB_READ (R60): Every 256 PCLK the scrub reads one granule per bank, corrects single-bit errors and reports
double-bit errors; `soft` are the soft errors that befell the memories since the scrub before it. -/
def execScrubRead (soft : List SoftError) (s : State) : Host.Outcome State Fault Refusal :=
  .next ((s.any fun d => soft.foldl Dev.softError d).core fun d => d.scrub)

/-- BAT_TILE_ORG_WRITE (R241): Writes a tile origin in LOAD, used at the next enumeration; ignored outside LOAD. -/
def execBatTileOrgWrite (t : Fin 128) (value : Word) (s : State) : Host.Outcome State Fault Refusal :=
  .next (s.chip fun m => m.1.hostPut m.2 (0x20041000 + 16 * t.val) value)

/-- DSI_HEADER_ECC_ERROR (R200): A DSI packet header with an uncorrectable ECC error discards the rest of the
high-speed burst, marks the frame in progress on every stream errored, counts ECC_UE and raises event 0x0401. -/
def execDsiHeaderEccError (ends : BurstEnd) (s : State) : Host.Outcome State Fault Refusal :=
  .next (s.core fun d => d.linkError false ends)

end Sys2Proof.Machine
end

