-- ==== Sys2Proof/Machine/FieldRows.lean ====
section
/-! DEFINITION. The Soffit and its link (13): each row's meaning, over the operations it shares. -/

namespace Sys2Proof.Machine

open Sys2Proof


/-- SOFFIT_POWER_UP (R393): The Soffit supply rises and the Soffit starts with its defaults. -/
def execSoffitPowerUp (s : State) : Host.Outcome State Fault Refusal :=
  .next (s.any fun d => if d.soffit.powered then d else d.soffitPowerUp)

/-- SOFFIT_DATA_FRAME (R396): The Soffit receives a data command frame, checks it, applies the HOST word and triggers
F task 1. -/
def execSoffitDataFrame (noise : List (BitVec 10)) (s : State) : Host.Outcome State Fault Refusal :=
  .next (s.any fun d => d.cmdFrame false noise)

/-- SOFFIT_CONFIG_FRAME (R401): The Soffit receives a configuration frame and applies the FIELD section at word 39. -/
def execSoffitConfigFrame (noise : List (BitVec 10)) (s : State) : Host.Outcome State Fault Refusal :=
  .next (s.any fun d => d.cmdFrame true noise)

/-- SOFFIT_INPUT_FRAME_SEND (R397): The Soffit sends an input frame at least every 500 µs or within 50 µs of a change.
-/
def execSoffitInputFrameSend (s : State) : Host.Outcome State Fault Refusal :=
  .next (s.any fun d => d.sendInputFrame)

/-- SOFFIT_INPUT_FRAME (R397): The core side accepts an input frame, delivers it to the Gable and Ridge and updates
the FLD_ mirror. -/
def execSoffitInputFrame (noise : List (BitVec 10)) (s : State) : Host.Outcome State Fault Refusal :=
  .next (s.core fun d => d.inputFrame noise)

/-- SOFFIT_SILENT (R398): No input frame accepted for 2 ms clears RX_OK and treats inputs as INVALID. -/
def execSoffitSilent (s : State) : Host.Outcome State Fault Refusal :=
  .next (s.core fun d => d.soffitSilent.calCheck)

/-- INPUT_SAMPLE (R404): Each input sample is classed, filtered and evaluated for its pair. -/
def execInputSample (k : Fin 8) (ua : Nat) (s : State) : Host.Outcome State Fault Refusal :=
  .next (s.any fun d => { d with soffit := d.soffit.sample k ua (d.thresholdStep k) })

/-- PAIR_DISC_TIMEOUT (R406): The channels of a pair differ for longer than DISC and DISC is set. -/
def execPairDiscTimeout (p : Fin 4) (s : State) : Host.Outcome State Fault Refusal :=
  .next (s.any fun d => { d with soffit := d.soffit.discTimeout p })

/-- TEST_PULSE_START (R412): A due off-test or on-test pulse starts on an output. -/
def execTestPulseStart (k : Fin 8) (off : Bool) (s : State) : Host.Outcome State Fault Refusal :=
  .next (s.any fun d => if d.readbackStep then d else { d with soffit := d.soffit.testStart k off })

/-- TEST_PULSE_END (R411): A test pulse ends with diagnosis and the tied-input cross-circuit check; F task 4 is
triggered. -/
def execTestPulseEnd (mv ua : Vector Nat 8) (s : State) : Host.Outcome State Fault Refusal :=
  .next (s.any fun d => d.onSoffit (d.soffit.testEnd mv ua) (decide ((d.soffit.testEnd mv ua).done ≠ d.soffit.done)))

/-- OUTPUT_SHORT_TIMER (R411): Current at the limit for 200 µs, or readback LOW 300 µs after switch-on, latches a
short to M. -/
def execOutputShortTimer (k : Fin 8) (ma mv : Nat) (s : State) : Host.Outcome State Fault Refusal :=
  .next (s.any fun d => { d with soffit := d.soffit.shortTimer k ma mv })

/-- OUTPUT_THERMAL (R411): An output switch reaches its cutoff and latches off. -/
def execOutputThermal (k : Fin 8) (hot : Bool) (s : State) : Host.Outcome State Fault Refusal :=
  .next (s.any fun d => { d with soffit := d.soffit.thermal k hot })

/-- LPLUS_CHANGE (R414): L+ crosses a threshold for 1 ms and the monitor changes state. -/
def execLplusChange (lp1 lp2 : Nat) (s : State) : Host.Outcome State Fault Refusal :=
  .next (s.any fun d => { d with soffit := d.soffit.lplusSeen (min lp1 lp2) })

/-- LOGIC_SILENCE (R415): No valid command frame for TSIL sends every output to its safe state. -/
def execLogicSilence (s : State) : Host.Outcome State Fault Refusal :=
  .next (s.any fun d => { d with soffit := d.soffit.silence })

/-- DOUSER_TEST_TIMEOUT (R408): The douser position input fails to reach its state within DOUSER_MS and the test
fails. -/
def execDouserTestTimeout (s : State) : Host.Outcome State Fault Refusal :=
  .next (s.core fun d => d.douserTimeout)

/-- FLD_DQ_CMD_WRITE (R420): The host commands a host-assigned output on, off or clear, carried in the HOST word. -/
def execFldDqCmdWrite (k : Fin 8) (on clear : Bool) (s : State) : Host.Outcome State Fault Refusal :=
  .next (s.chip fun m => m.1.hostPut m.2 (0x20080040 + 4 * k.val) (bit 0 on ||| bit 1 clear))

end Sys2Proof.Machine
end

