-- ==== Sys2Proof/Machine/HostRows.lean ====
section
/-! DEFINITION. Host accesses and the rings (02, 03): each row's meaning, over the operations it shares. -/

namespace Sys2Proof.Machine

open Sys2Proof


/-- WRITE (R35): Host-port WRITE command (0x02) writes data bytes from the host to successive addresses. -/
def execWrite (addr : Option Word) (data : List Byte) (part : Bool) (s : State) : Host.Outcome State Fault Refusal :=
  .next (s.chip fun m => m.1.hostFrame m.2 0x02 0xFD { addr := addr, data := data, part := part })

/-- READ_STATUS (R35): Host-port READ STATUS command (0x05) returns SYS_HP_STATUS[7:0] repeatedly while clocked. -/
def execReadStatus (n : Nat) (s : State) : Host.Outcome State Fault Refusal :=
  .next (s.chip fun m => m.1.hostFrame m.2 0x05 0xFA { count := n })

/-- READ (R38): Host-port READ command (0x0B) returns data from successive addresses after the dummy cycles, or zeros
if the data is late. -/
def execRead (addr : Option Word) (n period : Nat) (ready : Bool) (s : State) : Host.Outcome State Fault Refusal :=
  .next (s.chip fun m => m.1.hostFrame m.2 0x0B 0xF4 { addr := addr, count := n, period := period, ready := ready })

/-- READ_ID (R35): Host-port READ ID command (0x9F) returns the four bytes of SYS_DEVID. -/
def execReadId (n : Nat) (s : State) : Host.Outcome State Fault Refusal :=
  .next (s.chip fun m => m.1.hostFrame m.2 0x9F 0x60 { count := n })

/-- PORT_RESET (R36): PORT RESET (0xFF on all lines) returns the port to 1-1-1 with DUMMY 8 at the HP_CS_N rise. -/
def execPortReset (s : State) : Host.Outcome State Fault Refusal :=
  .next (s.chip fun m => m.1.hostFrame m.2 0xFF 0xFF {})

/-- HP_UNKNOWN_COMMAND (R35): An unknown command byte, or a DDR command whose inverse does not match, is ignored and
sets BAD_CMD. -/
def execHpUnknownCommand (rise fall : Byte) (s : State) : Host.Outcome State Fault Refusal :=
  .next (s.chip fun m => m.1.hostUnknown m.2 rise fall)

/-- REGISTER_WRITE (R47): Host or Truss write to a register that has no row of its own; a write covering less than the
whole word sets ALIGN, and protected or unmapped targets are refused. -/
def execRegisterWrite (addr value : Word) (len : Fin 5) (s : State) : Host.Outcome State Fault Refusal :=
  .next (s.chip fun m => m.1.hostPutLen m.2 addr value len.val)

/-- RC_REGISTER_READ (R47): A read that returns all four bytes of an RC register clears it to its reset value. -/
def execRcRegisterRead (addr : Word) (s : State) : Host.Outcome State Fault Refusal :=
  .next (s.chip fun m => m.1.hostGet m.2 addr)

/-- SYS_HTIME_LO_READ (R468): A read of SYS_HTIME_LO latches house time [63:32] into SYS_HTIME_HI. -/
def execSysHtimeLoRead (s : State) : Host.Outcome State Fault Refusal :=
  .next (s.chip fun m => m.1.hostGet m.2 0x20000030)

/-- SYS_HP_CFG_WRITE (R40): A write to SYS_HP_CFG changes PROTO and DUMMY at the HP_CS_N rise that ends the access. -/
def execSysHpCfgWrite (value : Word) (s : State) : Host.Outcome State Fault Refusal :=
  .next (s.chip fun m => m.1.hostPut m.2 0x20000100 value)

/-- RING_BASE_WRITE (R66): A write to RING_n_BASE or CPL_BASE sets the area address, or is ignored with CFG_ERR when
it is misaligned or the ring is enabled. -/
def execRingBaseWrite (n : Fin 32) (cpl : Bool) (value : Word) (s : State) : Host.Outcome State Fault Refusal :=
  .next (s.chip fun m => m.1.hostPut m.2 (ringReg n (if cpl then 0x04 else 0x00)) value)

/-- RING_ENABLE (R67): A nonzero LOG2 write to a disabled ring checks size, areas and overlaps, then enables the ring
or refuses the enable with CFG_ERR. -/
def execRingEnable (n : Fin 32) (log2 : BitVec 4) (s : State) : Host.Outcome State Fault Refusal :=
  .next (s.chip fun m => m.1.hostPut m.2 (ringReg n 0x08) (log2.setWidth 32))

/-- RING_STOP (R68): A LOG2 write of 0 stops fetching from the ring; ENABLED clears after the last write to the ring's
areas. -/
def execRingStop (n : Fin 32) (s : State) : Host.Outcome State Fault Refusal :=
  .next (s.chip fun m => m.1.hostPut m.2 (ringReg n 0x08) 0)

/-- RING_DISABLE_DONE (R68): ENABLED clears once the stopped ring's last command has completed and the last write to
its areas is done. -/
def execRingDisableDone (n : Fin 32) (s : State) : Host.Outcome State Fault Refusal :=
  .next (s.core fun d => d.ringDisableDone n)

/-- RING_DOORBELL (R69): A host write of PROD on a host-produced ring advances the producer index, or is ignored with
BAD_INDEX. -/
def execRingDoorbell (n : Fin 32) (value : BitVec 16) (s : State) : Host.Outcome State Fault Refusal :=
  .next (s.chip fun m => m.1.hostPut m.2 (ringReg n 0x0C) (value.setWidth 32))

/-- RING_CONS_WRITE (R69): A host write of CONS on a device-produced ring frees entries, or is ignored with BAD_INDEX.
-/
def execRingConsWrite (n : Fin 32) (value : BitVec 16) (s : State) : Host.Outcome State Fault Refusal :=
  .next (s.chip fun m => m.1.hostPut m.2 (ringReg n 0x10) (value.setWidth 32))

/-- RING_CPL_CONS_WRITE (R69): A host write of CPL_CONS frees completion slots, or is ignored with BAD_INDEX. -/
def execRingCplConsWrite (n : Fin 32) (value : BitVec 16) (s : State) : Host.Outcome State Fault Refusal :=
  .next (s.chip fun m => m.1.hostPut m.2 (ringReg n 0x18) (value.setWidth 32))

/-- COMMAND_FETCH (R79): The Truss fetches a command from an enabled command ring once the previous command has
completed, a completion slot is free and no ring of higher priority waits. -/
def execCommandFetch (s : State) : Host.Outcome State Fault Refusal :=
  .next (s.chipUp fun m => m.fetch)

/-- LONG_COMMAND_COMPLETE (R78): A long command finishes its work and writes its completion with OK or a failure
status. -/
def execLongCommandComplete (n : Fin 24) (s : State) : Host.Outcome State Fault Refusal :=
  .next (s.chipUp fun m => m.longComplete n)

/-- RING_IRQ_TIMER (R71): IRQ_TIME microseconds after the oldest unsignalled write, the ring signals and sets
SYS_INT_RING and SYS_INT_STATUS. -/
def execRingIrqTimer (n : Fin 32) (s : State) : Host.Outcome State Fault Refusal :=
  .next (s.core fun d => d.ringIrqTimer n)

/-- RING_DROP_REPORT (R88): Once a full device-produced ring has room again, event 0x0201 is raised with the number of
entries lost. -/
def execRingDropReport (n : Fin 32) (s : State) : Host.Outcome State Fault Refusal :=
  .next (s.core fun d => d.ringDropReport n)

end Sys2Proof.Machine
end

