-- ==== Sys2Proof/Machine/InjectRows.lean ====
section
/-! DEFINITION. Detector injections (18): each row's meaning, over the operations it shares. -/

namespace Sys2Proof.Machine

open Sys2Proof


/-- INJECTION_SCHEDULE (R526): Every INTERVAL seconds in RUN the next dry injection starts. -/
def execInjectionSchedule (s : State) : Host.Outcome State Fault Refusal :=
  .next (s.core fun d => d.injInterval)

/-- INJECTION_DEADLINE (R518): 1 ms after the detection time, an undetected injection completes as missed. -/
def execInjectionDeadline (s : State) : Host.Outcome State Fault Refusal :=
  .next (s.core fun d => d.injThen Dev.injDeadline)

/-- INJECTION_DETECTED (R518): The detector's reaction latch sets for every instance. -/
def execInjectionDetected (s : State) : Host.Outcome State Fault Refusal :=
  .next (s.core fun d => d.injThen Dev.injDetected)

/-- INJECTION_RESTORED (R521): Restoration after a full injection withdraws the fault, and ends or overruns with
RESTORE_FAIL. -/
def execInjectionRestored (s : State) : Host.Outcome State Fault Refusal :=
  .next (s.core fun d => d.injThen Dev.injRestored)

end Sys2Proof.Machine
end

