-- ==== Sys2Proof/Machine/ProfileRows.lean ====
section
/-! DEFINITION. Thatch instructions of the Gable, the Truss and the Soffit sequencer (04 R113 to R116): each row's meaning, over the operations it shares. -/

namespace Sys2Proof.Machine

open Sys2Proof


/-- ZROW (R114): half-plane test of 16 cell directions. -/
def execZrow (dst a b : BitVec 5) (strict : Bool) (s : State) : Host.Outcome State Fault Refusal :=
  .next (s.chip fun m => zrowOp m dst a b (if strict then 1 else 0))

/-- ENCG (R113): read the latest encoder-G position or sample time. -/
def execEncg (dst : BitVec 5) (item : BitVec 2) (s : State) : Host.Outcome State Fault Refusal :=
  .next (s.chip fun m => encgOp m dst 0 (item.setWidth 14))

/-- SIG (R113): update the program-flow signature. -/
def execSig (imm : BitVec 14) (s : State) : Host.Outcome State Fault Refusal :=
  .next (s.chip fun m => sigOp m 0 0 imm)

/-- TEND (R125): end the task after comparing SIGNAT with SIG_EXPECT. -/
def execTend (s : State) : Host.Outcome State Fault Refusal :=
  .next (s.chip fun m => tendOp m (encL 0xC3 0 0))

/-- PUBL (R325): publish the cell-map buffer for a named frame and zone set. -/
def execPubl (a : BitVec 5) (s : State) : Host.Outcome State Fault Refusal :=
  .next (s.chip fun m => publOp m (encI 0xC4 0 a 0) a)

/-- HBT (R320): heartbeat to the Ridge. -/
def execHbt (s : State) : Host.Outcome State Fault Refusal :=
  .next (s.chip fun m => hbtOp m (encL 0xC5 0 0))

/-- SOFX (R396): append a word to the Soffit command stream; a complete frame is sent. -/
def execSofx (dst a : BitVec 5) (s : State) : Host.Outcome State Fault Refusal :=
  .next (s.chip fun m => sofxOp m dst a 0)

/-- AMOADD (R115): atomic fetch-and-add. -/
def execAmoadd (dst a b : BitVec 5) (s : State) : Host.Outcome State Fault Refusal :=
  .next (s.chip fun m => amoOp m 0xE0 dst a b 0 fun old x => old + x)

/-- AMOSWP (R115): atomic swap. -/
def execAmoswp (dst a b : BitVec 5) (s : State) : Host.Outcome State Fault Refusal :=
  .next (s.chip fun m => amoOp m 0xE1 dst a b 0 fun _ x => x)

/-- EVPOST (R115): post an event to the event rings. -/
def execEvpost (a b : BitVec 5) (s : State) : Host.Outcome State Fault Refusal :=
  .next (s.chip fun m => evpostOp m 0 a b 0)

/-- WFI (R115): wait until a selected TPEND source is set. -/
def execWfi (dst a : BitVec 5) (s : State) : Host.Outcome State Fault Refusal :=
  .next (s.chip fun m => wfiOp m dst a 0)

/-- WFI_WAKE (R115): A selected TPEND source sets, and a waiting WFI completes with the pending bits. -/
def execWfiWake (s : State) : Host.Outcome State Fault Refusal :=
  .next (s.core fun d => d.wfiWake)

/-- TRET (R115): leave the trap handler at TPC. -/
def execTret (s : State) : Host.Outcome State Fault Refusal :=
  .next (s.chip fun m => tretOp m (encL 0xE4 0 0))

/-- DIRD (R116): read the filtered input state word. -/
def execDird (dst : BitVec 5) (s : State) : Host.Outcome State Fault Refusal :=
  .next (s.chip fun m => dirdOp m dst 0 0)

/-- DQWR (R417): apply an output command word to safety outputs. -/
def execDqwr (a : BitVec 5) (s : State) : Host.Outcome State Fault Refusal :=
  .next (s.chip fun m => dqwrOp m 0 a 0)

/-- TPLS (R417): request extra test pulses. -/
def execTpls (a : BitVec 5) (s : State) : Host.Outcome State Fault Refusal :=
  .next (s.chip fun m => tplsOp m 0 a 0)

/-- BFRX (R416): read the next payload word of the latest valid data frame. -/
def execBfrx (dst : BitVec 5) (s : State) : Host.Outcome State Fault Refusal :=
  .next (s.chip fun m => bfrxOp m dst 0 0)

/-- BFTX (R116): append a word to the outgoing input frame. -/
def execBftx (a : BitVec 5) (s : State) : Host.Outcome State Fault Refusal :=
  .next (s.chip fun m => bftxOp m 0 a 0)

/-- FEND (R116): end the task. -/
def execFend (s : State) : Host.Outcome State Fault Refusal :=
  .next (s.chip fun m => fendOp m 0 0 0)

end Sys2Proof.Machine
end

