-- ==== Sys2Proof/Machine/RoofRows.lean ====
section
/-! DEFINITION. Roofs and twin roofs (16): each row's meaning, over the operations it shares. -/

namespace Sys2Proof.Machine

open Sys2Proof


/-- TRAIN (R472): The manager sends a TRAIN cell every 1 ms and workers take positions from HOP. -/
def execTrain (hop : Option Byte) (s : State) : Host.Outcome State Fault Refusal :=
  .next (s.core fun d => (d.train hop).purlinTakenIf hop.isSome)

/-- PURLIN_CELL_RECEIVE (R474): A Purlin cell arrives and is taken, forwarded or dropped. -/
def execPurlinCellReceive (x : Lanes) (s : State) : Host.Outcome State Fault Refusal :=
  .next (s.core fun d => d.cellReceive x)

/-- STATUS (R482): A worker sends a STATUS cell every 10 ms. -/
def execStatus (cell : Option StatusCell) (s : State) : Host.Outcome State Fault Refusal :=
  .next (s.core fun d => (d.status cell).purlinTakenIf (cell.isSome && d.manager))

/-- WORKER_STATUS_MISSING (R482): Three consecutive STATUS cells of a worker are missing and event 0x0C05 is raised.
-/
def execWorkerStatusMissing (k : BitVec 3) (s : State) : Host.Outcome State Fault Refusal :=
  .next (s.core fun d => d.statusMissing k)

/-- GFRAME (R385): A kind 3 encoder Flashing frame received over Purlin is checked by the Gable. -/
def execGframe (frame : BitVec 512) (s : State) : Host.Outcome State Fault Refusal :=
  .next (s.core fun d => (d.encFrame 3 frame).purlinTakenIf d.worker)

/-- RFRAME (R385): A kind 4 encoder Flashing frame received over Purlin is checked by the Ridge. -/
def execRframe (frame : BitVec 512) (s : State) : Host.Outcome State Fault Refusal :=
  .next (s.core fun d => d.encFrame 4 frame)

/-- BOOTREQ (R485): A worker's boot request makes the manager send its image in BOOTDATA cells. -/
def execBootreq (src : BitVec 3) (attempts : Byte) (s : State) : Host.Outcome State Fault Refusal :=
  .next (s.core fun d => (d.bootReq src attempts).purlinTakenIf d.manager)

/-- BOOTDATA (R485): A BOOTDATA cell delivers image bytes to the worker's ROM. -/
def execBootdata (src : Byte) (seq : BitVec 16) (off : Word) (bytes : List Byte)
    (s : State) : Host.Outcome State Fault Refusal :=
  .next (s.chipUp fun m => ((m.1.purlinTakenIf m.1.worker).bootData m.2 src seq off bytes, m.2))

/-- ACK (R475): An ACK cell confirms an acknowledged cell. -/
def execAck (src kind : Byte) (seq : BitVec 16) (s : State) : Host.Outcome State Fault Refusal :=
  .next (s.core fun d => (d.ackReceive src kind seq).purlinTaken)

/-- PURLIN_RETRY (R475): An unacknowledged cell is repeated after 100 µs, and is lost after three repeats. -/
def execPurlinRetry (s : State) : Host.Outcome State Fault Refusal :=
  .next (s.core fun d => d.purlinRetry)

/-- MIGRATE (R189): A MIGRATE cell carries an announce, answer, transfer or acknowledgement of a Purlin migration. -/
def execMigrate (src : BitVec 3) (seq : BitVec 16) (phase : MigratePhase)
    (s : State) : Host.Outcome State Fault Refusal :=
  .next (s.core fun d => d.takeMigrate src seq phase)

/-- RELAY_DOWN (R484): A worker executes a relayed command, write or read from the manager's ring 30. -/
def execRelayDown (src : Byte) (seq : BitVec 16) (entry : BitVec 512) (s : State) : Host.Outcome State Fault Refusal :=
  .next (s.chipUp fun m => m.relayDown src seq entry)

/-- RELAY_UP (R483): The manager places a worker's answer or event in ring 31. -/
def execRelayUp (src : Byte) (seq : BitVec 16) (entry : BitVec 512) (s : State) : Host.Outcome State Fault Refusal :=
  .next (s.core fun d => (d.relayUp src seq entry).purlinTakenIf d.manager)

/-- PURLIN_RING_30_ENTRY (R89): A ring 30 entry is consumed and relayed, or dropped when Purlin is down. -/
def execPurlinRing30Entry (s : State) : Host.Outcome State Fault Refusal :=
  .next (s.core fun d => d.ring30)

/-- REENUM (R486): A worker takes a REENUM cell as MODE_REQUEST PROOF. -/
def execReenum (src : Byte) (seq : BitVec 16) (s : State) : Host.Outcome State Fault Refusal :=
  .next (s.core fun d => d.reenum src seq)

/-- LATCH_MARK_SEND (R476): 16 µs before each timebase instant the manager sends a latch mark. -/
def execLatchMarkSend (s : State) : Host.Outcome State Fault Refusal :=
  .next (s.core fun d => d.markSend)

/-- LATCH_MARK_RECEIVE (R478): A worker takes a latch mark, schedules its LAT, frame and slot, and resynchronises. -/
def execLatchMarkReceive (mark : Lanes) (s : State) : Host.Outcome State Fault Refusal :=
  .next (s.core fun d => d.markReceive mark)

/-- LATCH_MARK_MISSING (R479): No mark within ±1 µs; the worker flywheels or withholds its LAT. -/
def execLatchMarkMissing (s : State) : Host.Outcome State Fault Refusal :=
  .next (s.core fun d => d.markMissing)

/-- RING_BROKEN (R480): Two marks fail to return and the manager declares the ring broken. -/
def execRingBroken (s : State) : Host.Outcome State Fault Refusal :=
  .next (s.core fun d => d.ringBroken)

/-- SYNC_WORD_SEND (R487): A twin manager sends a sync word 20 µs before each instant. -/
def execSyncWordSend (s : State) : Host.Outcome State Fault Refusal :=
  .next (s.core fun d => d.syncSend)

/-- SYNC_WORD_RECEIVE (R488): A valid sync word genlocks a non-driving manager and feeds the role rules. -/
def execSyncWordReceive (line : List Bool) (interval : BitVec 24) (s : State) : Host.Outcome State Fault Refusal :=
  .next (s.core fun d => d.syncReceive line interval)

/-- SYNC_WORD_MISSING (R488): A sync word is missing; two consecutive misses lose the peer. -/
def execSyncWordMissing (s : State) : Host.Outcome State Fault Refusal :=
  .next (s.core fun d => d.syncMissing)

/-- LATCH_MARK_RETURN (R480): The manager receives its own latch mark back at PL_RX, measures RTT, sets CABLE and
declares the ring up again with event 0x0C01. -/
def execLatchMarkReturn (rtt : BitVec 16) (s : State) : Host.Outcome State Fault Refusal :=
  .next (s.core fun d => d.markReturn rtt)

end Sys2Proof.Machine
end

