-- ==== Sys2Proof/Machine/SafetyRows.lean ====
section
/-! DEFINITION. Ridge, Gable and Flashing (11, 12): each row's meaning, over the operations it shares. -/

namespace Sys2Proof.Machine

open Sys2Proof


/-- ENCODER_SAMPLE (R330): Each sample period an SSI burst reads an encoder axis and the sample is validated. -/
def execEncoderSample (i : Fin 4) (idleHigh endLow : Bool) (code : Word)
    (s : State) : Host.Outcome State Fault Refusal :=
  .next (s.core fun d => d.encRead i idleHigh endLow code)

/-- ENCODER_SAMPLE_TIMEOUT (R330): No valid sample for 4 × P makes an encoder fault. -/
def execEncoderSampleTimeout (i : Fin 4) (s : State) : Host.Outcome State Fault Refusal :=
  .next (s.core fun d => d.encTimeout i)

/-- GABLE_RESET (R346): 1 ms after a Gable loss the Gable core is reset and its images are checked. -/
def execGableReset (s : State) : Host.Outcome State Fault Refusal :=
  .next (s.core fun d => d.gableReset)

/-- GABLE_RESTART (R346): When the image hashes agree, the Gable starts with trigger 8. -/
def execGableRestart (s : State) : Host.Outcome State Fault Refusal :=
  .next (s.core fun d => d.gableReturn)

/-- RIDGE_CRC_CHECK (R321): Once per second the Ridge recomputes the static-map CRC. -/
def execRidgeCrcCheck (s : State) : Host.Outcome State Fault Refusal :=
  .next (s.core fun d => d.ridgeCrc)

/-- LIVE_READBACK (R319): A LIVE ball showing a wrong level is a readback fault leading to SAFE HOLD. -/
def execLiveReadback (ridge phase g h : Bool) (s : State) : Host.Outcome State Fault Refusal :=
  .next (s.core fun d => d.liveReadback ridge phase g h)

/-- TDEG_EXPIRE (R345): T_deg expires in DEGRADED and the device enters SAFE HOLD. -/
def execTdegExpire (s : State) : Host.Outcome State Fault Refusal :=
  .next (s.core fun d => d.tdegExpire)

/-- RESET_INPUT_EDGE (R349): A rising edge on the reset input leaves SAFE HOLD for PROOF or re-enables the light after
SF2. -/
def execResetInputEdge (selfTest g h : Bool) (s : State) : Host.Outcome State Fault Refusal :=
  .next (s.core fun d => d.resetEdge selfTest (!g && !h))

/-- SAFE_HOLD_RESET_WINDOW (R349): The 10 s window for the reset-input edge expires without an edge. -/
def execSafeHoldResetWindow (s : State) : Host.Outcome State Fault Refusal :=
  .next (s.core fun d => d.resetWindowEnd)

/-- SF3_FALLBACK_TIMER (R340): The fallback ends once no reported emitter has MISS above 0 and at least 1 s has
passed. -/
def execSf3FallbackTimer (s : State) : Host.Outcome State Fault Refusal :=
  .next (s.core fun d => d.sf3Timer)

/-- FLASHING_FRAME_RX (R377): A Flashing frame taken from ring 28 is tested for identity, CRC, format and sequence,
and acted on. -/
def execFlashingFrameRx (s : State) : Host.Outcome State Fault Refusal :=
  .next (s.core fun d => d.flashTake)

/-- FLASHING_TIMEOUT (R379): A consumed stream's gap exceeds t_exp, giving TIMEOUT and possibly an SF2 demand. -/
def execFlashingTimeout (i : Fin 8) (s : State) : Host.Outcome State Fault Refusal :=
  .next (s.core fun d => d.flashTimeout i)

/-- FLASHING_ECHO_SEND (R380): The Gable sends an ECHO on ring 29 after accepted frames or periodically while in
RESET. -/
def execFlashingEchoSend (i : Fin 8) (s : State) : Host.Outcome State Fault Refusal :=
  .next (s.core fun d => d.flashSendEcho i)

/-- FLASHING_STATUS_SEND (R382): The device sends a STATUS frame every max(1, t_exp/4) ms and on changes. -/
def execFlashingStatusSend (i : Fin 8) (s : State) : Host.Outcome State Fault Refusal :=
  .next (s.chipUp fun m => (m.1.flashSendStatus m.2.counter i, m.2))

end Sys2Proof.Machine
end

