-- ==== Sys2Proof/Machine/ScalarRows.lean ====
section
/-! DEFINITION. Thatch scalar instructions (04 R100 to R102): each row's meaning, over the operations it shares. -/

namespace Sys2Proof.Machine

open Sys2Proof


/-- ADD (R100): d = a + b. -/
def execAdd (c : CoreId) (dst a b : BitVec 5) (s : State) : Host.Outcome State Fault Refusal :=
  .next (s.chip fun m => aluR m c 0x01 dst a b 0 fun g x y => aluAdd g x y false)

/-- SUB (R100): d = a − b. -/
def execSub (c : CoreId) (dst a b : BitVec 5) (s : State) : Host.Outcome State Fault Refusal :=
  .next (s.chip fun m => aluR m c 0x02 dst a b 0 fun g x y => aluSub g x y false)

/-- ADDI (R100): d = a + sx(imm14). -/
def execAddi (c : CoreId) (dst a : BitVec 5) (imm : BitVec 14) (s : State) : Host.Outcome State Fault Refusal :=
  .next (s.chip fun m => aluI m c 0x03 dst a imm fun g x i => aluAdd g x (sx i) false)

/-- ADDC (R100): add with carry. -/
def execAddc (c : CoreId) (dst a b : BitVec 5) (s : State) : Host.Outcome State Fault Refusal :=
  .next (s.chip fun m => aluR m c 0x04 dst a b 0 fun g x y => aluAdd g x y g.c)

/-- SUBB (R100): subtract with borrow. -/
def execSubb (c : CoreId) (dst a b : BitVec 5) (s : State) : Host.Outcome State Fault Refusal :=
  .next (s.chip fun m => aluR m c 0x05 dst a b 0 fun g x y => aluSub g x y (!g.c))

/-- AND (R100): bitwise and. -/
def execAnd (c : CoreId) (dst a b : BitVec 5) (s : State) : Host.Outcome State Fault Refusal :=
  .next (s.chip fun m => aluR m c 0x06 dst a b 0 fun g x y => aluZN g (x &&& y))

/-- OR (R100): bitwise or. -/
def execOr (c : CoreId) (dst a b : BitVec 5) (s : State) : Host.Outcome State Fault Refusal :=
  .next (s.chip fun m => aluR m c 0x07 dst a b 0 fun g x y => aluZN g (x ||| y))

/-- XOR (R100): bitwise exclusive or. -/
def execXor (c : CoreId) (dst a b : BitVec 5) (s : State) : Host.Outcome State Fault Refusal :=
  .next (s.chip fun m => aluR m c 0x08 dst a b 0 fun g x y => aluZN g (x ^^^ y))

/-- ANDI (R100): and with a zero-extended immediate. -/
def execAndi (c : CoreId) (dst a : BitVec 5) (imm : BitVec 14) (s : State) : Host.Outcome State Fault Refusal :=
  .next (s.chip fun m => aluI m c 0x09 dst a imm fun g x i => aluZN g (x &&& zx i))

/-- ORI (R100): or with a zero-extended immediate. -/
def execOri (c : CoreId) (dst a : BitVec 5) (imm : BitVec 14) (s : State) : Host.Outcome State Fault Refusal :=
  .next (s.chip fun m => aluI m c 0x0A dst a imm fun g x i => aluZN g (x ||| zx i))

/-- XORI (R100): exclusive or with a zero-extended immediate. -/
def execXori (c : CoreId) (dst a : BitVec 5) (imm : BitVec 14) (s : State) : Host.Outcome State Fault Refusal :=
  .next (s.chip fun m => aluI m c 0x0B dst a imm fun g x i => aluZN g (x ^^^ zx i))

/-- SHL (R100): shift left by b[4:0]. -/
def execShl (c : CoreId) (dst a b : BitVec 5) (s : State) : Host.Outcome State Fault Refusal :=
  .next (s.chip fun m => aluR m c 0x0C dst a b 0 fun g x y => aluZN g (x <<< (y.extractLsb' 0 5).toNat))

/-- SHR (R100): logical shift right. -/
def execShr (c : CoreId) (dst a b : BitVec 5) (s : State) : Host.Outcome State Fault Refusal :=
  .next (s.chip fun m => aluR m c 0x0D dst a b 0 fun g x y => aluZN g (x >>> (y.extractLsb' 0 5).toNat))

/-- SAR (R100): arithmetic shift right. -/
def execSar (c : CoreId) (dst a b : BitVec 5) (s : State) : Host.Outcome State Fault Refusal :=
  .next (s.chip fun m => aluR m c 0x0E dst a b 0 fun g x y => aluZN g (x.sshiftRight (y.extractLsb' 0 5).toNat))

/-- SHLI (R100): shift left by an immediate. -/
def execShli (c : CoreId) (dst a : BitVec 5) (imm : BitVec 14) (s : State) : Host.Outcome State Fault Refusal :=
  .next (s.chip fun m =>
    aluI m c 0x0F dst a imm fun g x i => let n : BitVec 5 := i.extractLsb' 0 5; aluZN g (x <<< n.toNat))

/-- SHRI (R100): logical shift right by an immediate. -/
def execShri (c : CoreId) (dst a : BitVec 5) (imm : BitVec 14) (s : State) : Host.Outcome State Fault Refusal :=
  .next (s.chip fun m =>
    aluI m c 0x10 dst a imm fun g x i => let n : BitVec 5 := i.extractLsb' 0 5; aluZN g (x >>> n.toNat))

/-- SARI (R100): arithmetic shift right by an immediate. -/
def execSari (c : CoreId) (dst a : BitVec 5) (imm : BitVec 14) (s : State) : Host.Outcome State Fault Refusal :=
  .next (s.chip fun m =>
    aluI m c 0x11 dst a imm fun g x i => let n : BitVec 5 := i.extractLsb' 0 5; aluZN g (x.sshiftRight n.toNat))

/-- CLZ (R100): count leading zeros. -/
def execClz (c : CoreId) (dst a : BitVec 5) (s : State) : Host.Outcome State Fault Refusal :=
  .next (s.chip fun m => aluR m c 0x12 dst a 0 0 fun g x _ => aluZ g (BitVec.ofNat 32 (Sys2Proof.Machine.clz x)))

/-- MUL (R100): low 32 bits of the product. -/
def execMul (c : CoreId) (dst a b : BitVec 5) (s : State) : Host.Outcome State Fault Refusal :=
  .next (s.chip fun m => aluR m c 0x13 dst a b 0 aluMul)

/-- MULH (R100): high 32 bits of the signed product. -/
def execMulh (c : CoreId) (dst a b : BitVec 5) (s : State) : Host.Outcome State Fault Refusal :=
  .next (s.chip fun m => aluR m c 0x14 dst a b 0 fun g x y => aluZN g (mulHigh x y))

/-- MULHU (R100): high 32 bits of the unsigned product. -/
def execMulhu (c : CoreId) (dst a b : BitVec 5) (s : State) : Host.Outcome State Fault Refusal :=
  .next (s.chip fun m => aluR m c 0x15 dst a b 0 fun g x y => aluZN g (mulHighU x y))

/-- FXMUL (R102): signed fixed-point multiply with shift, rounding and saturation. -/
def execFxmul (c : CoreId) (dst a b : BitVec 5) (mod : BitVec 9) (s : State) : Host.Outcome State Fault Refusal :=
  .next (s.chip fun m =>
    aluR m c 0x16 dst a b mod fun g x y => aluFxmul g x y (mod.extractLsb' 0 5).toNat (mod.getLsbD 5) (mod.getLsbD 6))

/-- FXMULU (R102): unsigned fixed-point multiply. -/
def execFxmulu (c : CoreId) (dst a b : BitVec 5) (mod : BitVec 9) (s : State) : Host.Outcome State Fault Refusal :=
  .next (s.chip fun m =>
    aluR m c 0x17 dst a b mod fun g x y => aluFxmulu g x y (mod.extractLsb' 0 5).toNat (mod.getLsbD 5) (mod.getLsbD 6))

/-- DIV (R100): signed division, trapping DIVZERO on a zero divisor. -/
def execDiv (c : CoreId) (dst a b : BitVec 5) (s : State) : Host.Outcome State Fault Refusal :=
  .next (s.chip fun m => divOp m c 0x18 dst a b 0 aluDiv)

/-- DIVU (R100): unsigned division. -/
def execDivu (c : CoreId) (dst a b : BitVec 5) (s : State) : Host.Outcome State Fault Refusal :=
  .next (s.chip fun m => divOp m c 0x19 dst a b 0 aluDivu)

/-- REM (R100): signed remainder. -/
def execRem (c : CoreId) (dst a b : BitVec 5) (s : State) : Host.Outcome State Fault Refusal :=
  .next (s.chip fun m => divOp m c 0x1A dst a b 0 aluRem)

/-- REMU (R100): unsigned remainder. -/
def execRemu (c : CoreId) (dst a b : BitVec 5) (s : State) : Host.Outcome State Fault Refusal :=
  .next (s.chip fun m => divOp m c 0x1B dst a b 0 aluRemu)

/-- SADD (R100): signed saturated add. -/
def execSadd (c : CoreId) (dst a b : BitVec 5) (s : State) : Host.Outcome State Fault Refusal :=
  .next (s.chip fun m => aluR m c 0x1C dst a b 0 fun g x y => aluSat g (x.toInt + y.toInt))

/-- SSUB (R100): signed saturated subtract. -/
def execSsub (c : CoreId) (dst a b : BitVec 5) (s : State) : Host.Outcome State Fault Refusal :=
  .next (s.chip fun m => aluR m c 0x1D dst a b 0 fun g x y => aluSat g (x.toInt - y.toInt))

/-- UADDS (R100): unsigned saturated add. -/
def execUadds (c : CoreId) (dst a b : BitVec 5) (s : State) : Host.Outcome State Fault Refusal :=
  .next (s.chip fun m => aluR m c 0x1E dst a b 0 fun g x y => aluSatU g ((x.toNat : Int) + y.toNat))

/-- USUBS (R100): unsigned saturated subtract. -/
def execUsubs (c : CoreId) (dst a b : BitVec 5) (s : State) : Host.Outcome State Fault Refusal :=
  .next (s.chip fun m => aluR m c 0x1F dst a b 0 fun g x y => aluSatU g ((x.toNat : Int) - y.toNat))

/-- MIN (R100): signed minimum. -/
def execMin (c : CoreId) (dst a b : BitVec 5) (s : State) : Host.Outcome State Fault Refusal :=
  .next (s.chip fun m => aluR m c 0x20 dst a b 0 fun g x y => aluNone g (sMin x y))

/-- MAX (R100): signed maximum. -/
def execMax (c : CoreId) (dst a b : BitVec 5) (s : State) : Host.Outcome State Fault Refusal :=
  .next (s.chip fun m => aluR m c 0x21 dst a b 0 fun g x y => aluNone g (sMax x y))

/-- MINU (R100): unsigned minimum. -/
def execMinu (c : CoreId) (dst a b : BitVec 5) (s : State) : Host.Outcome State Fault Refusal :=
  .next (s.chip fun m => aluR m c 0x22 dst a b 0 fun g x y => aluNone g (uMin x y))

/-- MAXU (R100): unsigned maximum. -/
def execMaxu (c : CoreId) (dst a b : BitVec 5) (s : State) : Host.Outcome State Fault Refusal :=
  .next (s.chip fun m => aluR m c 0x23 dst a b 0 fun g x y => aluNone g (uMax x y))

/-- SLT (R100): set if less than, signed. -/
def execSlt (c : CoreId) (dst a b : BitVec 5) (s : State) : Host.Outcome State Fault Refusal :=
  .next (s.chip fun m => aluR m c 0x24 dst a b 0 fun g x y => aluNone g (boolWord (sLt x y)))

/-- SLTU (R100): set if less than, unsigned. -/
def execSltu (c : CoreId) (dst a b : BitVec 5) (s : State) : Host.Outcome State Fault Refusal :=
  .next (s.chip fun m => aluR m c 0x25 dst a b 0 fun g x y => aluNone g (boolWord (uLt x y)))

/-- SEQ (R100): set if equal. -/
def execSeq (c : CoreId) (dst a b : BitVec 5) (s : State) : Host.Outcome State Fault Refusal :=
  .next (s.chip fun m => aluR m c 0x26 dst a b 0 fun g x y => aluNone g (boolWord (x == y)))

/-- SLTI (R100): set if less than a signed immediate. -/
def execSlti (c : CoreId) (dst a : BitVec 5) (imm : BitVec 14) (s : State) : Host.Outcome State Fault Refusal :=
  .next (s.chip fun m => aluI m c 0x27 dst a imm fun g x i => aluNone g (boolWord (sLt x (sx i))))

/-- SLTIU (R100): set if less than an unsigned immediate. -/
def execSltiu (c : CoreId) (dst a : BitVec 5) (imm : BitVec 14) (s : State) : Host.Outcome State Fault Refusal :=
  .next (s.chip fun m => aluI m c 0x28 dst a imm fun g x i => aluNone g (boolWord (uLt x (zx i))))

/-- SEL (R100): select a or b by a condition register. -/
def execSel (c : CoreId) (dst a b : BitVec 5) (mod : BitVec 9) (s : State) : Host.Outcome State Fault Refusal :=
  .next (s.chip fun m => selOp m c dst a b mod)

/-- LUI (R100): load imm19 << 13. -/
def execLui (c : CoreId) (dst : BitVec 5) (imm : BitVec 19) (s : State) : Host.Outcome State Fault Refusal :=
  .next (s.chip fun m => aluL m c 0x2A dst imm fun i => zx i <<< 13)

/-- LI (R100): load sign-extended imm19. -/
def execLi (c : CoreId) (dst : BitVec 5) (imm : BitVec 19) (s : State) : Host.Outcome State Fault Refusal :=
  .next (s.chip fun m => aluL m c 0x2B dst imm fun i => sx i)

/-- FXSAT (R100): clamp to a signed k-bit range. -/
def execFxsat (c : CoreId) (dst a : BitVec 5) (mod : BitVec 9) (s : State) : Host.Outcome State Fault Refusal :=
  .next (s.chip fun m =>
    aluR m c 0x2C dst a 0 mod fun g x _ => let k := (mod.extractLsb' 0 5).toNat; aluClamp g x (-(2 ^ k)) (2 ^ k - 1))

/-- FXSATU (R100): clamp to an unsigned k-bit range. -/
def execFxsatu (c : CoreId) (dst a : BitVec 5) (mod : BitVec 9) (s : State) : Host.Outcome State Fault Refusal :=
  .next (s.chip fun m =>
    aluR m c 0x2D dst a 0 mod fun g x _ => let k := (mod.extractLsb' 0 5).toNat; aluClamp g x 0 (2 ^ (k + 1) - 1))

end Sys2Proof.Machine
end

