-- ==== Sys2Proof/Machine/StringRows.lean ====
section
/-! DEFINITION. Strings and thermal (10): each row's meaning, over the operations it shares. -/

namespace Sys2Proof.Machine

open Sys2Proof


/-- SWITCHING_CYCLE (R291): A string channel starts a switching cycle and regulates by peak current mode. -/
def execSwitchingCycle (ch : Fin 8) (shunt : List (BitVec 11)) (vsn : BitVec 11) (s : State) :
    Host.Outcome State Fault Refusal :=
  .next (s.core fun d => d.switchingCycle ch shunt vsn)

/-- SUPPLY_RAMP_DONE (R292): The 1 ms SUPPLY ramp ends and, 1 ms later, the short and open tests are armed. -/
def execSupplyRampDone (ch : Fin 8) (s : State) : Host.Outcome State Fault Refusal :=
  .next (s.core fun d => d.rampDone ch)

/-- PWM_PERIOD_START (R293): A string PWM period starts and pending duty and derate changes apply. -/
def execPwmPeriodStart (ch : Fin 8) (s : State) : Host.Outcome State Fault Refusal :=
  .next (s.core fun d => d.pwmStart ch)

/-- PWM_PERIOD_END (R281): At the end of a PWM period the string on-test and off-test give open or stuck-on verdicts.
-/
def execPwmPeriodEnd (ch : Fin 8) (shunt vsn : List (BitVec 11)) (s : State) : Host.Outcome State Fault Refusal :=
  .next (s.core fun d => d.pwmEnd ch shunt vsn)

/-- STRING_PROTECT_TIMEOUT (R299): An overcurrent, overvoltage or short condition lasts its qualifying time and
becomes a fault. -/
def execStringProtectTimeout (ch : Fin 8) (cause : StrFault) (s : State) : Host.Outcome State Fault Refusal :=
  .next (s.core fun d => d.strProtect ch cause)

/-- STRING_RETRY (R300): 100 ms after a fault with AUTORETRY, the channel restarts or latches. -/
def execStringRetry (ch : Fin 8) (s : State) : Host.Outcome State Fault Refusal :=
  .next (s.core fun d => d.strRetry ch)

/-- STR_RESTART (R300): A write of 1 to STR_c_CTRL.RESTART restarts a latched channel; of a Gable-owned
one the Gable's restart does. -/
def execStrRestart (ch : Fin 8) (byGable : Bool) (s : State) : Host.Outcome State Fault Refusal :=
  .next (if byGable then s.core fun d => d.gableRestarts ch
    else s.chip fun m => m.1.hostPut m.2 (0x2006002C + 64 * ch.val) 1)

/-- STRING_INHIBIT (R296): A Gable or Ridge inhibit is asserted or released; GATE goes low within 1 µs, or the channel
restarts. -/
def execStringInhibit (ch : Fin 8) (s : State) : Host.Outcome State Fault Refusal :=
  .next (s.core fun d => d.strInhibit ch)

/-- NTC_PUBLISH (R301): Every 1 ms each NTC's mean code and temperature are published, with open, short and
over-temperature checks. -/
def execNtcPublish (n : Fin 6) (v : Vector (Nat × Nat) 8) (s : State) : Host.Outcome State Fault Refusal :=
  .next (s.core fun d => d.ntcPublish n v)

/-- DERATE_UPDATE (R307): Every 10 ms the derate factors move toward their targets and the tile table is written. -/
def execDerateUpdate (s : State) : Host.Outcome State Fault Refusal :=
  .next (s.core fun d => d.derateUpdate)

/-- THM_DRT_ADDR_WRITE (R308): Sets the tile derate table address, or is ignored with CFG_ERR outside a kind 4 region.
-/
def execThmDrtAddrWrite (value : Word) (s : State) : Host.Outcome State Fault Refusal :=
  .next (s.chip fun m => m.1.hostPut m.2 0x20061088 value)

/-- TILE_TEMP_STALE (R304): A tile temperature older than 64 frames becomes stale. -/
def execTileTempStale (t : Fin 128) (s : State) : Host.Outcome State Fault Refusal :=
  .next (s.core fun d => d.tileStaleNow t)

/-- DIE_TEMP_UPDATE (R310): Every 1 ms THM_DIE.TEMP is updated, with the warning and calibration temperature triggers.
-/
def execDieTempUpdate (sensors : Vector (BitVec 16) 4) (s : State) : Host.Outcome State Fault Refusal :=
  .next (s.core fun d => d.dieTemp sensors)

/-- THERMAL_SHUTDOWN (R311): A sensor at 165 °C shuts the core die down as under RST_N within 1 µs. -/
def execThermalShutdown (s : State) : Host.Outcome State Fault Refusal :=
  .next (s.any fun d => d.thermalShutdown)

/-- THERMAL_SHUTDOWN_END (R311): Every sensor below 150 °C releases the core die into BOOT. -/
def execThermalShutdownEnd (s : State) : Host.Outcome State Fault Refusal :=
  .next (s.any fun d => d.thermalEnd)

end Sys2Proof.Machine
end

