-- ==== Sys2Proof/Machine/SystemRows.lean ====
section
/-! DEFINITION. Power, reset, boot and PROOF (15): each row's meaning, over the operations it shares. -/

namespace Sys2Proof.Machine

open Sys2Proof


/-- POWER_ON (R447): Supplies stay in range for 1 ms, the power-on reset ends and the PLL locks. -/
def execPowerOn (locked : Bool) (s : State) : Host.Outcome State Fault Refusal :=
  .next (s.any fun d => d.powerOn locked)

/-- PLL_LOCK_RETRY (R447): The PLL is not locked and the lock restarts every 10 ms. -/
def execPllLockRetry (locked : Bool) (s : State) : Host.Outcome State Fault Refusal :=
  .next (s.any fun d => d.pllRetry locked)

/-- BROWN_OUT (R449): A core rail below its threshold for 2 µs stops LIVE, Batten and GATE and resets. -/
def execBrownOut (ana : Bool) (s : State) : Host.Outcome State Fault Refusal :=
  .next (s.any fun d => d.brownOut ana)

/-- VSTBY_LOSS (R441): VSTBY below its range takes the device to OFF. -/
def execVstbyLoss (s : State) : Host.Outcome State Fault Refusal :=
  .next (s.any fun d => d.vstbyLoss)

/-- RST_N_ASSERT (R457): RST_N low for 2 ms asserts reset. -/
def execRstNAssert (s : State) : Host.Outcome State Fault Refusal :=
  .next (s.any fun d => d.rstAssert)

/-- RST_N_RELEASE (R457): RST_N high for 2 ms releases reset and records the duration. -/
def execRstNRelease (s : State) : Host.Outcome State Fault Refusal :=
  .next (s.any fun d => d.rstRelease)

/-- TRUSS_HALT_RESET (R458): 2 ms after a Truss halt with no debugger, the device resets itself. -/
def execTrussHaltReset (s : State) : Host.Outcome State Fault Refusal :=
  .next (s.core fun d => d.trussHaltReset)

/-- RESET_END (R459): A reset ends, the straps are sampled, the reset record is updated and BOOT starts. -/
def execResetEnd (role : BitVec 2) (bootsel : Bool) (s : State) : Host.Outcome State Fault Refusal :=
  .next (s.any fun d => d.resetEnd role bootsel)

/-- BOOT_WINDOW_EXPIRE (R451): A boot attempt's window ends unanswered; ATTEMPTS increments and the next attempt
opens. -/
def execBootWindowExpire (s : State) : Host.Outcome State Fault Refusal :=
  .next (s.core fun d => d.bootWindowExpire)

/-- CLOCK_FAULT (R460): A clock-monitor window count out of band, a lock loss or a missing edge is a clock fault. -/
def execClockFault (x : ClockSeen) (s : State) : Host.Outcome State Fault Refusal :=
  .next (s.core fun d => d.clockFault x)

/-- RETENTION_WAKE (R463): WAKE_N low for 100 µs wakes the device from RETENTION. -/
def execRetentionWake (s : State) : Host.Outcome State Fault Refusal :=
  .next (s.any fun d => d.retentionWake)

/-- STANDBY_WAKE (R466): WAKE_N low for 1 ms ends STANDBY; STBY_OUT falls. -/
def execStandbyWake (s : State) : Host.Outcome State Fault Refusal :=
  .next (s.any fun d => d.standbyWake)

/-- PROOF_TIMEOUT (R445): PROOF not complete 10 s after its start fails. -/
def execProofTimeout (s : State) : Host.Outcome State Fault Refusal :=
  .next (s.core fun d => d.proofTimeout)

/-- PROOF_AGE_TICK (R446): Each minute SYS_PROOF.AGE increments, with events at 1380 and 1440 minutes. -/
def execProofAgeTick (s : State) : Host.Outcome State Fault Refusal :=
  .next (s.core fun d => d.proofAgeTick)

/-- PROOF_READBACK_PASS (R445): After 1 ms of LIVE readback with no fault and both generators toggling, PROOF step 5
passes and the douser test of step 6 starts. -/
def execProofReadbackPass (s : State) : Host.Outcome State Fault Refusal :=
  .next (s.core fun d => d.proofReadback)

end Sys2Proof.Machine
end

