-- ==== Sys2Proof/Machine/TrimRows.lean ====
section
/-! DEFINITION. Trim and calibration (14): each row's meaning, over the operations it shares. -/

namespace Sys2Proof.Machine

open Sys2Proof


/-- CAL_RUN_START (R424): A queued calibration run starts: shadows are loaded and the pending steps are set. -/
def execCalRunStart (s : State) : Host.Outcome State Fault Refusal :=
  .next (s.core fun d => d.calStart)

/-- CAL_STEP (R426): A calibration step starts at the first opportunity at which its precondition holds. -/
def execCalStep (k : Fin 48) (sense : Nat) (s : State) : Host.Outcome State Fault Refusal :=
  .next (s.core fun d => d.calStep k sense)

/-- CAL_STEP_DONE (R429): A step ends with a code found or a failed check; the last step applies the set. -/
def execCalStepDone (k : Fin 48) (found : Bool) (code : BitVec 10) (sense : Nat) (s : State) : Host.Outcome State Fault Refusal :=
  .next (s.core fun d => d.calStepDone k found code sense)

/-- CAL_TIMEOUT (R430): TIMEOUT seconds after the start, a run ends partial and applies its set. -/
def execCalTimeout (s : State) : Host.Outcome State Fault Refusal :=
  .next (s.core fun d => d.calTimeout)

/-- TRM_DAC_WRITE (R432): A write of TRM_DAC_k sets the shadow code in LOAD or TRIM. -/
def execTrmDacWrite (k : Fin 48) (code : BitVec 10) (s : State) : Host.Outcome State Fault Refusal :=
  .next (s.chip fun m => m.1.hostPut m.2 (0x20070000 + 4 * k.val) (code.setWidth 32))

/-- TRIM_APPLY (R432): A write of 1 to TRM_CTRL.APPLY applies the shadow set. -/
def execTrimApply (s : State) : Host.Outcome State Fault Refusal :=
  .next (s.chip fun m => m.1.hostPut m.2 0x20070100 1)

/-- TRIM_ABORT (R431): A write of 1 to TRM_CTRL.ABORT aborts the run. -/
def execTrimAbort (s : State) : Host.Outcome State Fault Refusal :=
  .next (s.chip fun m => m.1.hostPut m.2 0x20070100 2)

end Sys2Proof.Machine
end

