-- ==== Sys2Proof/Machine/ThatchVector.lean ====
section
/-! DEFINITION. The shapes of the vector and predicate instructions of a Course engine, its source sampler, matrix, accumulator
and finish operations (chapter 05). -/

namespace Sys2Proof.Machine

open Sys2Proof

/-- The sixteen lanes of a vector register. -/
abbrev Vec := Vector Word 16

def zeroVec : Vec := Vector.replicate 16 0

/-- Vector and predicate registers (R133); the numbers of a word that executes exist (R134). -/
def Engine.vget (g : Engine) (r : BitVec 5) : Vec := getN g.v r.toNat zeroVec
def Engine.vput (g : Engine) (r : BitVec 5) (x : Vec) : Engine := { g with v := updN g.v r.toNat fun _ => x }
def Engine.pget (g : Engine) (r : Nat) : BitVec 16 := getN g.p r 0
def Engine.pput (g : Engine) (r : Nat) (x : BitVec 16) : Engine := { g with p := updN g.p r fun _ => x }

/-- The lanes that a predicated instruction writes (R135). -/
def Engine.lanes (g : Engine) (mod : BitVec 9) : BitVec 16 :=
  if mod.getLsbD 3 then g.pget (mod.extractLsb' 0 3).toNat else 0xFFFF

/-- Q set on an engine's core when a lane clamped (R136). -/
def Engine.clamped (g : Engine) (q : Bool) : Engine := { g with core := { g.core with flg := g.core.flg.sticky q } }

/-- Lanes written under a mask, with Q when a written lane clamps. -/
def Engine.write (g : Engine) (dst : BitVec 5) (mask : BitVec 16) (f : Fin 16 → Word × Bool) : Engine :=
  let old := g.vget dst
  let g' := g.vput dst (Vector.ofFn fun k => if mask.getLsbD k.val then (f k).1 else old[k])
  g'.clamped ((List.finRange 16).any fun k => mask.getLsbD k.val && (f k).2)

/-- The modifier of a predicated instruction (R135), with five bits above it, and VLDS's (R147, R148). -/
def shiftMod (n : BitVec 5) (p : Option (BitVec 3)) : BitVec 9 :=
  match p with
  | none => n ++ (0 : BitVec 4)
  | some q => n ++ (1 : BitVec 1) ++ q
def predMod (p : Option (BitVec 3)) : BitVec 9 := shiftMod 0 p
def sampleMod (binding : BitVec 2) (bilinear clamp : Bool) : BitVec 9 :=
  (0 : BitVec 5) ++ BitVec.ofBool clamp ++ BitVec.ofBool bilinear ++ binding

/-- An instruction that changes its engine alone. -/
def issueEng (m : Chip) (e : Fin 8) (w : Word) (n : Nat) (f : Engine → Engine) : Chip :=
  issue m (.engine e) w n 0 fun m => .next (m.1.onEng e f, m.2)

/-! ### Per-lane arithmetic (R143, R144) -/

/-- A predicated instruction of two vectors; `f` sees the destination's lane too. -/
def vec3 (m : Chip) (e : Fin 8) (op : Byte) (dst a b : BitVec 5) (mod : BitVec 9)
    (f : Word → Word → Word → Word × Bool) : Chip :=
  issueEng m e (encR op dst a b mod) (rowCycles op) fun g =>
    g.write dst (g.lanes mod) fun k => f (g.vget dst)[k] (g.vget a)[k] (g.vget b)[k]

/-- The same without a clamp and without the destination. -/
def vec2 (m : Chip) (e : Fin 8) (op : Byte) (dst a b : BitVec 5) (mod : BitVec 9) (f : Word → Word → Word) : Chip :=
  vec3 m e op dst a b mod fun _ x y => (f x y, false)

/-- VFMUL and VFMULU: FXMUL and FXMULU with rounding and saturation, and whether they clamp. -/
def vfmul (mod : BitVec 9) (x y : Word) : Word × Bool :=
  satSigned (fxShift (x.toInt * y.toInt) (mod.extractLsb' 4 5).toNat true)
def vfmulu (mod : BitVec 9) (x y : Word) : Word × Bool :=
  satUnsigned (fxShift ((x.toNat * y.toNat : Nat) : Int) (mod.extractLsb' 4 5).toNat true)

/-- VFMAC: the VFMUL result added exactly, then saturated. (DEDUCED, log 32) -/
def vfmac (mod : BitVec 9) (d x y : Word) : Word × Bool :=
  let p := vfmul mod x y
  let s := satSigned (d.toInt + p.1.toInt)
  (s.1, p.2 || s.2)

/-- A clamp to 0 to 1.0 (VCLU, R152, R154). -/
def unit16 (x : Word) : Word × Bool :=
  if x.toInt < 0 then (0, true) else if 0x10000 < x.toInt then (0x10000, true) else (x, false)

/-- An unpredicated instruction of one vector in the I format. -/
def vecI (m : Chip) (e : Fin 8) (op : Byte) (dst a : BitVec 5) (imm : BitVec 14) (f : Word → Nat → Word) : Chip :=
  issueEng m e (encI op dst a imm) (rowCycles op) fun g =>
    g.write dst 0xFFFF fun k => (f (g.vget a)[k] (imm.extractLsb' 0 5).toNat, false)

/-- A comparison into a predicate. -/
def vcmp (m : Chip) (e : Fin 8) (op : Byte) (dst a b : BitVec 5) (mod : BitVec 9) (f : Word → Word → Bool) : Chip :=
  issueEng m e (encR op dst a b mod) (rowCycles op) fun g =>
    g.pput dst.toNat ((List.finRange 16).foldl
      (fun x k => setBit x k.val (f (g.vget a)[k] (g.vget b)[k])) 0)

/-- An operation between predicates. -/
def pred2 (m : Chip) (e : Fin 8) (op : Byte) (dst a b : BitVec 5) (mod : BitVec 9)
    (f : BitVec 16 → BitVec 16 → BitVec 16) : Chip :=
  issueEng m e (encR op dst a b mod) (rowCycles op) fun g =>
    g.pput dst.toNat (f (g.pget a.toNat) (g.pget b.toNat))

/-- A change of the scalar core. -/
def Engine.onCore (g : Engine) (f : Core → Core) : Engine := { g with core := f g.core }

/-! ### The lanes of the patch (R137, R138) -/

/-- The grid place of lane `k` of vector VIDX of an engine's patch. -/
def Dev.lanePlace (d : Dev) (e : Fin 8) (k : Nat) : Nat × Nat :=
  let g := d.engAt e
  let o := match g.work with | none => (0, 0) | some w => d.scan.patchOrigin w.patch.val
  (o.1 + 16 * (g.vidx.toNat % 4) + k, o.2 + g.vidx.toNat / 4)

/-- The word index of the emitter at a lane; none for an invalid lane. -/
def Dev.laneWord (d : Dev) (e : Fin 8) (k : Nat) : Option Nat :=
  let p := d.lanePlace e k
  d.scan.indexAt p.1 p.2

/-- Sites of the row of `(x, y)` to the left of tile `t`. -/
def Scan.sitesLeft (s : Scan) (t y : Nat) : Nat :=
  let u := s.tile t
  ((s.present.filter fun v =>
      let z := s.tile v
      decide (z.ex.toNat < u.ex.toNat) && decide (z.ey.toNat ≤ y) && decide (y < z.ey.toNat + z.height)).map fun v =>
    descAcross (s.tile v).desc).sum

/-- Attribute `i` of the place `(x, y)` (R138). -/
def Scan.attribute (s : Scan) (x y i : Nat) : Nat :=
  match i with
  | 0 => x
  | 1 => y
  | i => match s.present.find? fun t => s.covers t x y with
    | none => 0
    | some t =>
      let u := s.tile t
      let dx := x - u.ex.toNat
      let eps := descEps u.desc
      match i with
      | 2 => s.sitesLeft t y + dx / eps
      | 3 => y
      | 4 => dx % eps
      | 5 => t
      | 6 => (s.indexAt x y).getD 0
      | _ => 1

/-- The E index of a lane (R138, R149). -/
def Dev.laneE (d : Dev) (e : Fin 8) (k : Nat) : Nat :=
  let p := d.lanePlace e k
  d.scan.attribute p.1 p.2 4

/-- VPOS. -/
def vposOp (m : Chip) (e : Fin 8) (dst a : BitVec 5) (imm : BitVec 14) : Chip :=
  issue m (.engine e) (encI 0xA2 dst a imm) (rowCycles 0xA2) 0 fun m =>
    let d := m.1
    .next (d.onEng e fun g => g.write dst 0xFFFF fun k =>
      let p := d.lanePlace e k.val
      (BitVec.ofNat 32 (d.scan.attribute p.1 p.2 (imm.extractLsb' 0 3).toNat), false), m.2)

/-! ### Vector memory (R139, R142) -/

/-- Sixteen words from 64 bytes. -/
def vecOfBytes (bs : List Byte) : Vec :=
  Vector.ofFn fun k => BitVec.ofNat 32 (leNat ((bs.drop (4 * k.val)).take 4))

/-- A vector's 64 bytes. -/
def vecBytes (x : Vec) : List Byte := x.toList.flatMap fun (w : Word) => leBytes w.toNat 4

/-- A load of the local store or the parameter block, aligned to `al`. -/
def localLoad (d : Dev) (e : Fin 8) (addr : Word) (al n : Nat) : Access (List Byte × Dev) :=
  let a := addr.toNat
  if a % al ≠ 0 then .error (tAlign, d)
  else if 0x10000000 ≤ a then .error (tAccess, d)
  else engineLoad d e a n

/-- VLD. -/
def vldOp (m : Chip) (e : Fin 8) (dst a : BitVec 5) (imm : BitVec 14) : Chip :=
  let addr := effAddr m (.engine e) a imm
  issue m (.engine e) (encI 0xA3 dst a imm) (rowCycles 0xA3) 0 fun m =>
    match localLoad m.1 e addr 64 64 with
    | .error x => .trap x.2 x.1 addr
    | .ok x => .next (x.2.onEng e fun g => g.vput dst (vecOfBytes x.1), m.2)

/-- VST. -/
def vstOp (m : Chip) (e : Fin 8) (src a : BitVec 5) (imm : BitVec 14) : Chip :=
  let addr := effAddr m (.engine e) a imm
  issue m (.engine e) (encI 0xA4 src a imm) (rowCycles 0xA4) 0 fun m =>
    match memStore m (.engine e) addr (vecBytes ((m.1.engAt e).vget src)) with
    | .error x => .trap x.2 x.1 addr
    | .ok y => .next y

/-- VMLD (R149). -/
def vmldOp (m : Chip) (e : Fin 8) (dst a : BitVec 5) (imm : BitVec 14) : Chip :=
  let addr := effAddr m (.engine e) a imm
  issue m (.engine e) (encI 0xA7 dst a imm) (rowCycles 0xA7) 0 fun m =>
    match localLoad m.1 e addr 8 32 with
    | .error x => .trap x.2 x.1 addr
    | .ok x =>
      let mat : Vector (BitVec 16) 16 :=
        Vector.ofFn fun k => BitVec.ofNat 16 (leNat ((x.1.drop (2 * k.val)).take 2))
      .next (x.2.onEng e fun g => { g with m := mat }, m.2)

/-- What reading ranges of the Loft does to its error state: once for each 8-byte word (02 R57, R58). -/
def Dev.touchAll (d : Dev) (rs : List (Nat × Nat)) : Dev :=
  let hit (w : Nat) : Bool := rs.any fun r => touchesWord r.1 r.2 w
  let ce := d.loft.ce.filter hit
  let ue := d.loft.ue.filter hit
  ue.foldl Dev.reportUe (ce.foldl Dev.correctCe d)

/-- Reads of the Loft by lanes: MEM_UE at the first word that cannot be read, else what follows. (DEDUCED, log 32) -/
def Dev.gather (d : Dev) (rs : List (Nat × Nat)) (k : Dev → IOut) : IOut :=
  let d' := d.touchAll rs
  match rs.find? fun r => d.loftUe r.1 r.2 with
  | some r => .trap d' tMemUe (BitVec.ofNat 32 r.1)
  | none => k d'

/-- VGATH (R153): plain Loft addresses. (DEDUCED, log 32) -/
def vgathOp (m : Chip) (e : Fin 8) (dst a b : BitVec 5) (mod : BitVec 9) : Chip :=
  issue m (.engine e) (encR 0xA6 dst a b mod) (rowCycles 0xA6) 0 fun m =>
    let g := m.1.engAt e
    let base := (g.core.get b).toNat
    let rs : List (Nat × Nat) := (g.vget a).toList.map fun (x : Word) => (base + 4 * x.toNat, 4)
    match rs.find? fun r => !m.1.inRegion [1, 3, 4] r with
    | some r => .trap m.1 tAccess (BitVec.ofNat 32 r.1)
    | none => m.1.gather rs fun d =>
        .next (d.onEng e fun g => g.write dst 0xFFFF fun k =>
          (read32 d.loft.cells (base + 4 * (g.vget a)[k].toNat), false), m.2)

/-! ### Sources (R145 to R148) -/

/-- A quotient rounded to nearest, halves up (R146). -/
def roundDiv (a b : Int) : Int := Int.fdiv (2 * a + b) (2 * b)

/-- An n-bit code as a fraction of its largest. -/
def scaleCode (n x : Nat) : Int := roundDiv (x * 65536) (2 ^ n - 1)

/-- The Loft bytes of pixel `(i, j)`, by plane (R145). -/
def RunSource.accesses (x : RunSource) (i j : Nat) : List (Nat × Nat) :=
  let off := match x.hold with | none => 0 | some h => h.base
  let at_ (p row col n : Nat) : Nat × Nat := (off + getN x.desc.bases p 0 + getN x.desc.strides p 0 * row + col, n)
  match x.desc.fmt.toNat with
  | 1 | 2 => [at_ 0 j (2 * i) 2]
  | 3 => [at_ 0 j (3 * i) 3]
  | 4 | 5 | 6 => [at_ 0 j (4 * i) 4]
  | 7 => [at_ 0 j i 1, at_ 1 (j / 2) (i / 2) 1, at_ 2 (j / 2) (i / 2) 1]
  | 8 => [at_ 0 j i 1, at_ 1 (j / 2) (2 * (i / 2)) 2]
  | 9 => [at_ 0 j i 1, at_ 1 j (i / 2) 1, at_ 2 j (i / 2) 1]
  | _ => [at_ 0 j i 1, at_ 1 j (2 * (i / 2)) 2]

/-- The four channels of a pixel from its bytes (R145, R146). -/
def pixelChannels (fmt : Nat) (range : Bool) (bs : List Byte) : List Int :=
  let b (k : Nat) : Nat := (bs.getD k 0).toNat
  let one : Int := 65536
  let f (v lsb n : Nat) : Int := scaleCode n ((v / 2 ^ lsb) % 2 ^ n)
  let v := leNat bs
  match fmt with
  | 1 => let l := scaleCode 16 v; [l, l, l, one]
  | 2 => [f v 11 5, f v 5 6, f v 0 5, one]
  | 3 => [f v 0 8, f v 8 8, f v 16 8, one]
  | 4 => [f v 0 8, f v 8 8, f v 16 8, f v 24 8]
  | 5 => [f v 0 10, f v 10 10, f v 20 10, f v 30 2]
  | 6 => let l := f v 0 16; [l, l, l, f v 16 16]
  | _ =>
    let c (k : Nat) : Int := roundDiv (((b k : Int) - 128) * 65536) (if range then 255 else 224)
    let y : Int := if range then roundDiv (b 0 * 65536) 255 else roundDiv (((b 0 : Int) - 16) * 65536) 219
    [y, c 1, c 2, one]

/-- The texel `(i, j)` that a sample takes: none for the transparent border (R147). -/
def SourceDesc.texel (x : SourceDesc) (clamp : Bool) (i j : Int) : Option (Nat × Nat) :=
  let w : Int := x.width.toNat
  let h : Int := x.height.toNat
  let inside : Bool := decide (0 ≤ i) && decide (i < w) && decide (0 ≤ j) && decide (j < h)
  if inside || clamp then some ((max 0 (min i (w - 1))).toNat, (max 0 (min j (h - 1))).toNat) else none

/-- A texel's channels: 0 outside, and for a word with an uncorrectable error. -/
def Dev.texelValue (d : Dev) (x : RunSource) (t : Option (Nat × Nat)) : List Int :=
  match t with
  | none => [0, 0, 0, 0]
  | some t =>
    let rs := x.accesses t.1 t.2
    if rs.any fun r => d.loftUe r.1 r.2 then [0, 0, 0, 0]
    else pixelChannels x.desc.fmt.toNat x.desc.range (rs.flatMap fun r => d.loftBytes r.1 r.2)

/-- The texels of one sample, in the order t00, t10, t01, t11; one for nearest sampling (R147). -/
def sampleTexels (x : SourceDesc) (mod : BitVec 9) (sx sy : Word) : List (Option (Nat × Nat)) :=
  let clamp := mod.getLsbD 3
  if mod.getLsbD 2 then
    let i := Int.fdiv (sx.toInt - 32768) 65536
    let j := Int.fdiv (sy.toInt - 32768) 65536
    [x.texel clamp i j, x.texel clamp (i + 1) j, x.texel clamp i (j + 1), x.texel clamp (i + 1) (j + 1)]
  else [x.texel clamp (Int.fdiv sx.toInt 65536) (Int.fdiv sy.toInt 65536)]

/-- Channel `c` of one sample (R147). -/
def Dev.sample (d : Dev) (x : RunSource) (mod : BitVec 9) (sx sy : Word) (c : Nat) : Word :=
  let ts := (sampleTexels x.desc mod sx sy).map fun t => (d.texelValue x t).getD c 0
  if mod.getLsbD 2 then
    let fr (v : Word) : Int := Int.fdiv (Int.fmod (v.toInt - 32768) 65536) 256
    let fx := fr sx
    let fy := fr sy
    let t (k : Nat) : Int := ts.getD k 0
    wordOf (Int.fdiv ((t 0 * (256 - fx) + t 1 * fx) * (256 - fy) + (t 2 * (256 - fx) + t 3 * fx) * fy + 32768) 65536)
  else wordOf (ts.getD 0 0)

/-- The source of a binding of the running context, if usable (R148). -/
def Dev.boundSource (d : Dev) (e : Fin 8) (binding : Nat) : Option RunSource :=
  match (d.engAt e).work with
  | none => none
  | some w => match w.inv, d.course.runOf w.frame with
    | some i, some r =>
      if i.ctx = 0 then none
      else match getN r.sources (byteAt i.src binding).toNat none with
        | none => none
        | some x => if x.desc.link.isSome && x.hold.isNone then none else some x
    | _, _ => none

/-- VLDS. -/
def vldsOp (m : Chip) (e : Fin 8) (dst a b : BitVec 5) (mod : BitVec 9) : Chip :=
  issue m (.engine e) (encR 0xA5 dst a b mod) (if mod.getLsbD 2 then 32 else 16) 0 fun m =>
    let binding := mod.extractLsb' 0 2
    match m.1.boundSource e binding.toNat with
    | none => .trap m.1 tSrcUnbound (zx binding)
    | some x =>
      let g := m.1.engAt e
      let xs := g.vget a
      let ys := g.vget b
      let rs := (List.finRange 16).flatMap fun k =>
        (sampleTexels x.desc mod xs[k] ys[k]).flatMap fun t => match t with
          | none => []
          | some t => x.accesses t.1 t.2
      let d := m.1.touchAll rs
      let ch (c : Nat) (g : Engine) : Engine :=
        g.vput (dst + BitVec.ofNat 5 c) (Vector.ofFn fun k => m.1.sample x mod xs[k] ys[k] c)
      .next (d.onEng e fun g => ch 3 (ch 2 (ch 1 (ch 0 g))), m.2)

/-! ### Matrix and accumulator (R149, R150) -/

/-- VCMX. -/
def vcmxOp (m : Chip) (e : Fin 8) (dst a b : BitVec 5) (mod : BitVec 9) : Chip :=
  issue m (.engine e) (encR 0xA8 dst a b mod) (rowCycles 0xA8) 0 fun m =>
    let d := m.1
    .next (d.onEng e fun g => g.write dst (g.lanes mod) fun k =>
      let row := 4 * d.laneE e k.val
      let t (c : Nat) : Int := (getN g.m (row + c) 0).toInt * (g.vget (a + BitVec.ofNat 5 c))[k].toInt
      satSigned (Int.fdiv (t 0 + t 1 + t 2 + t 3 + 2048) 4096), m.2)

/-- One lane of VBLEND: the new accumulator entry, and whether it was clamped (R150). (DEDUCED, log 32) -/
def blend (mode : Nat) (acc s alpha : Word) : Word × Bool :=
  let p : Int := acc.toNat
  let s : Int := max 0 s.toInt
  let al : Int := (unit16 alpha).1.toInt
  satUnsigned (match mode with
    | 0 => s
    | 1 => p + s
    | 2 => p - s
    | 3 => Int.fdiv (p * s + 32768) 65536
    | 4 => max p s
    | 5 => min p s
    | 6 => p + Int.fdiv ((s - p) * al + 32768) 65536
    | _ => Int.fdiv (p * al + 32768) 65536)

/-- Whether the running program is the finish program. -/
def Dev.inFinish (d : Dev) (e : Fin 8) : Bool :=
  match d.invAt e with
  | none => false
  | some i => i.ctx == 0

/-- A change of the patch on an engine. -/
def Engine.onWork (g : Engine) (f : Work → Work) : Engine := { g with work := g.work.map f }

/-- The accumulator entry of lane `k` of vector VIDX. -/
def Engine.accAt (g : Engine) (k : Nat) : Word :=
  match g.work with
  | none => 0
  | some w => cellGet w.acc (16 * g.vidx.toNat + k)

/-- VBLEND. (DEDUCED, log 32) -/
def vblendOp (m : Chip) (e : Fin 8) (dst a b : BitVec 5) (mod : BitVec 9) : Chip :=
  let word := encR 0xA9 dst a b mod
  issue m (.engine e) word (rowCycles 0xA9) 0 fun m =>
    let d := m.1
    if d.inFinish e then .trap d tContextOnly word
    else
      let g := d.engAt e
      let on := (List.finRange 16).filter fun k => (g.lanes mod).getLsbD k.val && (d.laneWord e k.val).isSome
      let put := on.map fun k => (16 * g.vidx.toNat + k.val,
        blend (mod.extractLsb' 4 3).toNat (g.accAt k.val) (g.vget a)[k] (g.vget b)[k])
      .next (d.onEng e fun g => (g.onWork fun w =>
        { w with acc := put.foldl (fun t (x : Nat × Word × Bool) => cellSet t x.1 x.2.1) w.acc }).clamped
          (put.any fun x => x.2.2), m.2)

/-- VACCR. -/
def vaccrOp (m : Chip) (e : Fin 8) (dst : BitVec 5) (imm : BitVec 19) : Chip :=
  issueEng m e (encL 0xAA dst imm) (rowCycles 0xAA) fun g => g.vput dst (Vector.ofFn fun k => g.accAt k.val)

/-! ### Finish operations (R151 to R155) -/

/-- VUNI (R151). (DEDUCED, log 32) -/
def vuniOp (m : Chip) (e : Fin 8) (dst a b : BitVec 5) (mod : BitVec 9) : Chip :=
  let word := encR 0xAD dst a b mod
  issue m (.engine e) word (rowCycles 0xAD) 0 fun m =>
    let d := m.1
    let base := ((d.engAt e).core.get b).toNat
    if !d.inFinish e then .trap d tFinishOnly word
    else if !d.inRegion [3] (base, d.scan.emitters) then .trap d tAccess (BitVec.ofNat 32 base)
    else
      let rs := (upTo 16).filterMap fun k => (d.laneWord e k).map fun n => (base + n, 1)
      d.gather rs fun d' =>
        .next (d'.onEng e fun g => g.write dst 0xFFFF fun k =>
          match d.laneWord e k.val with
          | none => (0, false)
          | some n =>
            let gain := leNat (d.loftBytes (base + n) 1)
            satUnsigned ((((g.vget a)[k].toNat * gain + 64) / 128 : Nat) : Int), m.2)

/-- The entries of a table that a lane of VLUT reads, and its fraction (R152). -/
def lutIndex (x : Word) : Nat × Nat := let v := (unit16 x).1.toNat; (v / 64, v % 64)

/-- The ranges a lane of VLUT reads. -/
def lutReads (base : Nat) (x : Word) : List (Nat × Nat) :=
  let i := (lutIndex x).1
  (base + 4 * i, 4) :: (if i < 1024 then [(base + 4 * (i + 1), 4)] else [])

/-- One lane of VLUT. -/
def Dev.lut (d : Dev) (base : Nat) (x : Word) : Word :=
  let i := (lutIndex x).1
  let t (j : Nat) : Int := (read32 d.loft.cells (base + 4 * j)).toInt
  if 1024 ≤ i then wordOf (t 1024)
  else wordOf (t i + Int.fdiv ((t (i + 1) - t i) * (lutIndex x).2 + 32) 64)

/-- VLUT (R152). (DEDUCED, log 32) -/
def vlutOp (m : Chip) (e : Fin 8) (dst a b : BitVec 5) (mod : BitVec 9) : Chip :=
  issue m (.engine e) (encR 0xAE dst a b mod) (rowCycles 0xAE) 0 fun m =>
    let d := m.1
    let g := d.engAt e
    let base := (g.core.get b).toNat
    if base % 4 ≠ 0 ∨ d.inRegion [4] (base, 4100) = false then .trap d tAccess (BitVec.ofNat 32 base)
    else d.gather ((g.vget a).toList.flatMap fun x => lutReads base x) fun d' =>
        .next (d'.onEng e fun g => g.write dst 0xFFFF fun k => (d.lut base (g.vget a)[k], false), m.2)

/-- DEPTH of the run that an engine renders (05 R141). -/
def Dev.depthOf (d : Dev) (e : Fin 8) : Nat := (d.patchCsr e 0x15).toNat

/-- VQNT (R154). -/
def vqntOp (m : Chip) (e : Fin 8) (dst a b : BitVec 5) (mod : BitVec 9) : Chip :=
  let word := encR 0xAF dst a b mod
  issue m (.engine e) word (rowCycles 0xAF) 0 fun m =>
    let d := m.1
    if !d.inFinish e then .trap d tFinishOnly word
    else .next (d.onEng e fun g => g.write dst 0xFFFF fun k =>
      (BitVec.ofNat 32 (((unit16 (g.vget a)[k]).1.toNat * (2 ^ d.depthOf e - 1) + 32768) / 65536), false), m.2)

/-- VOUT (R155): a lane is read as signed, and the accumulator stands. (DEDUCED, log 32; DESIGN CHOICE, log 110) -/
def voutOp (m : Chip) (e : Fin 8) (dst a b : BitVec 5) (mod : BitVec 9) : Chip :=
  let word := encR 0xB0 dst a b mod
  issue m (.engine e) word (rowCycles 0xB0) 0 fun m =>
    let d := m.1
    if !d.inFinish e then .trap d tFinishOnly word
    else
      let g := d.engAt e
      let top : Int := 2 ^ d.depthOf e - 1
      let on := (List.finRange 16).filter fun k => (d.laneWord e k.val).isSome
      let put : List (Nat × BitVec 16) := on.map fun k =>
        (16 * g.vidx.toNat + k.val, BitVec.ofInt 16 (max 0 (min top (g.vget a)[k].toInt)))
      let q := on.any fun k => decide ((g.vget a)[k].toInt < 0) || decide (top < (g.vget a)[k].toInt)
      .next (d.onEng e fun g => (g.onWork fun w =>
        { w with words := (w.words.filter fun x => x.1 / 16 != g.vidx.toNat) ++ put }).clamped q, m.2)

/-- PEND (R157): the end of the invocation costs 12 cycles more. -/
def pendOp (m : Chip) (e : Fin 8) (w : Word) : Chip :=
  issue m (.engine e) w (rowCycles 0xB1) 12 fun m => .stop m fun d => d.endInv e

end Sys2Proof.Machine
end

