-- ==== Sys2Proof/Machine/VectorRows.lean ====
section
/-! DEFINITION. Thatch instructions of the Course engines (05 R143 to R157): each row's meaning, over the operations it shares. -/

namespace Sys2Proof.Machine

open Sys2Proof


/-- VADD (R143): Vector add. -/
def execVadd (e : Fin 8) (dst a b : BitVec 5) (p : Option (BitVec 3)) (s : State) : Host.Outcome State Fault Refusal :=
  .next (s.chip fun m => vec2 m e 0x80 dst a b (predMod p) fun x y => x + y)

/-- VSUB (R143): Vector subtract. -/
def execVsub (e : Fin 8) (dst a b : BitVec 5) (p : Option (BitVec 3)) (s : State) : Host.Outcome State Fault Refusal :=
  .next (s.chip fun m => vec2 m e 0x81 dst a b (predMod p) fun x y => x - y)

/-- VADDS (R143): Vector signed saturated add. -/
def execVadds (e : Fin 8) (dst a b : BitVec 5) (p : Option (BitVec 3)) (s : State) : Host.Outcome State Fault Refusal :=
  .next (s.chip fun m => vec3 m e 0x82 dst a b (predMod p) fun _ x y => satSigned (x.toInt + y.toInt))

/-- VADDUS (R143): Vector unsigned saturated add. -/
def execVaddus (e : Fin 8) (dst a b : BitVec 5) (p : Option (BitVec 3))
    (s : State) : Host.Outcome State Fault Refusal :=
  .next (s.chip fun m => vec3 m e 0x83 dst a b (predMod p) fun _ x y => satUnsigned ((x.toNat : Int) + y.toNat))

/-- VSUBUS (R143): Vector unsigned saturated subtract. -/
def execVsubus (e : Fin 8) (dst a b : BitVec 5) (p : Option (BitVec 3))
    (s : State) : Host.Outcome State Fault Refusal :=
  .next (s.chip fun m => vec3 m e 0x84 dst a b (predMod p) fun _ x y => satUnsigned ((x.toNat : Int) - y.toNat))

/-- VFMUL (R144): Vector signed fixed-point multiply. -/
def execVfmul (e : Fin 8) (dst a b n : BitVec 5) (p : Option (BitVec 3))
    (s : State) : Host.Outcome State Fault Refusal :=
  .next (s.chip fun m => vec3 m e 0x85 dst a b (shiftMod n p) fun _ x y => vfmul (shiftMod n p) x y)

/-- VFMULU (R144): Vector unsigned fixed-point multiply. -/
def execVfmulu (e : Fin 8) (dst a b n : BitVec 5) (p : Option (BitVec 3))
    (s : State) : Host.Outcome State Fault Refusal :=
  .next (s.chip fun m => vec3 m e 0x86 dst a b (shiftMod n p) fun _ x y => vfmulu (shiftMod n p) x y)

/-- VFMAC (R144): Vector fixed-point multiply-accumulate. -/
def execVfmac (e : Fin 8) (dst a b n : BitVec 5) (p : Option (BitVec 3))
    (s : State) : Host.Outcome State Fault Refusal :=
  .next (s.chip fun m => vec3 m e 0x87 dst a b (shiftMod n p) fun z x y => vfmac (shiftMod n p) z x y)

/-- VMIN (R143): Vector signed minimum. -/
def execVmin (e : Fin 8) (dst a b : BitVec 5) (p : Option (BitVec 3)) (s : State) : Host.Outcome State Fault Refusal :=
  .next (s.chip fun m => vec2 m e 0x88 dst a b (predMod p) fun x y => sMin x y)

/-- VMAX (R143): Vector signed maximum. -/
def execVmax (e : Fin 8) (dst a b : BitVec 5) (p : Option (BitVec 3)) (s : State) : Host.Outcome State Fault Refusal :=
  .next (s.chip fun m => vec2 m e 0x89 dst a b (predMod p) fun x y => sMax x y)

/-- VMINU (R143): Vector unsigned minimum. -/
def execVminu (e : Fin 8) (dst a b : BitVec 5) (p : Option (BitVec 3)) (s : State) : Host.Outcome State Fault Refusal :=
  .next (s.chip fun m => vec2 m e 0x8A dst a b (predMod p) fun x y => uMin x y)

/-- VMAXU (R143): Vector unsigned maximum. -/
def execVmaxu (e : Fin 8) (dst a b : BitVec 5) (p : Option (BitVec 3)) (s : State) : Host.Outcome State Fault Refusal :=
  .next (s.chip fun m => vec2 m e 0x8B dst a b (predMod p) fun x y => uMax x y)

/-- VAND (R143): Vector bitwise and. -/
def execVand (e : Fin 8) (dst a b : BitVec 5) (p : Option (BitVec 3)) (s : State) : Host.Outcome State Fault Refusal :=
  .next (s.chip fun m => vec2 m e 0x8C dst a b (predMod p) fun x y => x &&& y)

/-- VOR (R143): Vector bitwise or. -/
def execVor (e : Fin 8) (dst a b : BitVec 5) (p : Option (BitVec 3)) (s : State) : Host.Outcome State Fault Refusal :=
  .next (s.chip fun m => vec2 m e 0x8D dst a b (predMod p) fun x y => x ||| y)

/-- VXOR (R143): Vector bitwise exclusive or. -/
def execVxor (e : Fin 8) (dst a b : BitVec 5) (p : Option (BitVec 3)) (s : State) : Host.Outcome State Fault Refusal :=
  .next (s.chip fun m => vec2 m e 0x8E dst a b (predMod p) fun x y => x ^^^ y)

/-- VCLU (R143): Vector clamp to 0 to 1.0. -/
def execVclu (e : Fin 8) (dst a : BitVec 5) (p : Option (BitVec 3)) (s : State) : Host.Outcome State Fault Refusal :=
  .next (s.chip fun m => vec3 m e 0x8F dst a 0 (predMod p) fun _ x _ => unit16 x)

/-- VSHLI (R143): Vector shift left by an immediate. -/
def execVshli (e : Fin 8) (dst a n : BitVec 5) (s : State) : Host.Outcome State Fault Refusal :=
  .next (s.chip fun m => vecI m e 0x90 dst a (n.setWidth 14) fun x n => x <<< n)

/-- VSHRI (R143): Vector logical shift right by an immediate. -/
def execVshri (e : Fin 8) (dst a n : BitVec 5) (s : State) : Host.Outcome State Fault Refusal :=
  .next (s.chip fun m => vecI m e 0x91 dst a (n.setWidth 14) fun x n => x >>> n)

/-- VSARI (R143): Vector arithmetic shift right by an immediate. -/
def execVsari (e : Fin 8) (dst a n : BitVec 5) (s : State) : Host.Outcome State Fault Refusal :=
  .next (s.chip fun m => vecI m e 0x92 dst a (n.setWidth 14) fun x n => x.sshiftRight n)

/-- VLI (R143): Vector load of an immediate into every lane. -/
def execVli (e : Fin 8) (dst : BitVec 5) (imm : BitVec 19) (s : State) : Host.Outcome State Fault Refusal :=
  .next (s.chip fun m =>
    issueEng m e (encL 0x93 dst imm) (rowCycles 0x93) fun g => g.vput dst (Vector.replicate 16 (sx imm)))

/-- VSPLAT (R143): Broadcast a scalar to every lane. -/
def execVsplat (e : Fin 8) (dst a : BitVec 5) (p : Option (BitVec 3)) (s : State) : Host.Outcome State Fault Refusal :=
  .next (s.chip fun m =>
    issueEng m e (encR 0x94 dst a 0 (predMod p)) (rowCycles 0x94) fun g => g.write dst (g.lanes (predMod p)) fun _ =>
      (g.core.get a, false))

/-- VGET (R143): Read one lane into a scalar. -/
def execVget (e : Fin 8) (dst a : BitVec 5) (lane : Fin 16) (s : State) : Host.Outcome State Fault Refusal :=
  .next (s.chip fun m =>
    issueEng m e (encR 0x95 dst a 0 (BitVec.ofNat 9 lane.val)) (rowCycles 0x95) fun g => g.onCore fun x => x.put dst
      (g.vget a)[lane])

/-- VSET (R143): Write a scalar into one lane. -/
def execVset (e : Fin 8) (dst a : BitVec 5) (lane : Fin 16) (s : State) : Host.Outcome State Fault Refusal :=
  .next (s.chip fun m =>
    issueEng m e (encR 0x96 dst a 0 (BitVec.ofNat 9 lane.val)) (rowCycles 0x96) fun g => g.vput dst ((g.vget dst).set
      lane (g.core.get a)))

/-- VSEL (R143): Select per lane by a predicate. -/
def execVsel (e : Fin 8) (dst a b : BitVec 5) (p : BitVec 3) (s : State) : Host.Outcome State Fault Refusal :=
  .next (s.chip fun m =>
    issueEng m e (encR 0x97 dst a b (p.setWidth 9)) (rowCycles 0x97) fun g => g.vput dst (Vector.ofFn fun k => if
      (g.pget p.toNat).getLsbD k.val then (g.vget a)[k] else (g.vget b)[k]))

/-- VCMPEQ (R143): Vector compare equal into a predicate. -/
def execVcmpeq (e : Fin 8) (dst a b : BitVec 5) (s : State) : Host.Outcome State Fault Refusal :=
  .next (s.chip fun m => vcmp m e 0x98 dst a b 0 fun x y => x == y)

/-- VCMPLT (R143): Vector compare less than, signed. -/
def execVcmplt (e : Fin 8) (dst a b : BitVec 5) (s : State) : Host.Outcome State Fault Refusal :=
  .next (s.chip fun m => vcmp m e 0x99 dst a b 0 fun x y => sLt x y)

/-- VCMPLTU (R143): Vector compare less than, unsigned. -/
def execVcmpltu (e : Fin 8) (dst a b : BitVec 5) (s : State) : Host.Outcome State Fault Refusal :=
  .next (s.chip fun m => vcmp m e 0x9A dst a b 0 fun x y => uLt x y)

/-- VCMPLE (R143): Vector compare less than or equal, signed. -/
def execVcmple (e : Fin 8) (dst a b : BitVec 5) (s : State) : Host.Outcome State Fault Refusal :=
  .next (s.chip fun m => vcmp m e 0x9B dst a b 0 fun x y => !sLt y x)

/-- PAND (R143): Predicate and. -/
def execPand (e : Fin 8) (dst a b : BitVec 5) (s : State) : Host.Outcome State Fault Refusal :=
  .next (s.chip fun m => pred2 m e 0x9C dst a b 0 fun x y => x &&& y)

/-- POR (R143): Predicate or. -/
def execPor (e : Fin 8) (dst a b : BitVec 5) (s : State) : Host.Outcome State Fault Refusal :=
  .next (s.chip fun m => pred2 m e 0x9D dst a b 0 fun x y => x ||| y)

/-- PXOR (R143): Predicate exclusive or. -/
def execPxor (e : Fin 8) (dst a b : BitVec 5) (s : State) : Host.Outcome State Fault Refusal :=
  .next (s.chip fun m => pred2 m e 0x9E dst a b 0 fun x y => x ^^^ y)

/-- PNOT (R143): Predicate not. -/
def execPnot (e : Fin 8) (dst a : BitVec 5) (s : State) : Host.Outcome State Fault Refusal :=
  .next (s.chip fun m => pred2 m e 0x9F dst a 0 0 fun x _ => ~~~x)

/-- PMOV (R143): Predicate from a scalar. -/
def execPmov (e : Fin 8) (dst a : BitVec 5) (s : State) : Host.Outcome State Fault Refusal :=
  .next (s.chip fun m =>
    issueEng m e (encR 0xA0 dst a 0 0) (rowCycles 0xA0) fun g => g.pput dst.toNat ((g.core.get a).setWidth 16))

/-- PGET (R143): Scalar from a predicate. -/
def execPget (e : Fin 8) (dst a : BitVec 5) (s : State) : Host.Outcome State Fault Refusal :=
  .next (s.chip fun m =>
    issueEng m e (encR 0xA1 dst a 0 0) (rowCycles 0xA1) fun g => g.onCore fun x => x.put dst (zx (g.pget a.toNat)))

/-- VPOS (R138): Load a lane attribute of the current vector. -/
def execVpos (e : Fin 8) (dst : BitVec 5) (item : BitVec 3) (s : State) : Host.Outcome State Fault Refusal :=
  .next (s.chip fun m => vposOp m e dst 0 (item.setWidth 14))

/-- VLD (R143): Vector load of 64 bytes. -/
def execVld (e : Fin 8) (dst a : BitVec 5) (imm : BitVec 14) (s : State) : Host.Outcome State Fault Refusal :=
  .next (s.chip fun m => vldOp m e dst a imm)

/-- VST (R143): Vector store of 64 bytes. -/
def execVst (e : Fin 8) (src a : BitVec 5) (imm : BitVec 14) (s : State) : Host.Outcome State Fault Refusal :=
  .next (s.chip fun m => vstOp m e src a imm)

/-- VLDS (R147): Source sample load into four vector registers. -/
def execVlds (e : Fin 8) (dst a b : BitVec 5) (binding : BitVec 2) (bilinear clamp : Bool)
    (s : State) : Host.Outcome State Fault Refusal :=
  .next (s.chip fun m => vldsOp m e dst a b (sampleMod binding bilinear clamp))

/-- VGATH (R153): Vector gather of 32-bit words. -/
def execVgath (e : Fin 8) (dst a b : BitVec 5) (s : State) : Host.Outcome State Fault Refusal :=
  .next (s.chip fun m => vgathOp m e dst a b 0)

/-- VMLD (R149): Load the colour-to-emitter matrix. -/
def execVmld (e : Fin 8) (a : BitVec 5) (imm : BitVec 14) (s : State) : Host.Outcome State Fault Refusal :=
  .next (s.chip fun m => vmldOp m e 0 a imm)

/-- VCMX (R149): Apply the colour-to-emitter matrix. -/
def execVcmx (e : Fin 8) (dst a : BitVec 5) (p : Option (BitVec 3)) (s : State) : Host.Outcome State Fault Refusal :=
  .next (s.chip fun m => vcmxOp m e dst a 0 (predMod p))

/-- VBLEND (R150): Blend into the patch accumulator. -/
def execVblend (e : Fin 8) (a b : BitVec 5) (mode : BitVec 3) (p : Option (BitVec 3))
    (s : State) : Host.Outcome State Fault Refusal :=
  .next (s.chip fun m => vblendOp m e 0 a b (shiftMod (mode.setWidth 5) p))

/-- VACCR (R143): Read the accumulator vector. -/
def execVaccr (e : Fin 8) (dst : BitVec 5) (s : State) : Host.Outcome State Fault Refusal :=
  .next (s.chip fun m => vaccrOp m e dst 0)

/-- VSTEP (R143): Advance VIDX. -/
def execVstep (e : Fin 8) (s : State) : Host.Outcome State Fault Refusal :=
  .next (s.chip fun m => issueEng m e (encL 0xAB 0 0) (rowCycles 0xAB) fun g => { g with vidx := g.vidx + 1 })

/-- VSETIDX (R143): Set VIDX from a scalar. -/
def execVsetidx (e : Fin 8) (a : BitVec 5) (s : State) : Host.Outcome State Fault Refusal :=
  .next (s.chip fun m =>
    issueEng m e (encI 0xAC 0 a 0) (rowCycles 0xAC) fun g => { g with vidx := (g.core.get a).setWidth 8 })

/-- VUNI (R151): Apply the uniformity gain. -/
def execVuni (e : Fin 8) (dst a b : BitVec 5) (s : State) : Host.Outcome State Fault Refusal :=
  .next (s.chip fun m => vuniOp m e dst a b 0)

/-- VLUT (R152): Interpolated table lookup. -/
def execVlut (e : Fin 8) (dst a b : BitVec 5) (s : State) : Host.Outcome State Fault Refusal :=
  .next (s.chip fun m => vlutOp m e dst a b 0)

/-- VQNT (R154): Quantise to the frame's depth. -/
def execVqnt (e : Fin 8) (dst a : BitVec 5) (s : State) : Host.Outcome State Fault Refusal :=
  .next (s.chip fun m => vqntOp m e dst a 0 0)

/-- VOUT (R155): Write patch output words. -/
def execVout (e : Fin 8) (a : BitVec 5) (s : State) : Host.Outcome State Fault Refusal :=
  .next (s.chip fun m => voutOp m e 0 a 0 0)

/-- PEND (R157): End the invocation; save the registers of a context with local store. -/
def execPend (e : Fin 8) (s : State) : Host.Outcome State Fault Refusal :=
  .next (s.chip fun m => pendOp m e (encL 0xB1 0 0))

end Sys2Proof.Machine
end

