-- ==== Sys2Proof/Machine/Dispatch.lean ====
section
/-! DEFINITION. The meaning of every command: one arm for each constructor of Instr. -/

namespace Sys2Proof.Machine

open Sys2Proof

/-- The effect of a command on everything but the queue. -/
def exec (i : Instr) (s : State) : Host.Outcome State Fault Refusal :=
  match i with
  | .write addr data part => Sys2Proof.Machine.execWrite addr data part s
  | .readStatus n => Sys2Proof.Machine.execReadStatus n s
  | .read addr n period ready => Sys2Proof.Machine.execRead addr n period ready s
  | .readId n => Sys2Proof.Machine.execReadId n s
  | .portReset => Sys2Proof.Machine.execPortReset s
  | .hpUnknownCommand rise fall => Sys2Proof.Machine.execHpUnknownCommand rise fall s
  | .registerWrite addr value len => Sys2Proof.Machine.execRegisterWrite addr value len s
  | .rcRegisterRead addr => Sys2Proof.Machine.execRcRegisterRead addr s
  | .sysHtimeLoRead => Sys2Proof.Machine.execSysHtimeLoRead s
  | .sysHpCfgWrite value => Sys2Proof.Machine.execSysHpCfgWrite value s
  | .ringBaseWrite n cpl value => Sys2Proof.Machine.execRingBaseWrite n cpl value s
  | .ringEnable n log2 => Sys2Proof.Machine.execRingEnable n log2 s
  | .ringStop n => Sys2Proof.Machine.execRingStop n s
  | .ringDisableDone n => Sys2Proof.Machine.execRingDisableDone n s
  | .ringDoorbell n value => Sys2Proof.Machine.execRingDoorbell n value s
  | .ringConsWrite n value => Sys2Proof.Machine.execRingConsWrite n value s
  | .ringCplConsWrite n value => Sys2Proof.Machine.execRingCplConsWrite n value s
  | .commandFetch => Sys2Proof.Machine.execCommandFetch s
  | .longCommandComplete n => Sys2Proof.Machine.execLongCommandComplete n s
  | .ringIrqTimer n => Sys2Proof.Machine.execRingIrqTimer n s
  | .ringDropReport n => Sys2Proof.Machine.execRingDropReport n s
  | .nop h args => Sys2Proof.Machine.execNop h args s
  | .modeRequest h args => Sys2Proof.Machine.execModeRequest h args s
  | .houseEpoch h args => Sys2Proof.Machine.execHouseEpoch h args s
  | .safeHoldReset h args => Sys2Proof.Machine.execSafeHoldReset h args s
  | .imageLoad h args => Sys2Proof.Machine.execImageLoad h args s
  | .imageDrop h args => Sys2Proof.Machine.execImageDrop h args s
  | .regionSet h args => Sys2Proof.Machine.execRegionSet h args s
  | .regionClear h args => Sys2Proof.Machine.execRegionClear h args s
  | .ctxBind h args => Sys2Proof.Machine.execCtxBind h args s
  | .ctxSwap h args => Sys2Proof.Machine.execCtxSwap h args s
  | .ctxParam h args => Sys2Proof.Machine.execCtxParam h args s
  | .ctxPlace h args => Sys2Proof.Machine.execCtxPlace h args s
  | .ctxSuspend h args => Sys2Proof.Machine.execCtxSuspend h args s
  | .ctxResume h args => Sys2Proof.Machine.execCtxResume h args s
  | .ctxRetire h args => Sys2Proof.Machine.execCtxRetire h args s
  | .ctxMigrate h args => Sys2Proof.Machine.execCtxMigrate h args s
  | .finishSet h args => Sys2Proof.Machine.execFinishSet h args s
  | .engRetire h args => Sys2Proof.Machine.execEngRetire h args s
  | .engReturn h args => Sys2Proof.Machine.execEngReturn h args s
  | .vinDesc h args => Sys2Proof.Machine.execVinDesc h args s
  | .srcDesc h args => Sys2Proof.Machine.execSrcDesc h args s
  | .srcCommit h args => Sys2Proof.Machine.execSrcCommit h args s
  | .tmodeLoad h args => Sys2Proof.Machine.execTmodeLoad h args s
  | .tmodeSelect h args => Sys2Proof.Machine.execTmodeSelect h args s
  | .frameCommit h args => Sys2Proof.Machine.execFrameCommit h args s
  | .calRun h args => Sys2Proof.Machine.execCalRun h args s
  | .calSnapshot h args => Sys2Proof.Machine.execCalSnapshot h args s
  | .calRestore h args => Sys2Proof.Machine.execCalRestore h args s
  | .safetyLoad h args => Sys2Proof.Machine.execSafetyLoad h args s
  | .safetyChange h args => Sys2Proof.Machine.execSafetyChange h args s
  | .zonesetSelect h args => Sys2Proof.Machine.execZonesetSelect h args s
  | .inject h args => Sys2Proof.Machine.execInject h args s
  | .roofReenum h args => Sys2Proof.Machine.execRoofReenum h args s
  | .twinYield h args => Sys2Proof.Machine.execTwinYield h args s
  | .add c dst a b => Sys2Proof.Machine.execAdd c dst a b s
  | .sub c dst a b => Sys2Proof.Machine.execSub c dst a b s
  | .addi c dst a imm => Sys2Proof.Machine.execAddi c dst a imm s
  | .addc c dst a b => Sys2Proof.Machine.execAddc c dst a b s
  | .subb c dst a b => Sys2Proof.Machine.execSubb c dst a b s
  | .and c dst a b => Sys2Proof.Machine.execAnd c dst a b s
  | .or c dst a b => Sys2Proof.Machine.execOr c dst a b s
  | .xor c dst a b => Sys2Proof.Machine.execXor c dst a b s
  | .andi c dst a imm => Sys2Proof.Machine.execAndi c dst a imm s
  | .ori c dst a imm => Sys2Proof.Machine.execOri c dst a imm s
  | .xori c dst a imm => Sys2Proof.Machine.execXori c dst a imm s
  | .shl c dst a b => Sys2Proof.Machine.execShl c dst a b s
  | .shr c dst a b => Sys2Proof.Machine.execShr c dst a b s
  | .sar c dst a b => Sys2Proof.Machine.execSar c dst a b s
  | .shli c dst a imm => Sys2Proof.Machine.execShli c dst a imm s
  | .shri c dst a imm => Sys2Proof.Machine.execShri c dst a imm s
  | .sari c dst a imm => Sys2Proof.Machine.execSari c dst a imm s
  | .clz c dst a => Sys2Proof.Machine.execClz c dst a s
  | .mul c dst a b => Sys2Proof.Machine.execMul c dst a b s
  | .mulh c dst a b => Sys2Proof.Machine.execMulh c dst a b s
  | .mulhu c dst a b => Sys2Proof.Machine.execMulhu c dst a b s
  | .fxmul c dst a b mod => Sys2Proof.Machine.execFxmul c dst a b mod s
  | .fxmulu c dst a b mod => Sys2Proof.Machine.execFxmulu c dst a b mod s
  | .div c dst a b => Sys2Proof.Machine.execDiv c dst a b s
  | .divu c dst a b => Sys2Proof.Machine.execDivu c dst a b s
  | .rem c dst a b => Sys2Proof.Machine.execRem c dst a b s
  | .remu c dst a b => Sys2Proof.Machine.execRemu c dst a b s
  | .sadd c dst a b => Sys2Proof.Machine.execSadd c dst a b s
  | .ssub c dst a b => Sys2Proof.Machine.execSsub c dst a b s
  | .uadds c dst a b => Sys2Proof.Machine.execUadds c dst a b s
  | .usubs c dst a b => Sys2Proof.Machine.execUsubs c dst a b s
  | .min c dst a b => Sys2Proof.Machine.execMin c dst a b s
  | .max c dst a b => Sys2Proof.Machine.execMax c dst a b s
  | .minu c dst a b => Sys2Proof.Machine.execMinu c dst a b s
  | .maxu c dst a b => Sys2Proof.Machine.execMaxu c dst a b s
  | .slt c dst a b => Sys2Proof.Machine.execSlt c dst a b s
  | .sltu c dst a b => Sys2Proof.Machine.execSltu c dst a b s
  | .seq c dst a b => Sys2Proof.Machine.execSeq c dst a b s
  | .slti c dst a imm => Sys2Proof.Machine.execSlti c dst a imm s
  | .sltiu c dst a imm => Sys2Proof.Machine.execSltiu c dst a imm s
  | .sel c dst a b mod => Sys2Proof.Machine.execSel c dst a b mod s
  | .lui c dst imm => Sys2Proof.Machine.execLui c dst imm s
  | .li c dst imm => Sys2Proof.Machine.execLi c dst imm s
  | .fxsat c dst a mod => Sys2Proof.Machine.execFxsat c dst a mod s
  | .fxsatu c dst a mod => Sys2Proof.Machine.execFxsatu c dst a mod s
  | .thatchNop c => Sys2Proof.Machine.execThatchNop c s
  | .beq c a b off => Sys2Proof.Machine.execBeq c a b off s
  | .bne c a b off => Sys2Proof.Machine.execBne c a b off s
  | .blt c a b off => Sys2Proof.Machine.execBlt c a b off s
  | .bge c a b off => Sys2Proof.Machine.execBge c a b off s
  | .bltu c a b off => Sys2Proof.Machine.execBltu c a b off s
  | .bgeu c a b off => Sys2Proof.Machine.execBgeu c a b off s
  | .jmp c off => Sys2Proof.Machine.execJmp c off s
  | .call c off => Sys2Proof.Machine.execCall c off s
  | .ret c => Sys2Proof.Machine.execRet c s
  | .jr c a => Sys2Proof.Machine.execJr c a s
  | .callr c a => Sys2Proof.Machine.execCallr c a s
  | .loopi c imm => Sys2Proof.Machine.execLoopi c imm s
  | .loop c a len => Sys2Proof.Machine.execLoop c a len s
  | .csrr c dst csr => Sys2Proof.Machine.execCsrr c dst csr s
  | .csrw c dst a csr => Sys2Proof.Machine.execCsrw c dst a csr s
  | .trap c imm => Sys2Proof.Machine.execTrap c imm s
  | .brk c => Sys2Proof.Machine.execBrk c s
  | .fence c => Sys2Proof.Machine.execFence c s
  | .unassignedInstruction c word => Sys2Proof.Machine.execUnassignedInstruction c word s
  | .ld c dst a imm => Sys2Proof.Machine.execLd c dst a imm s
  | .ldh c dst a imm => Sys2Proof.Machine.execLdh c dst a imm s
  | .ldhu c dst a imm => Sys2Proof.Machine.execLdhu c dst a imm s
  | .ldb c dst a imm => Sys2Proof.Machine.execLdb c dst a imm s
  | .ldbu c dst a imm => Sys2Proof.Machine.execLdbu c dst a imm s
  | .st c src a imm => Sys2Proof.Machine.execSt c src a imm s
  | .sth c src a imm => Sys2Proof.Machine.execSth c src a imm s
  | .stb c src a imm => Sys2Proof.Machine.execStb c src a imm s
  | .zrow dst a b strict => Sys2Proof.Machine.execZrow dst a b strict s
  | .encg dst item => Sys2Proof.Machine.execEncg dst item s
  | .sig imm => Sys2Proof.Machine.execSig imm s
  | .tend => Sys2Proof.Machine.execTend s
  | .publ a => Sys2Proof.Machine.execPubl a s
  | .hbt => Sys2Proof.Machine.execHbt s
  | .sofx dst a => Sys2Proof.Machine.execSofx dst a s
  | .amoadd dst a b => Sys2Proof.Machine.execAmoadd dst a b s
  | .amoswp dst a b => Sys2Proof.Machine.execAmoswp dst a b s
  | .evpost a b => Sys2Proof.Machine.execEvpost a b s
  | .wfi dst a => Sys2Proof.Machine.execWfi dst a s
  | .wfiWake => Sys2Proof.Machine.execWfiWake s
  | .tret => Sys2Proof.Machine.execTret s
  | .dird dst => Sys2Proof.Machine.execDird dst s
  | .dqwr a => Sys2Proof.Machine.execDqwr a s
  | .tpls a => Sys2Proof.Machine.execTpls a s
  | .bfrx dst => Sys2Proof.Machine.execBfrx dst s
  | .bftx a => Sys2Proof.Machine.execBftx a s
  | .fend => Sys2Proof.Machine.execFend s
  | .vadd e dst a b p => Sys2Proof.Machine.execVadd e dst a b p s
  | .vsub e dst a b p => Sys2Proof.Machine.execVsub e dst a b p s
  | .vadds e dst a b p => Sys2Proof.Machine.execVadds e dst a b p s
  | .vaddus e dst a b p => Sys2Proof.Machine.execVaddus e dst a b p s
  | .vsubus e dst a b p => Sys2Proof.Machine.execVsubus e dst a b p s
  | .vfmul e dst a b n p => Sys2Proof.Machine.execVfmul e dst a b n p s
  | .vfmulu e dst a b n p => Sys2Proof.Machine.execVfmulu e dst a b n p s
  | .vfmac e dst a b n p => Sys2Proof.Machine.execVfmac e dst a b n p s
  | .vmin e dst a b p => Sys2Proof.Machine.execVmin e dst a b p s
  | .vmax e dst a b p => Sys2Proof.Machine.execVmax e dst a b p s
  | .vminu e dst a b p => Sys2Proof.Machine.execVminu e dst a b p s
  | .vmaxu e dst a b p => Sys2Proof.Machine.execVmaxu e dst a b p s
  | .vand e dst a b p => Sys2Proof.Machine.execVand e dst a b p s
  | .vor e dst a b p => Sys2Proof.Machine.execVor e dst a b p s
  | .vxor e dst a b p => Sys2Proof.Machine.execVxor e dst a b p s
  | .vclu e dst a p => Sys2Proof.Machine.execVclu e dst a p s
  | .vshli e dst a n => Sys2Proof.Machine.execVshli e dst a n s
  | .vshri e dst a n => Sys2Proof.Machine.execVshri e dst a n s
  | .vsari e dst a n => Sys2Proof.Machine.execVsari e dst a n s
  | .vli e dst imm => Sys2Proof.Machine.execVli e dst imm s
  | .vsplat e dst a p => Sys2Proof.Machine.execVsplat e dst a p s
  | .vget e dst a lane => Sys2Proof.Machine.execVget e dst a lane s
  | .vset e dst a lane => Sys2Proof.Machine.execVset e dst a lane s
  | .vsel e dst a b p => Sys2Proof.Machine.execVsel e dst a b p s
  | .vcmpeq e dst a b => Sys2Proof.Machine.execVcmpeq e dst a b s
  | .vcmplt e dst a b => Sys2Proof.Machine.execVcmplt e dst a b s
  | .vcmpltu e dst a b => Sys2Proof.Machine.execVcmpltu e dst a b s
  | .vcmple e dst a b => Sys2Proof.Machine.execVcmple e dst a b s
  | .pand e dst a b => Sys2Proof.Machine.execPand e dst a b s
  | .por e dst a b => Sys2Proof.Machine.execPor e dst a b s
  | .pxor e dst a b => Sys2Proof.Machine.execPxor e dst a b s
  | .pnot e dst a => Sys2Proof.Machine.execPnot e dst a s
  | .pmov e dst a => Sys2Proof.Machine.execPmov e dst a s
  | .pget e dst a => Sys2Proof.Machine.execPget e dst a s
  | .vpos e dst item => Sys2Proof.Machine.execVpos e dst item s
  | .vld e dst a imm => Sys2Proof.Machine.execVld e dst a imm s
  | .vst e src a imm => Sys2Proof.Machine.execVst e src a imm s
  | .vlds e dst a b binding bilinear clamp => Sys2Proof.Machine.execVlds e dst a b binding bilinear clamp s
  | .vgath e dst a b => Sys2Proof.Machine.execVgath e dst a b s
  | .vmld e a imm => Sys2Proof.Machine.execVmld e a imm s
  | .vcmx e dst a p => Sys2Proof.Machine.execVcmx e dst a p s
  | .vblend e a b mode p => Sys2Proof.Machine.execVblend e a b mode p s
  | .vaccr e dst => Sys2Proof.Machine.execVaccr e dst s
  | .vstep e => Sys2Proof.Machine.execVstep e s
  | .vsetidx e a => Sys2Proof.Machine.execVsetidx e a s
  | .vuni e dst a b => Sys2Proof.Machine.execVuni e dst a b s
  | .vlut e dst a b => Sys2Proof.Machine.execVlut e dst a b s
  | .vqnt e dst a => Sys2Proof.Machine.execVqnt e dst a s
  | .vout e a => Sys2Proof.Machine.execVout e a s
  | .pend e => Sys2Proof.Machine.execPend e s
  | .watchdog soffit => Sys2Proof.Machine.execWatchdog soffit s
  | .patchOverrun e => Sys2Proof.Machine.execPatchOverrun e s
  | .taskStart soffit => Sys2Proof.Machine.execTaskStart soffit s
  | .lat => Sys2Proof.Machine.execLat s
  | .engineTakePatch e => Sys2Proof.Machine.execEngineTakePatch e s
  | .patchDrainDone e => Sys2Proof.Machine.execPatchDrainDone e s
  | .runComplete => Sys2Proof.Machine.execRunComplete s
  | .engineBistDone e sig pass => Sys2Proof.Machine.execEngineBistDone e sig pass s
  | .engineStall e => Sys2Proof.Machine.execEngineStall e s
  | .contextCopyDone ctx => Sys2Proof.Machine.execContextCopyDone ctx s
  | .transferWindowStart => Sys2Proof.Machine.execTransferWindowStart s
  | .transferWindowClose rx selfTest => Sys2Proof.Machine.execTransferWindowClose rx selfTest s
  | .dsiVerticalSyncStart vc corrected ends => Sys2Proof.Machine.execDsiVerticalSyncStart vc corrected ends s
  | .dsiLongPacket vc corrected crcOk bytes ends => Sys2Proof.Machine.execDsiLongPacket vc corrected crcOk bytes ends s
  | .dsiShortPacket corrected ends => Sys2Proof.Machine.execDsiShortPacket corrected ends s
  | .dsiNullBlanking corrected ends => Sys2Proof.Machine.execDsiNullBlanking corrected ends s
  | .dsiSotError ends => Sys2Proof.Machine.execDsiSotError ends s
  | .dsiUlps enter => Sys2Proof.Machine.execDsiUlps enter s
  | .dsiTurnaroundRequest => Sys2Proof.Machine.execDsiTurnaroundRequest s
  | .vinPhyCfgWrite value => Sys2Proof.Machine.execVinPhyCfgWrite value s
  | .vinLoss n => Sys2Proof.Machine.execVinLoss n s
  | .scrubRead soft => Sys2Proof.Machine.execScrubRead soft s
  | .batTileOrgWrite t value => Sys2Proof.Machine.execBatTileOrgWrite t value s
  | .switchingCycle ch shunt vsn => Sys2Proof.Machine.execSwitchingCycle ch shunt vsn s
  | .supplyRampDone ch => Sys2Proof.Machine.execSupplyRampDone ch s
  | .pwmPeriodStart ch => Sys2Proof.Machine.execPwmPeriodStart ch s
  | .pwmPeriodEnd ch shunt vsn => Sys2Proof.Machine.execPwmPeriodEnd ch shunt vsn s
  | .stringProtectTimeout ch cause => Sys2Proof.Machine.execStringProtectTimeout ch cause s
  | .stringRetry ch => Sys2Proof.Machine.execStringRetry ch s
  | .strRestart ch byGable => Sys2Proof.Machine.execStrRestart ch byGable s
  | .stringInhibit ch => Sys2Proof.Machine.execStringInhibit ch s
  | .ntcPublish n v => Sys2Proof.Machine.execNtcPublish n v s
  | .derateUpdate => Sys2Proof.Machine.execDerateUpdate s
  | .thmDrtAddrWrite value => Sys2Proof.Machine.execThmDrtAddrWrite value s
  | .tileTempStale t => Sys2Proof.Machine.execTileTempStale t s
  | .dieTempUpdate sensors => Sys2Proof.Machine.execDieTempUpdate sensors s
  | .thermalShutdown => Sys2Proof.Machine.execThermalShutdown s
  | .thermalShutdownEnd => Sys2Proof.Machine.execThermalShutdownEnd s
  | .encoderSample ix idleHigh endLow code => Sys2Proof.Machine.execEncoderSample ix idleHigh endLow code s
  | .encoderSampleTimeout ix => Sys2Proof.Machine.execEncoderSampleTimeout ix s
  | .gableReset => Sys2Proof.Machine.execGableReset s
  | .gableRestart => Sys2Proof.Machine.execGableRestart s
  | .ridgeCrcCheck => Sys2Proof.Machine.execRidgeCrcCheck s
  | .liveReadback ridge phase g h => Sys2Proof.Machine.execLiveReadback ridge phase g h s
  | .tdegExpire => Sys2Proof.Machine.execTdegExpire s
  | .resetInputEdge selfTest g h => Sys2Proof.Machine.execResetInputEdge selfTest g h s
  | .safeHoldResetWindow => Sys2Proof.Machine.execSafeHoldResetWindow s
  | .sf3FallbackTimer => Sys2Proof.Machine.execSf3FallbackTimer s
  | .soffitPowerUp => Sys2Proof.Machine.execSoffitPowerUp s
  | .soffitDataFrame noise => Sys2Proof.Machine.execSoffitDataFrame noise s
  | .soffitConfigFrame noise => Sys2Proof.Machine.execSoffitConfigFrame noise s
  | .soffitInputFrameSend => Sys2Proof.Machine.execSoffitInputFrameSend s
  | .soffitInputFrame noise => Sys2Proof.Machine.execSoffitInputFrame noise s
  | .soffitSilent => Sys2Proof.Machine.execSoffitSilent s
  | .inputSample k ua => Sys2Proof.Machine.execInputSample k ua s
  | .pairDiscTimeout p => Sys2Proof.Machine.execPairDiscTimeout p s
  | .testPulseStart k off => Sys2Proof.Machine.execTestPulseStart k off s
  | .testPulseEnd mv ua => Sys2Proof.Machine.execTestPulseEnd mv ua s
  | .outputShortTimer k ma mv => Sys2Proof.Machine.execOutputShortTimer k ma mv s
  | .outputThermal k hot => Sys2Proof.Machine.execOutputThermal k hot s
  | .lplusChange lp1 lp2 => Sys2Proof.Machine.execLplusChange lp1 lp2 s
  | .logicSilence => Sys2Proof.Machine.execLogicSilence s
  | .douserTestTimeout => Sys2Proof.Machine.execDouserTestTimeout s
  | .fldDqCmdWrite k on clear => Sys2Proof.Machine.execFldDqCmdWrite k on clear s
  | .flashingFrameRx => Sys2Proof.Machine.execFlashingFrameRx s
  | .flashingTimeout ix => Sys2Proof.Machine.execFlashingTimeout ix s
  | .flashingEchoSend ix => Sys2Proof.Machine.execFlashingEchoSend ix s
  | .flashingStatusSend ix => Sys2Proof.Machine.execFlashingStatusSend ix s
  | .calRunStart => Sys2Proof.Machine.execCalRunStart s
  | .calStep k sense => Sys2Proof.Machine.execCalStep k sense s
  | .calStepDone k found code sense => Sys2Proof.Machine.execCalStepDone k found code sense s
  | .calTimeout => Sys2Proof.Machine.execCalTimeout s
  | .trmDacWrite k code => Sys2Proof.Machine.execTrmDacWrite k code s
  | .trimApply => Sys2Proof.Machine.execTrimApply s
  | .trimAbort => Sys2Proof.Machine.execTrimAbort s
  | .powerOn locked => Sys2Proof.Machine.execPowerOn locked s
  | .pllLockRetry locked => Sys2Proof.Machine.execPllLockRetry locked s
  | .brownOut ana => Sys2Proof.Machine.execBrownOut ana s
  | .vstbyLoss => Sys2Proof.Machine.execVstbyLoss s
  | .rstNAssert => Sys2Proof.Machine.execRstNAssert s
  | .rstNRelease => Sys2Proof.Machine.execRstNRelease s
  | .trussHaltReset => Sys2Proof.Machine.execTrussHaltReset s
  | .resetEnd role bootsel => Sys2Proof.Machine.execResetEnd role bootsel s
  | .bootWindowExpire => Sys2Proof.Machine.execBootWindowExpire s
  | .clockFault x => Sys2Proof.Machine.execClockFault x s
  | .retentionWake => Sys2Proof.Machine.execRetentionWake s
  | .standbyWake => Sys2Proof.Machine.execStandbyWake s
  | .proofTimeout => Sys2Proof.Machine.execProofTimeout s
  | .proofAgeTick => Sys2Proof.Machine.execProofAgeTick s
  | .train hop => Sys2Proof.Machine.execTrain hop s
  | .purlinCellReceive x => Sys2Proof.Machine.execPurlinCellReceive x s
  | .status cell => Sys2Proof.Machine.execStatus cell s
  | .workerStatusMissing k => Sys2Proof.Machine.execWorkerStatusMissing k s
  | .gframe frame => Sys2Proof.Machine.execGframe frame s
  | .rframe frame => Sys2Proof.Machine.execRframe frame s
  | .bootreq src attempts => Sys2Proof.Machine.execBootreq src attempts s
  | .bootdata src seq off bytes => Sys2Proof.Machine.execBootdata src seq off bytes s
  | .ack src kind seq => Sys2Proof.Machine.execAck src kind seq s
  | .purlinRetry => Sys2Proof.Machine.execPurlinRetry s
  | .migrate src seq phase => Sys2Proof.Machine.execMigrate src seq phase s
  | .relayDown src seq entry => Sys2Proof.Machine.execRelayDown src seq entry s
  | .relayUp src seq entry => Sys2Proof.Machine.execRelayUp src seq entry s
  | .purlinRing30Entry => Sys2Proof.Machine.execPurlinRing30Entry s
  | .reenum src seq => Sys2Proof.Machine.execReenum src seq s
  | .latchMarkSend => Sys2Proof.Machine.execLatchMarkSend s
  | .latchMarkReceive mark => Sys2Proof.Machine.execLatchMarkReceive mark s
  | .latchMarkMissing => Sys2Proof.Machine.execLatchMarkMissing s
  | .ringBroken => Sys2Proof.Machine.execRingBroken s
  | .syncWordSend => Sys2Proof.Machine.execSyncWordSend s
  | .syncWordReceive line interval => Sys2Proof.Machine.execSyncWordReceive line interval s
  | .syncWordMissing => Sys2Proof.Machine.execSyncWordMissing s
  | .accNonce => Sys2Proof.Machine.execAccNonce s
  | .accLock => Sys2Proof.Machine.execAccLock s
  | .unlockPassword level => Sys2Proof.Machine.execUnlockPassword level s
  | .unlockChallenge level => Sys2Proof.Machine.execUnlockChallenge level s
  | .nonceExpire => Sys2Proof.Machine.execNonceExpire s
  | .unlockTimeout => Sys2Proof.Machine.execUnlockTimeout s
  | .otpProgram target level mask => Sys2Proof.Machine.execOtpProgram target level mask s
  | .otpRevoke target mask => Sys2Proof.Machine.execOtpRevoke target mask s
  | .extest pins cells => Sys2Proof.Machine.execExtest pins cells s
  | .idcode => Sys2Proof.Machine.execIdcode s
  | .samplePreload pins cells => Sys2Proof.Machine.execSamplePreload pins cells s
  | .highz => Sys2Proof.Machine.execHighz s
  | .clamp => Sys2Proof.Machine.execClamp s
  | .accChal update value => Sys2Proof.Machine.execAccChal update value s
  | .bypass opcode => Sys2Proof.Machine.execBypass opcode s
  | .debugAttach => Sys2Proof.Machine.execDebugAttach s
  | .debugDetach => Sys2Proof.Machine.execDebugDetach s
  | .debugHalt u => Sys2Proof.Machine.execDebugHalt u s
  | .debugStep u => Sys2Proof.Machine.execDebugStep u s
  | .debugResume u => Sys2Proof.Machine.execDebugResume u s
  | .debugRead u item => Sys2Proof.Machine.execDebugRead u item s
  | .debugWrite u item value => Sys2Proof.Machine.execDebugWrite u item value s
  | .injectionSchedule => Sys2Proof.Machine.execInjectionSchedule s
  | .injectionDeadline => Sys2Proof.Machine.execInjectionDeadline s
  | .injectionDetected => Sys2Proof.Machine.execInjectionDetected s
  | .injectionRestored => Sys2Proof.Machine.execInjectionRestored s
  | .dsiHeaderEccError ends => Sys2Proof.Machine.execDsiHeaderEccError ends s
  | .latchMarkReturn rtt => Sys2Proof.Machine.execLatchMarkReturn rtt s
  | .proofReadbackPass => Sys2Proof.Machine.execProofReadbackPass s

end Sys2Proof.Machine
end

