-- ==== Sys2Proof/Safety.lean ====
section
/-! DEFINITION. What the claims about the block are stated in: a step that goes on, memories in canonical form, and what OTP
may become. -/

namespace Sys2Proof.Machine

open Sys2Proof

/-- Every sparse memory of the device is in canonical form. -/
def Dev.memWf (d : Dev) : Bool :=
  Memory.wf d.loft.cells && Memory.wf d.thatch.trussMem.cells && Memory.wf d.thatch.gableMem.cells &&
    Memory.wf d.thatch.soffitMem.cells && (d.course.eng.toList.all fun e => e.slotMem.toList.all Memory.wf) &&
    d.rdg.buffers.toList.all Memory.wf

/-- Whether an image-key slot may become another (17 R511, R512): programmed once, revoked once, never erased. -/
def KeySlot.grows (x y : KeySlot) : Prop :=
  (x.programmed = true → y.programmed = true ∧ y.hash = x.hash ∧ y.mask = x.mask) ∧
    (x.revoked = true → y.revoked = true)

/-- Whether a password slot may become another (17 R500, R511). -/
def PwSlot.grows (x y : PwSlot) : Prop :=
  (x.programmed = true → y.programmed = true ∧ y.level = x.level ∧ y.salt = x.salt ∧ y.tag = x.tag) ∧
    (x.revoked = true → y.revoked = true)

/-- Whether an OTP may become another: no field is ever erased (17 R511). -/
def Otp.grows (x y : Otp) : Prop :=
  (∀ k : Fin 4, (x.keys[k]).grows y.keys[k]) ∧ (∀ k : Fin 4, (x.pws[k]).grows y.pws[k]) ∧ x.fuses ≤ y.fuses ∧
    x.counter ≤ y.counter ∧ y.engSample = x.engSample ∧ y.noCap = x.noCap

/-- A run step that neither faults nor refuses. -/
def Safe (s : State) : Prop := ∃ t, step s = .next t

/-! ### What one instruction of a Thatch core comes to -/

/-- The device once core `c` has fetched the word at its program counter: on an engine the fetch can fill a line of the
instruction cache (05 R140), which corrects the single-bit errors it reads (02 R57). -/
def Dev.fetched (d : Dev) (c : CoreId) : Dev :=
  match d.fetch c with
  | .error e => e.2
  | .ok x => x

/-- Whether the fetch succeeds (04 R118, group 1). -/
def Dev.fetches (d : Dev) (c : CoreId) : Bool :=
  match d.fetch c with
  | .error _ => false
  | .ok _ => true

/-- Core `c` executes the word `w`, whose row takes `n` cycles, to its end: it runs, the word can be fetched and is one of its
profile (04 R118, groups 1 and 2), and no bound on its cycles is passed (04 R124, 05 R158). -/
def State.executes (s : State) (c : CoreId) (w : Word) (n : Nat) (tail : Nat := 0) : Bool :=
  s.dev.coreRuns c && s.dev.fetches c && (wordCause c.profile w).isNone &&
    ((s.dev.fetched c).overrun c ((s.dev.fetched c).cyclesOf c n) tail).isNone

/-- The state once core `c` has fetched its word. -/
def State.fetched (s : State) (c : CoreId) : State := s.any fun d => d.fetched c

/-- What ends an instruction of `n` cycles after its fetch and its effect `f` on the device, the flow having been set: the
cycles are counted (04 R111) and a debugger's step is over. -/
def State.flows (s : State) (c : CoreId) (n : Nat) (f : Dev → Dev) : State :=
  (s.fetched c).any fun d => ((f d).count c (d.cyclesOf c n)).endStep c

/-- The same, the flow going on at the next word or at the start of a loop that ends here (04 R105). -/
def State.falls (s : State) (c : CoreId) (n : Nat) (f : Dev → Dev) : State :=
  (s.fetched c).any fun d => (((f d).count c (d.cyclesOf c n)).onCore c Core.fall).endStep c

/-- An instruction of `n` cycles that ends in a trap with a code and a TVAL (04 R118, R119). -/
def State.traps (s : State) (c : CoreId) (n : Nat) (code : Byte) (tval : Word) : State :=
  (s.fetched c).any fun d => ((d.count c (d.cyclesOf c n)).trapAt c code (d.coreAt c).pc tval).endStep c

/-- A core with a register written and its flags replaced. -/
def Core.putF (x : Core) (r : BitVec 5) (v : Word) (g : Flg) : Core := { x.put r v with flg := g }

/-- Flags with all of Z, N, C and V replaced by those of a result (04 R101). -/
def Flg.zncv (g : Flg) (r : Word) (c v : Bool) : Flg := { g.setZN r with c := c, v := v }

/-! ### Host accesses (02 R34 to R53) -/

/-- The port at the start of an access: it has driven nothing out. -/
def Dev.answering (d : Dev) : Dev := { d with hp := { d.hp with out := [] } }

/-- The state after a host access that has raised no flag, by its effect on the device. -/
def State.hosted (s : State) (f : Dev → Dev) : State := s.any fun d => f d.answering

/-- A host WRITE can reach the whole register at `a` (02 R45, R47, R49): the port answers, and the address is aligned, mapped
and not protected; the value holds no reserved PROTO (R40). -/
def State.takesWrite (s : State) (a : Nat) (v : Word) : Bool :=
  s.dev.coreUp && decide (a % 4 = 0) && decide (loftSize ≤ a) && decide (a < 2 ^ 32) &&
    (windowRead s.dev.answering a).isNone && (regRead s.dev.answering s.otp a).isSome &&
    !protectedReg s.dev.answering a && !(a == 0x20000100 && v.extractLsb' 0 2 == (3 : BitVec 2))

/-! ### Ring commands (03 R77 to R86) -/

/-- A command meets its own tests: its ring's turn has come (R79, R83), and the access level and the mode allow it (tests 2
and 3, R77). -/
def State.serves (s : State) (h : CmdHdr) (op : Byte) (a : Args) : Bool :=
  decide (s.dev.nextRing (some h.ring) = some h.ring) && decide (s.dev.levelNeeded op a ≤ s.dev.acc.level.toNat) && s.dev.modeAllowed op a

/-- A command answered: its completion is written, then its effect takes place (R86). -/
def State.answers (s : State) (h : CmdHdr) (op : Byte) (st : CmdStatus) (r0 r1 : Word) (f : Dev → Dev := id) : State :=
  s.any fun d => f ((d.noteServed h.ring).complete h op st r0 r1)

/-- A command whose effect waits for its boundary (R77, R84): DEFERRED with RESULT0 and the house time of its fetch, and the
effect scheduled, which supersedes those it meets. -/
def State.defers (s : State) (h : CmdHdr) (op : Byte) (r0 : Word) (x : EffectOp) : State :=
  s.answers h op .deferred r0 (s.dev.sys.htime.setWidth 32) fun d =>
    d.schedule { ring := BitVec.ofNat 8 h.ring.val, tag := h.tag, op := x }

/-- A command refused: nothing changes but that its completion is written (R77). -/
def State.refuses (s : State) (h : CmdHdr) (op : Byte) (st : CmdStatus) (r0 : Word) (r1 : Word := 0) : State :=
  s.answers h op st r0 r1

/-- A long command in service on its ring from its fetch (R83), with what its work starts. -/
def State.startsLong (s : State) (h : CmdHdr) (op : Byte) (a : Args) (f : Dev → Dev := id) : State :=
  s.any fun d =>
    f ((d.noteServed h.ring).ring h.ring.val fun r => { r with inService := some { hdr := h, opcode := op, args := a } })

/-- A range of the free Loft no word of which is marked erroneous (02 R50, R57, R58). -/
def Dev.clean (d : Dev) (x n : Nat) : Bool :=
  loftFree x n && d.loft.ce.all (fun w => !touchesWord x n w) && d.loft.ue.all (fun w => !touchesWord x n w)

end Sys2Proof.Machine
end

