-- ==== Sys2Proof/Certificates/Slice0/Obligations.lean ====
section
/-! DEFINITION. The statements about the block, each a named proposition; OBLIGATIONS.json lists them with what each formalises. -/

open Sys2Proof Sys2Proof.Machine

/-- O1. A step takes the command at the front of the queue and executes it with the rest of the queue left.
    (spec/opcode_table.json (the commands), 03 R83 (order)) -/
def Obligations.StepRunsFront : Prop :=
  ∀ (c : Instr) (s : State), step { s with pending := c :: s.pending } = exec c s

/-- O2. With no command waiting, a step is one microsecond of the device's own time (the model's choice, log entry
    24), in which words leave the ports only in an open transfer window. (01 R26 (clocks), 01 R27 (house time), 08
    R254) -/
def Obligations.IdleStepIsAMicrosecond : Prop :=
  ∀ s : State, s.pending = [] → ∃ t ws, step s = .next t ∧ t.dev.alwaysOn = s.dev.alwaysOn + 1 ∧ t.otp = s.otp ∧
    t.wire = s.wire ++ ws ∧ (s.dev.scan.window = false → ws = []) ∧ t.pending = [] ∧
    (s.dev.sys.lock = true ∨ s.dev.sys.mode = .retention → t.dev.sys.htime = s.dev.sys.htime + 1)

/-- O3. What reset leaves: BOOT, rings disabled, no configuration, level 0, the port in 1-1-1 with 8 dummies, one T
    key. (02 R40 (SYS_HP_CFG), 03 R72 (rings), 04 R95 (cores), 08 R246 (slot 0), 15 R441 (BOOT), 15 R468, 17 R496,
    17 R512 (shipped OTP)) -/
def Obligations.ResetState : Prop :=
  let s := State.reset
  let d := s.dev
  d.sys.mode = .boot ∧ d.coreUp = true ∧ d.hp.proto = 0 ∧ d.hp.dummy = 8 ∧
  (∀ n : Fin 32, (d.rings[n]).enabled = false ∧ (d.rings[n]).prod = 0 ∧ (d.rings[n]).cons = 0 ∧
    (d.rings[n]).cplProd = 0 ∧ (d.rings[n]).cplCons = 0) ∧
  (∀ k : Fin 64, d.regions[k] = none ∧ d.thatch.handles[k] = none) ∧ d.gbl.cfg = none ∧
  d.acc.level = 0 ∧ d.acc.attached = false ∧ d.scan.slot = 0 ∧ d.memWf = true ∧ d.loft.cells = [] ∧
  (s.otp.keys[(0 : Fin 4)]).programmed = true ∧ (s.otp.keys[(0 : Fin 4)]).mask = 1 ∧
  (∀ k : Fin 4, (s.otp.pws[k]).programmed = false) ∧ s.pending = []

/-- O4. Every command goes on from every state, leaves the queue alone, and only the start and the close of a
    transfer window change what the ports sent. (01 R12, 08 R233 (the wire), spec/opcode_table.json (the commands)) -/
def Obligations.EveryCommandGoesOn : Prop :=
  ∀ (c : Instr) (s : State), ∃ t, exec c s = .next t ∧ t.pending = s.pending ∧
    (c ≠ .transferWindowStart → ∃ ws, t.wire = s.wire ++ ws ∧
      ((∀ rx ok, c ≠ .transferWindowClose rx ok) → ws = []))

/-- O5. A core die that is not up does nothing: LATs, runs, rings, strings, encoders, calibration and roof stand
    still. (02 R51 (host port), 15 R457, 15 R458 (held in reset), 15 R462 (RETENTION), 15 R464 (STANDBY)) -/
def Obligations.DownCoreDoesNothing : Prop :=
  ∀ (s : State) (e ch : Fin 8) (n : Fin 32) (r : Fin 24) (i : Fin 4) (ok : Bool) (v : Word) (f : BitVec 512) (k : Fin 48)
    (b : Byte) (q : BitVec 16) (rx : List (List (BitVec 10))) (be : BurstEnd) (mv : List (BitVec 11)) (u : BitVec 11)
    (line : List (BitVec 10)) (temps : Vector (BitVec 16) 4) (p : MigratePhase) (bits : List Bool) (gap : BitVec 24)
    (clk : ClockSeen), s.dev.coreUp = false →
    exec .lat s = .next s ∧ exec .transferWindowStart s = .next s ∧ exec (.transferWindowClose rx ok) s = .next s ∧
    exec (.engineTakePatch e) s = .next s ∧ exec (.patchDrainDone e) s = .next s ∧ exec .runComplete s = .next s ∧
    exec (.engineBistDone e v ok) s = .next s ∧ exec (.engineStall e) s = .next s ∧ exec (.patchOverrun e) s = .next s ∧
    exec (.scrubRead []) s = .next s ∧ exec (.vinLoss i) s = .next s ∧ exec (.dsiShortPacket ok be) s = .next s ∧
    exec (.dsiSotError be) s = .next s ∧ exec (.switchingCycle ch mv u) s = .next s ∧
    exec (.pwmPeriodStart ch) s = .next s ∧ exec (.pwmPeriodEnd ch mv mv) s = .next s ∧
    exec (.stringRetry ch) s = .next s ∧ exec (.strRestart ch true) s = .next s ∧ exec .derateUpdate s = .next s ∧
    exec (.dieTempUpdate temps) s = .next s ∧ exec (.encoderSample i ok ok v) s = .next s ∧
    exec .gableReset s = .next s ∧ exec .gableRestart s = .next s ∧ exec .ridgeCrcCheck s = .next s ∧
    exec (.liveReadback ok ok ok ok) s = .next s ∧ exec .tdegExpire s = .next s ∧
    exec (.resetInputEdge ok ok ok) s = .next s ∧ exec .flashingFrameRx s = .next s ∧
    exec (.flashingTimeout e) s = .next s ∧ exec (.soffitInputFrame line) s = .next s ∧ exec .soffitSilent s = .next s ∧
    exec .calRunStart s = .next s ∧ exec (.calStep k n.val) s = .next s ∧ exec .calTimeout s = .next s ∧
    exec .trussHaltReset s = .next s ∧ exec .bootWindowExpire s = .next s ∧ exec (.clockFault clk) s = .next s ∧
    exec .proofTimeout s = .next s ∧ exec .proofAgeTick s = .next s ∧ exec .proofReadbackPass s = .next s ∧
    exec .commandFetch s = .next s ∧ exec (.longCommandComplete r) s = .next s ∧ exec (.ringIrqTimer n) s = .next s ∧
    exec (.ringDropReport n) s = .next s ∧ exec (.train none) s = .next s ∧ exec (.gframe f) s = .next s ∧
    exec (.rframe f) s = .next s ∧ exec (.ack b b q) s = .next s ∧ exec .purlinRetry s = .next s ∧
    exec (.migrate 0 q p) s = .next s ∧ exec (.relayDown b q f) s = .next s ∧ exec (.relayUp b q f) s = .next s ∧
    exec (.reenum b q) s = .next s ∧ exec .latchMarkSend s = .next s ∧ exec .latchMarkMissing s = .next s ∧
    exec .ringBroken s = .next s ∧ exec .syncWordSend s = .next s ∧ exec (.syncWordReceive bits gap) s = .next s ∧
    exec .nonceExpire s = .next s ∧ exec .injectionSchedule s = .next s ∧ exec .injectionDetected s = .next s ∧
    exec .injectionDeadline s = .next s ∧ exec .injectionRestored s = .next s

/-- O6. No step of the block erases OTP: programmed slots keep their contents, revocations stay, fuses and counter
    only rise. (17 R511 (no field can be erased), 17 R512, 17 R502 (fuses), 11 R357 (counter)) -/
def Obligations.OtpIsNeverErased : Prop :=
  ∀ (o : Otp) (s t : State), o.grows s.otp → step s = .next t → o.grows t.otp

/-- O7. Every step keeps every word on the Batten wires at or below its ceiling. (01 R12 (every word passes the
    Ridge), 01 R20, 01 R21 (the Ridge cannot raise a word), 08 R251) -/
def Obligations.WordsStayUnderTheirCeilings : Prop :=
  ∀ s t : State, (∀ w ∈ s.wire, w.word ≤ w.ceil) → step s = .next t → ∀ w ∈ t.wire, w.word ≤ w.ceil

/-- O8. The two invariants hold at reset: nothing is on the wire, and the OTP is grown from the shipped one. (01
    R21, 17 R511, 17 R512) -/
def Obligations.InvariantsHoldAtReset : Prop :=
  (∀ w ∈ State.reset.wire, w.word ≤ w.ceil) ∧ Otp.grows State.reset.otp State.reset.otp ∧
  ∀ k : Fin 4, (State.reset.otp.keys[k]).programmed = true → k = 0

/-- O9. What the Ridge holds: no step sends a word of an emitter that the static map keeps dark as anything but 0, and
    the cell map's dark and capped cells, the Degraded cap and the service cap bound every word as it leaves. (01 R20
    (what the Ridge guarantees), 01 R22 (rungs 3 to 5), 11 R324, 11 R343) -/
def Obligations.RidgeHoldsItsCeilings : Prop :=
  (∀ s t : State, (∀ w ∈ s.wire, w.static = 2 → w.word = 0) → step s = .next t →
    ∀ w ∈ t.wire, w.static = 2 → w.word = 0) ∧
  ∀ (d d' : Dev) (noCap : Bool) (t k n last : Nat),
    let x := d.newXfer noCap
    let w := d'.wordAt x t k n last
    let place := d'.scan.placeIn t k
    let cell := mapEntry x.ceil.map (d'.scan.cellAt place.1 place.2)
    let static := mapEntry d'.rdg.staticMap n
    let scaled (c : BitVec 16) : Nat := c.toNat >>> (16 - x.depth.toNat)
    w.word ≤ w.ceil ∧ w.word ≤ maxWord x.depth.toNat ∧ (sentWord (portOf t) w).static.toNat = static ∧
    (static = 2 ∨ 2 ≤ cell → w.word = 0) ∧
    (∀ c, d.gbl.cfg = some c → static = 1 ∨ cell = 1 → w.word ≤ scaled c.cap16) ∧
    (∀ c, d.gbl.cfg = some c → d'.rdg.deg = .cap → w.word ≤ scaled c.cap16) ∧
    (∀ dark, d'.rdg.deg = .coarse dark → dark.getLsbD (d'.scan.patchAt place.1 place.2) = true → w.word = 0) ∧
    (∀ c, d.serviceCap noCap = some c → w.word ≤ scaled c)

/-- O10. Sums, differences and saturating sums: the result, the flags, one cycle, the next word. (04 R100 (scalar
    instructions), 04 R101 (flags), 04 R92 (writes to s0)) -/
def Obligations.ScalarSumsAndFlags : Prop :=
  ∀ (s : State) (c : CoreId) (dst a b : BitVec 5) (imm : BitVec 14),
    let x := (s.dev.coreAt c).get a
    let y := (s.dev.coreAt c).get b
    let g := (s.dev.coreAt c).flg
    let done (v : Word) (h : Flg) : State := s.falls c 1 fun d => d.onCore c fun k => k.putF dst v h
    let sat (v : Int) : Word × Bool := satSigned v
    let satU (v : Int) : Word × Bool := satUnsigned v
    (s.executes c (encR 0x01 dst a b 0) 1 = true → exec (.add c dst a b) s =
      .next (done (x + y) (g.zncv (x + y) (decide (2 ^ 32 ≤ x.toNat + y.toNat)) (!fitsSigned (x.toInt + y.toInt))))) ∧
    (s.executes c (encR 0x02 dst a b 0) 1 = true → exec (.sub c dst a b) s =
      .next (done (x - y) (g.zncv (x - y) (decide (y.toNat ≤ x.toNat)) (!fitsSigned (x.toInt - y.toInt))))) ∧
    (s.executes c (encI 0x03 dst a imm) 1 = true → exec (.addi c dst a imm) s =
      .next (done (x + sx imm) (g.zncv (x + sx imm) (decide (2 ^ 32 ≤ x.toNat + (sx imm).toNat))
        (!fitsSigned (x.toInt + (sx imm).toInt))))) ∧
    (s.executes c (encR 0x04 dst a b 0) 1 = true → exec (.addc c dst a b) s =
      .next (let k : Nat := if g.c then 1 else 0
        done (x + y + BitVec.ofNat 32 k) (g.zncv (x + y + BitVec.ofNat 32 k)
          (decide (2 ^ 32 ≤ x.toNat + y.toNat + k)) (!fitsSigned (x.toInt + y.toInt + k))))) ∧
    (s.executes c (encR 0x05 dst a b 0) 1 = true → exec (.subb c dst a b) s =
      .next (let k : Nat := if g.c then 0 else 1
        done (x - y - BitVec.ofNat 32 k) (g.zncv (x - y - BitVec.ofNat 32 k)
          (decide (y.toNat + k ≤ x.toNat)) (!fitsSigned (x.toInt - y.toInt - k))))) ∧
    (s.executes c (encR 0x1C dst a b 0) 1 = true → exec (.sadd c dst a b) s =
      .next (let r := sat (x.toInt + y.toInt)
        done r.1 ((g.setZN r.1).sticky r.2))) ∧
    (s.executes c (encR 0x1D dst a b 0) 1 = true → exec (.ssub c dst a b) s =
      .next (let r := sat (x.toInt - y.toInt)
        done r.1 ((g.setZN r.1).sticky r.2))) ∧
    (s.executes c (encR 0x1E dst a b 0) 1 = true → exec (.uadds c dst a b) s =
      .next (let r := satU ((x.toNat : Int) + y.toNat)
        done r.1 ((g.setZ r.1).sticky r.2))) ∧
    (s.executes c (encR 0x1F dst a b 0) 1 = true → exec (.usubs c dst a b) s =
      .next (let r := satU ((x.toNat : Int) - y.toNat)
        done r.1 ((g.setZ r.1).sticky r.2)))

/-- O11. Bitwise operations, shifts and CLZ: the result, Z and N, one cycle, the next word. (04 R100 (scalar
    instructions), 04 R101 (flags), 04 R97 (field extension)) -/
def Obligations.ScalarBitsAndShifts : Prop :=
  ∀ (s : State) (c : CoreId) (dst a b : BitVec 5) (imm : BitVec 14),
    let x := (s.dev.coreAt c).get a
    let y := (s.dev.coreAt c).get b
    let g := (s.dev.coreAt c).flg
    let done (v : Word) : State :=
      s.falls c 1 fun d => d.onCore c fun k => k.putF dst v (g.setZN v)
    (s.executes c (encR 0x06 dst a b 0) 1 = true → exec (.and c dst a b) s = .next (done (x &&& y))) ∧
    (s.executes c (encR 0x07 dst a b 0) 1 = true → exec (.or c dst a b) s = .next (done (x ||| y))) ∧
    (s.executes c (encR 0x08 dst a b 0) 1 = true → exec (.xor c dst a b) s = .next (done (x ^^^ y))) ∧
    (s.executes c (encI 0x09 dst a imm) 1 = true → exec (.andi c dst a imm) s = .next (done (x &&& zx imm))) ∧
    (s.executes c (encI 0x0A dst a imm) 1 = true → exec (.ori c dst a imm) s = .next (done (x ||| zx imm))) ∧
    (s.executes c (encI 0x0B dst a imm) 1 = true → exec (.xori c dst a imm) s = .next (done (x ^^^ zx imm))) ∧
    (s.executes c (encR 0x0C dst a b 0) 1 = true → exec (.shl c dst a b) s = .next (done (x <<< (y.toNat % 32)))) ∧
    (s.executes c (encR 0x0D dst a b 0) 1 = true → exec (.shr c dst a b) s = .next (done (x >>> (y.toNat % 32)))) ∧
    (s.executes c (encR 0x0E dst a b 0) 1 = true →
      exec (.sar c dst a b) s = .next (done (x.sshiftRight (y.toNat % 32)))) ∧
    (s.executes c (encI 0x0F dst a imm) 1 = true →
      exec (.shli c dst a imm) s = .next (done (x <<< (imm.toNat % 32)))) ∧
    (s.executes c (encI 0x10 dst a imm) 1 = true →
      exec (.shri c dst a imm) s = .next (done (x >>> (imm.toNat % 32)))) ∧
    (s.executes c (encI 0x11 dst a imm) 1 = true →
      exec (.sari c dst a imm) s = .next (done (x.sshiftRight (imm.toNat % 32)))) ∧
    (s.executes c (encR 0x12 dst a 0 0) 1 = true → ∃ n : Nat, n ≤ 32 ∧
      (∀ k, 32 - n ≤ k → x.getLsbD k = false) ∧ (n < 32 → x.getLsbD (31 - n) = true) ∧
      exec (.clz c dst a) s = .next (s.falls c 1 fun d => d.onCore c fun k =>
        k.putF dst (BitVec.ofNat 32 n) (g.setZ (BitVec.ofNat 32 n))))

/-- O12. Products, quotients, fixed-point products and saturation to a width, with their flags and cycles. (04 R100
    (scalar instructions), 04 R101 (flags), 04 R102 (FXMUL and FXMULU), 04 R117 (DIVZERO)) -/
def Obligations.ScalarProductsAndQuotients : Prop :=
  ∀ (s : State) (c : CoreId) (dst a b : BitVec 5) (mod : BitVec 9),
    let x := (s.dev.coreAt c).get a
    let y := (s.dev.coreAt c).get b
    let g := (s.dev.coreAt c).flg
    let done (n : Nat) (v : Word) (h : Flg) : State := s.falls c n fun d => d.onCore c fun k => k.putF dst v h
    let n : Nat := mod.toNat % 32
    let shifted (p : Int) : Int :=
      Int.fdiv (p + (if mod.getLsbD 5 = true ∧ 0 < n then 2 ^ (n - 1) else 0)) (2 ^ n)
    let fixed (q : Int) (fits : Bool) (sat : Word) : State :=
      if fits then done 3 (wordOf q) { g.setZN (wordOf q) with v := false }
      else if mod.getLsbD 6 then done 3 sat { g.setZN sat with q := true, v := false }
      else done 3 (wordOf q) { g.setZN (wordOf q) with v := true }
    let clamped (lo hi : Int) : State :=
      if x.toInt < lo then done 1 (wordOf lo) { g with q := true }
      else if hi < x.toInt then done 1 (wordOf hi) { g with q := true } else done 1 x g
    (s.executes c (encR 0x13 dst a b 0) 2 = true → exec (.mul c dst a b) s =
      .next (done 2 (x * y) { g.setZN (x * y) with v := !fitsSigned (x.toInt * y.toInt) })) ∧
    (s.executes c (encR 0x14 dst a b 0) 2 = true → exec (.mulh c dst a b) s =
      .next (let v := wordOf (Int.fdiv (x.toInt * y.toInt) (2 ^ 32)); done 2 v (g.setZN v))) ∧
    (s.executes c (encR 0x15 dst a b 0) 2 = true → exec (.mulhu c dst a b) s =
      .next (let v := BitVec.ofNat 32 (x.toNat * y.toNat / 2 ^ 32); done 2 v (g.setZN v))) ∧
    (s.executes c (encR 0x16 dst a b mod) 3 = true → exec (.fxmul c dst a b mod) s =
      .next (let q := shifted (x.toInt * y.toInt); fixed q (fitsSigned q) (if q < 0 then 0x80000000 else 0x7FFFFFFF))) ∧
    (s.executes c (encR 0x17 dst a b mod) 3 = true → exec (.fxmulu c dst a b mod) s =
      .next (let q := shifted (x.toNat * y.toNat : Nat); fixed q (decide (q ≤ 0xFFFFFFFF)) 0xFFFFFFFF)) ∧
    (s.executes c (encR 0x18 dst a b 0) 34 = true → y ≠ 0 → exec (.div c dst a b) s =
      .next (let v := wordOf (Int.tdiv x.toInt y.toInt)
        done 34 v { g.setZN v with v := decide (x = 0x80000000 ∧ y = 0xFFFFFFFF) })) ∧
    (s.executes c (encR 0x19 dst a b 0) 34 = true → y ≠ 0 → exec (.divu c dst a b) s =
      .next (let v := BitVec.ofNat 32 (x.toNat / y.toNat); done 34 v (g.setZ v))) ∧
    (s.executes c (encR 0x1A dst a b 0) 34 = true → y ≠ 0 → exec (.rem c dst a b) s =
      .next (let v := wordOf (Int.tmod x.toInt y.toInt); done 34 v (g.setZN v))) ∧
    (s.executes c (encR 0x1B dst a b 0) 34 = true → y ≠ 0 → exec (.remu c dst a b) s =
      .next (let v := BitVec.ofNat 32 (x.toNat % y.toNat); done 34 v (g.setZ v))) ∧
    (s.executes c (encR 0x18 dst a b 0) 34 = true → y = 0 →
      exec (.div c dst a b) s = .next (s.traps c 34 0x09 0)) ∧
    (s.executes c (encR 0x19 dst a b 0) 34 = true → y = 0 →
      exec (.divu c dst a b) s = .next (s.traps c 34 0x09 0)) ∧
    (s.executes c (encR 0x1A dst a b 0) 34 = true → y = 0 →
      exec (.rem c dst a b) s = .next (s.traps c 34 0x09 0)) ∧
    (s.executes c (encR 0x1B dst a b 0) 34 = true → y = 0 →
      exec (.remu c dst a b) s = .next (s.traps c 34 0x09 0)) ∧
    (s.executes c (encR 0x2C dst a 0 mod) 1 = true → exec (.fxsat c dst a mod) s =
      .next (clamped (-(2 ^ n)) (2 ^ n - 1))) ∧
    (s.executes c (encR 0x2D dst a 0 mod) 1 = true → exec (.fxsatu c dst a mod) s =
      .next (clamped 0 (2 ^ (n + 1) - 1)))

/-- O13. Minimum, maximum, comparisons, SEL, LUI and LI: the result; no flag changes. (04 R100 (scalar
    instructions), 04 R97 (field extension)) -/
def Obligations.ScalarChoicesAndConstants : Prop :=
  ∀ (s : State) (c : CoreId) (dst a b : BitVec 5) (imm : BitVec 14) (mod : BitVec 9) (big : BitVec 19),
    let x := (s.dev.coreAt c).get a
    let y := (s.dev.coreAt c).get b
    let done (v : Word) : State := s.falls c 1 fun d => d.onCore c fun k => k.put dst v
    let flag (p : Bool) : State := done (if p then 1 else 0)
    (s.executes c (encR 0x20 dst a b 0) 1 = true →
      exec (.min c dst a b) s = .next (done (if y.toInt < x.toInt then y else x))) ∧
    (s.executes c (encR 0x21 dst a b 0) 1 = true →
      exec (.max c dst a b) s = .next (done (if x.toInt < y.toInt then y else x))) ∧
    (s.executes c (encR 0x22 dst a b 0) 1 = true →
      exec (.minu c dst a b) s = .next (done (if y.toNat < x.toNat then y else x))) ∧
    (s.executes c (encR 0x23 dst a b 0) 1 = true →
      exec (.maxu c dst a b) s = .next (done (if x.toNat < y.toNat then y else x))) ∧
    (s.executes c (encR 0x24 dst a b 0) 1 = true →
      exec (.slt c dst a b) s = .next (flag (decide (x.toInt < y.toInt)))) ∧
    (s.executes c (encR 0x25 dst a b 0) 1 = true →
      exec (.sltu c dst a b) s = .next (flag (decide (x.toNat < y.toNat)))) ∧
    (s.executes c (encR 0x26 dst a b 0) 1 = true → exec (.seq c dst a b) s = .next (flag (x == y))) ∧
    (s.executes c (encI 0x27 dst a imm) 1 = true →
      exec (.slti c dst a imm) s = .next (flag (decide (x.toInt < imm.toInt)))) ∧
    (s.executes c (encI 0x28 dst a imm) 1 = true →
      exec (.sltiu c dst a imm) s = .next (flag (decide (x.toNat < imm.toNat)))) ∧
    (s.executes c (encR 0x29 dst a b mod) 1 = true → exec (.sel c dst a b mod) s =
      .next (done (if (s.dev.coreAt c).get (mod.extractLsb' 0 5) ≠ 0 then x else y))) ∧
    (s.executes c (encL 0x2A dst big) 1 = true → exec (.lui c dst big) s = .next (done (zx big <<< 13))) ∧
    (s.executes c (encL 0x2B dst big) 1 = true → exec (.li c dst big) s = .next (done (sx big)))

/-- O14. Branches, jumps, calls, returns, loops and TRET: where the flow goes, the stacks and the cycles. (04 R97
    (targets), 04 R104 (control instructions), 04 R105 (loops), 04 R106 (stacks), 04 R109 (executable addresses), 04
    R115 (TRET)) -/
def Obligations.ControlFlowTargets : Prop :=
  ∀ (s : State) (c : CoreId) (a b : BitVec 5) (off : BitVec 14) (big : BitVec 19) (len : BitVec 9),
    let k := s.dev.coreAt c
    let x := k.get a
    let y := k.get b
    let go (t : Word) : State := s.flows c 2 fun d => d.onCore c fun k => k.jump t
    let call (t : Word) : State := s.flows c 2 fun d => d.onCore c fun k =>
      { k with rstack := (k.pc + 4) :: k.rstack, pc := t }
    let words (n : BitVec 9) : Word := zx n <<< 2
    let branch (i : Instr) (w : Word) (p : Bool) : Prop :=
      (p = true → s.executes c w 2 = true → exec i s = .next (go (k.pc + (sx off <<< 2)))) ∧
      (p = false → s.executes c w 1 = true → exec i s = .next (s.falls c 1 id))
    let loop (i : Instr) (w : Word) (count : Word) (n : BitVec 9) : Prop := s.executes c w 1 = true →
      (n = 0 → exec i s = .next (s.falls c 1 id)) ∧
      (n ≠ 0 → count = 0 → exec i s = .next (s.flows c 1 fun d => d.onCore c fun k =>
        { k with pc := k.pc + 4 + words n })) ∧
      (n ≠ 0 → count ≠ 0 → k.lstack.length < c.lmax → exec i s = .next (s.flows c 1 fun d => d.onCore c fun k =>
        { k with pc := k.pc + 4,
                 lstack := { start := k.pc + 4, last := k.pc + words n, left := count,
                             depth := k.rstack.length } :: k.lstack })) ∧
      (n ≠ 0 → count ≠ 0 → c.lmax ≤ k.lstack.length →
        exec i s = .next (s.traps c 1 0x0B (BitVec.ofNat 32 k.lstack.length)))
    branch (.beq c a b off) (encB 0x41 a b off) (x == y) ∧
    branch (.bne c a b off) (encB 0x42 a b off) (x != y) ∧
    branch (.blt c a b off) (encB 0x43 a b off) (decide (x.toInt < y.toInt)) ∧
    branch (.bge c a b off) (encB 0x44 a b off) (decide (y.toInt ≤ x.toInt)) ∧
    branch (.bltu c a b off) (encB 0x45 a b off) (decide (x.toNat < y.toNat)) ∧
    branch (.bgeu c a b off) (encB 0x46 a b off) (decide (y.toNat ≤ x.toNat)) ∧
    (s.executes c (encL 0x47 0 big) 2 = true → exec (.jmp c big) s = .next (go (k.pc + (sx big <<< 2)))) ∧
    (s.executes c (encL 0x48 0 big) 2 = true →
      (k.rstack.length < c.rmax → exec (.call c big) s = .next (call (k.pc + (sx big <<< 2)))) ∧
      (c.rmax ≤ k.rstack.length → exec (.call c big) s =
        .next (s.traps c 2 0x0A (BitVec.ofNat 32 k.rstack.length)))) ∧
    (s.executes c (encL 0x49 0 0) 2 = true →
      (∀ t r, k.rstack = t :: r → exec (.ret c) s = .next (s.flows c 2 fun d => d.onCore c fun k =>
        { k with pc := t, rstack := r, lstack := k.lstack.filter fun e => decide (e.depth ≤ r.length) })) ∧
      (k.rstack = [] → exec (.ret c) s = .next (s.traps c 2 0x0A 0))) ∧
    (s.executes c (encR 0x4A 0 a 0 0) 2 = true →
      (s.dev.executable c x = true → exec (.jr c a) s = .next (go x)) ∧
      (s.dev.executable c x = false → exec (.jr c a) s = .next (s.traps c 2 0x05 x))) ∧
    (s.executes c (encR 0x4B 0 a 0 0) 2 = true →
      (s.dev.executable c x = true → k.rstack.length < c.rmax → exec (.callr c a) s = .next (call x)) ∧
      (s.dev.executable c x = false → exec (.callr c a) s = .next (s.traps c 2 0x05 x))) ∧
    loop (.loopi c big) (encL 0x4C 0 big) (zx (big.extractLsb' 9 10)) (big.extractLsb' 0 9) ∧
    loop (.loop c a len) (encI 0x4D 0 a (len.setWidth 14)) x len ∧
    (s.executes .truss (encL 0xE4 0 0) 2 = true → exec .tret s = .next (s.flows .truss 2 fun d =>
      d.onCore .truss fun k => { k with pc := k.tpc, inHandler := false }))

/-- O15. NOP, FENCE, CSRR, CSRW, TRAP and BRK, and the trap of a word or an address that does not execute. (04 R104
    (system instructions), 04 R111 (CSRs), 04 R112 (FLG), 04 R117 (trap codes), 04 R118 (causes in order), 04 R120
    (BRK)) -/
def Obligations.SystemInstructionsAndWordTraps : Prop :=
  ∀ (s : State) (c : CoreId) (dst a : BitVec 5) (imm : BitVec 14) (w : Word),
    let k := s.dev.coreAt c
    let x := k.get a
    let old := (s.fetched c).dev.csr c imm.toNat
    (s.executes c (encL 0x40 0 0) 1 = true → exec (.thatchNop c) s = .next (s.falls c 1 id)) ∧
    (s.executes c (encL 0x52 0 0) 1 = true → exec (.fence c) s = .next (s.falls c 1 id)) ∧
    (s.executes c (encI 0x4E dst 0 imm) 1 = true →
      exec (.csrr c dst imm) s = .next (s.falls c 1 fun d => d.onCore c fun k => k.put dst old)) ∧
    (s.executes c (encI 0x4F dst a imm) 1 = true → ∃ f : Core → Core,
      exec (.csrw c dst a imm) s = .next (s.falls c 1 fun d => d.onCore c fun k => (f k).put dst old) ∧
      (imm = 0 → f k = { k with flg := { z := x.getLsbD 0, n := x.getLsbD 1, c := x.getLsbD 2, v := x.getLsbD 3,
                                         q := x.getLsbD 4 } }) ∧
      (imm = 1 → f k = { k with tcause := x.setWidth 8 }) ∧
      (imm = 2 → f k = { k with tpc := x }) ∧
      (imm = 0x0E → f k = { k with tpend := k.tpend &&& ~~~(x.setWidth 7) }) ∧
      (imm = 0x0F → f k = { k with ttimer := x })) ∧
    (s.executes c (encI 0x50 0 0 imm) 1 = true → exec (.trap c imm) s = .next (s.traps c 1 0x0D (zx imm))) ∧
    (s.executes c (encL 0x51 0 0) 1 = true → s.dev.acc.attached = true →
      exec (.brk c) s = .next ((s.fetched c).any fun d => ((d.count c (d.cyclesOf c 1)).breakCore c).endStep c)) ∧
    (s.executes c (encL 0x51 0 0) 1 = true → s.dev.acc.attached = false →
      exec (.brk c) s = .next (s.traps c 1 0x0C 0)) ∧
    (∀ code, wordCause c.profile w = some code → s.dev.coreRuns c = true → s.dev.fetches c = true →
      (s.dev.fetched c).overrun c ((s.dev.fetched c).cyclesOf c 1) 0 = none →
      exec (.unassignedInstruction c w) s = .next (s.traps c 1 code w)) ∧
    (s.dev.coreRuns c = true → s.dev.executable c k.pc = false → s.dev.overrun c (s.dev.cyclesOf c 1) 0 = none →
      exec (.thatchNop c) s = .next (s.traps c 1 0x05 k.pc))

/-- O16. A trap records its code, address and value; Truss, Gable and Soffit sequencer act as their profile says.
    (04 R117 (what a trap records), 04 R119 (what each core does after a trap), 05 R159, 11 R336) -/
def Obligations.TrapEntryByProfile : Prop :=
  ∀ (s : State) (imm : BitVec 14),
    (s.executes .truss (encI 0x50 0 0 imm) 1 = true → ∃ t, exec (.trap .truss imm) s = .next t ∧
      let k := s.dev.thatch.truss
      let k' := t.dev.thatch.truss
      let entry := match s.dev.thatch.trussImage with | none => 0 | some i => i.trapEntry
      k'.tcause = 0x0D ∧ k'.tpc = k.pc ∧ k'.tval = imm.setWidth 32 ∧
      k'.s = k.s ∧ k'.flg = k.flg ∧ k'.rstack = k.rstack ∧ k'.lstack = k.lstack ∧
      (k.inHandler = true ∨ entry = 0 → k'.mode = .halted ∧ k'.pc = k.pc) ∧
      (k.inHandler = false → entry ≠ 0 → k'.pc = entry ∧ k'.inHandler = true ∧ k'.mode = k.mode)) ∧
    (s.executes .gable (encI 0x50 0 0 imm) 1 = true → s.dev.gbl.lost ≠ 0 → ∃ t, exec (.trap .gable imm) s = .next t ∧
      let k := s.dev.thatch.gable
      let k' := t.dev.thatch.gable
      k'.tcause = 0x0D ∧ k'.tpc = k.pc ∧ k'.tval = imm.setWidth 32 ∧ k'.mode = .halted ∧ k'.s = k.s ∧
      t.dev.gbl = s.dev.gbl) ∧
    (s.executes .soffit (encI 0x50 0 0 imm) 1 = true → ∃ t, exec (.trap .soffit imm) s = .next t ∧
      let k := s.dev.thatch.soffit
      let k' := t.dev.thatch.soffit
      k'.tcause = 0x0D ∧ k'.tpc = k.pc ∧ k'.tval = imm.setWidth 32 ∧ k'.mode = .halted ∧ k'.s = k.s ∧
      t.dev.soffit = Soffit.settle { s.dev.soffit with safeState := true, appended := [] } ∧ t.dev.thatch.soffitWait = [])

/-- O17. Loads extend what memory gives; a store writes its low bytes; a misaligned or refused access traps. (04
    R108 (memory instructions), 04 R109 (address spaces), 04 R110, 04 R118 (order of causes), 05 R139) -/
def Obligations.LoadsAndStores : Prop :=
  ∀ (s : State) (c : CoreId) (dst a : BitVec 5) (imm : BitVec 14),
    let addr := (s.dev.coreAt c).get a + sx imm
    let v := (s.dev.coreAt c).get dst
    let rn := memCycles c addr false
    let wn := memCycles c addr true
    let loaded (i : Instr) (op : Byte) (n : Nat) (ext : Nat → Word) : Prop :=
      s.executes c (encI op dst a imm) rn = true →
        (∀ bs d, memLoad ((s.fetched c).dev, s.otp) c addr n = .ok (bs, d) →
          exec i s = .next (s.falls c rn fun _ => d.onCore c fun k => k.put dst (ext (leNat bs)))) ∧
        (∀ code d, memLoad ((s.fetched c).dev, s.otp) c addr n = .error (code, d) → exec i s = .next
          ((s.fetched c).any fun d' => ((d.count c (d'.cyclesOf c rn)).trapAt c code (d'.coreAt c).pc addr).endStep c)) ∧
        (addr.toNat % n ≠ 0 → exec i s = .next (s.traps c rn 0x06 addr))
    let stored (i : Instr) (op : Byte) (n : Nat) : Prop :=
      s.executes c (encI op dst a imm) wn = true →
        (∀ d o, memStore ((s.fetched c).dev, s.otp) c addr (leBytes v.toNat n) = .ok (d, o) →
          exec i s = .next ({ s with otp := o }.falls c wn fun _ => d)) ∧
        (addr.toNat % n ≠ 0 → exec i s = .next (s.traps c wn 0x06 addr))
    loaded (.ld c dst a imm) 0x60 4 (BitVec.ofNat 32) ∧
    loaded (.ldh c dst a imm) 0x61 2 (fun x => (BitVec.ofNat 16 x).signExtend 32) ∧
    loaded (.ldhu c dst a imm) 0x62 2 (BitVec.ofNat 32) ∧
    loaded (.ldb c dst a imm) 0x63 1 (fun x => (BitVec.ofNat 8 x).signExtend 32) ∧
    loaded (.ldbu c dst a imm) 0x64 1 (BitVec.ofNat 32) ∧
    stored (.st c dst a imm) 0x65 4 ∧ stored (.sth c dst a imm) 0x66 2 ∧ stored (.stb c dst a imm) 0x67 1

/-- O18. A core's store reaches its own memory and nothing else, reads back, and is refused where the core may not
    write. (04 R109 (address spaces), 04 R110, 05 R139 (local store), 11 R356) -/
def Obligations.StoresReachTheirMemory : Prop :=
  ∀ (m : Chip) (addr : Word) (bs : List Byte), (bs.length = 1 ∨ bs.length = 2 ∨ bs.length = 4) →
    addr.toNat % bs.length = 0 → m.1.memWf = true →
    let d := m.1
    let a := addr.toNat
    let n := bs.length
    let wrote (old new : Mem) (base : Nat) : Prop :=
      readBytes new (a - base) n = bs ∧ ∀ b, b < a - base ∨ a - base + n ≤ b → cellGet new b = cellGet old b
    let corrects : Prop := ∃ w ∈ d.loft.ce, touchesWord a n w = true ∧ coversWord a n w = false
    (0x40000000 ≤ a → a + n ≤ 0x40020000 → ∃ d', memStore m .truss addr bs = .ok (d', m.2) ∧
      wrote d.thatch.trussMem.cells d'.thatch.trussMem.cells 0x40000000 ∧ d'.loft = d.loft ∧
      (d.thatch.trussMem.ue = [] → memLoad (d', m.2) .truss addr n = .ok (bs, d'))) ∧
    (a + n ≤ loftSize → ∃ d', memStore m .truss addr bs = .ok (d', m.2) ∧ d'.loftBytes a n = bs ∧
      (¬ corrects → wrote d.loft.cells d'.loft.cells 0 ∧ d'.rings = d.rings) ∧ d'.thatch = d.thatch ∧ d'.course = d.course) ∧
    (a < 0x1F000 → a + n ≤ 0x20000 → (∀ i, d.thatch.gableImage = some i → i.inSection [1] a = false) →
      ∃ d', memStore m .gable addr bs = .ok (d', m.2) ∧
        wrote d.thatch.gableMem.cells d'.thatch.gableMem.cells 0 ∧ d'.loft = d.loft ∧
        (d.thatch.gableMem.ue = [] → memLoad (d', m.2) .gable addr n = .ok (bs, d'))) ∧
    (a + n ≤ 0x20000 → (0x1F000 ≤ a ∨ ∃ i, d.thatch.gableImage = some i ∧ i.inSection [1] a = true) →
      memStore m .gable addr bs = .error (0x07, d)) ∧
    (a + n ≤ 0x2000 → (∀ i, d.thatch.soffitImage = some i → i.inSection [1] a = false) →
      ∃ d', memStore m .soffit addr bs = .ok (d', m.2) ∧
        wrote d.thatch.soffitMem.cells d'.thatch.soffitMem.cells 0 ∧ d'.loft = d.loft ∧
        (d.thatch.soffitMem.ue = [] → memLoad (d', m.2) .soffit addr n = .ok (bs, d'))) ∧
    ((0x2000 < a + n ∨ ∃ i, d.thatch.soffitImage = some i ∧ i.inSection [1] a = true) →
      memStore m .soffit addr bs = .error (0x07, d)) ∧
    (∀ (e : Fin 8) (i : Invocation), d.invAt e = some i →
      (a + n ≤ 0x1000 → i.ls = true → ∃ d', memStore m (.engine e) addr bs = .ok (d', m.2) ∧
        wrote (d.engAt i.home).slotMem[i.slot.val] (d'.engAt i.home).slotMem[i.slot.val] 0 ∧ d'.loft = d.loft ∧
        memLoad (d', m.2) (.engine e) addr n = .ok (bs, d')) ∧
      (0x1000 < a + n ∨ i.ls = false → memStore m (.engine e) addr bs = .error (0x07, d)))

/-- O19. The Gable's and the Truss's own instructions: half-planes, signature, publication, heartbeat, atomics,
    events, waiting. (04 R113, 04 R114 (ZROW), 04 R115 (Truss), 04 R125 (SIGNAT and TEND), 11 R326, 11 R344
    (heartbeat)) -/
def Obligations.GableAndTrussInstructions : Prop :=
  ∀ (s : State) (dst a b : BitVec 5) (strict : Bool) (item : BitVec 2) (imm : BitVec 14),
    let g := s.dev.thatch.gable
    let k := s.dev.thatch.truss
    let gable (n : Nat) (f : Core → Core) : State := s.falls .gable n fun d => d.onCore .gable f
    let truss (n : Nat) (f : Core → Core) : State := s.falls .truss n fun d => d.onCore .truss f
    (s.executes .gable (encR 0xC0 dst a b (if strict then 1 else 0)) 24 = true → (g.get a).toNat % 8 = 0 →
      (g.get a).toNat + 128 ≤ 0x20000 → s.dev.thatch.gableMem.ue = [] → ∃ r : Word,
        exec (.zrow dst a b strict) s = .next (gable 24 fun k => k.put dst r) ∧
        ∀ i : Nat, r.getLsbD i = (decide (i < 16) &&
          let e := zrowValue (g.get b) (g.get (b + 1)) (g.get (b + 2))
            (readBytes s.dev.thatch.gableMem.cells (g.get a).toNat 128) i
          if strict then decide (0 < e) else decide (0 ≤ e))) ∧
    (s.executes .gable (encI 0xC1 dst 0 (item.setWidth 14)) 2 = true →
      exec (.encg dst item) s = .next (gable 2 fun k => k.put dst (s.dev.encItem item))) ∧
    (s.executes .gable (encI 0xC2 0 0 imm) 1 = true → exec (.sig imm) s =
      .next (gable 1 fun k => { k with signat := k.signat.rotateLeft 3 ^^^ zx imm })) ∧
    (s.executes .gable (encL 0xC3 0 0) 1 = true →
      (g.signat = s.dev.sigExpect → exec .tend s =
        .next (s.flows .gable 1 fun d => d.onCore .gable fun k => { k with mode := .stopped })) ∧
      (g.signat ≠ s.dev.sigExpect → exec .tend s = .next (s.traps .gable 1 0x0F g.signat))) ∧
    (s.executes .gable (encI 0xC4 0 a 0) 1 = true →
      (∀ c, s.dev.gbl.cfg = some c → s.dev.rdg.pub = none → (g.get a).extractLsb' 0 16 = s.dev.rdg.tickFrame →
        2 ^ 19 ≤ (g.get a).toNat → exec (.publ a) s = .next (s.falls .gable 1 fun d =>
          let p : Publication :=
            { frame := d.rdg.tickFrame, zoneSet := (g.get a).extractLsb' 16 3, zeros := false, time := d.now,
              fresh := d.sampleFresh c, mismatch := 0, buf := decide (d.windowBuf = 1) }
          { d with gbl := { d.gbl with published := true }, rdg := { d.rdg with pub := some p } })) ∧
      (∀ p, s.dev.rdg.pub = some p → exec (.publ a) s = .next (s.falls .gable 1 fun d =>
        { d with gbl := { d.gbl with published := true } }))) ∧
    (s.executes .gable (encL 0xC5 0 0) 1 = true → s.dev.gbl.lost = 0 → s.dev.sys.mode ≠ .proof →
      exec .hbt s = .next (s.falls .gable 1 fun d =>
        { d with gbl := { d.gbl with hbt := true, hbtHeld := true, hbtMiss := 0 } })) ∧
    (s.executes .gable (encI 0xC6 dst a 0) 2 = true → exec (.sofx dst a) s =
      .next (if Config.sofxCapacity ≤ s.dev.fld.down.length then gable 2 fun k => k.put dst 0
        else s.falls .gable 2 fun d => (d.sofx (g.get a)).onCore .gable fun k => k.put dst 1)) ∧
    (∀ bs d d' o, trussLoad (s.dev, s.otp) (k.get a).toNat 4 = .ok (bs, d) → (k.get a).toNat % 4 = 0 →
      ((k.get a).toNat < loftSize ∨ (0x40000000 ≤ (k.get a).toNat ∧ (k.get a).toNat < 0x40020000)) →
      let old : Word := BitVec.ofNat 32 (leNat bs)
      let t : State := { s with otp := o }.falls .truss 20 fun _ => d'.onCore .truss fun k => k.put dst old
      (s.executes .truss (encR 0xE0 dst a b 0) 20 = true →
        trussStore (d, s.otp) (k.get a).toNat (leBytes (old + k.get b).toNat 4) = .ok (d', o) →
        exec (.amoadd dst a b) s = .next t) ∧
      (s.executes .truss (encR 0xE1 dst a b 0) 20 = true →
        trussStore (d, s.otp) (k.get a).toNat (leBytes (k.get b).toNat 4) = .ok (d', o) →
        exec (.amoswp dst a b) s = .next t)) ∧
    (s.executes .truss (encR 0xE2 0 a b 0) 4 = true → exec (.evpost a b) s =
      .next (s.falls .truss 4 fun d => d.event ((k.get a).setWidth 16) (k.get (b + 1) ++ k.get b))) ∧
    (s.executes .truss (encI 0xE3 dst a 0) 1 = true →
      (k.get a = 0 ∨ k.tpend.setWidth 32 &&& k.get a ≠ 0 → exec (.wfi dst a) s =
        .next (truss 1 fun x => x.put dst (k.tpend.setWidth 32 &&& k.get a))) ∧
      (k.get a ≠ 0 → k.tpend.setWidth 32 &&& k.get a = 0 → exec (.wfi dst a) s =
        .next (s.flows .truss 1 fun d => d.onCore .truss fun x => { x with mode := .waiting dst (k.get a) }))) ∧
    (∀ mask, s.dev.coreUp = true → k.mode = .waiting dst mask → k.tpend.setWidth 32 &&& mask ≠ 0 → k.dbgHalt = false →
      exec .wfiWake s = .next (s.any fun d => d.onCore .truss fun x =>
        (Core.put { x with mode := .running } dst (k.tpend.setWidth 32 &&& mask)).fall))

/-- O20. The Soffit sequencer's own instructions, task starts and the watchdogs of tasks and invocations. (04 R95
    (core start), 04 R116 (Soffit sequencer), 04 R123 (tasks), 04 R124 (WATCHDOG), 05 R158 (PATCH_OVERRUN), 13 R416,
    13 R417) -/
def Obligations.SoffitInstructionsAndTaskBounds : Prop :=
  ∀ (s : State) (dst a : BitVec 5) (e : Fin 8),
    let k := s.dev.thatch.soffit
    let x := k.get a
    let put (n : Nat) (v : Word) : State := s.falls .soffit n fun d => d.onCore .soffit fun k => k.put dst v
    (s.executes .soffit (encI 0xD0 dst 0 0) 1 = true → exec (.dird dst) s = .next (put 1 s.dev.soffit.w1)) ∧
    (s.executes .soffit (encI 0xD1 0 a 0) 1 = true →
      (x.extractLsb' 24 8 ≠ 0 → exec (.dqwr a) s = .next (s.falls .soffit 1 id)) ∧
      (x.extractLsb' 24 8 = 0 → exec (.dqwr a) s = .next (s.falls .soffit 1 fun d =>
        let y := d.soffit.commands 1 (x.extractLsb' 0 8) (x.extractLsb' 8 8) (x.extractLsb' 16 8)
        d.onSoffit y.1 y.2))) ∧
    (s.executes .soffit (encI 0xD2 0 a 0) 1 = true → exec (.tpls a) s =
      .next (s.falls .soffit 1 fun d => { d with soffit := d.soffit.requests x })) ∧
    (s.executes .soffit (encI 0xD3 dst 0 0) 2 = true →
      (s.dev.soffit.payload = [] → exec (.bfrx dst) s = .next (put 2 0)) ∧
      (∀ w r, s.dev.soffit.payload = w :: r → exec (.bfrx dst) s = .next (s.falls .soffit 2 fun d =>
        ({ d with soffit := { d.soffit with payload := r } } : Dev).onCore .soffit fun k => k.put dst w))) ∧
    (s.executes .soffit (encI 0xD4 0 a 0) 1 = true → s.dev.soffit.appended.length < 8 →
      exec (.bftx a) s = .next (s.falls .soffit 1 fun d =>
        { d with soffit := { d.soffit with appended := d.soffit.appended ++ [x] } })) ∧
    (s.executes .soffit (encI 0xD5 0 0 0) 1 = true → exec .fend s =
      .next (s.flows .soffit 1 fun d => d.onCore .soffit fun k => { k with mode := .stopped })) ∧
    (∀ n r i t, s.dev.coreUp = true → s.dev.thatch.gableWait = n :: r → s.dev.thatch.gableImage = some i →
      i.tasks[n]? = some t → s.dev.thatch.gable.mode = .stopped → s.dev.thatch.gable.dbgHalt = false →
      exec (.taskStart false) s = .next (s.any fun d =>
        { d with thatch := { d.thatch with gable := d.thatch.gable.startTask n t, gableWait := r } })) ∧
    (∀ n r i t, s.dev.linkUp = true → s.dev.thatch.soffitWait = n :: r → s.dev.thatch.soffitImage = some i →
      i.tasks[n]? = some t → k.mode = .stopped → k.dbgHalt = false →
      exec (.taskStart true) s = .next (s.any fun d =>
        { d with thatch := { d.thatch with soffit := k.startTask n t, soffitWait := r } })) ∧
    (∀ (f : Bool) i t, s.dev.imageAt (if f then .soffit else .gable) = some i →
      i.tasks[(s.dev.coreAt (if f then .soffit else .gable)).taskId.toNat]? = some t →
      s.dev.coreRuns (if f then .soffit else .gable) = true →
      exec (.watchdog f) s = .next (s.any fun d =>
        let c : CoreId := if f then .soffit else .gable
        (d.countTo c (t.wcet.toNat + 1)).trapAt c 0x0E (d.coreAt c).pc (BitVec.ofNat 32 (t.wcet.toNat + 1)))) ∧
    (∀ w r, (s.dev.engAt e).work = some w → s.dev.course.runOf w.frame = some r →
      s.dev.coreRuns (.engine e) = true →
      exec (.patchOverrun e) s = .next (s.any fun d =>
        (d.countTo (.engine e) (r.limit.toNat + 1)).trapAt (.engine e) 0x23 (d.engAt e).core.pc
          (BitVec.ofNat 32 (r.limit.toNat + 1))))

/-- O21. Lane arithmetic of a Course engine: every enabled lane gets its result, the others keep theirs, Q records a
    clamp. (05 R133 (vector registers), 05 R135 (predication), 05 R136 (Q), 05 R143 (vector instructions), 05 R144) -/
def Obligations.VectorLaneArithmetic : Prop :=
  ∀ (s : State) (e : Fin 8) (dst a b n : BitVec 5) (p : Option (BitVec 3)),
    let c : CoreId := .engine e
    let g := s.dev.engAt e
    let mask : BitVec 16 := match p with
      | none => 0xFFFF
      | some q => g.pget q.toNat
    let done (k : Nat) (f : Fin 16 → Word × Bool) : State := s.falls c k fun d => d.onEng e fun g => g.write dst mask f
    let all (k : Nat) (f : Fin 16 → Word) : State :=
      s.falls c k fun d => d.onEng e fun g => g.write dst 0xFFFF fun k => (f k, false)
    let x (k : Fin 16) : Word := (g.vget a)[k]
    let y (k : Fin 16) : Word := (g.vget b)[k]
    let z (k : Fin 16) : Word := (g.vget dst)[k]
    let two (i : Instr) (op : Byte) (f : Word → Word → Word × Bool) : Prop :=
      s.executes c (encR op dst a b (predMod p)) 1 = true → exec i s = .next (done 1 fun k => f (x k) (y k))
    let prod (v w : Word) : Word × Bool := satSigned (fxShift (v.toInt * w.toInt) n.toNat true)
    two (.vadd e dst a b p) 0x80 (fun v w => (v + w, false)) ∧
    two (.vsub e dst a b p) 0x81 (fun v w => (v - w, false)) ∧
    two (.vadds e dst a b p) 0x82 (fun v w => satSigned (v.toInt + w.toInt)) ∧
    two (.vaddus e dst a b p) 0x83 (fun v w => satUnsigned ((v.toNat : Int) + w.toNat)) ∧
    two (.vsubus e dst a b p) 0x84 (fun v w => satUnsigned ((v.toNat : Int) - w.toNat)) ∧
    (s.executes c (encR 0x85 dst a b (shiftMod n p)) 2 = true →
      exec (.vfmul e dst a b n p) s = .next (done 2 fun k => prod (x k) (y k))) ∧
    (s.executes c (encR 0x86 dst a b (shiftMod n p)) 2 = true →
      exec (.vfmulu e dst a b n p) s = .next (done 2 fun k =>
        satUnsigned (fxShift ((x k).toNat * (y k).toNat : Nat) n.toNat true))) ∧
    (s.executes c (encR 0x87 dst a b (shiftMod n p)) 2 = true →
      exec (.vfmac e dst a b n p) s = .next (done 2 fun k =>
        let m := prod (x k) (y k)
        let t := satSigned ((z k).toInt + m.1.toInt)
        (t.1, m.2 || t.2))) ∧
    two (.vmin e dst a b p) 0x88 (fun v w => (if w.toInt < v.toInt then w else v, false)) ∧
    two (.vmax e dst a b p) 0x89 (fun v w => (if v.toInt < w.toInt then w else v, false)) ∧
    two (.vminu e dst a b p) 0x8A (fun v w => (if w.toNat < v.toNat then w else v, false)) ∧
    two (.vmaxu e dst a b p) 0x8B (fun v w => (if v.toNat < w.toNat then w else v, false)) ∧
    two (.vand e dst a b p) 0x8C (fun v w => (v &&& w, false)) ∧
    two (.vor e dst a b p) 0x8D (fun v w => (v ||| w, false)) ∧
    two (.vxor e dst a b p) 0x8E (fun v w => (v ^^^ w, false)) ∧
    (s.executes c (encR 0x8F dst a 0 (predMod p)) 1 = true → exec (.vclu e dst a p) s = .next (done 1 fun k =>
      if (x k).toInt < 0 then (0, true) else if 0x10000 < (x k).toInt then (0x10000, true) else (x k, false))) ∧
    (s.executes c (encI 0x90 dst a (n.setWidth 14)) 1 = true →
      exec (.vshli e dst a n) s = .next (all 1 fun k => x k <<< n.toNat)) ∧
    (s.executes c (encI 0x91 dst a (n.setWidth 14)) 1 = true →
      exec (.vshri e dst a n) s = .next (all 1 fun k => x k >>> n.toNat)) ∧
    (s.executes c (encI 0x92 dst a (n.setWidth 14)) 1 = true →
      exec (.vsari e dst a n) s = .next (all 1 fun k => (x k).sshiftRight n.toNat)) ∧
    (s.executes c (encR 0x94 dst a 0 (predMod p)) 1 = true →
      exec (.vsplat e dst a p) s = .next (done 1 fun _ => (g.core.get a, false))) ∧
    (∀ (h : Engine) (w : Fin 16 → Word × Bool) (r : BitVec 5) (m : BitVec 16), dst.toNat < 16 →
      (∀ k : Fin 16, ((h.write dst m w).vget dst)[k] = if m.getLsbD k.val then (w k).1 else (h.vget dst)[k]) ∧
      (r ≠ dst → (h.write dst m w).vget r = h.vget r) ∧
      ((h.write dst m w).core.flg.q = true ↔ h.core.flg.q = true ∨ ∃ k : Fin 16, m.getLsbD k.val = true ∧ (w k).2 = true))

/-- O22. Vector constants, lane moves, selections, comparisons, predicates, lane attributes and the vector index.
    (05 R133 (registers), 05 R137 (VIDX), 05 R138 (lane attributes), 05 R143 (moves, comparisons, predicates), 05
    R150 (VACCR)) -/
def Obligations.VectorMovesAndPredicates : Prop :=
  ∀ (s : State) (e : Fin 8) (dst a b : BitVec 5) (lane : Fin 16) (p item : BitVec 3) (imm : BitVec 19),
    let c : CoreId := .engine e
    let g := s.dev.engAt e
    let eng (f : Engine → Engine) : State := s.falls c 1 fun d => d.onEng e f
    let cmp (i : Instr) (op : Byte) (f : Word → Word → Bool) : Prop :=
      s.executes c (encR op dst a b 0) 1 = true → ∃ r : BitVec 16,
        exec i s = .next (eng fun g => g.pput dst.toNat r) ∧
        ∀ k : Fin 16, r.getLsbD k.val = f (g.vget a)[k] (g.vget b)[k]
    let prd (i : Instr) (op : Byte) (src : BitVec 5) (r : BitVec 16) : Prop :=
      s.executes c (encR op dst a src 0) 1 = true → exec i s = .next (eng fun g => g.pput dst.toNat r)
    (s.executes c (encL 0x93 dst imm) 1 = true →
      exec (.vli e dst imm) s = .next (eng fun g => g.vput dst (Vector.replicate 16 (sx imm)))) ∧
    (s.executes c (encR 0x95 dst a 0 (BitVec.ofNat 9 lane.val)) 1 = true →
      exec (.vget e dst a lane) s = .next (eng fun g => { g with core := g.core.put dst (g.vget a)[lane] })) ∧
    (s.executes c (encR 0x96 dst a 0 (BitVec.ofNat 9 lane.val)) 1 = true →
      exec (.vset e dst a lane) s = .next (eng fun g => g.vput dst ((g.vget dst).set lane (g.core.get a)))) ∧
    (s.executes c (encR 0x97 dst a b (p.setWidth 9)) 1 = true →
      exec (.vsel e dst a b p) s = .next (eng fun g => g.vput dst (Vector.ofFn fun k =>
        if (g.pget p.toNat).getLsbD k.val then (g.vget a)[k] else (g.vget b)[k]))) ∧
    cmp (.vcmpeq e dst a b) 0x98 (fun x y => x == y) ∧
    cmp (.vcmplt e dst a b) 0x99 (fun x y => decide (x.toInt < y.toInt)) ∧
    cmp (.vcmpltu e dst a b) 0x9A (fun x y => decide (x.toNat < y.toNat)) ∧
    cmp (.vcmple e dst a b) 0x9B (fun x y => decide (x.toInt ≤ y.toInt)) ∧
    prd (.pand e dst a b) 0x9C b (g.pget a.toNat &&& g.pget b.toNat) ∧
    prd (.por e dst a b) 0x9D b (g.pget a.toNat ||| g.pget b.toNat) ∧
    prd (.pxor e dst a b) 0x9E b (g.pget a.toNat ^^^ g.pget b.toNat) ∧
    prd (.pnot e dst a) 0x9F 0 (~~~ g.pget a.toNat) ∧
    prd (.pmov e dst a) 0xA0 0 ((g.core.get a).setWidth 16) ∧
    (s.executes c (encR 0xA1 dst a 0 0) 1 = true → exec (.pget e dst a) s =
      .next (eng fun g => { g with core := g.core.put dst ((g.pget a.toNat).setWidth 32) })) ∧
    (s.executes c (encI 0xA2 dst 0 (item.setWidth 14)) 1 = true → exec (.vpos e dst item) s =
      .next (eng fun g => g.write dst 0xFFFF fun k =>
        let q := s.dev.lanePlace e k.val
        (BitVec.ofNat 32 (s.dev.scan.attribute q.1 q.2 item.toNat), false))) ∧
    (s.executes c (encL 0xAA dst 0) 1 = true → exec (.vaccr e dst) s =
      .next (eng fun g => g.vput dst (Vector.ofFn fun k => match g.work with
        | none => 0
        | some w => cellGet w.acc (16 * g.vidx.toNat + k.val)))) ∧
    (s.executes c (encL 0xAB 0 0) 1 = true →
      exec (.vstep e) s = .next (eng fun g => { g with vidx := g.vidx + 1 })) ∧
    (s.executes c (encI 0xAC 0 a 0) 1 = true →
      exec (.vsetidx e a) s = .next (eng fun g => { g with vidx := (g.core.get a).setWidth 8 }))

/-- O23. Vector loads and stores, matrix loads, gathers and source samples, and what makes them trap. (05 R139
    (memory of an engine), 05 R142 (VLD and VST), 05 R147 (sampling), 05 R148 (VLDS), 05 R149 (VMLD), 05 R153
    (VGATH)) -/
def Obligations.VectorMemoryAndSources : Prop :=
  ∀ (s : State) (e : Fin 8) (dst a b : BitVec 5) (imm : BitVec 14) (binding : BitVec 2) (bilinear clamp : Bool),
    let c : CoreId := .engine e
    let g := s.dev.engAt e
    let addr := g.core.get a + sx imm
    let n := addr.toNat
    (∀ i, s.dev.invAt e = some i → n + 64 ≤ 0x1000 → n % 64 = 0 → i.ls = true →
      (s.executes c (encI 0xA3 dst a imm) 2 = true → exec (.vld e dst a imm) s =
        .next (s.falls c 2 fun d => d.onEng e fun g => g.vput dst (Vector.ofFn fun k =>
          BitVec.ofNat 32 (leNat (((readBytes (s.dev.engAt i.home).slotMem[i.slot.val] n 64).drop (4 * k.val)).take 4))))) ∧
      (s.executes c (encI 0xA4 dst a imm) 2 = true → exec (.vst e dst a imm) s =
        .next (s.falls c 2 fun d => d.onEng i.home fun h =>
          let mems := upd h.slotMem i.slot fun t => writeBytes t n (vecBytes (g.vget dst))
          { h with slotMem := mems }))) ∧
    (∀ i, s.dev.invAt e = some i → 0x2000 ≤ n → n + 32 ≤ 0x2100 → n % 8 = 0 →
      s.executes c (encI 0xA7 0 a imm) 8 = true → exec (.vmld e a imm) s =
        .next (s.falls c 8 fun d => d.onEng e fun h =>
          let bytes := (upTo 32).map fun j => byteAt i.params (n - 0x2000 + j)
          { h with m := Vector.ofFn fun k => BitVec.ofNat 16 (leNat ((bytes.drop (2 * k.val)).take 2)) })) ∧
    (s.executes c (encI 0xA3 dst a imm) 2 = true →
      (n % 64 ≠ 0 → exec (.vld e dst a imm) s = .next (s.traps c 2 0x06 addr)) ∧
      (n % 64 = 0 → 0x10000000 ≤ n → exec (.vld e dst a imm) s = .next (s.traps c 2 0x07 addr))) ∧
    (s.executes c (encR 0xA6 dst a b 0) 16 = true →
      let rs : List (Nat × Nat) := (g.vget a).toList.map fun (x : Word) => ((g.core.get b).toNat + 4 * x.toNat, 4)
      (s.dev.loft.ce = [] → s.dev.loft.ue = [] → (∀ r, r ∈ rs → s.dev.inRegion [1, 3, 4] r = true) →
        exec (.vgath e dst a b) s = .next (s.falls c 16 fun d => d.onEng e fun g => g.write dst 0xFFFF fun k =>
          (read32 d.loft.cells ((g.core.get b).toNat + 4 * (g.vget a)[k].toNat), false))) ∧
      (∀ r, rs.find? (fun r => !s.dev.inRegion [1, 3, 4] r) = some r →
        exec (.vgath e dst a b) s = .next (s.traps c 16 0x07 (BitVec.ofNat 32 r.1)))) ∧
    (let k : Nat := if bilinear then 32 else 16
     let mod := sampleMod binding bilinear clamp
     s.executes c (encR 0xA5 dst a b mod) k = true →
      (s.dev.boundSource e binding.toNat = none →
        exec (.vlds e dst a b binding bilinear clamp) s = .next (s.traps c k 0x22 (zx binding))) ∧
      (∀ x, s.dev.boundSource e binding.toNat = some x → s.dev.loft.ce = [] → s.dev.loft.ue = [] →
        exec (.vlds e dst a b binding bilinear clamp) s = .next (s.falls c k fun d => d.onEng e fun g' =>
          let put (h : Engine) (ch : Nat) : Engine := h.vput (dst + BitVec.ofNat 5 ch) (Vector.ofFn fun j =>
            s.dev.sample x mod (g.vget a)[j] (g.vget b)[j] ch)
          put (put (put (put g' 0) 1) 2) 3)))

/-- O24. Matrix, blending, uniformity, tables, quantisation and output of a patch, who may use them, and PEND. (05
    R149 (VCMX), 05 R150 (VBLEND), 05 R151 (VUNI), 05 R152 (VLUT), 05 R154 (VQNT), 05 R155 (VOUT), 05 R157 (PEND),
    05 R159) -/
def Obligations.VectorPictureOperations : Prop :=
  ∀ (s : State) (e : Fin 8) (dst a b : BitVec 5) (mode : BitVec 3) (p : Option (BitVec 3)),
    let c : CoreId := .engine e
    let g := s.dev.engAt e
    let base := (g.core.get b).toNat
    let mask : BitVec 16 := match p with
      | none => 0xFFFF
      | some q => g.pget q.toNat
    let clean : Prop := s.dev.loft.ce = [] ∧ s.dev.loft.ue = []
    let emitters : List (Fin 16) := (List.finRange 16).filter fun k => (s.dev.laneWord e k.val).isSome
    let depth := s.dev.depthOf e
    let blendWord := encR 0xA9 0 a b (shiftMod (mode.setWidth 5) p)
    (s.executes c (encR 0xA8 dst a 0 (predMod p)) 4 = true → exec (.vcmx e dst a p) s =
      .next (s.falls c 4 fun d => d.onEng e fun g => g.write dst mask fun k =>
        let term (j : Nat) : Int :=
          (getN g.m (4 * d.laneE e k.val + j) 0).toInt * (g.vget (a + BitVec.ofNat 5 j))[k].toInt
        satSigned (Int.fdiv (term 0 + term 1 + term 2 + term 3 + 2048) 4096))) ∧
    (s.executes c blendWord 2 = true →
      (s.dev.inFinish e = true → exec (.vblend e a b mode p) s = .next (s.traps c 2 0x21 blendWord)) ∧
      (s.dev.inFinish e = false → exec (.vblend e a b mode p) s =
        .next (s.falls c 2 fun d => d.onEng e fun g =>
          let put := (emitters.filter fun k => mask.getLsbD k.val).map fun k =>
            (16 * g.vidx.toNat + k.val, blend mode.toNat (g.accAt k.val) (g.vget a)[k] (g.vget b)[k])
          let store (t : Cells 32) : Cells 32 := put.foldl (fun t x => cellSet t x.1 x.2.1) t
          (g.onWork fun w => { w with acc := store w.acc }).clamped
            (put.any fun x => x.2.2)))) ∧
    (s.executes c (encR 0xAD dst a b 0) 4 = true →
      (s.dev.inFinish e = false → exec (.vuni e dst a b) s = .next (s.traps c 4 0x20 (encR 0xAD dst a b 0))) ∧
      (s.dev.inFinish e = true → s.dev.inRegion [3] (base, s.dev.scan.emitters) = true → clean →
        exec (.vuni e dst a b) s = .next (s.falls c 4 fun d => d.onEng e fun g => g.write dst 0xFFFF fun k =>
          match d.laneWord e k.val with
          | none => (0, false)
          | some n => satUnsigned ((((g.vget a)[k].toNat * (cellGet d.loft.cells (base + n)).toNat + 64) / 128 : Nat) : Int)))) ∧
    (s.executes c (encR 0xAE dst a b 0) 16 = true → base % 4 = 0 → s.dev.inRegion [4] (base, 4100) = true → clean →
      exec (.vlut e dst a b) s = .next (s.falls c 16 fun d => d.onEng e fun g => g.write dst 0xFFFF fun k =>
        let v := (unit16 (g.vget a)[k]).1.toNat
        let t (j : Nat) : Int := (read32 d.loft.cells (base + 4 * j)).toInt
        (if 1024 ≤ v / 64 then wordOf (t 1024)
         else wordOf (t (v / 64) + Int.fdiv ((t (v / 64 + 1) - t (v / 64)) * (v % 64) + 32) 64), false))) ∧
    (s.executes c (encR 0xAF dst a 0 0) 1 = true →
      (s.dev.inFinish e = false → exec (.vqnt e dst a) s = .next (s.traps c 1 0x20 (encR 0xAF dst a 0 0))) ∧
      (s.dev.inFinish e = true → exec (.vqnt e dst a) s =
        .next (s.falls c 1 fun d => d.onEng e fun g => g.write dst 0xFFFF fun k =>
          (BitVec.ofNat 32 (((unit16 (g.vget a)[k]).1.toNat * (2 ^ depth - 1) + 32768) / 65536), false)))) ∧
    (s.executes c (encR 0xB0 0 a 0 0) 1 = true →
      (s.dev.inFinish e = false → exec (.vout e a) s = .next (s.traps c 1 0x20 (encR 0xB0 0 a 0 0))) ∧
      (s.dev.inFinish e = true → exec (.vout e a) s = .next (s.falls c 1 fun d => d.onEng e fun g =>
        let top : Int := 2 ^ depth - 1
        let put : List (Nat × BitVec 16) := emitters.map fun k =>
          (16 * g.vidx.toNat + k.val, BitVec.ofInt 16 (max 0 (min top (g.vget a)[k].toInt)))
        (g.onWork fun w => { w with words := (w.words.filter fun x => x.1 / 16 != g.vidx.toNat) ++ put }).clamped
          (emitters.any fun k => decide ((g.vget a)[k].toInt < 0) || decide (top < (g.vget a)[k].toInt))))) ∧
    (s.executes c (encL 0xB1 0 0) 1 12 = true → exec (.pend e) s =
      .next ((s.fetched c).any fun d => ((d.count c (d.cyclesOf c 1)).endInv e).endStep c))

/-- O25. The host port: Loft bytes and registers are written and read at their addresses, and its other commands
    answer. (02 R34, 02 R35 (commands), 02 R36 (PORT RESET), 02 R37, 02 R38 (READ), 02 R40 (SYS_HP_CFG), 02 R42
    (flags), 02 R47, 02 R49) -/
def Obligations.HostPortCommands : Prop :=
  ∀ (s : State) (a v : Word) (data : List Byte) (n : Nat) (cmd fall : Byte), s.dev.coreUp = true →
    let out (bs : List Byte) (d : Dev) : Dev := { d with hp := { d.hp with out := bs } }
    let whole (w : Nat) : Prop := touchesWord a.toNat data.length w = true → coversWord a.toNat data.length w = true
    (0x40000 ≤ a.toNat → a.toNat + data.length ≤ loftSize → data ≠ [] → ∃ t,
      exec (.write (some a) data false) s = .next t ∧ t = s.hosted (fun d => d.loftWrite a.toNat data) ∧
      (s.dev.memWf = true → t.dev.loftBytes a.toNat data.length = data ∧
        ((∀ w, w ∈ s.dev.loft.ce → whole w) → ∀ b, b < a.toNat ∨ a.toNat + data.length ≤ b →
          cellGet t.dev.loft.cells b = cellGet s.dev.loft.cells b))) ∧
    (s.takesWrite a.toNat v = true →
      let t : State := { s with dev := (regEffect s.dev.answering s.otp a.toNat v).1,
                                otp := (regEffect s.dev.answering s.otp a.toNat v).2 }
      exec (.registerWrite a v 4) s = .next t ∧
      exec (.write (some a) (leBytes v.toNat 4) false) s = .next t) ∧
    (a.toNat + n ≤ loftSize → s.dev.loft.ce = [] → s.dev.loft.ue = [] →
      exec (.read (some a) n 0 true) s = .next (s.hosted (out (s.dev.loftBytes a.toNat n)))) ∧
    (∀ w, a.toNat % 4 = 0 → loftSize ≤ a.toNat → windowRead s.dev.answering a.toNat = none → a ≠ 0x20000030 →
      regRead s.dev.answering s.otp a.toNat = some w →
      exec (.rcRegisterRead a) s = .next (s.hosted fun d => out (leBytes w.toNat 4) (regClear d a.toNat))) ∧
    (exec .sysHtimeLoRead s = .next (s.hosted fun d =>
      out (leBytes (s.dev.sys.htime.toNat % 2 ^ 32) 4)
        { d with sys := { d.sys with htimeHi := d.sys.htime.extractLsb' 32 32 } })) ∧
    exec (.readStatus n) s = .next (s.hosted (out (List.replicate n (s.dev.hp.flags.setWidth 8)))) ∧
    exec (.readId n) s = .next (s.hosted (out ((([0x01, 0x00, 0x16, 0x1A] : List Byte) ++ List.replicate n 0).take n))) ∧
    (s.takesWrite 0x20000100 v = true → exec (.sysHpCfgWrite v) s = .next (s.hosted fun d =>
      { d with hp := { d.hp with proto := v.extractLsb' 0 2, dummy := v.extractLsb' 8 5 } })) ∧
    exec .portReset s = .next (s.hosted fun d => { d with hp := { d.hp with proto := 0, dummy := 8 } }) ∧
    (s.dev.hp.proto ≠ 2 ∨ fall = ~~~cmd ∨ (cmd = 0xFF ∧ fall = 0xFF) → s.dev.hp.selects cmd fall = hostCommand cmd) ∧
    (s.dev.hp.selects cmd fall = none → s.dev.hp.flags.getLsbD 4 = true →
      exec (.hpUnknownCommand cmd fall) s = .next (s.hosted id)) ∧
    (s.dev.hp.selects cmd fall = none → s.dev.hp.flags = 0 → exec (.hpUnknownCommand cmd fall) s =
      .next (s.any fun d =>
        (Dev.interrupt { d with hp := { d.answering.hp with flags := 0x10, errAddr := 0 } } 4).event 0x0112 (payN 0 0x10)))

/-- O26. Ring registers: bases, enabling, stopping, the doorbell and the two consumer indices, and timed signals.
    (03 R65, 03 R66 (ring registers), 03 R67 (enabling), 03 R68 (stopping), 03 R69 (indices), 03 R71 (signalling),
    03 R88 (lost entries)) -/
def Obligations.RingRegisterCommands : Prop :=
  ∀ (s : State) (n : Fin 32) (v : BitVec 16) (w : Word) (log2 : BitVec 4), s.dev.coreUp = true →
    let r := s.dev.ringAt n.val
    let on (f : Ring → Ring) (d : Dev) : Dev := d.ring n.val f
    let refused (off : Nat) : State := s.hosted fun d =>
      (on (fun r => { r with badIndex := true }) d).event 0x0202 (payN 0 n.val ||| payN 8 off ||| pay 16 v)
    (r.enabled = false → w.toNat % 64 = 0 →
      exec (.ringBaseWrite n false w) s = .next (s.hosted (on fun r => { r with base := w.setWidth 25 })) ∧
      (n.val < 24 →
        exec (.ringBaseWrite n true w) s = .next (s.hosted (on fun r => { r with cplBase := w.setWidth 25 })))) ∧
    (r.enabled = true → exec (.ringBaseWrite n false w) s = .next (s.hosted fun d => d.ringCfgErr n.val 4)) ∧
    (r.enabled = false → w.toNat % 64 ≠ 0 →
      exec (.ringBaseWrite n false w) s = .next (s.hosted fun d => d.ringCfgErr n.val 5)) ∧
    (r.enabled = false → log2 ≠ 0 → s.dev.enableCause n.val log2.toNat = 0 → s.dev.sys.recordOwed = false →
      (n.val = 23 → s.dev.roof.relay = false) →
      exec (.ringEnable n log2) s = .next (s.hosted (on fun r =>
        { r with log2 := log2, prod := 0, cons := 0, cplProd := 0, cplCons := 0, enabled := true, stopping := false,
                 stalled := false, unsignalled := 0, oldest := none, lost := 0, inService := none }))) ∧
    (r.enabled = true → exec (.ringStop n) s = .next (s.hosted (on fun r => { r with stopping := true }))) ∧
    (r.enabled = true → r.stopping = true → r.inService = none →
      exec (.ringDisableDone n) s = .next (s.any (on fun r =>
        { r with enabled := false, stopping := false, log2 := 0, stalled := false }))) ∧
    (hostProduced n.val = true → r.enabled = true →
      (r.held ≤ (v - r.cons).toNat → (v - r.cons).toNat ≤ r.entries → exec (.ringDoorbell n v) s =
        .next (s.hosted fun d => (on (fun r => { r with prod := v }) d).trussPend 0)) ∧
      (r.entries < (v - r.cons).toNat → exec (.ringDoorbell n v) s = .next (refused 0x0C))) ∧
    (hostProduced n.val = false → r.enabled = true →
      ((r.prod - v).toNat ≤ r.held →
        exec (.ringConsWrite n v) s = .next (s.hosted (on fun r => { r with cons := v }))) ∧
      (r.held < (r.prod - v).toNat → exec (.ringConsWrite n v) s = .next (refused 0x10))) ∧
    (n.val < 24 → r.enabled = true → (r.cplProd - v).toNat ≤ r.cplHeld → (r.cplProd - v).toNat < r.entries →
      exec (.ringCplConsWrite n v) s = .next (s.hosted (on fun r => { r with cplCons := v, stalled := false }))) ∧
    (∀ t, r.oldest = some t → signals n.val = true → r.irqTime ≠ 0 → t + r.irqTime.toNat ≤ s.dev.now →
      exec (.ringIrqTimer n) s = .next (s.any fun d => Dev.interrupt
        { on (fun r => { r with unsignalled := 0, oldest := none }) d with
          int := { d.int with ring := setBit d.int.ring n.val true } } (ringIntBit n.val))) ∧
    (reportRings.contains n.val = true → s.dev.dropDue n.val = true →
      exec (.ringDropReport n) s = .next (s.any Dev.reportDrops))

/-- O27. Commands that take effect at their fetch complete OK with their result, and do what the command set says.
    (03 R77 (completions), 03 R80 (command set), 03 R82 (regions), 03 R86, 08 R245 (timing modes), 14 R433, 14 R434,
    15 R443) -/
def Obligations.CommandsAnsweredAtOnce : Prop :=
  ∀ (s : State) (h : CmdHdr) (a : Args),
    let d := s.dev
    (s.serves h 0x00 a = true → exec (.nop h a) s = .next (s.answers h 0x00 .ok 0x1A160001 0)) ∧
    (∀ t, s.serves h 0x01 a = true → Mode.ofCode (slice a[0] 0 4) = some t → d.sys.pending = none →
      d.modeFault t = none →
      (t = d.sys.mode → exec (.modeRequest h a) s = .next (s.answers h 0x01 .ok (t.code.setWidth 32) 0 fun d =>
        if t = .proof then d.restartProof else d)) ∧
      (t ≠ d.sys.mode → modeRow d.sys.trimFromArmed d.sys.mode t = some false →
        exec (.modeRequest h a) s = .next (s.answers h 0x01 .ok (t.code.setWidth 32) 0 fun d => d.enterNow t))) ∧
    (s.serves h 0x02 a = true → exec (.houseEpoch h a) s = .next
      (s.answers h 0x02 .ok (d.sys.htime.setWidth 32) (d.sys.htime.extractLsb' 32 32) fun x =>
        { x with gbl := { x.gbl with epoch := a[1] ++ a[0], epochTime := d.sys.htime } })) ∧
    (∀ k : Fin 64, s.serves h 0x11 a = true → a[0] = BitVec.ofNat 32 (k.val + 1) → d.thatch.handles[k].isSome = true →
      d.handleUsed (BitVec.ofNat 7 (k.val + 1)) = false →
      exec (.imageDrop h a) s = .next (s.answers h 0x11 .ok 0 0 fun x =>
        { x with thatch := { x.thatch with handles := upd x.thatch.handles k fun _ => none } })) ∧
    (let k := regionArg a[0]
     let kind := (a[0].extractLsb' 8 4).toNat
     s.serves h 0x18 a = true → kind ≤ 4 → a[1].toNat % 64 = 0 → a[2].toNat % 64 = 0 → a[2] ≠ 0 →
      inFreeLoft (a[1].toNat, a[2].toNat) = true →
      (d.takenRanges k).any (rangesMeet (a[1].toNat, a[2].toNat)) = false → d.regionUsed k = false →
      exec (.regionSet h a) s = .next (s.answers h 0x18 .ok 0 0 fun x =>
        let g : Region := { kind := kind, base := a[1].toNat, length := a[2].toNat }
        { x with regions := upd x.regions k fun _ => some g })) ∧
    (let k := regionArg a[0]
     s.serves h 0x19 a = true → d.regions[k.val].isSome = true → d.regionUsed k = false →
      exec (.regionClear h a) s = .next (s.answers h 0x19 .ok 0 0 fun x =>
        { x with regions := upd x.regions k fun _ => none })) ∧
    (∀ x, s.serves h 0x40 a = true → d.clean a[1].toNat 16 = true → parseTMode (d.loftBytes a[1].toNat 16) = some x →
      slotArg a[0] ≠ d.scan.slot →
      exec (.tmodeLoad h a) s = .next (s.answers h 0x40 .ok 0 0 fun d =>
        { d with scan := { d.scan with tmode := upd d.scan.tmode (slotArg a[0]) fun _ => x } })) ∧
    (s.serves h 0x51 a = true → a[0].toNat % 8 = 0 → loftFree a[0].toNat 128 = true →
      exec (.calSnapshot h a) s = .next (s.any fun d =>
        ((d.noteServed h.ring).loftWrite a[0].toNat d.snapshot).complete h 0x51 .ok 0 0)) ∧
    (s.serves h 0x52 a = true → d.clean a[0].toNat 128 = true →
      d.restoreCheck (d.loftBytes a[0].toNat 128) = 1 → d.trim.running = false → d.trim.queued = [] →
      exec (.calRestore h a) s = .next (s.answers h 0x52 .ok 0 0 fun x => (x.restore (d.loftBytes a[0].toNat 128)).2))

/-- O28. Commands on contexts, the finish program and engines are DEFERRED to the next patch-run start with the
    frame it renders. (03 R77, 03 R84 (superseding), 06 R161 (binding), 06 R163, 06 R165, 06 R167, 06 R179
    (CTX_SWAP), 06 R180, 06 R181, 06 R184, 06 R186, 06 R188) -/
def Obligations.ContextCommandsAreDeferred : Prop :=
  ∀ (s : State) (h : CmdHdr) (a : Args) (c : Fin 64) (k : Fin 64),
    let d := s.dev
    let args := BitVec.ofNat 7 (k.val + 1)
    let image (x : Word) : Prop := x = BitVec.ofNat 32 (k.val + 1) ∧ d.thatch.handles[k].isSome = true
    let idle : Prop := c ≠ 0 ∧ (a[0].extractLsb' 0 6).toNat = c.val ∧ d.migrating c = false
    let bytes (x : Word) : BitVec 2048 := packBytes 2048 (d.loftBytes x.toNat 256)
    let mask (x : Word) : BitVec 256 := maskOf (d.loftBytes x.toNat 32)
    let answer (op : Byte) (x : EffectOp) : State := s.defers h op (d.nextRun.setWidth 32) x
    (let rank : BitVec 6 := a[6].extractLsb' 0 6
     let bind (params : BitVec 2048) : EffectOp := .ctxBind c args a[2] a[5] (mask a[3]) params rank (a[6].getLsbD 8)
     s.serves h 0x20 a = true → idle → image a[1] → d.clean a[3].toNat 32 = true → mask a[3] ≠ 0 →
      d.clean a[4].toNat 256 = true → bindingsOk a[5] = true → rank ≠ 63 → d.rankTaken (bind 0) rank c = false →
      d.rankReserved rank = none → (d.ctxAt c).state = .idle →
      (a[6].getLsbD 8 = true → d.slotTest (bind 0) (mask a[3]) c = .free) →
      exec (.ctxBind h a) s = .next (answer 0x20 (bind (bytes a[4])))) ∧
    (s.serves h 0x21 a = true → idle → image a[1] → d.moving c = false →
      exec (.ctxSwap h a) s = .next (answer 0x21 (.ctxSwap c args a[2]))) ∧
    (s.serves h 0x22 a = true → idle → d.clean a[1].toNat 256 = true →
      exec (.ctxParam h a) s = .next (answer 0x22 (.ctxParam c (bytes a[1])))) ∧
    (let rank : BitVec 6 := a[2].extractLsb' 0 6
     s.serves h 0x23 a = true → idle → d.clean a[1].toNat 32 = true → mask a[1] ≠ 0 →
      (d.projected (.ctxPlace c (mask a[1]) rank)).placeSplits c (mask a[1]) = false → rank ≠ 63 → d.rankReserved rank = none →
      exec (.ctxPlace h a) s = .next (answer 0x23 (.ctxPlace c (mask a[1]) rank))) ∧
    (s.serves h 0x24 a = true → idle → exec (.ctxSuspend h a) s = .next (answer 0x24 (.ctxSuspend c))) ∧
    (s.serves h 0x26 a = true → idle → exec (.ctxRetire h a) s = .next (answer 0x26 (.ctxRetire c))) ∧
    (s.serves h 0x25 a = true → idle →
      ((d.ctxAt c).state = .suspended → (d.ctxAt c).ls = true →
        d.slotTest (.ctxResume c) (d.ctxAt c).mask c = .free) →
      exec (.ctxResume h a) s = .next (answer 0x25 (.ctxResume c))) ∧
    (let e : Fin 8 := engArg a[1]
     let then' := d.projected (.ctxMigrate c e d.nextRun)
     s.serves h 0x27 a = true → idle → a[1].getLsbD 15 = false → (d.ctxAt c).ls = true →
      (then'.engAt e).inService = true → ((then'.ctxAt c).slotValid = true → (then'.ctxAt c).engine ≠ e) →
      (then'.groupOf c).length ≤ (then'.engAt e).freeSlots → d.moving c = false →
      exec (.ctxMigrate h a) s = .next (answer 0x27 (.ctxMigrate c e d.nextRun))) ∧
    (let pos : BitVec 3 := a[1].extractLsb' 8 3
     let s' : BitVec 16 := d.nextRun + 1
     s.serves h 0x27 a = true → idle → a[1].getLsbD 15 = true → d.inRoof = true → pos ≠ d.roof.position →
      d.inRoofRange pos = true → ((d.projected (.ctxMigrate c 0 s')).groupOf c).length ≤ 1 → d.moving c = false →
      exec (.ctxMigrate h a) s = .next (s.answers h 0x27 .deferred (s'.setWidth 32) (d.sys.htime.setWidth 32) fun d =>
        if (d.ctxAt c).live then d.beginMigration c pos s' else d)) ∧
    (s.serves h 0x28 a = true → image a[0] → d.clean a[2].toNat 256 = true →
      exec (.finishSet h a) s = .next (answer 0x28 (.finishSet args a[1] (bytes a[2])))) ∧
    (let e : Fin 8 := engArg a[0]
     (s.serves h 0x30 a = true → ((d.engAt e).inService = true → d.servingBut e ≠ []) → d.engineMoves e = false →
      exec (.engRetire h a) s = .next (answer 0x30 (.engRetire e))) ∧
     (s.serves h 0x31 a = true → (d.engAt e).bistFail = false →
      exec (.engReturn h a) s = .next (answer 0x31 (.engReturn e))))

/-- O29. Commands on inputs, sources, timing, frames, calibration, zone sets and the reset window are DEFERRED with
    their results. (03 R77, 03 R81 (forwarding), 07 R201, 07 R208, 07 R209, 07 R211, 08 R247 (TMODE_SELECT), 08 R253
    (FRAME_COMMIT), 11 R335, 11 R349, 14 R425, 16 R490) -/
def Obligations.PictureCommandsAreDeferred : Prop :=
  ∀ (s : State) (h : CmdHdr) (a : Args),
    let d := s.dev
    let answer (op : Byte) (x : EffectOp) : State := s.defers h op (d.nextRun.setWidth 32) x
    let asked (op : Byte) (r0 : Word) (f : Dev → Dev) : State := s.any fun d =>
      (f (((d.noteServed h.ring).triggerG 5).complete h op .deferred r0 (s.dev.sys.htime.setWidth 32))).trussPend 5
    let at' (op : Byte) (r0 : Word) (f : Dev → Dev) : State := s.answers h op .deferred r0 (d.sys.htime.setWidth 32) f
    let eff (x : EffectOp) : Effect := { ring := BitVec.ofNat 8 h.ring.val, tag := h.tag, op := x }
    (let n : Fin 4 := ⟨(a[0].extractLsb' 0 2).toNat, (a[0].extractLsb' 0 2).isLt⟩
     ∀ x, s.serves h 0x38 a = true → d.clean a[1].toNat 64 = true →
      parseStreamDesc (d.loftBytes a[1].toNat 64) = some x → d.streamOk n.val x = true →
      (x.nbuf ≠ 0 → exec (.vinDesc h a) s = .next (s.defers h 0x38 0 (.vinDesc n (some x)))) ∧
      (x.nbuf = 0 → exec (.vinDesc h a) s = .next (at' 0x38 0 fun d =>
        let x := d.schedule (eff (.vinDesc n none))
        if (x.vin.streams[n]).filling then x else x.applyDisable n))) ∧
    (let i : Fin 16 := ⟨(a[0].extractLsb' 0 4).toNat, (a[0].extractLsb' 0 4).isLt⟩
     s.serves h 0x39 a = true → d.clean a[1].toNat 48 = true →
      (parseSourceDesc (d.loftBytes a[1].toNat 48) = some none →
        exec (.srcDesc h a) s = .next (answer 0x39 (.srcDesc i none))) ∧
      (∀ x, parseSourceDesc (d.loftBytes a[1].toNat 48) = some (some x) → d.sourceOk x = true →
        exec (.srcDesc h a) s = .next (answer 0x39 (.srcDesc i (some x))))) ∧
    (let m : BitVec 16 := a[0].extractLsb' 0 16
     s.serves h 0x3A a = true → m ≠ 0 → (∀ i ∈ bitsOf m, d.sourceDescs i ≠ []) →
      exec (.srcCommit h a) s = .next (answer 0x3A (.srcCommit m))) ∧
    (s.serves h 0x41 a = true → d.slotRefused (slotArg a[0]) = false →
      exec (.tmodeSelect h a) s = .next (answer 0x41 (.tmodeSelect (slotArg a[0])))) ∧
    (s.serves h 0x42 a = true → a[0] = 0x01400000 ∨ a[0] = 0x01600000 →
      let commit (d : Dev) : Dev := d.recordCommit (BitVec.ofNat 8 h.ring.val) h.tag (a[0] == 0x01600000)
      exec (.frameCommit h a) s = .next (at' 0x42 (commit d).commitStatus commit)) ∧
    (let steps : BitVec 48 := (a[1].extractLsb' 0 16 : BitVec 16) ++ a[0]
     s.serves h 0x50 a = true → steps ≠ 0 →
      exec (.calRun h a) s = .next (at' 0x50 d.trim.count fun d =>
        let ask : CalAsk := { steps := steps, trigger := 2, cmd := some (BitVec.ofNat 8 h.ring.val, h.tag) }
        { d with trim := { d.trim with queued := d.trim.queued ++ [ask] } })) ∧
    (s.serves h 0x62 a = true → d.gbl.lost = 0 →
      exec (.zonesetSelect h a) s = .next (asked 0x62 (d.nextTickFrame.setWidth 32) fun d =>
        d.schedule (eff (.zonesetSelect (a[0].extractLsb' 0 3))))) ∧
    (s.serves h 0x03 a = true → d.gbl.lost = 0 →
      exec (.safeHoldReset h a) s = .next (asked 0x03 (BitVec.ofNat 32 (d.now + 10000000)) fun x =>
        { x with gbl := { x.gbl with resetWindow := some (d.now + 10000000) } })) ∧
    (d.gbl.lost ≠ 0 →
      (s.serves h 0x62 a = true → exec (.zonesetSelect h a) s = .next (s.answers h 0x62 .fault 0x0808 0 Dev.gableLostEvent)) ∧
      (s.serves h 0x03 a = true →
        exec (.safeHoldReset h a) s = .next (s.answers h 0x03 .fault 0x0808 0 Dev.gableLostEvent))) ∧
    (s.serves h 0x79 a = true → d.sys.role = 0 → d.roof.twin = true → d.roof.peerOk = true → d.roof.peerHealth ≠ 0 →
      exec (.twinYield h a) s = .next (s.defers h 0x79 (d.nextLat.setWidth 32) .twinYield))

/-- O30. Long commands stay in service on their ring from their fetch until their work ends, and complete then. (03
    R78 (long commands), 03 R79, 03 R83, 04 R131 (IMAGE_LOAD), 11 R354, 11 R357, 15 R443, 16 R486, 18 R518) -/
def Obligations.LongCommands : Prop :=
  ∀ (s : State) (h : CmdHdr) (a : Args),
    let d := s.dev
    (∀ t, s.serves h 0x01 a = true → Mode.ofCode (slice a[0] 0 4) = some t → d.sys.pending = none →
      d.modeFault t = none → t ≠ d.sys.mode → modeRow d.sys.trimFromArmed d.sys.mode t = some true →
      exec (.modeRequest h a) s = .next (s.startsLong h 0x01 a fun d =>
        let p : PendingMode := { target := t, hdr := some h }
        { d with sys := { d.sys with pending := some p } })) ∧
    (s.serves h 0x10 a = true → a[1] ≠ 0 → exec (.imageLoad h a) s = .next (s.startsLong h 0x10 a)) ∧
    (s.serves h 0x60 a = true → a[1] ≠ 0 →
      exec (.safetyLoad h a) s = .next (s.startsLong h 0x60 a fun d => d.triggerG 5)) ∧
    (s.serves h 0x61 a = true → a[1] ≠ 0 → exec (.safetyChange h a) s = .next (s.startsLong h 0x61 a fun d =>
      let g := d.triggerG 5
      { g with gbl := { g.gbl with logArea := if loftFree a[3].toNat 128 then some a[3].toNat else none } })) ∧
    (let b := (a[0].extractLsb' 0 10).toNat
     s.serves h 0x70 a = true → b < 55 → d.injInstances b d.inj.target ≠ [] →
      (a[1].getLsbD 0 = true → dryBit b = true) → d.inj.busy = false →
      exec (.inject h a) s = .next (s.startsLong h 0x70 a fun d => d.injStart b (a[1].getLsbD 0) .command (some h))) ∧
    (let k : BitVec 3 := a[0].extractLsb' 0 3
     s.serves h 0x78 a = true → d.sys.role ≠ 2 → k ≠ 0 → (d.workerAt k).lit = false → d.roof.reenum = none →
      exec (.roofReenum h a) s = .next (s.startsLong h 0x78 a fun d => d.reenumStart h k)) ∧
    (∀ (n : Fin 24) (c : LongCommand) (k : Fin 64), d.coreUp = true → d.trussServes = true → d.rings[n].inService = some c →
      (c.opcode = 0x10 → c.args[2].extractLsb' 0 2 = (1 : BitVec 2) →
        d.clean c.args[0].toNat c.args[1].toNat = true →
        d.inRegion [2] (c.args[0].toNat, c.args[1].toNat) = true →
        imageCheck (d.loftBytes c.args[0].toNat c.args[1].toNat) c.args[0].toNat c.args[1].toNat 1 = none →
        imageAuth s.otp d.gbl.cfg (d.loftBytes c.args[0].toNat c.args[1].toNat) 1 = 0 → d.freeHandle = some k →
        exec (.longCommandComplete n) s = .next (s.any fun d' =>
          let x := (d'.finishLong c.hdr 0x10 .ok (BitVec.ofNat 32 (k.val + 1)) 0).noteCheck none 1
          let i := parseImage (d.loftBytes c.args[0].toNat c.args[1].toNat) c.args[0].toNat
          { x with thatch := { x.thatch with handles := upd x.thatch.handles k fun _ => some i } })) ∧
      (c.opcode = 0x60 ∨ c.opcode = 0x61 → d.gbl.lost ≠ 0 → exec (.longCommandComplete n) s = .next (s.any fun d' =>
        (d'.finishLong c.hdr c.opcode .fault 0x0808 0).gableLostEvent.safetyAnswered)) ∧
      (c.opcode = 0x60 → d.gbl.lost = 0 →
        d.clean c.args[0].toNat c.args[1].toNat = true → d.clean c.args[2].toNat 128 = true →
        d.safetyTests (d.loftBytes c.args[0].toNat c.args[1].toNat) (d.loftBytes c.args[2].toNat 128)
          s.otp.counter.toNat = .pass →
        exec (.longCommandComplete n) s = .next (s.any fun d' =>
          (((d'.finishLong c.hdr 0x60 .ok (s.otp.counter.setWidth 32) 0).applyConfig
              (d.loftBytes c.args[0].toNat c.args[1].toNat) (d.loftBytes c.args[2].toNat 128)).configLoaded
            s.otp.counter.toNat).safetyAnswered)))

/-- O31. The tests of a command refuse in their order, refused commands change nothing, and COMMAND_FETCH takes the
    entry at CONS. (03 R77 (tests in order), 03 R80, 03 R79 (COMMAND_FETCH), 03 R83, 02 R58, 15 R443) -/
def Obligations.CommandTestsAndFetch : Prop :=
  ∀ (s : State) (h : CmdHdr) (a : Args),
    let d := s.dev
    (d.nextRing (some h.ring) = some h.ring →
      (d.acc.level.toNat < 1 →
        exec (.safeHoldReset h a) s = .next (s.refuses h 0x03 .denied 1 (d.acc.level.setWidth 32)) ∧
        exec (.safetyChange h a) s = .next (s.refuses h 0x61 .denied 1 (d.acc.level.setWidth 32)) ∧
        exec (.zonesetSelect h a) s = .next (s.refuses h 0x62 .denied 1 (d.acc.level.setWidth 32))) ∧
      (d.sys.mode ≠ .run → d.sys.mode ≠ .degraded →
        exec (.twinYield h a) s = .next (s.refuses h 0x79 .wrongMode (d.sys.mode.code.setWidth 32))) ∧
      (d.sys.mode ≠ .load → 1 ≤ d.acc.level.toNat →
        exec (.safetyLoad h a) s = .next (s.refuses h 0x60 .wrongMode (d.sys.mode.code.setWidth 32)) ∧
        exec (.safetyChange h a) s = .next (s.refuses h 0x61 .wrongMode (d.sys.mode.code.setWidth 32)))) ∧
    (s.serves h 0x10 a = true → a[1] = 0 → exec (.imageLoad h a) s =
      .next (s.answers h 0x10 .noopZero 0 0 fun d => d.noteUnchecked a)) ∧
    (s.serves h 0x18 a = true → a[2] = 0 → exec (.regionSet h a) s = .next (s.refuses h 0x18 .noopZero 0)) ∧
    (s.serves h 0x50 a = true → a[0] = 0 → a[1].extractLsb' 0 16 = (0 : BitVec 16) →
      exec (.calRun h a) s = .next (s.refuses h 0x50 .noopZero 0)) ∧
    (s.serves h 0x60 a = true → a[1] = 0 → exec (.safetyLoad h a) s = .next (s.refuses h 0x60 .noopZero 0)) ∧
    (d.nextRing (some h.ring) ≠ some h.ring → exec (.nop h a) s = .next s ∧ exec (.ctxBind h a) s = .next s ∧
      exec (.safetyLoad h a) s = .next s) ∧
    (∀ n : Fin 24, d.coreUp = true → d.trussServes = true → d.relayRing n = false →
      d.noteStalls.nextRing none = some n →
      let r := d.noteStalls.rings[n]
      let p := r.base.toNat + 32 * (r.cons.toNat % r.entries)
      let e := d.noteStalls.loftBytes p 32
      let hdr : CmdHdr := { ring := n, index := r.cons, tag := BitVec.ofNat 16 (entryField e 2 2),
                            irq := (entryField e 1 1) % 2 == 1 }
      let op : Byte := BitVec.ofNat 8 (entryField e 0 1)
      let taken (d : Dev) : Dev :=
        ((d.noteStalls.loftTouch p 32).ring n.val fun r => { r with cons := r.cons + 1 }).noteServed n
      (d.noteStalls.loftUe p 32 = true →
        exec .commandFetch s = .next (s.any fun d => (taken d).complete hdr op .fault 0x0111 0)) ∧
      (d.noteStalls.loftUe p 32 = false → commandOf op = none →
        exec .commandFetch s = .next (s.any fun d => (taken d).complete hdr op .badOpcode 0 0)) ∧
      (d.loft.ce = [] → d.loft.ue = [] → op = 0x00 → d.sys.mode.served = true →
        exec .commandFetch s = .next (s.any fun d => (taken d).complete hdr 0x00 .ok 0x1A160001 0)))

/-- O32. Engines take patches and drain them, runs complete, and engines fail their self-test, stall and finish
    context copies. (05 R156 (patch stages), 06 R170, 06 R172, 06 R173 (run completion), 06 R183, 06 R185, 06 R187,
    06 R188, 06 R194, 06 R171) -/
def Obligations.CourseEnginesAndRuns : Prop :=
  ∀ (s : State) (e : Fin 8) (c : Fin 64) (sig : Word), s.dev.coreUp = true →
    let g := s.dev.engAt e
    let cs := s.dev.course
    (s.dev.canTake e = false → exec (.engineTakePatch e) s = .next s) ∧
    (∀ frame p r, s.dev.canTake e = true → s.dev.nextPatch e = some (frame, p) → cs.runOf frame = some r →
      exec (.engineTakePatch e) s = .next (s.any fun d =>
        let todo := r.contexts.filter fun x => x.mask.getLsbD p.val && !r.excluded.contains x.id
        let w : Work := { patch := p, frame := frame, acc := [], words := [], rest := todo,
                          finishDue := decide (r.finish.handle ≠ 0), epochs := [], inv := none }
        ((d.onRun frame fun r => r.dequeue p).onEng e fun g => { g with work := some w }).advance e)) ∧
    (∀ x, g.drain = some x → g.svc ≠ 2 →
      let freed (d : Dev) : Dev := ((d.onEng e fun g => { g with drain := none }).advance e).purgeRuns
      (∀ k, s.dev.staleEpoch x = some k → exec (.patchDrainDone e) s = .next (s.any fun d =>
        let y : Dev := { d with course := { d.course with discard := satInc d.course.discard } }
        freed (y.event 0x0306 (payN 0 k.val ||| payN 8 e.val ||| payN 16 x.patch.val ||| pay 24 x.frame)))) ∧
      (∀ r, s.dev.staleEpoch x = none → cs.runOf x.frame = some r →
        let bytes := (s.dev.scan.patchLanes x.patch.val).flatMap fun l =>
          let a := frameBase r.outFrame + 2 * l.2
          [(a, (wordOut x.words l.1).setWidth 8), (a + 1, (wordOut x.words l.1).extractLsb' 8 8)]
        let b : Fin 2 := if r.outFrame then 1 else 0
        exec (.patchDrainDone e) s = .next (s.any fun d =>
          let y := (d.loftWriteAll bytes).onRun x.frame fun r => { r with done := setBit r.done x.patch.val true }
          freed (Dev.closeLate (if y.scan.srcFrame[b] = x.frame then
            { y with scan := { y.scan with bitmap := upd y.scan.bitmap b fun m => setBit m x.patch.val true } }
            else y) x.frame)))) ∧
    (cs.active = true → cs.complete = true → exec .runComplete s = .next (s.any fun d =>
      let y : Dev := { d with course := { d.course with active := false, late := false } }
      let z := (y.settleAll.closeCounts cs.run).releaseHeld.trussPend 2
      if z.course.autoForce then z.autoCommit z.course.run.outFrame else z)) ∧
    (cs.active = false ∨ cs.complete = false → exec .runComplete s = .next s) ∧
    (g.bistBusy = true →
      let told (d : Dev) (pass : Bool) : Dev := d.onEng e fun g =>
        { g with bistBusy := false, bistSig := sig, bistFail := !pass, bistFrame := d.course.run.frame }
      exec (.engineBistDone e sig true) s = .next (s.any fun d => told d true) ∧
      (g.svc ≠ 0 → exec (.engineBistDone e sig false) s = .next (s.any fun d => told d false)) ∧
      (g.svc = 0 → exec (.engineBistDone e sig false) s = .next (s.any fun d =>
        (((told d false).event 0x0308 (payN 0 e.val ||| pay 16 sig)).retireEngine e 2 1 cs.run.frame).advanceAll))) ∧
    (∀ w, g.work = some w → g.svc = 0 → exec (.engineStall e) s = .next (s.any fun d =>
      let y := (d.onEng e fun g => { g with work := none, core := { g.core with mode := .stopped } }).retireEngine e 2 2
        cs.run.frame
      let z := if w.frame = cs.run.frame ∨ cs.lateForce = true then y.onRun w.frame fun r => y.enqueue r w.patch
        else { y with course := { y.course with dropped := satInc y.course.dropped } }
      z.advanceAll.purgeRuns)) ∧
    (∀ (old : Fin 8) (k : Fin 8), (s.dev.ctxAt c).copy = some (.slot old k) → s.dev.oldPending c = false →
      exec (.contextCopyDone c) s = .next (s.any fun d =>
        let y := (d.freeSlot old k).onEng (s.dev.ctxAt c).engine fun g =>
          { g with slotMem := upd g.slotMem (s.dev.ctxAt c).slot fun _ => (s.dev.engAt old).slotMem[k] }
        (y.onCtx c fun z => { z with copy := none, moving := false, state :=
          if y.course.active && y.invPending c y.course.run then .running else .ready }).advanceAll))

/-- O33. The LAT, the transfer window with the words it sends, and the tile origins. (01 R13, 01 R21, 08 R221, 08
    R226 (header), 08 R233, 08 R241, 08 R251, 08 R258, 15 R442, 16 R490) -/
def Obligations.LatsAndTransferWindows : Prop :=
  ∀ (s : State) (l : BitVec 16) (slot : Fin 8) (shadow : Bool) (t : Fin 128) (v : Word),
    (s.dev.latDue = false → exec .lat s = .next s) ∧
    (s.dev.latDue = true → s.dev.latPlan = some (l, slot, shadow, false) →
      exec .lat s = .next (s.any fun d => d.latFire l slot shadow)) ∧
    (s.dev.latDue = true → s.dev.latPlan = some (l, slot, shadow, true) → exec .lat s = .next (s.any fun d =>
      let x := d.withhold
      let left := if x.roof.yieldHold = 0 then 0 else x.roof.yieldHold - 1
      { x with scan := { x.scan with frame := l }, roof := { x.roof with nextMark := none, yieldHold := left } })) ∧
    (s.dev.windowDue = false → exec .transferWindowStart s = .next s) ∧
    (let d := s.dev.cancelCommit.sampleCommit.mapAtWindow
     let x := d.newXfer (s.otp.engSample && s.otp.noCap)
     let y := d.openXfer x
     s.dev.windowDue = true → d.scan.lats = true → ∃ u, exec .transferWindowStart s = .next u ∧
      u.otp = s.otp ∧ u.pending = s.pending ∧ x.header.length = 12 ∧
      (y.scan.window = true → u.dev = y.sendDue.1 ∧ u.wire = y.sendDue.2 ∧ ∀ w ∈ u.wire, w.word ≤ w.ceil) ∧
      (y.scan.window = false → u.dev = y) ∧
      (d.gbl.cfg = none ∨ x.depth = 0 → y.scan.window = true ∧ y.scan.xfer = some x ∧
        (x.depth = 0 → u.wire = []) ∧ ∀ c : Fin 16, y.scan.lanes[c] = d.scan.laneStart x.depth x.header c.val)) ∧
    (∀ rx ok, s.dev.scan.xfer = none ∨ s.dev.scan.window = false → exec (.transferWindowClose rx ok) s = .next s) ∧
    (∀ x rx, s.dev.coreUp = true → s.dev.scan.window = true → s.dev.sendRest.1.scan.xfer = some x →
      s.dev.sendRest.1.scan.window = true → s.dev.sendRest.1.scan.step = .done → s.dev.sendRest.1.readsCaptures = false →
      x.underA + x.underB = 0 → s.dev.sendRest.1.rdg.blockA = 0 → s.dev.sendRest.1.rdg.blockB = 0 →
      ∃ u, exec (.transferWindowClose rx true) s = .next u ∧ u.wire = s.wire ++ s.dev.sendRest.2 ∧ u.otp = s.otp ∧
        u.dev = (let d := s.dev.sendRest.1
          let y : Transfer := { x with closed := true }
          let z : Dev := { d with scan := { d.scan with window := false, xfer := some y }, prv := d.prv.storeClasses x.frame,
                                  sys := { d.sys with proofTests := satInc d.sys.proofTests } }
          z.proofAdvance)) ∧
    (let a := 0x20041000 + 16 * t.val
     s.takesWrite a v = true →
      (s.dev.sys.mode = .load → exec (.batTileOrgWrite t v) s = .next (s.hosted fun d =>
        { d with scan := { d.scan with tiles := updN d.scan.tiles t.val fun z =>
          { z with x := v.extractLsb' 0 16, y := v.extractLsb' 16 16 } } })) ∧
      (s.dev.sys.mode ≠ .load →
        exec (.batTileOrgWrite t v) s = .next (s.hosted fun d => { d with scan := { d.scan with cfgErr := true } })))

/-- O34. DSI packets and link errors, the receiver's lane states, loss of a stream, and the Loft scrubber. (02 R60
    (scrubber), 07 R199 (packets), 07 R200 (link errors), 07 R204, 07 R205, 07 R212, 07 R214 (loss), 07 R216, 07
    R197) -/
def Obligations.InputsAndScrubber : Prop :=
  ∀ (s : State) (vc : BitVec 2) (corrected ok : Bool) (bytes : List Byte) (ends : BurstEnd) (n : Fin 4) (v : Word),
    s.dev.coreUp = true →
    let named (x : Option StreamDesc) : Bool := match x with
      | none => false
      | some x => x.vc == vc
    let began (d : Dev) : Dev := { d with vin := d.vin.inBurst }
    let seen (d : Dev) : Dev := { d with vin := { d.vin.inBurst with
      eccCe := if corrected then satInc d.vin.eccCe else d.vin.eccCe } }
    let ended (d : Dev) : Dev := { d with vin := d.vin.after ends }
    let lost (d : Dev) : Dev := { d with vin := ({ d.vin.inBurst with discard := true } : Vin).markErrored }
    let gone : Bool := s.dev.vin.burst && s.dev.vin.discard
    let due (e : Effect) : Bool := match e.op with
      | .vinDesc _ (some x) => x.vc == vc
      | _ => false
    (s.dev.vinRuns = false → exec (.dsiVerticalSyncStart vc corrected ends) s = .next s ∧
      exec (.dsiLongPacket vc corrected ok bytes ends) s = .next s ∧ exec (.dsiShortPacket corrected ends) s = .next s ∧
      exec (.dsiSotError ends) s = .next s ∧ exec (.dsiHeaderEccError ends) s = .next s) ∧
    exec .dsiTurnaroundRequest s = .next s ∧
    (s.dev.vinRuns = true →
      exec (.dsiUlps ok) s = .next (s.any fun d =>
        { d with vin := { d.vin with ulps := ok, hs := false, burst := false, discard := false } }) ∧
      exec (.dsiSotError ends) s = .next (s.any fun d =>
        let y : Dev := { lost d with vin := { (lost d).vin with sot := satInc d.vin.sot } }
        ended (y.eventLimited 0x0401 0 1000000 (pay 0 y.vin.eccUe))) ∧
      (gone = true →
        exec (.dsiVerticalSyncStart vc corrected ends) s = .next (s.any fun d => ended (began d)) ∧
        exec (.dsiLongPacket vc corrected ok bytes ends) s = .next (s.any fun d => ended (began d)) ∧
        exec (.dsiShortPacket corrected ends) s = .next (s.any fun d => ended (began d)) ∧
        exec (.dsiNullBlanking corrected ends) s = .next (s.any fun d => ended (began d)) ∧
        exec (.dsiHeaderEccError ends) s = .next (s.any fun d => ended (began d))) ∧
      (gone = false →
        exec (.dsiShortPacket corrected ends) s = .next (s.any fun d => ended (seen d)) ∧
        exec (.dsiNullBlanking corrected ends) s = .next (s.any fun d => ended (seen d)) ∧
        exec (.dsiHeaderEccError ends) s = .next (s.any fun d =>
          let y : Dev := { lost d with vin := { (lost d).vin with eccUe := satInc d.vin.eccUe } }
          ended (y.eventLimited 0x0401 0 1000000 (pay 0 y.vin.eccUe))) ∧
        ((∀ k : Fin 4, named (s.dev.vin.streams[k]).desc = false) →
          exec (.dsiLongPacket vc corrected ok bytes ends) s = .next (s.any fun d =>
            ended { seen d with vin := { (seen d).vin with unrouted := satInc d.vin.unrouted } }) ∧
          (s.dev.effects.all (fun e => !due e) = true →
            exec (.dsiVerticalSyncStart vc corrected ends) s = .next (s.any fun d => ended (seen d)))) ∧
        (∀ x, (s.dev.vin.streams[n]).desc = some x → x.vc = vc →
          (∀ k : Fin 4, k < n → named (s.dev.vin.streams[k]).desc = false) →
          exec (.dsiLongPacket vc corrected ok bytes ends) s =
            .next (s.any fun d => ended ((seen d).appendPayload n x bytes ok)) ∧
          (s.dev.effects = [] → exec (.dsiVerticalSyncStart vc corrected ends) s =
            .next (s.any fun d => ended (((seen d).endShort n).frameStart n x)))))) ∧
    (∀ x, (s.dev.vin.streams[n]).desc = some x → s.dev.vinRuns = true → x.lossMs ≠ 0 →
      (s.dev.vin.streams[n]).lost = false → (s.dev.vin.streams[n]).since + 1000 * x.lossMs.toNat ≤ s.dev.now →
      exec (.vinLoss n) s = .next (s.any fun d => (d.onStream n fun z => { z with lost := true }).event 0x0407
        (payN 0 n.val ||| pay 16 (s.dev.vin.streams[n]).lastComplete))) ∧
    (s.dev.pclkRuns = true → s.dev.loft.ce = [] → s.dev.loft.ue = [] →
      (s.dev.loft.scrubPos < 49151 → exec (.scrubRead []) s = .next (s.any fun d =>
        { d with loft := { d.loft with scrubPos := d.loft.scrubPos + 1 } })) ∧
      (s.dev.loft.scrubPos = 49151 → exec (.scrubRead []) s = .next (s.any fun d =>
        { d with loft := { d.loft with scrubPos := 0, scrubPass := d.loft.scrubPass + 1 } }))) ∧
    (s.takesWrite 0x20030000 v = true →
      (s.dev.vin.en = false → exec (.vinPhyCfgWrite v) s = .next (s.hosted fun d => { d with vin := { d.vin with
        en := v.getLsbD 2, lanes := v.extractLsb' 0 2, dpol := v.extractLsb' 8 4, cpol := v.getLsbD 12 } })) ∧
      (s.dev.vin.en = true → v.getLsbD 2 = true →
        let same := v.extractLsb' 0 2 = s.dev.vin.lanes ∧ v.extractLsb' 8 4 = s.dev.vin.dpol ∧ v.getLsbD 12 = s.dev.vin.cpol
        (same → exec (.vinPhyCfgWrite v) s = .next (s.hosted id)) ∧
        (¬ same → exec (.vinPhyCfgWrite v) s = .next (s.hosted fun d => { d with vin := { d.vin with cfgErr := true } }))))

/-- O35. String channels: switching cycles, ramps, PWM periods, faults, automatic and commanded restarts, and
    inhibits. (09 R281 (string tests), 10 R291, 10 R292, 10 R293 (PWM), 10 R294, 10 R296, 10 R297, 10 R299
    (protection), 10 R300 (restarts), 10 R312) -/
def Obligations.StringChannels : Prop :=
  ∀ (s : State) (ch : Fin 8) (shunt vsn : List (BitVec 11)) (v : BitVec 11) (f : StrFault), s.dev.coreUp = true →
    let c := s.dev.str[ch]
    let may := s.dev.mayRun ch
    let now := s.dev.now
    let next (g : StrChannel → StrChannel) : State := s.any fun d => d.onStr ch g
    let sensed := (now, (shunt.map fun (x : BitVec 11) => x.toNat).sum, shunt.length) ::
      c.sensed.filter fun x => decide (now < x.1 + 1000)
    let calm : Prop := c.ovSpans = [] ∧ c.uv = 0 ∧ (∀ x ∈ shunt, x.toNat < 1500)
    let below := v.toNat ≤ c.ov.toNat
    let gated (d : Dev) : Dev := d.onStr ch fun c => { c with gate := d.gateRuns ch.val }
    let faulted (latch : Bool) (failed : BitVec 2) (d : Dev) : Dev :=
      (d.onStr ch fun c => { c.mark f with
        state := 3, gate := false, armed := false, ocRun := 0, ovHold := false, lowSince := none, regThrough := false,
        latched := latch, failed := failed, faultAt := now, retryDue := if latch then none else some f }).event 0x0701
        (payN 0 ch.val ||| payN 4 f.code ||| payN 8 (if latch then 1 else 0) ||| pay 16 c.vsn)
    let restarted (d : Dev) : Dev :=
      ((d.onStr ch fun c => { c with state := 0, latched := false, retries := 0, failed := 0, oc := false, short := false,
                                     ovFault := false, openFault := false, lastRetry := none,
                                     retryDue := none }).refreshChannel ch).event 0x0702 (payN 0 ch.val ||| payN 4 2)
    (may = false →
      exec (.switchingCycle ch shunt v) s = .next (next fun c => { c with vsn := v, sensed := sensed })) ∧
    (may = true → c.state ≠ 0 → c.mode = 1 → s.dev.calHolds ch.val = false → c.fswN ≠ 0 → calm →
      let peak := min c.iref.toNat (Config.voltageLoop ch.val c.loopDraws (c.target now) v.toNat).toNat
      ∃ t, exec (.switchingCycle ch shunt v) s = .next t ∧ (t.dev.str[ch]).irefNow = c.iref ∧ (t.dev.str[ch]).vsn = v ∧
        (t.dev.str[ch]).sensed = sensed ∧ (t.dev.str[ch]).state = c.state ∧ (t.dev.str[ch]).ocRun = 0 ∧
        (∀ k : Fin 8, k ≠ ch → t.dev.str[k] = s.dev.str[k]) ∧
        (below → c.ovHold = false → (t.dev.str[ch]).gate = true ∧
          (t.dev.str[ch]).cycleOn = BitVec.ofNat 11 (gateCycles c.fswN.toNat c.fswN.toNat shunt (reaches peak 0x10000))) ∧
        (¬ below → (t.dev.str[ch]).gate = false ∧ (t.dev.str[ch]).cycleOn = 0 ∧ (t.dev.str[ch]).ovHold = true)) ∧
    (may = true → c.state ≠ 0 → c.mode = 1 → s.dev.calHolds ch.val = false → c.fswN ≠ 0 → c.ocRun = 7 →
      (∃ x ∈ shunt.drop 24, 1500 ≤ x.toNat) → ∃ t, exec (.switchingCycle ch shunt v) s = .next t ∧
        (t.dev.str[ch]).state = 3 ∧ (t.dev.str[ch]).oc = true ∧ (t.dev.str[ch]).gate = false) ∧
    (may = true → c.state ≠ 0 → c.mode = 2 → s.dev.gateWindow ch.val = 0 → calm → below → c.ocRun = 0 →
      c.lowSince = none → ∃ t, exec (.switchingCycle ch shunt v) s = .next t ∧ (t.dev.str[ch]).gate = false ∧
        (t.dev.str[ch]).cycleOn = 0 ∧ (t.dev.str[ch]).state = c.state) ∧
    (may = true → c.mode = 1 →
      (c.state = 1 → c.rampFrom + 1000 ≤ now → exec (.supplyRampDone ch) s = .next (next fun c => { c with state := 2 })) ∧
      (c.state = 1 → now < c.rampFrom + 1000 → exec (.supplyRampDone ch) s = .next (next id)) ∧
      (c.state = 2 → c.rampFrom + 2000 ≤ now →
        exec (.supplyRampDone ch) s = .next (next fun c => { c with armed := true }))) ∧
    (may = true → c.mode = 2 → s.dev.otKilled ch.val = false →
      let w := (if c.pwmsync then c.dutyDue else c.duty).toNat % 2 ^ c.depth.toNat
      (c.pwmsync = true → c.periodsLeft = 0 → exec (.pwmPeriodStart ch) s = .next s) ∧
      (c.pwmsync = false ∨ c.periodsLeft ≠ 0 → exec (.pwmPeriodStart ch) s = .next (s.any fun d =>
        gated (d.onStr ch fun c =>
          { c with periodStart := now, dutyNow := BitVec.ofNat 16 w, irefNow := c.iref,
                   derateNow := if s.dev.owned ch.val then 0x10000 else c.derate, state := 2, armed := true,
                   periodsLeft := c.periodsLeft - 1, gapNow := c.gap, gap := false })))) ∧
    (s.dev.strQualifies ch f = false → exec (.stringProtectTimeout ch f) s = .next s) ∧
    (s.dev.strQualifies ch f = true → c.state ≠ 3 →
      (c.autoretry = false → c.lastRetry = none →
        exec (.stringProtectTimeout ch f) s = .next (s.any (faulted true 0))) ∧
      (c.autoretry = true → c.lastRetry = none →
        exec (.stringProtectTimeout ch f) s = .next (s.any (faulted false 0))) ∧
      (∀ t, c.autoretry = true → c.lastRetry = some (t, f) → now ≤ t + 100000 →
        exec (.stringProtectTimeout ch f) s = .next (s.any (faulted (c.failed + 1 == 3) (c.failed + 1))))) ∧
    (may = true → c.mode = 2 → c.state = 2 → s.dev.shortTest ch.val = false →
      (s.dev.pwmTests ch.val = (false, false) → exec (.pwmPeriodEnd ch shunt vsn) s = .next (s.any fun d =>
        gated (d.onPrvStr ch fun p => { p with onTested := false, offTested := false, fails := satAdd p.fails 0 }))) ∧
      (s.dev.pwmTests ch.val = (true, false) → s.dev.isMarker ch.val = false →
        let i := s.dev.onInterval ch.val
        let on := (samples shunt (i.1 + 800) i.2).any c.seen
        ∃ t, exec (.pwmPeriodEnd ch shunt vsn) s = .next t ∧ (t.dev.prv.strings[ch]).provenOn = on ∧
          (t.dev.prv.strings[ch]).onTested = true ∧ (t.dev.prv.strings[ch]).offTested = false ∧
          (t.dev.prv.strings[ch]).isOpen = ((s.dev.prv.strings[ch]).isOpen || !on))) ∧
    (c.retryDue = some f → c.state = 3 → c.faultAt + 100000 ≤ now → s.dev.inhibited ch.val = false →
      exec (.stringRetry ch) s = .next (s.any fun d => ((d.onStr ch fun c =>
        { c with state := 0, retries := if c.retries = 3 then 3 else c.retries + 1, lastRetry := some (now, f),
                 retryDue := none }).refreshChannel ch).event 0x0702 (payN 0 ch.val ||| payN 4 1))) ∧
    (c.retryDue = none ∨ s.dev.inhibited ch.val = true ∨ now < c.faultAt + 100000 →
      exec (.stringRetry ch) s = .next s) ∧
    (s.takesWrite (0x2006002C + 64 * ch.val) 1 = true →
      (s.dev.owned ch.val = true → exec (.strRestart ch false) s = .next (s.hosted fun d =>
        d.onStr ch fun c => { c with cfgErr := true })) ∧
      (s.dev.owned ch.val = false → c.latched = true → exec (.strRestart ch false) s = .next (s.hosted restarted)) ∧
      (s.dev.owned ch.val = false → c.latched = false → exec (.strRestart ch false) s = .next (s.hosted id))) ∧
    (s.dev.owned ch.val = true → c.latched = true → s.dev.gbl.lost = 0 →
      exec (.strRestart ch true) s = .next (s.any restarted)) ∧
    (s.dev.owned ch.val = false ∨ s.dev.gbl.lost ≠ 0 → exec (.strRestart ch true) s = .next s) ∧
    exec (.stringInhibit ch) s = .next (s.any fun d => ((d.refreshChannel ch).strRetry ch).noteLive)

/-- O36. Temperatures: NTC values and their faults, stale tiles, derating, the die warning and the thermal shutdown.
    (10 R301, 10 R302 (conversion), 10 R303, 10 R304, 10 R305 (over-temperature), 10 R307 (derating), 10 R308, 10
    R310, 10 R311 (shutdown)) -/
def Obligations.Temperatures : Prop :=
  ∀ (s : State) (n : Fin 6) (volts : Vector (Nat × Nat) 8) (t : Fin 128) (sensors : Vector (BitVec 16) 4) (v : Word),
    let x := s.dev.thm.ntc[n]
    let code := ntcMean volts
    let temp := sensors.toList.foldl (fun m y => if m.toInt < y.toInt then y else m) sensors[0]
    let lut := s.dev.thm.lut[(if x.table then 1 else 0 : Fin 2)]
    (s.dev.coreUp = true →
      (x.en = false ∨ s.dev.trim.active.getLsbD 24 = true → exec (.ntcPublish n volts) s = .next s) ∧
      (x.en = true → s.dev.trim.active.getLsbD 24 = false → x.isOpen = false → x.isShort = false →
        (32 ≤ code.toNat → code.toNat ≤ 4063 → overTempNow x.overTemp (ntcTemp lut code) x.ot = x.overTemp →
          exec (.ntcPublish n volts) s = .next (s.any fun d => d.onNtc n fun x =>
            { x with code := code, temp := ntcTemp lut code, openRun := 0, shortRun := 0, valid := true })) ∧
        (4064 ≤ code.toNat → x.openRun = 9 → x.overTemp = false →
          exec (.ntcPublish n volts) s = .next (s.any fun d => (d.onNtc n fun x =>
            { x with code := code, temp := ntcTemp lut code, openRun := 10, shortRun := 0, isOpen := true,
                     valid := false }).event 0x0703 (payN 0 n.val ||| payN 4 1 ||| pay 16 code)))) ∧
      (s.dev.thm.drtEn = false → exec .derateUpdate s = .next (s.any fun d =>
        { d with str := d.str.map fun (c : StrChannel) => { c with derate := 0x10000 } })) ∧
      (let a := (v.toNat % 2 ^ 25) / 4 * 4
       s.takesWrite 0x20061088 v = true →
        (s.dev.inRegion [4] (a, 512) = true → exec (.thmDrtAddrWrite v) s = .next (s.hosted fun d =>
          { d with thm := { d.thm with drtAddr := BitVec.ofNat 25 a } })) ∧
        (s.dev.inRegion [4] (a, 512) = false → exec (.thmDrtAddrWrite v) s = .next (s.hosted fun d =>
          { d with thm := { d.thm with cfgErr := true } }))) ∧
      (∀ age, (s.dev.scan.tile t.val).tempAge = some age →
        (64 < age → s.dev.thm.tileStale.getLsbD t.val = false → exec (.tileTempStale t) s = .next (s.any fun d =>
          let y : Dev := { d with thm := { d.thm with tileStale := setBit d.thm.tileStale t.val true } }
          y.event 0x0708 (payN 0 t.val ||| pay 16 d.scan.frame))) ∧
        (age ≤ 64 → exec (.tileTempStale t) s = .next s)) ∧
      (let warm (d : Dev) (on : Bool) : Dev := { d with thm := { d.thm with
        dieTemp := temp, dieMax := if d.thm.dieMax.toInt < temp.toInt then temp else d.thm.dieMax, warned := on } }
       (s.dev.thm.warned = false →
        (temp.toInt < s.dev.thm.dieWarn.toInt →
          exec (.dieTempUpdate sensors) s = .next (s.any fun d => (warm d false).calTemp)) ∧
        (s.dev.thm.dieWarn.toInt ≤ temp.toInt → exec (.dieTempUpdate sensors) s = .next (s.any fun d =>
          ((warm d true).event 0x0706 (pay 0 temp ||| payN 16 1)).calTemp))) ∧
       (s.dev.thm.warned = true →
        (s.dev.thm.dieWarn.toInt - 32 < temp.toInt →
          exec (.dieTempUpdate sensors) s = .next (s.any fun d => (warm d true).calTemp)) ∧
        (temp.toInt ≤ s.dev.thm.dieWarn.toInt - 32 → exec (.dieTempUpdate sensors) s = .next (s.any fun d =>
          ((warm d false).event 0x0706 (pay 0 temp ||| payN 16 0)).calTemp))))) ∧
    (s.dev.sys.mode ≠ .off → s.dev.sys.mode ≠ .standby → ∃ u, exec .thermalShutdown s = .next u ∧
      u.dev.coreUp = false ∧ u.dev.sys.hold.thermal = true ∧ u.otp = s.otp) ∧
    (s.dev.sys.mode = .off ∨ s.dev.sys.mode = .standby → exec .thermalShutdown s = .next s) ∧
    exec .thermalShutdownEnd s = .next (s.any fun d =>
      { d with sys := { d.sys with hold := { d.sys.hold with thermal := false } } })

/-- O37. Encoder faults, the Gable's reset and restart, Ridge faults, the ways into SAFE HOLD and the way out, and
    Flashing timeouts. (11 R316, 11 R321 (Ridge faults), 11 R340 (SF3), 11 R346 (Gable restart), 11 R349 (leaving
    SAFE HOLD), 12 R374, 12 R377, 12 R380, 15 R441) -/
def Obligations.SafetyMechanisms : Prop :=
  ∀ (s : State) (i : Fin 4) (k : Fin 8) (code : Word) (ridge phase g h test : Bool), s.dev.coreUp = true →
    let d := s.dev
    (∀ c, d.gbl.cfg = some c → c.axes = true → d.sys.role ≠ 2 → c.fcOf (if i.val < 2 then 3 else 4) = none →
      let raw := code.toNat % 2 ^ c.encBits i.val
      let pos := if c.encGray i.val then grayToBin (BitVec.ofNat 32 raw) else BitVec.ofNat 32 raw
      (∀ l, (d.rdg.enc[i]).last = some l → c.jumpOk i.val l pos d.now = true) →
        exec (.encoderSample i true true code) s = .next (s.any fun d =>
          let y : Dev := { d with rdg := { d.rdg with enc := upd d.rdg.enc i fun e =>
            { last := some (pos, s.dev.now), prev := e.last, bad := 0, fault := false } } }
          if i.val < 2 then y.triggerG 2 else y)) ∧
    (∀ c l, d.gbl.cfg = some c → (d.rdg.enc[i]).last = some l → (d.rdg.enc[i]).fault = false →
      (l.2 + 4 * c.encPeriod i.val ≤ d.now → c.axes = true →
        exec (.encoderSampleTimeout i) s = .next (s.any fun d => d.encFault i)) ∧
      (d.now < l.2 + 4 * c.encPeriod i.val → exec (.encoderSampleTimeout i) s = .next s)) ∧
    (d.gbl.lost = 1 ∨ d.gbl.lost = 3 ∨ d.gbl.lost = 4 → d.gbl.held = false → d.gbl.lostAt + 1000 ≤ d.now →
      d.gbl.restarted = false ∨ d.sys.mode ≠ .degraded →
      exec .gableReset s = .next (s.any fun d =>
        { d with gbl := { d.gbl with held := true, restarted := true },
                 thatch := { d.thatch with gable := Core.reset, gableWait := [] } })) ∧
    (d.gbl.lost = 0 ∨ d.gbl.held = true ∨ d.now < d.gbl.lostAt + 1000 → exec .gableReset s = .next s) ∧
    (d.gbl.held = true →
      (d.gbl.cfg = none → exec .gableRestart s = .next (s.any Dev.gableStart)) ∧
      (∀ c, d.gbl.cfg = some c → c.gableHash = d.gableHashNow → exec .gableRestart s = .next (s.any fun d =>
        let y := d.gableStart
        Dev.flashStart { y with gbl := { y.gbl with restarts := satInc y.gbl.restarts } } false)) ∧
      (∀ c, d.gbl.cfg = some c → c.gableHash ≠ d.gableHashNow →
        exec .gableRestart s = .next (s.any fun d => d.safeHold 6))) ∧
    (d.gbl.cfg = none → exec .ridgeCrcCheck s = .next s) ∧
    (∀ c, d.gbl.cfg = some c →
      (d.rdg.parityErr = [] → d.rdg.cellParity = [] → d.rdg.memParity = false → d.ridgeCrcNow c = c.rcrc →
        exec .ridgeCrcCheck s = .next s) ∧
      (d.rdg.parityErr ≠ [] ∨ d.rdg.cellParity ≠ [] ∨ d.rdg.memParity = true ∨ d.ridgeCrcNow c ≠ c.rcrc →
        exec .ridgeCrcCheck s = .next (s.any fun d => d.ridgeLost 3))) ∧
    (d.acc.jtag.drives = false →
      let x : LiveSample := { run := (d.liveG, d.liveH), level := (g, h), wrong := (g != phase, h != !phase) }
      let noted (d : Dev) : Dev :=
        { d with gbl := { d.gbl with live := if ridge then d.gbl.live else some x },
                 rdg := { d.rdg with live := if ridge then some x else d.rdg.live } }
      let last := if ridge then d.rdg.live else d.gbl.live
      (last = none ∨ d.gbl.liveFault = true ∨ d.gbl.cfg = none →
        exec (.liveReadback ridge phase g h) s = .next (s.any noted)) ∧
      (∀ l, last = some l →
        (l.faults x = 0 → exec (.liveReadback ridge phase g h) s = .next (s.any noted)) ∧
        (d.liveG = true → l.run.1 = true → l.wrong.1 = true → g ≠ phase → (l.faults x).getLsbD 0 = true) ∧
        (d.liveH = true → l.run.2 = true → l.wrong.2 = true → h = phase → (l.faults x).getLsbD 1 = true) ∧
        (d.liveG = false → l.run.1 = false → l.level.1 ≠ g → (l.faults x).getLsbD 0 = true) ∧
        (l.faults x ≠ 0 → d.gbl.liveFault = false → d.gbl.cfg.isSome = true →
          exec (.liveReadback ridge phase g h) s = .next (s.any fun d =>
            let z := noted d
            let y : Dev := { z with gbl := { z.gbl with liveFault := true },
                                    rdg := { z.rdg with fault := if z.rdg.fault = 0 then 4 else z.rdg.fault } }
            ((y.event 0x0816 (pay 0 (l.faults x))).noteLive).safeHold 4)))) ∧
    (∀ t, d.gbl.tdegEnd = some t →
      (d.sys.mode = .degraded → t ≤ d.now → exec .tdegExpire s = .next (s.any fun d => d.safeHold 5)) ∧
      (d.now < t → exec .tdegExpire s = .next s)) ∧
    (∀ t, d.sys.mode = .safeHold → d.gbl.resetWindow = some t →
      let closed (d : Dev) : Dev := { d with gbl := { d.gbl with resetWindow := none } }
      (d.now ≤ t → d.gbl.demand = 0 → d.rdg.demand = 0 → (∀ c, d.gbl.cfg = some c → d.ridgeMemoryOk c = true) →
        exec (.resetInputEdge true false false) s = .next (s.any fun d =>
          let x := closed d
          let y : Dev := { x with
            gbl := { x.gbl with liveFault := false, holdCause := 0, degCause := 0, sf2Latch := false },
            rdg := { x.rdg with fault := 0 } }
          let z := (y.toMode .proof 2 0).event 0x080D 1
          if s.dev.gbl.sf2Latch then z.event 0x080F 1 else z)) ∧
      (d.now ≤ t → d.gbl.demand ≠ 0 → exec (.resetInputEdge test g h) s = .next (s.any fun d =>
        (closed d).event 0x080D 4)) ∧
      (t ≤ d.now → exec .safeHoldResetWindow s = .next (s.any fun d => (closed d).event 0x080D 2)) ∧
      (t < d.now → exec (.resetInputEdge test g h) s = .next s)) ∧
    (d.gbl.sf3 = true → d.now < d.gbl.sf3Since + 1000000 → exec .sf3FallbackTimer s = .next s) ∧
    (d.gbl.sf3 = true → d.gbl.sf3Since + 1000000 ≤ d.now → d.gbl.sf3Reported = [] →
      exec .sf3FallbackTimer s = .next (s.any fun d =>
        let y : Dev := { d with gbl := { d.gbl with sf3 := false, sf3Reported := [] } }
        y.sf3Drive false)) ∧
    (∀ c, d.gbl.cfg = some c →
      let x := d.flash.conns[k]
      (x.state = .established → d.gableChecks = true → x.since + 1000 * c.fcTexp k.val < d.now →
        exec (.flashingTimeout k) s = .next (s.any fun d =>
          ((((d.onFlash k fun x =>
            { x.enterReset (c.fcKind k.val) .timeout with timeouts := satInc x.timeouts }).noteLive).event 0x0901
            (payN 0 k.val ||| payN 3 (if c.fcFlag k.val 2 then 1 else 0) ||| pay 16 x.seq)).flashMiss
              (c.fcKind k.val)).refreshFlash)) ∧
      (c.fcKind k.val ≠ 1 ∨ x.echoDue (c.fcTexp k.val) d.now = false → exec (.flashingEchoSend k) s = .next s) ∧
      (c.fcKind k.val = 1 → d.gableChecks = true → x.state = .established → x.echoDue (c.fcTexp k.val) d.now = true →
        exec (.flashingEchoSend k) s = .next (s.any fun d =>
          (d.onFlash k fun x => { x with echoOwed := false, sentAt := some s.dev.now }).flashOut c k 5 (beBytes x.seq.toNat 2 ++ beBytes x.ts.toNat 4 ++ [0, 0]))) ∧
      (c.fcKind k.val = 2 → d.gableChecks = true →
        let p := d.flashStatus s.otp.counter
        (x.dueAfter d.now (max 1 (c.fcTexp k.val / 4)) = true ∨ x.statusSent ≠ p → exec (.flashingStatusSend k) s =
          .next (s.any fun d =>
            (d.onFlash k fun x => { x with sentAt := some s.dev.now, statusSent := p }).flashOut c k 4 p)) ∧
        (x.dueAfter d.now (max 1 (c.fcTexp k.val / 4)) = false → x.statusSent = p →
          exec (.flashingStatusSend k) s = .next s))) ∧
    (let r := d.ringAt 28
     let a := r.base.toNat + 64 * (r.cons.toNat % r.entries)
     (r.enabled = false ∨ r.stopping = true → exec .flashingFrameRx s = .next s) ∧
     (r.enabled = true → r.stopping = false → 0 < r.held → d.clean a 64 = true → d.gbl.cfg = none →
      exec .flashingFrameRx s = .next (s.any fun d =>
        ((d.ring 28 fun r => { r with cons := r.cons + 1 }).triggerG 6).flashReceive [1, 2] (s.dev.loftBytes a 64))))

/-- O38. The Soffit: its frames, inputs, pairs, output tests and faults, the field supply and logic silence. (13
    R392, 13 R395, 13 R396 (frames), 13 R403, 13 R404 (filter), 13 R406 (pairs), 13 R410, 13 R411 (test pulses), 13
    R413, 13 R414, 13 R415 (silence), 13 R408) -/
def Obligations.SoffitFieldSide : Prop :=
  ∀ (s : State) (k : Fin 8) (p : Fin 4) (ua ma mv lp1 lp2 : Nat) (volts amps : Vector Nat 8)
    (noise : List (BitVec 10)) (off ok : Bool),
    let d := s.dev
    let f := d.soffit
    let field (g : Soffit → Soffit) : State := s.any fun d => { d with soffit := g d.soffit }
    (f.powered = true → exec .soffitPowerUp s = .next s) ∧
    (f.powered = false → ∃ t, exec .soffitPowerUp s = .next t ∧ t.dev.soffit = { Soffit.reset with powered := true } ∧
      t.dev.thatch.soffitImage = none ∧ t.otp = s.otp ∧ t.dev.gbl = d.gbl) ∧
    (∀ gs r, d.fld.down = gs :: r →
      let taken (d : Dev) : Dev := { d with fld := { d.fld with down := r } }
      let row : Instr := if sentConfig gs then .soffitConfigFrame noise else .soffitDataFrame noise
      let read := (barrierWords (withNoise gs noise)).bind cmdOfWords
      (sentConfig gs = true → exec (.soffitDataFrame noise) s = .next s) ∧
      (sentConfig gs = false → exec (.soffitConfigFrame noise) s = .next s) ∧
      (read = none → exec row s = .next (s.any taken)) ∧
      (∀ x, read = some x →
        (f.accepts x = false → exec row s = .next (s.any taken)) ∧
        (x.config = true → f.accepts x = true → exec row s = .next (s.any fun d =>
          let y := d.soffit.receive x (d.thatch.soffit.mode == .halted || d.thatch.soffit.dbgHalt)
          (taken d).onSoffit (y.1.configure x) y.2)) ∧
        (x.config = false → f.accepts x = true → exec row s = .next (s.any fun d =>
          let y := d.soffit.receive x (d.thatch.soffit.mode == .halted || d.thatch.soffit.dbgHalt)
          let n : Soffit := { y.1 with payload := x.words }
          ((taken d).onSoffit n y.2).triggerF 1)))) ∧
    (d.fld.down = [] → exec (.soffitDataFrame noise) s = .next s ∧ exec (.soffitConfigFrame noise) s = .next s) ∧
    (f.powered = true → exec .soffitInputFrameSend s = .next (s.any fun d =>
      let gs := barrierFrame f.upRd ([f.w0 d.progRuns, f.w1, f.w2, f.w3, f.w4, f.w5] ++ f.appended)
      let y : Dev := { d with soffit := { f with txCnt := f.txCnt + 1, upRd := rdAfter f.upRd gs, appended := [] },
                              fld := { d.fld with up := d.fld.up ++ [gs] } }
      y.triggerF 2)) ∧
    (f.powered = false → exec .soffitInputFrameSend s = .next s) ∧
    (∀ gs r, d.coreUp = true → d.fld.up = gs :: r →
      let taken (d : Dev) : Dev := { d with fld := { d.fld with up := r } }
      let bad : State := s.any fun d => { d with fld := { d.fld with up := r, rxErr := satInc d.fld.rxErr } }
      let read := (barrierWords (withNoise gs noise)).bind inputOfWords
      (read = none → exec (.soffitInputFrame noise) s = .next bad) ∧
      (∀ x, read = some x →
        (d.fld.rxAny = true ∨ (x.w[0]).extractLsb' 0 4 = d.fld.rxCnt + 1 →
          exec (.soffitInputFrame noise) s = .next (s.any fun d => (taken d).acceptInput x)) ∧
        (d.fld.rxAny = false → (x.w[0]).extractLsb' 0 4 ≠ d.fld.rxCnt + 1 →
          exec (.soffitInputFrame noise) s = .next bad))) ∧
    (d.coreUp = true →
      (d.now < d.fld.rxAt + 2000 → exec .soffitSilent s = .next (s.any Dev.calCheck)) ∧
      (d.fld.rxAt + 2000 ≤ d.now → d.fld.rxOk = true → exec .soffitSilent s = .next (s.any fun d =>
        let y : Dev := { d with fld := { d.fld with rxOk := false } }
        ((y.event 0x0A07 1).refreshField).calCheck))) ∧
    (let i := f.inputs[k]
     let r := rawClass i.raw (fInMode f.field k.val 1) ua
     let due := f.us + 50 * (fIn f.field k.val 2).toNat
     (f.powered = false ∨ f.us < i.due → exec (.inputSample k ua) s = .next s) ∧
     (f.powered = true → i.due ≤ f.us →
      (d.thresholdStep k = true → exec (.inputSample k ua) s = .next (field fun f =>
        { f with inputs := upd f.inputs k fun x => { x with due := due } })) ∧
      (d.thresholdStep k = false → ∃ t, exec (.inputSample k ua) s = .next t ∧
        let j := t.dev.soffit.inputs[k]
        j.raw = r.1 ∧ j.hold = r.2 ∧ j.due = due ∧ t.dev.soffit.outputs = f.outputs ∧
        (∀ q : Fin 8, q ≠ k → t.dev.soffit.inputs[q] = f.inputs[q]) ∧
        (f.lplus = 2 → j.filtered = i.filtered ∧ j.count = i.count) ∧
        (f.lplus ≠ 2 → r.1 = i.filtered → i.count ≠ 0 →
          i.count - 1 ≠ (fIn f.field k.val 3).toNat → j.filtered = i.filtered ∧ j.count = i.count - 1) ∧
        (f.lplus ≠ 2 → r.1 ≠ i.filtered → r.1 = i.candidate →
          (i.count + 1 = (fIn f.field k.val 3).toNat → j.filtered = r.1 ∧ j.count = 0) ∧
          (i.count + 1 ≠ (fIn f.field k.val 3).toNat → j.filtered = i.filtered ∧ j.count = i.count + 1))))) ∧
    (∀ t, (f.pairs[p]).since = some t → (f.pairs[p]).disc = false → t + 1000 * fPairDisc f.field p.val < f.us →
      exec (.pairDiscTimeout p) s = .next (field fun f =>
        { f with pairs := upd f.pairs p fun x => { x with disc := true }, faultKind := 7,
                 faultIndex := BitVec.ofNat 3 p.val })) ∧
    ((f.pairs[p]).since = none → exec (.pairDiscTimeout p) s = .next s) ∧
    (f.powered = true → f.test = none → f.lplus = 0 → f.mayTest k.val off = true → f.testDue k off = true →
      d.readbackStep = false → exec (.testPulseStart k off) s = .next (field fun f =>
        let x : OutTest := { out := k, off := off, members := fMembers f.field k.val, start := f.us,
                             width := if off then fOutOfft f.field k.val else fOutOnt f.field k.val }
        { f with test := some x, tests := f.tests.filter fun x => x != (k, off),
                 outputs := f.outputs.mapFinIdx fun j (o : FieldOut) _ =>
                   if (fMembers f.field k.val).getLsbD j then o.switch (!off) f.us else o })) ∧
    (f.test ≠ none ∨ d.readbackStep = true ∨ f.lplus ≠ 0 → exec (.testPulseStart k off) s = .next s) ∧
    (∀ t, f.test = some t →
      (f.us < t.start + t.width → exec (.testPulseEnd volts amps) s = .next s) ∧
      (t.start + t.width ≤ f.us → t.off = false → f.lplus ≠ 0 → exec (.testPulseEnd volts amps) s = .next (s.any fun d =>
        let n := Soffit.leaveTest { d.soffit with done := d.soffit.done + 1 } t
        let outs := n.outputs.mapFinIdx fun j (o : FieldOut) _ =>
          if t.members.getLsbD j then o else { o with readback := readHigh (f.output j).readback (getN volts j 0) }
        let m : Soffit := { n with outputs := outs }
        let y : Dev := { d with soffit := m }
        y.triggerF 4))) ∧
    (let o := f.outputs[k]
     let seen (since : Option Nat) (f : Soffit) : Soffit :=
       { f with outputs := upd f.outputs k fun o => { o with limitSince := since, readback := readHigh o.readback mv } }
     (f.powered = false → exec (.outputShortTimer k ma mv) s = .next s) ∧
     (f.powered = true → o.on = false → exec (.outputShortTimer k ma mv) s = .next (field (seen none))) ∧
     (∀ t, f.powered = true → o.on = true → f.lplus = 0 → f.underTest k.val = false → 1200 ≤ ma →
      o.limitSince = some t → t + 200 ≤ f.us → exec (.outputShortTimer k ma mv) s =
        .next (field fun f => (seen (some t) f).fault k.val .shortM 0))) ∧
    (f.powered = true →
      (f.lplus = 0 → exec (.outputThermal k true) s = .next (field fun f => f.fault k.val .thermal 0)) ∧
      exec (.outputThermal k false) s = .next (field fun f =>
        { f with outputs := updN f.outputs (fLead f.field k.val) fun o => { o with cooled := true } })) ∧
    (f.powered = false → exec (.outputThermal k off) s = .next s ∧ exec (.lplusChange lp1 lp2) s = .next s) ∧
    (let v := min lp1 lp2
     f.powered = true →
      (f.lplus = 0 → 19200 ≤ v → exec (.lplusChange lp1 lp2) s = .next (field fun f =>
        { f with lowTimer := none, missTimer := none })) ∧
      (∀ t, f.lplus = 0 → 15000 ≤ v → v < 19200 → f.lowTimer = some t → t + 1000 ≤ f.us →
        exec (.lplusChange lp1 lp2) s = .next (field fun f =>
          { f with lplus := 1, lowTimer := none, missTimer := none })) ∧
      (∀ t, f.lplus ≠ 2 → v < 15000 → f.missTimer = some t → t + 1000 ≤ f.us →
        ∃ u, exec (.lplusChange lp1 lp2) s = .next u ∧ u.dev.soffit.lplus = 2 ∧
          ∀ q : Fin 8, (u.dev.soffit.inputs[q]).filtered = .invalid)) ∧
    (f.powered = true → f.rxAt + 1000 * fTsil f.field < f.us → exec .logicSilence s = .next (field fun f =>
      Soffit.settle { f with safeState := true, silenced := true, rxAny := true })) ∧
    (f.powered = false ∨ f.us ≤ f.rxAt + 1000 * fTsil f.field → exec .logicSilence s = .next s) ∧
    (∀ c, d.coreUp = true → d.gbl.cfg = some c → d.sys.mode = .proof → d.sys.proofBusy = true → d.sys.proofStep = 6 →
      d.fld.douserStep ≠ 0 → d.fld.douserAt + 1000 * fDouserMs c.field < d.now →
      exec .douserTestTimeout s = .next (s.any fun d =>
        let x := d.douserClose.event 0x0A0B (pay 1 d.fld.douserStep)
        let y : Dev := { x with fld := { x.fld with douserStep := 0 } }
        y.proofFails 6)) ∧
    (let v : Word := (if off then 1 else 0) ||| (if ok then 2 else 0)
     let a := 0x20080040 + 4 * k.val
     s.takesWrite a v = true → exec (.fldDqCmdWrite k off ok) s = .next (s.hosted fun d => { d with fld := { d.fld with
      dqOn := setBit d.fld.dqOn k.val off,
      dqClear := if ok then setBit d.fld.dqClear k.val true else d.fld.dqClear } }))

/-- O39. Calibration runs and their steps, and the host's codes, apply and abort. (14 R424, 14 R425 (runs), 14 R426
    (steps), 14 R427, 14 R429, 14 R430 (end of a run), 14 R431 (abort), 14 R432 (host writes)) -/
def Obligations.CalibrationRunsAndCodes : Prop :=
  ∀ (s : State) (k : Fin 48) (code : BitVec 10) (sense : Nat) (ok : Bool), s.dev.coreUp = true →
    let t := s.dev.trim
    let far := ((code.toNat : Int) - ((Config.factoryTrim k).toNat : Int)).natAbs
    let why := s.dev.stepReason k.val sense
    let begun (d : Dev) : Dev := { d with trim := { d.trim with
      active := setBit d.trim.active k.val true, began := upd d.trim.began k fun _ => s.dev.now } }
    let deferred (d : Dev) (n : Nat) : Dev :=
      let y : Dev := { d with trim := { d.trim with
        deferredRun := setBit d.trim.deferredRun k.val true, deferred := satInc d.trim.deferred } }
      y.event 0x0B03 (payN 0 k.val ||| payN 8 n)
    (∀ a r, t.queued = a :: r → s.dev.sys.mode.calibrates = true → s.dev.sys.mode.calRuns = true → t.running = false →
      exec .calRunStart s = .next (s.any fun d =>
        let steps := (a :: r).foldl (fun m x => m ||| x.steps) 0
        let y : Dev := { d with trim := { d.trim with
          running := true, queued := [], shadow := d.trim.applied, pend := steps, steps := steps, trigger := a.trigger,
          startTime := d.now, startTemp := d.thm.dieTemp, deferredRun := 0, active := 0 } }
        y.event 0x0B06 (pay 0 a.trigger ||| payN 8 (popcount steps)))) ∧
    (∀ a ring tag, t.queued = [a] → a.cmd = some (ring, tag) → s.dev.sys.mode.calibrates = true →
      s.dev.sys.mode.calRuns = false → t.running = false → exec .calRunStart s = .next (s.any fun d =>
        Dev.cancelled { d with trim := { d.trim with queued := [] } } ring tag)) ∧
    (t.queued = [] ∨ t.running = true → exec .calRunStart s = .next s) ∧
    (t.running = true → t.pend.getLsbD k.val = true → t.active.getLsbD k.val = false → t.blocked k.val = false →
      s.dev.calExpired = false →
      (24 ≤ k.val → why true = 0 → exec (.calStep k sense) s = .next (s.any begun)) ∧
      (k.val < 24 → s.dev.sys.mode = .load ∨ s.dev.sys.mode = .trim → exec (.calStep k sense) s = .next (s.any fun d =>
        begun (d.onStr (Fin.ofNat 8 k.val) fun c => { c with gate := false }))) ∧
      (why true ≠ 0 → t.deferredRun.getLsbD k.val = false →
        exec (.calStep k sense) s = .next (s.any fun d => deferred d (why true))) ∧
      (why true ≠ 0 → t.deferredRun.getLsbD k.val = true → exec (.calStep k sense) s = .next s)) ∧
    (t.running = true → t.active.getLsbD k.val = true → s.dev.stepOver k = true →
      let taken (d : Dev) : Dev := { d with trim := { d.trim with
        shadow := upd d.trim.shadow k fun _ => code, pend := setBit d.trim.pend k.val false,
        active := setBit d.trim.active k.val false } }
      (why false = 0 → far ≤ 128 → setBit t.pend k.val false = 0 →
        exec (.calStepDone k true code sense) s = .next (s.any fun d =>
          let x := taken d
          let y : Dev := { x with trim := { x.trim with
            applied := x.trim.shadow, gen := x.trim.gen + 1, running := false, stale := 0, pend := 0,
            count := x.trim.count + 1, lastTime := BitVec.ofNat 64 x.trim.startTime, lastTemp := x.trim.startTemp,
            lastEnd := 1 } }
          y.event 0x0B01 (pay 0 y.trim.count ||| pay 32 y.trim.gen ||| payN 56 0 ||| payN 57 (popcount (0 : BitVec 48))))) ∧
      (why false = 0 → far ≤ 128 → setBit t.pend k.val false ≠ 0 → t.timeout = 0 →
        exec (.calStepDone k true code sense) s = .next (s.any taken)) ∧
      (why false = 0 → 128 < far ∨ ok = false →
        exec (.calStepDone k ok code sense) s = .next (s.any fun d => d.abortTrim 1 3 (BitVec.ofNat 6 k.val))) ∧
      (why false ≠ 0 → t.deferredRun.getLsbD k.val = false →
        exec (.calStepDone k ok code sense) s = .next (s.any fun d =>
          deferred { d with trim := { d.trim with active := setBit d.trim.active k.val false } } (why false)))) ∧
    (t.running = false ∨ t.active.getLsbD k.val = false ∨ s.dev.stepOver k = false →
      exec (.calStepDone k ok code sense) s = .next s) ∧
    (t.running = true → t.active = 0 → s.dev.calExpired = true → exec .calTimeout s = .next (s.any fun d => d.calEnd)) ∧
    (s.dev.calExpired = false → exec .calTimeout s = .next s) ∧
    (let a := 0x20070000 + 4 * k.val
     s.takesWrite a (code.setWidth 32) = true →
      (s.dev.trimWritable = true → exec (.trmDacWrite k code) s = .next (s.hosted fun d =>
        { d with trim := { d.trim with shadow := upd d.trim.shadow k fun _ => code } })) ∧
      (s.dev.trimWritable = false → exec (.trmDacWrite k code) s = .next (s.hosted Dev.trimCfgErr))) ∧
    (s.takesWrite 0x20070100 1 = true →
      (s.dev.trimWritable = true → exec .trimApply s = .next (s.hosted fun d =>
        let y : Dev := { d with trim := { d.trim with applied := d.trim.shadow, gen := d.trim.gen + 1, lastEnd := 6 } }
        y.event 0x0B05 (pay 0 y.trim.gen))) ∧
      (s.dev.trimWritable = false → exec .trimApply s = .next (s.hosted Dev.trimCfgErr))) ∧
    (s.takesWrite 0x20070100 2 = true →
      (t.running = true → exec .trimAbort s = .next (s.hosted fun d => d.abortTrim 3 5 0)) ∧
      (t.running = false → exec .trimAbort s = .next (s.hosted id)))

/-- O40. Power, resets and wakes: what holds the core die down, what the end of a reset leaves, and the PROOF
    timers. (03 R72, 15 R441, 15 R447 (PLL), 15 R451 (boot attempts), 15 R457 (resets), 15 R458, 15 R459, 15 R462
    (RETENTION), 15 R464 (STANDBY), 18 R525, 18 R528) -/
def Obligations.PowerResetsAndProof : Prop :=
  ∀ (s : State) (lock ana : Bool) (seen : ClockSeen) (role : BitVec 2) (bootsel : Bool),
    let d := s.dev
    let y := d.sys
    let sys (f : Sys → Sys) : State := s.any fun d => { d with sys := f d.sys }
    let risen (y : Sys) : Sys :=
      { y with hold := { y.hold with brown := false }, vstby := true, rails := true, lock := lock, lockRetry := false,
               lockDue := if lock then none else some (s.dev.alwaysOn + 1000) }
    (y.hold.brown = true →
      (d.soffit.powered = true → exec (.powerOn lock) s = .next (sys risen)) ∧
      (d.soffit.powered = false → exec (.powerOn lock) s = .next (s.any fun d =>
        let x := d.soffitPowerUp
        { x with sys := risen x.sys }))) ∧
    (y.hold.brown = false → exec (.powerOn lock) s = .next s) ∧
    (∀ t, y.lockDue = some t → y.hold.brown = false →
      (t ≤ d.alwaysOn → exec (.pllLockRetry lock) s = .next (s.any fun d => Dev.startCk { d with sys := { d.sys with
        lockTries := satInc d.sys.lockTries, lock := lock, lockRetry := !lock,
        lockDue := if lock then none else some (t + 10000) } })) ∧
      (d.alwaysOn < t → exec (.pllLockRetry lock) s = .next s)) ∧
    (y.stbyOut = false → ∃ u, exec .rstNAssert s = .next u ∧ u.dev.coreUp = false ∧ u.dev.sys.hold.rstN = true ∧
      u.dev.acc.level = 0 ∧ u.dev.loft = d.loft ∧ u.otp = s.otp) ∧
    (y.stbyOut = true → exec .rstNAssert s = .next s) ∧
    (y.hold.rstN = true → exec .rstNRelease s = .next (sys fun y =>
      { y with hold := { y.hold with rstN := false }, lowTime := min ((s.dev.alwaysOn - y.rstAt) / 10000) 6000 })) ∧
    (y.hold.rstN = false → exec .rstNRelease s = .next s) ∧
    (∃ u, exec (.brownOut ana) s = .next u ∧ u.dev.coreUp = false ∧ u.dev.sys.hold.brown = true ∧
      u.dev.sys.rails = false ∧ (ana = true → u.dev.soffit = Soffit.reset) ∧ u.otp = s.otp) ∧
    (∃ u, exec .vstbyLoss s = .next u ∧ u.dev.sys.mode = .off ∧ u.dev.coreUp = false ∧ u.dev.soffit = Soffit.reset ∧
      u.dev.sys.attempts = 0 ∧ u.otp = s.otp) ∧
    (d.coreUp = true → d.thatch.truss.mode = .halted → d.acc.attached = false → y.haltAt + 2000 ≤ d.alwaysOn → ∃ u,
      exec .trussHaltReset s = .next u ∧ u.dev.coreUp = false ∧ u.dev.sys.hold.truss = true ∧ u.dev.loft = d.loft) ∧
    (d.mayEnd = true → ∃ u, exec (.resetEnd role bootsel) s = .next u ∧ u.dev.sys.mode = .boot ∧
      (∀ n : Fin 32, (u.dev.rings[n]).enabled = false) ∧ u.dev.soffit = d.soffit ∧
      (∀ c, y.resetCause = some c → c ≠ 0 → c ≠ 4 → c ≠ 5 → u.dev.loft.cells = d.loft.cells) ∧
      u.dev.gbl.cfg = none ∧ u.dev.sys.role = role ∧ u.dev.acc.level = 0 ∧ u.otp = s.otp ∧
      (role = 3 → u.dev.sys.refused = true ∧ u.dev.sys.attemptOpen = false)) ∧
    (d.mayEnd = false → exec (.resetEnd role bootsel) s = .next s) ∧
    (d.coreUp = true → y.mode = .boot → y.attemptOpen = true → y.bootsel = false →
      (d.now < y.attemptAt + 1000 * y.attemptMs → exec .bootWindowExpire s = .next s) ∧
      (y.attemptAt + 1000 * y.attemptMs ≤ d.now → exec .bootWindowExpire s = .next (sys fun y =>
        { y with bootLast := 1, attempts := satInc y.attempts, attemptOpen := true, attemptAt := s.dev.now,
                 window := BitVec.ofNat 16 (100 * 2 ^ min (satInc y.attempts).toNat 6) }))) ∧
    (d.coreUp = true →
      (seen.isFault = true → exec (.clockFault seen) s = .next (s.any fun d => d.ridgeLost 2)) ∧
      (seen.isFault = false → exec (.clockFault seen) s = .next s) ∧
      exec (.clockFault .unlocked) s = .next (s.any fun d => d.ridgeLost 2)) ∧
    (y.mode = .retention → y.hold.clear = true → d.acc.lapse = none → exec .retentionWake s = .next (s.any fun d =>
      let ms := min ((d.alwaysOn - d.sys.retStart) / 1000) 0xFFFFFFFF
      let x : Dev := { d with sys := { d.sys with lock := true, retMs := BitVec.ofNat 32 ms } }
      let z := (x.toMode (if d.sys.retFromArmed then .proof else .load) 3 0).event 0x0105 (payN 0 ms)
      let w : Dev := { z with thatch := { z.thatch with gableWait := [] } }
      w.flashStart true)) ∧
    (y.mode = .standby → y.stbyOut = true → y.stbyAt + 10000 ≤ d.alwaysOn → exec .standbyWake s = .next (sys fun y =>
      { y with mode := .off, prev := .standby, stbyOut := false, hold := { ResetHold.none with brown := true },
               resetCause := some 5, lock := false, lockTries := 0, lockRetry := false, lockDue := none })) ∧
    (d.coreUp = true →
      (y.mode = .proof → y.proofBusy = true → y.proofStart + 10000000 ≤ d.now →
        exec .proofTimeout s = .next (s.any fun d =>
          Dev.proofEvent { d with sys := { d.sys with proofBusy := false, proofFail := true, proofStep := 8 } } false)) ∧
      (d.now < y.proofStart + 10000000 → exec .proofTimeout s = .next s) ∧
      (y.proofAge ≠ 0xFFFF → y.proofAge + 1 ≠ 1380 → y.proofAge + 1 ≠ 1440 →
        exec .proofAgeTick s = .next (sys fun y => { y with proofAge := y.proofAge + 1 })) ∧
      (y.proofAge = 1379 → exec .proofAgeTick s = .next (s.any fun d =>
        let x : Dev := { d with sys := { d.sys with proofAge := 1380 } }
        x.event 0x0E03 1380)) ∧
      (y.mode = .proof → y.proofBusy = true → y.proofStep = 5 → 1000 ≤ y.proofLive →
        exec .proofReadbackPass s = .next (s.any fun d => (d.proofStepTo 6).proofAdvance)))

/-- O41. Purlin: training, the cells that pass and that are taken, acknowledgement and retry, relays, boot data and
    encoder frames. (16 R472 (training), 16 R473, 16 R474 (cells), 16 R475 (ACK), 16 R476, 16 R482, 16 R484 (relay),
    16 R485, 16 R486, 16 R189, 15 R454) -/
def Obligations.RoofCells : Prop :=
  ∀ (s : State) (src kind hop : Byte) (seq : BitVec 16) (frame : BitVec 512) (x : Lanes), s.dev.coreUp = true →
    let d := s.dev
    let roof (f : Roof → Roof) : State := s.any fun d => { d with roof := f d.roof }
    let taken (f : Dev → Dev) : State := s.any fun d => (f d).trussPend 4
    (d.manager = true →
      (d.roof.trainAt ≤ d.now → exec (.train none) s = .next (s.any fun d =>
        Dev.sendCell { d with roof := { d.roof with trainAt := s.dev.now + 1000 } } 1 0xFF [1])) ∧
      (d.now < d.roof.trainAt → exec (.train none) s = .next s)) ∧
    (d.manager = true → 1 ≤ hop.toNat → hop.toNat ≤ 8 → exec (.train (some hop)) s = .next (taken fun d =>
      { d with roof := { d.roof with
        ringUp := d.roof.ringUp || decide (d.roof.returnRun < 2), formed := d.roof.formed || decide (d.roof.returnRun < 2),
        workers := BitVec.ofNat 3 (hop.toNat - 1),
        worker := d.roof.worker.mapFinIdx fun i (x : WorkerView) _ =>
          let here := decide (0 < i ∧ i ≤ hop.toNat - 1)
          { x with present := here, seenAt := if here && !x.present then s.dev.now else x.seenAt } } })) ∧
    (d.manager = true → 8 < hop.toNat → exec (.train (some hop)) s = .next (taken fun d => d.event 0x0C0B (pay 0 hop))) ∧
    (d.manager = false → d.sys.role = 2 → hop ≠ 0 → hop.toNat ≤ 7 → exec (.train (some hop)) s = .next (taken fun d =>
      let c : PCell := { kind := 1, dst := 0xFF, src := 0, seq := 0, payload := [hop + 1] }
      { d with roof := { d.roof with position := hop.setWidth 3, posValid := true, fwd := d.roof.fwd ++ [c] } })) ∧
    (let me : Byte := d.roof.position.setWidth 8
     let coded : State := roof fun r => { r with linkCode := satInc r.linkCode }
     (cellOfLanes x = .crcError →
      exec (.purlinCellReceive x) s = .next (roof fun r => { r with linkCrc := satInc r.linkCrc })) ∧
     (cellOfLanes x = .codeError → exec (.purlinCellReceive x) s = .next coded) ∧
     (∀ c, cellOfLanes x = .cell c →
      (cellKnown c.kind = false → exec (.purlinCellReceive x) s = .next coded) ∧
      (cellKnown c.kind = true →
        (c.dst = me ∨ c.src = me ∨ c.kind = 1 → exec (.purlinCellReceive x) s = .next s) ∧
        (c.dst ≠ me → c.src ≠ me → c.kind ≠ 1 →
          exec (.purlinCellReceive x) s = .next (roof fun r => { r with fwd := r.fwd ++ [c] }))))) ∧
    (d.worker = true →
      (d.roof.statusAt ≤ d.now → exec (.status none) s = .next (s.any fun d =>
        Dev.sendCell { d with roof := { d.roof with statusAt := s.dev.now + 10000 } } 2 0
          (Config.cellPayload 2 s.dev.statusContent))) ∧
      (d.now < d.roof.statusAt → exec (.status none) s = .next s) ∧
      (d.gbl.cfg = none ∨ d.gableChecks = true →
        exec (.gframe frame) s = .next (taken fun d => d.flashReceive [3] (bytes64 frame))) ∧
      exec (.rframe frame) s = .next (s.any fun d => d.flashReceive [4] (bytes64 frame)) ∧
      exec (.relayDown src seq frame) s = .next (s.chip fun m =>
        Chip.relayEntry ((m.1.ack src 9 seq).trussPend 4, m.2) (bytes64 frame)) ∧
      exec (.reenum src seq) s = .next (s.any fun d => ((d.ack src 0x0B seq).trussPend 4).reenumProof) ∧
      (∀ off bytes, d.sys.mode ≠ .boot → exec (.bootdata src seq off bytes) s = .next (s.any fun d =>
        (d.trussPend 4).ack src 6 seq))) ∧
    (d.worker = false → exec (.rframe frame) s = .next s ∧ exec (.gframe frame) s = .next s ∧
      exec (.reenum src seq) s = .next s ∧ exec (.relayDown src seq frame) s = .next s) ∧
    (∀ c : StatusCell, d.manager = true → c.position ≠ 0 → (d.workerAt c.position).lost = false → d.roof.reenum = none →
      exec (.status (some c)) s = .next (taken fun d =>
        let y := d.onWorker c.position fun w =>
          { w with ok := true, lost := false, seenAt := s.dev.now, mode := c.mode, live := c.live, cfg := c.cfg, degCause := c.degCause,
                   holdCause := c.holdCause, frame := c.frame, attempts := c.attempts, proofDone := c.proofDone }
        { y with roof := { y.roof with restartStream := y.roof.restartStream ||| c.reset } })) ∧
    (∀ k : BitVec 3, d.manager = true → (d.workerAt k).present = true →
      ((d.workerAt k).lost = false → (d.workerAt k).seenAt + 30000 < d.now →
        exec (.workerStatusMissing k) s = .next (s.any fun d =>
        (d.onWorker k fun w => { w with ok := false, lost := true }).event 0x0C05 (pay 0 k ||| payN 3 1))) ∧
      ((d.workerAt k).lost = true ∨ d.now ≤ (d.workerAt k).seenAt + 30000 →
        exec (.workerStatusMissing k) s = .next s)) ∧
    exec (.ack src kind seq) s = .next (taken fun d => { d with roof := { d.roof with
      unacked := d.roof.unacked.filter fun u => !(u.1.dst == src && u.1.kind == kind && u.1.seq == seq) } }) ∧
    (d.roof.unacked = [] → exec .purlinRetry s = .next s) ∧
    (∀ c n t rest, d.roof.unacked = (c, n, t) :: rest →
      (d.now < t + 100 → exec .purlinRetry s = .next s) ∧
      (t + 100 ≤ d.now → n < 3 → exec .purlinRetry s = .next (roof fun r =>
        { r with unacked := rest ++ [(c, n + 1, s.dev.now)], out := insertCell c r.out })) ∧
      (t + 100 ≤ d.now → 3 ≤ n → c.kind ≠ 9 → exec .purlinRetry s = .next (roof fun r =>
        { r with unacked := rest, retryFail := satInc r.retryFail }))) ∧
    (d.manager = true →
      (d.sys.mode.served = true → 0x40000 ≤ d.roof.bootAddr.toNat → d.roof.bootLen ≠ 0 →
        d.roof.bootAddr.toNat + d.roof.bootLen.toNat ≤ 0x1800000 → ∀ k : BitVec 3,
        exec (.bootreq k hop) s = .next (taken fun d =>
          let n := d.roof.bootLen.toNat
          let a := d.roof.bootAddr.toNat
          (((d.loftTouch a n).bootCells (k.setWidth 8) a n 0 (n / 252 + 1)).event 0x0C04 (pay 0 k ||| pay 8 hop)))) ∧
      exec (.relayUp src seq frame) s = .next (taken fun d => (d.ack src 0x0A seq).putEntry 31 (bytes64 frame))) ∧
    (∀ p, d.inRoof = true → exec (.migrate (src.setWidth 3) seq p) s = .next (s.any fun d =>
      ((d.ack ((src.setWidth 3 : BitVec 3).setWidth 8) 8 seq).trussPend 4).migrateCell (src.setWidth 3) p)) ∧
    (let r := d.ringAt 30
     (r.enabled = false ∨ r.stopping = true → exec .purlinRing30Entry s = .next s) ∧
     (r.enabled = true → r.stopping = false → 0 < r.held → d.manager = false → d.loft.ce = [] → d.loft.ue = [] →
      exec .purlinRing30Entry s = .next (s.any fun d =>
        (d.ring 30 fun r => { r with cons := r.cons + 1 }).ring 30 fun r => { r with drop := satInc r.drop })))

/-- O42. Latch marks and the twin's sync words: what is sent, taken, missed and returned. (16 R477 (latch marks), 16
    R478 (workers), 16 R479, 16 R480 (broken ring), 16 R487 (sync words), 16 R488, 16 R489) -/
def Obligations.RoofMarksAndSyncWords : Prop :=
  ∀ (s : State) (x : Lanes) (rtt : BitVec 16) (line : List Bool) (interval : BitVec 24), s.dev.coreUp = true →
    let d := s.dev
    let roof (f : Roof → Roof) : State := s.any fun d => { d with roof := f d.roof }
    (d.manager = true → d.sys.mode ≠ .boot →
      let frame := if d.scan.lats && d.scan.step == .done then d.nextLat else d.roof.frame + 1
      let flags := d.comingSlot.val + (if d.twinHere && !d.roof.driving then 8 else 0) +
        (if d.roof.yieldHold = 0 then 0 else 16) + (if d.twinHere then 32 else 0)
      let b : List Byte := leBytes frame.toNat 2 ++ [BitVec.ofNat 8 flags] ++
        leBytes (d.scan.tmode[d.comingSlot]).period.toNat 3 ++ leBytes (d.now + 16) 4 ++ [d.roof.cable]
      exec .latchMarkSend s = .next (s.any fun d =>
        Dev.putMark { d with roof := { d.roof with
          frame := frame, marksOut := (d.roof.marksOut ++ [s.dev.now]).take 2 } } (b ++ [crc8 b])) ∧
      (b ++ [crc8 b]).length = 12) ∧
    (d.sys.role = 2 →
      (markOfLanes x = none →
        exec (.latchMarkReceive x) s = .next (roof fun r => { r with linkCode := satInc r.linkCode })) ∧
      (∀ m, markOfLanes x = some m →
        (d.worker = true → crc8 (m.take 11) = m.getD 11 0 → exec (.latchMarkReceive x) s =
          .next (s.any fun d => (d.putMark m).markTake (BitVec.ofNat 96 (leNat m)))) ∧
        (d.worker = false ∨ crc8 (m.take 11) ≠ m.getD 11 0 →
          exec (.latchMarkReceive x) s = .next (s.any fun d => d.putMark m)))) ∧
    (d.sys.role ≠ 2 → exec (.latchMarkReceive x) s = .next s) ∧
    (d.markOverdue = false → exec .latchMarkMissing s = .next s) ∧
    (d.worker = true → d.markOverdue = true →
      (d.roof.marks = true → d.roof.markTwin = false →
        let flown (n : Nat) (d : Dev) : Dev := { d with roof := { d.roof with
          markRun := n, markMiss := satInc d.roof.markMiss, marks := false, flywheel := true,
          markAt := d.roof.markAt + d.roof.markPeriod.toNat, markLat := d.roof.markLat + d.roof.markPeriod.toNat,
          nextMark := some (s.dev.nextLat, d.scan.slot, d.scan.shadow, false) } }
        (d.roof.markRun ≠ 1 → exec .latchMarkMissing s = .next (s.any (flown (d.roof.markRun + 1)))) ∧
        (d.roof.markRun = 1 → exec .latchMarkMissing s = .next (s.any fun d =>
          (flown 2 d).event 0x0C02 (pay 0 d.roof.position))))) ∧
    (d.worker = false → exec .latchMarkMissing s = .next s) ∧
    (d.manager = true →
      let back (d : Dev) : Dev := { d with roof := { d.roof with
        rtt := rtt, cable := cableOf rtt.toNat d.roof.workers.toNat, returnRun := 0, marksOut := [], ringUp := true,
        formed := true } }
      (d.roof.ringUp = true → exec (.latchMarkReturn rtt) s = .next (s.any back)) ∧
      (d.roof.ringUp = false → exec (.latchMarkReturn rtt) s = .next (s.any fun d =>
        (back d).event 0x0C01 (pay 0 d.roof.workers ||| pay 16 rtt))) ∧
      (d.roof.ringUp = true → 2 ≤ (d.roof.marksOut.filter d.markLate).length →
        exec .ringBroken s = .next (s.any fun d =>
          Dev.event { d with roof := { d.roof with ringUp := false, returnRun := 2 } } 0x0C02 (payN 3 1)))) ∧
    (d.roof.ringUp = false ∨ (d.roof.marksOut.filter d.markLate).length < 2 → exec .ringBroken s = .next s) ∧
    (d.twinHere = true →
      (d.sys.mode.mayDrive = true → d.sys.mode ≠ .boot →
        let frame := if d.scan.lats then d.nextLat else d.roof.frame + 1
        let x : BitVec 24 := (frame.setWidth 24) ||| (BitVec.ofNat 24 d.comingSlot.val <<< 16) |||
          (if d.roof.driving then (1 : BitVec 24) <<< 19 else 0) ||| (d.sys.mode.health.setWidth 24 <<< 20)
        exec .syncWordSend s = .next (roof fun r =>
          { r with sync := syncLine (crc8 [byteAt x 0, byteAt x 1, byteAt x 2] ++ x) })) ∧
      (syncOfLine line = none → exec (.syncWordReceive line interval) s = .next s) ∧
      (∀ w, syncOfLine line = some w →
       let edge := 400 * d.now - 1400
       (crc8 [byteAt w 0, byteAt w 1, byteAt w 2] ≠ byteAt w 3 → exec (.syncWordReceive line interval) s =
        .next (roof fun r => { r with syncAt := edge, badWords := satInc r.badWords })) ∧
       (crc8 [byteAt w 0, byteAt w 1, byteAt w 2] = byteAt w 3 → d.roof.missRun < 2 →
        let peer (r : Roof) : Roof := { r with
          syncAt := edge, peerFrame := w.extractLsb' 0 16, peerSlot := w.extractLsb' 16 3, peerDriving := w.getLsbD 19,
          peerHealth := w.extractLsb' 20 2, peerOk := true, missRun := 0 }
        (d.roof.driving = true →
          exec (.syncWordReceive line interval) s = .next (roof fun r => { peer r with genlocked := false })) ∧
        (d.roof.driving = false → interval.toNat ≤ d.periodNow + 400 → d.periodNow ≤ interval.toNat + 400 →
          exec (.syncWordReceive line interval) s = .next (roof fun r =>
            let slot : Fin 8 := Fin.ofNat 8 ((w >>> (16 : Nat)).toNat % 8)
            { peer r with genlocked := true, markLat := edge + 8000,
                          nextMark := some (w.extractLsb' 0 16, slot, true, false) })) ∧
        (d.roof.driving = false → d.periodNow + 400 < interval.toNat →
          exec (.syncWordReceive line interval) s = .next (s.any fun d => Dev.event { d with roof :=
            { peer d.roof with genlocked := false, nextMark := none } } 0x0C09 (pay 0 interval))))) ∧
      (d.syncOverdue = false → exec .syncWordMissing s = .next s) ∧
      (d.syncOverdue = true →
       let missed (n : Nat) (r : Roof) : Roof :=
         { r with missRun := n, misses := satInc r.misses, syncAt := r.syncAt + s.dev.periodNow }
       (d.roof.missRun = 1 → exec .syncWordMissing s = .next (s.any fun d => Dev.event
        { d with roof := { missed 2 d.roof with peerOk := false, genlocked := false } } 0x0C07 1)) ∧
       (d.roof.missRun ≠ 1 → exec .syncWordMissing s = .next (roof (missed (d.roof.missRun + 1)))))) ∧
    (d.twinHere = false → exec .syncWordSend s = .next s ∧ exec (.syncWordReceive line interval) s = .next s ∧
      exec .syncWordMissing s = .next s)

/-- O43. Unlocking by password and by challenge, nonces, lapse and lock, and the OTP's slots. (17 R496 (levels), 17
    R498, 17 R499 (nonce), 17 R500 (passwords), 17 R501, 17 R502 (failures), 17 R503 (lapse), 17 R511, 17 R512, 17
    R514) -/
def Obligations.AccessAndOtp : Prop :=
  ∀ (s : State) (level : BitVec 2) (mask : BitVec 4) (target : BitVec 3), s.dev.coreUp = true →
    let d := s.dev
    let a := d.acc
    let acc (f : Acc → Acc) : State := s.hosted fun d => { d with acc := f d.acc }
    let k := targetSlot target
    (s.takesWrite 0x200A0008 2 = true → exec .accNonce s = .next (acc fun a =>
      { a with nonce := Config.random a.draws, draws := a.draws + 1, nonceAt := some d.now })) ∧
    (d.nonceValid = true → exec .nonceExpire s = .next s) ∧
    (d.nonceValid = false → exec .nonceExpire s = .next (s.any fun d => { d with acc := { d.acc with nonceAt := none } })) ∧
    (s.takesWrite 0x200A0008 1 = true → a.attached = false → a.jtag.drives = false →
      exec .accLock s = .next (s.hosted fun d =>
        let y : Dev := { d with acc := { d.acc with nonceAt := none, level := 0, lapse := none, attachPending := false } }
        y.event 0x0D03 (pay 0 a.level ||| pay 2 (1 : BitVec 2)))) ∧
    (∀ t, a.lapse = some t →
      (t ≤ d.alwaysOn → exec .unlockTimeout s = .next (s.any fun d => d.lapse 2)) ∧
      (d.alwaysOn < t → exec .unlockTimeout s = .next s)) ∧
    (a.lapse = none → exec .unlockTimeout s = .next s) ∧
    (s.takesWrite 0x200A000C (level.setWidth 32) = true →
      let tried (f : Acc → Acc) : State := acc fun a => f { a with pw := 0, lastPath := false }
      (64 ≤ s.otp.fuses.toNat → exec (.unlockPassword level) s = .next (tried fun a => { a with result := 4 })) ∧
      (s.otp.fuses.toNat < 64 →
        (d.alwaysOn < a.pwUntil → exec (.unlockPassword level) s = .next (tried fun a => { a with result := 3 })) ∧
        (a.pwUntil ≤ d.alwaysOn →
          let l := s.otp.passwordLevel a.password
          (l ≠ 0 → exec (.unlockPassword level) s = .next (s.hosted fun d =>
            let y : Dev := { d with acc := { d.acc with
              pw := 0, lastPath := false, pwFail := 0, pwUntil := 0, level := if d.acc.level < l then l else d.acc.level,
              method := false, result := 1, lapse := some (d.alwaysOn + d.acc.timeout.toNat * 60000000) } }
            y.event 0x0D01 (pay 0 l ||| pay 4 a.timeout))) ∧
          (l = 0 → (satInc a.pwFail).toNat % 8 ≠ 0 → exec (.unlockPassword level) s = .next (s.hosted fun d =>
            let n := satInc d.acc.pwFail
            let y : Dev := { d with acc := { d.acc with
              pw := 0, lastPath := false, pwFail := n, pwUntil := d.alwaysOn + failDelay n.toNat * 1000000, result := 2 } }
            y.event 0x0D02 (payN 4 n.toNat ||| payN 16 (failDelay n.toNat) ||| pay 32 s.otp.fuses)))))) ∧
    (s.takesWrite 0x200A000C (16 + level.setWidth 32) = true →
      let tried (f : Acc → Acc) : State := acc fun a => f { a with lastPath := true, nonceAt := none, pw := 0 }
      (level ≠ 2 → level ≠ 3 → exec (.unlockChallenge level) s = .next (tried fun a => { a with result := 6 })) ∧
      (level = 2 ∨ level = 3 →
        (d.alwaysOn < a.crUntil → exec (.unlockChallenge level) s = .next (tried fun a => { a with result := 3 })) ∧
        (a.crUntil ≤ d.alwaysOn →
          (d.nonceValid = false → exec (.unlockChallenge level) s = .next (tried fun a => { a with result := 5 })) ∧
          (d.nonceValid = true → a.resp = challengeResponse a.nonce level →
            exec (.unlockChallenge level) s = .next (s.hosted fun d =>
              let y : Dev := { d with acc := { d.acc with
                lastPath := true, nonceAt := none, pw := 0, crFail := 0, crUntil := 0,
                level := if d.acc.level < level then level else d.acc.level, method := true, result := 1,
                lapse := some (d.alwaysOn + d.acc.timeout.toNat * 60000000) } }
              y.event 0x0D01 (pay 0 level ||| payN 2 1 ||| pay 4 a.timeout)))))) ∧
    (let v : Word := fld 0 target ||| fld 4 level ||| fld 8 mask
     s.takesWrite 0x200A0050 v = true →
      (d.sys.mode ≠ .load ∨ a.level < 2 →
        exec (.otpProgram target level mask) s = .next (acc fun a => { a with result := 9 })) ∧
      (d.sys.mode = .load → 2 ≤ a.level →
        (target < 4 → (s.otp.pws[k]).programmed = false → level ≠ 0 → level ≠ 3 → ∃ u,
          let slot : PwSlot :=
            { programmed := true, revoked := (s.otp.pws[k]).revoked, level := level, salt := Config.random a.draws,
              tag := passwordTag (Config.random a.draws) a.password }
          exec (.otpProgram target level mask) s = .next u ∧ u.dev.acc.result = 8 ∧
          u.otp = { s.otp with pws := s.otp.pws.set k slot }) ∧
        (4 ≤ target → (s.otp.keys[k]).programmed = false → (k = 0 → a.level = 3) → d.clean a.progAddr.toNat 32 = true →
          ∃ u,
          let slot : KeySlot :=
            { programmed := true, revoked := (s.otp.keys[k]).revoked, mask := mask,
              hash := packBytes 256 (d.loftBytes a.progAddr.toNat 32) }
          exec (.otpProgram target level mask) s = .next u ∧ u.dev.acc.result = 8 ∧
          u.otp = { s.otp with keys := s.otp.keys.set k slot }))) ∧
    (let v : Word := fld 0 target ||| bit 3 true ||| fld 8 mask
     s.takesWrite 0x200A0050 v = true →
      (d.sys.mode ≠ .load ∨ a.level < 2 → exec (.otpRevoke target mask) s = .next (acc fun a => { a with result := 9 })) ∧
      (d.sys.mode = .load → 2 ≤ a.level → target < 4 → (s.otp.pws[k]).revoked = false → ∃ u,
        exec (.otpRevoke target mask) s = .next u ∧ u.dev.acc.result = 8 ∧
        u.otp = { s.otp with pws := s.otp.pws.set k { (s.otp.pws[k]) with revoked := true } }))

/-- O44. The TAP's instructions, attach and detach, and halting, stepping, resuming, reading and writing cores by
    debugger. (17 R504 (permissions), 17 R505 (attach), 17 R506 (debug requests), 17 R507, 17 R509 (TAP), 17 R510) -/
def Obligations.TapAndDebugger : Prop :=
  ∀ (s : State) (pins cells : List Bool) (u : Option CoreId) (x : DbgItem) (v : Word) (b : BitVec 136) (e : Fin 8)
    (op : Byte), op ∉ ([0x00, 0x01, 0x02, 0x04, 0x05, 0x10, 0x11] : List Byte) →
    let d := s.dev
    let acc (f : Acc → Acc) : State := s.any fun d => { d with acc := f d.acc }
    let scan (j : Jtag) (f : Acc → Acc) : State := acc fun a => f { a with tir := 1, jtag := j }
    let refused (code : BitVec 4) : State := s.any fun d =>
      let y : Dev := { d with acc := { d.acc.endDrive with jtag := .dbg } }
      y.debugRefuse code
    let asked (f : Dev → Dev) : State := s.any fun d => f { d with acc := { d.acc.endDrive with jtag := .dbg } }
    (d.tapRuns = true →
      exec .idcode s = .next (scan .idcode fun a => { a with tdr := 0x1A160001 }) ∧
      exec (.bypass op) s = .next (scan .bypass fun a => { a with tdr := 0 }) ∧
      (d.sys.mode ≠ .retention → exec (.samplePreload pins cells) s = .next (scan .sample fun a =>
        { a with captured := pins, boundary := cells })) ∧
      (d.coreUp = true → d.acc.level = 3 → d.sys.mode = .load ∨ d.sys.mode = .safeHold →
        exec (.extest pins cells) s = .next (scan .extest fun a => { a with captured := pins, boundary := cells }) ∧
        exec .highz s = .next (scan .highz fun a => { a with tdr := 0 }) ∧
        exec .clamp s = .next (scan .clamp fun a => { a with tdr := 0 })) ∧
      (d.acc.level ≠ 3 → exec (.extest pins cells) s = .next (scan .bypass fun a => { a with tdr := 0 }) ∧
        exec .highz s = .next (scan .bypass fun a => { a with tdr := 0 }) ∧
        exec .clamp s = .next (scan .bypass fun a => { a with tdr := 0 })) ∧
      (d.coreUp = true → exec (.accChal false b) s = .next (scan .accChal fun a =>
        { a with nonce := Config.random a.draws, draws := a.draws + 1, nonceAt := some d.now,
                 tdr := (Config.random a.draws).setWidth 136 }))) ∧
    (d.tapRuns = false → exec .idcode s = .next s ∧ exec (.bypass op) s = .next s ∧ exec (.accChal true b) s = .next s ∧
      exec .debugAttach s = .next s ∧ exec (.debugHalt u) s = .next s) ∧
    (d.tapRuns = true → d.coreUp = true →
      (d.acc.attached = false →
        (2 ≤ d.acc.level → d.sys.mode = .load ∨ d.sys.mode = .armed ∨ d.sys.mode = .trim ∨ d.sys.mode = .service →
          exec .debugAttach s = .next (asked fun d =>
            let y : Dev := { d with acc := { d.acc with attached := true } }
            y.event 0x0D04 (pay 0 d.acc.level ||| pay 4 d.sys.mode.code))) ∧
        (2 ≤ d.acc.level → d.sys.mode = .run → exec .debugAttach s = .next (asked fun d =>
          { d with acc := { d.acc with attachPending := true } })) ∧
        (d.acc.level < 2 → exec .debugAttach s = .next (refused 1)) ∧
        (2 ≤ d.acc.level → d.sys.mode = .proof → exec .debugAttach s = .next (refused 2)) ∧
        exec (.debugHalt u) s = .next (refused 3) ∧ exec (.debugStep u) s = .next (refused 3) ∧
        exec (.debugResume u) s = .next (refused 3) ∧ exec (.debugRead u x) s = .next (refused 3) ∧
        exec (.debugWrite u x v) s = .next (refused 3)) ∧
      exec .debugDetach s = .next (asked fun d =>
        Dev.detach { d with acc := { d.acc with attachPending := false } } 1) ∧
      (d.acc.attached = true → d.sys.mode ≠ .boot →
        (d.thatch.truss.dbgHalt = false → exec (.debugHalt (some .truss)) s = .next (asked fun d =>
          { d with thatch := { d.thatch with truss := { d.thatch.truss with dbgHalt := true } } })) ∧
        ((d.engAt e).inService = true → exec (.debugHalt (some (.engine e))) s = .next (refused 3) ∧
          exec (.debugStep (some (.engine e))) s = .next (refused 3) ∧
          exec (.debugWrite (some (.engine e)) x v) s = .next (refused 3)) ∧
        (d.thatch.truss.dbgHalt = true → exec (.debugStep (some .truss)) s = .next (asked fun d =>
          { d with thatch := { d.thatch with truss := { d.thatch.truss with dbgStep := true } } })) ∧
        (d.thatch.truss.dbgHalt = false → exec (.debugStep (some .truss)) s = .next (refused 3)) ∧
        exec (.debugResume (some .truss)) s = .next (asked fun d =>
          { d with thatch := { d.thatch with truss := d.thatch.truss.release } }) ∧
        exec (.debugRead (some .truss) .pc) s = .next (asked fun d =>
          { d with acc := { d.acc with dbgData := d.thatch.truss.pc } }) ∧
        exec (.debugWrite (some .truss) .pc v) s = .next (asked fun d =>
          { d with thatch := { d.thatch with truss := { d.thatch.truss with pc := v } } }) ∧
        (∀ n k, exec (.debugRead (some .soffit) (.lane n k)) s = .next (refused 3))))

/-- O45. Fault injections: scheduled, detected, missed and restored. (18 R516, 18 R518, 18 R519, 18 R520, 18 R521,
    18 R524, 18 R526 (schedule), 18 R527) -/
def Obligations.FaultInjections : Prop :=
  ∀ s : State, s.dev.coreUp = true →
    let d := s.dev
    let i := d.inj
    let b := i.bit.toNat
    let bound := d.injTime b i.inst
    let ended (f : Dev → Dev) : State := s.any fun d => d.injThen f
    let logged (r : BitVec 3) (t : BitVec 24) (d : Dev) : Dev :=
      let j := d.inj.onHead fun e => { e with result := r, detect := t }
      { d with inj := { j with detect := t } }
    let gone : Prop := i.schedAt + 1000000 * i.interval.toNat ≤ d.now
    (gone → i.schedEn = true → d.sys.mode = .run → i.busy = false →
      ∀ k, (dryOrder i.nextSched).find? (fun b => !(d.injInstances b 0xFF).isEmpty) = some k →
        exec .injectionSchedule s = .next (s.any fun d =>
          let y : Dev :=
            { d with inj := { d.inj with schedAt := d.now, nextSched := (k + 1) % 55, schedDue := false } }
          y.injStart k true .schedule none)) ∧
    (¬ gone → exec .injectionSchedule s = .next s) ∧
    (gone → i.schedEn = false ∨ d.sys.mode ≠ .run →
      exec .injectionSchedule s = .next (s.any fun d => { d with inj := { d.inj with schedAt := d.now } })) ∧
    (gone → i.schedEn = true → d.sys.mode = .run → i.busy = true →
      exec .injectionSchedule s = .next (s.any fun d =>
        { d with inj := { d.inj with schedAt := d.now, schedDue := true } })) ∧
    (i.busy = true → i.restoring = false → i.hdr = none →
      (d.now ≤ i.start + bound →
        let t : BitVec 24 := satAdd 0 (d.now - i.start)
        (i.dry = true → exec .injectionDetected s = .next (ended fun d => (logged 1 t d).injEnd true)) ∧
        (i.dry = false → exec .injectionDetected s = .next (ended fun d =>
          let y := logged 1 t d
          let z := y.injAllStages b i.inst
          Dev.refreshInhibits
            { y with inj := { y.inj with
                restoring := true, held := true, stopG := z.g, stopH := z.h, gates := z.gates } }))) ∧
      (i.start + bound + 1000 ≤ d.now →
        let t : BitVec 24 := satAdd 0 bound
        (i.dry = true → exec .injectionDeadline s = .next (ended fun d => (logged 2 t d).injEnd false)) ∧
        (i.dry = false → exec .injectionDeadline s = .next (ended fun d =>
          let y := logged 2 t d
          { y with inj := { y.inj with restoring := true, held := true } })))) ∧
    (i.busy = true → i.restoring = true →
      let e := i.log[i.head]
      let from' := i.start + i.detect.toNat + (if e.result = 2 then 1000 else 0)
      let drop (d : Dev) : Dev := if d.inj.held then d.withdrawInj else d
      (d.now ≤ from' + d.injRestore b i.inst → (drop d).injBack = true →
        exec .injectionRestored s = .next (ended fun d =>
          let y := drop d
          if e.result = 4 then Dev.injEvent { y with inj := y.inj.idle } else y.injEnd (e.result == 1))) ∧
      (d.now ≤ from' + d.injRestore b i.inst → (drop d).injBack = false →
        exec .injectionRestored s = .next (ended drop)) ∧
      (from' + d.injRestore b i.inst < d.now → exec .injectionRestored s = .next (ended fun d =>
        let y := if e.result = 1 then (drop d).injEvent else drop d
        let j := y.inj.onHead fun e => { e with result := 3 }
        let z : Dev := { y with inj := j }
        z.injEnd false))) ∧
    (i.busy = false → exec .injectionDetected s = .next s ∧ exec .injectionDeadline s = .next s ∧
      exec .injectionRestored s = .next s)

/-- O46. The end of a loop's body: the innermost entry with that end counts down and goes on at its start, or is
    popped. (04 R105 (loops), 04 R106) -/
def Obligations.LoopEndsCountDown : Prop :=
  ∀ (s : State) (c : CoreId), s.executes c (encL 0x40 0 0) 1 = true →
    let k := s.dev.coreAt c
    let here (e : LoopEntry) : Prop := e.last = k.pc ∧ e.depth = k.rstack.length
    let after (stack : List LoopEntry) (pc : Word) : State := s.flows c 1 fun d => d.onCore c fun k =>
      { k with lstack := stack, pc := pc }
    ((∀ e ∈ k.lstack, ¬ here e) → exec (.thatchNop c) s = .next (after k.lstack (k.pc + 4))) ∧
    (∀ e r, k.lstack = e :: r → here e →
      (1 < e.left.toNat → exec (.thatchNop c) s = .next (after ({ e with left := e.left - 1 } :: r) e.start)) ∧
      (e.left.toNat ≤ 1 → (∀ x ∈ r, ¬ here x) → exec (.thatchNop c) s = .next (after r (k.pc + 4))) ∧
      (∀ x r', e.left.toNat ≤ 1 → r = x :: r' → here x → 1 < x.left.toNat →
        exec (.thatchNop c) s = .next (after ({ x with left := x.left - 1 } :: r') x.start)))

/-- O47. CALL and CALLR onto a full return stack trap STACK, and so does RET on an empty one. (R107) -/
def Obligations.ReturnStackTraps : Prop :=
  ∀ (s : State) (c : CoreId) (off : BitVec 19) (a : BitVec 5),
    let k := s.dev.coreAt c
    let stack (i : Instr) : Prop := ∃ v, exec i s = .next (s.traps c 2 0x0A v)
    (c.rmax ≤ k.rstack.length →
      (s.executes c (encL 0x48 0 off) 2 = true → stack (.call c off)) ∧
      (s.executes c (encR 0x4B 0 a 0 0) 2 = true → s.dev.executable c (k.get a) = true → stack (.callr c a))) ∧
    (k.rstack = [] → s.executes c (encL 0x49 0 0) 2 = true → stack (.ret c))

/-- O48. THM_DRT_ADDR outside every derate-table region is ignored and sets CFG_ERR. (10 R308 (THM_DRT_ADDR)) -/
def Obligations.DerateTableAddress : Prop :=
  ∀ (s : State) (v : Word), s.takesWrite 0x20061088 v = true →
    let a := (v.toNat % 2 ^ 25) / 4 * 4
    let inside : Prop := ∃ k : Fin 64, ∃ g, s.dev.regions[k] = some g ∧ g.kind = 4 ∧ g.base ≤ a ∧
      a + 512 ≤ g.base + g.length
    (¬ inside → exec (.thmDrtAddrWrite v) s = .next (s.hosted fun d => { d with thm := { d.thm with cfgErr := true } })) ∧
    (inside → exec (.thmDrtAddrWrite v) s = .next (s.hosted fun d =>
      { d with thm := { d.thm with drtAddr := BitVec.ofNat 25 a } }))

/-- O49. A partial write keeps an uncorrectable word marked, a write of all its 8 bytes clears the mark, and both
    store their bytes. (R59) -/
def Obligations.UncorrectableWordMarks : Prop :=
  ∀ (s : State) (a : Word) (data : List Byte) (w : Nat), s.dev.coreUp = true → s.dev.memWf = true →
    0x40000 ≤ a.toNat → a.toNat + data.length ≤ loftSize → data ≠ [] →
    let full : Prop := a.toNat ≤ 8 * w ∧ 8 * w + 8 ≤ a.toNat + data.length
    let whole (x : Nat) : Prop := touchesWord a.toNat data.length x = true → coversWord a.toNat data.length x = true
    let quiet : Prop := (∀ x ∈ s.dev.loft.ce, whole x) ∨ ∃ t, s.dev.loft.lastCeEvent = some t ∧ s.dev.now < t + 1000000
    ∃ t, exec (.write (some a) data false) s = .next t ∧ t.dev.loftBytes a.toNat data.length = data ∧
      (quiet → ¬ full → (w ∈ t.dev.loft.ue ↔ w ∈ s.dev.loft.ue)) ∧ (full → w ∉ t.dev.loft.ue)

/-- O50. The Soffit's defaults hold from its power-up, and while no configuration is applied: inputs, pairs, tests,
    outputs, silence. (R402) -/
def Obligations.SoffitDefaults : Prop :=
  (∀ s : State, s.dev.soffit.powered = false → ∃ t, exec .soffitPowerUp s = .next t ∧ t.dev.soffit.powered = true ∧
    t.dev.soffit.cfg = none ∧ ∀ k : Fin 8, (t.dev.soffit.outputs[k]).on = false) ∧
  ∀ f : Soffit, f.cfg = none →
    (∀ k : Fin 8, fIn f.field k.val 2 = 20 ∧ fInMode f.field k.val 0 = false ∧ fIn f.field k.val 3 = 3 ∧
      fInMode f.field k.val 1 = true ∧ fOutAssign f.field k.val = 0 ∧ fOutSafe f.field k.val = 0 ∧
      fOutOfft f.field k.val = 0 ∧ fOutOnt f.field k.val = 0 ∧ fIn f.field k.val 4 = 0xFF ∧ f.follows k.val = false) ∧
    (∀ p : Fin 4, fPairKind f.field p.val = 0) ∧ half16 f.field 0 = 20

/-- O51. A completion is a 16-byte entry at CPL_PROD of its ring's completion area, and advances it by one. (03 R70
    (order), 03 R74 (completion entry), 03 R77, 03 R80 (NOP)) -/
def Obligations.CompletionsArePosted : Prop :=
  ∀ (s : State) (h : CmdHdr) (a : Args), s.serves h 0x00 a = true → s.dev.relayRing h.ring = false →
    h.irq = false → (s.dev.rings[h.ring.val]).irqCount = 0 → s.dev.memWf = true →
    let r := s.dev.rings[h.ring.val]
    let p := r.cplBase.toNat + 16 * (r.cplProd.toNat % r.entries)
    ∃ t, exec (.nop h a) s = .next t ∧
      t.dev.loftBytes p 16 = leBytes h.tag.toNat 2 ++ [Config.statusCode CmdStatus.ok.rank, 0x00] ++
        leBytes h.index.toNat 2 ++ [BitVec.ofNat 8 h.ring.val, 0] ++ [0x01, 0x00, 0x16, 0x1A, 0, 0, 0, 0] ∧
      (t.dev.rings[h.ring.val]).cplProd = r.cplProd + 1 ∧
      (∀ b, b < p ∨ p + 16 ≤ b → cellGet t.dev.loft.cells b = cellGet s.dev.loft.cells b) ∧
      (∀ n : Fin 32, n.val ≠ h.ring.val → t.dev.rings[n] = s.dev.rings[n])

/-- O52. A boundary command drops the earlier effects on its object and leaves every other effect waiting. (03 R84
    (superseding), 06 R165, 07 R209, 08 R247) -/
def Obligations.LaterEffectsSupersede : Prop :=
  ∀ (s : State) (h : CmdHdr) (a : Args),
    let d := s.dev
    let kept (x : EffectOp) : List Effect :=
      (d.effects.filter fun y => !y.op.meets x) ++ [{ ring := BitVec.ofNat 8 h.ring.val, tag := h.tag, op := x }]
    (∀ c : Fin 64, s.serves h 0x24 a = true → c ≠ 0 → (a[0].extractLsb' 0 6).toNat = c.val → d.migrating c = false →
      ∃ t, exec (.ctxSuspend h a) s = .next t ∧ t.dev.effects = kept (.ctxSuspend c)) ∧
    (s.serves h 0x3A a = true → a[0].extractLsb' 0 16 ≠ (0 : BitVec 16) →
      (∀ i ∈ bitsOf (a[0].extractLsb' 0 16 : BitVec 16), d.sourceDescs i ≠ []) →
      ∃ t, exec (.srcCommit h a) s = .next t ∧ t.dev.effects = kept (.srcCommit (a[0].extractLsb' 0 16))) ∧
    (s.serves h 0x41 a = true → d.slotRefused (slotArg a[0]) = false →
      ∃ t, exec (.tmodeSelect h a) s = .next t ∧ t.dev.effects = kept (.tmodeSelect (slotArg a[0])))

/-- O53. SYS_HP_CFG returns to its reset values on PORT RESET, on RST_N and on each exit from STANDBY. (R41) -/
def Obligations.HpCfgReset : Prop :=
  ∀ (s : State) (role : BitVec 2) (bootsel : Bool),
    let reset (t : State) : Prop := t.dev.hp.proto = 0 ∧ t.dev.hp.dummy = 8
    (s.dev.coreUp = true → ∃ t, exec .portReset s = .next t ∧ reset t) ∧
    (s.dev.sys.stbyOut = false → ∃ t, exec .rstNAssert s = .next t ∧ t.dev.coreUp = false) ∧
    (s.dev.sys.mode = .standby → s.dev.sys.stbyOut = true → s.dev.sys.stbyAt + 10000 ≤ s.dev.alwaysOn →
      ∃ t, exec .standbyWake s = .next t ∧ t.dev.coreUp = false) ∧
    (s.dev.mayEnd = true → ∃ t, exec (.resetEnd role bootsel) s = .next t ∧ reset t)

/-- O54. Memory, CSR and system instructions complete: a load's destination holds what its core's own memory held, a store's
    bytes are in it and nothing else changed there, a CSR is read and written, and FENCE only goes on. (04 R100, 04 R104, 04 R108,
    04 R109, 04 R111, 04 R118, 04 R119, 04 R120, 05 R139) -/
def Obligations.SystemAndMemoryInstructionsComplete : Prop :=
  ∀ (s : State) (c : CoreId) (dst a : BitVec 5) (imm : BitVec 14) (w : Word),
    let k := s.dev.coreAt c
    let x := k.get a
    let addr := x + sx imm
    let n := addr.toNat
    let dst' (v : Word) : Word := if dst = 0 then 0 else v
    let loads (i : Instr) (op : Byte) (size : Nat) (ext : Nat → Word) : Prop :=
      s.executes c (encI op dst a imm) (memCycles c addr false) = true → n % size = 0 →
        let got (m : Mem) (b : Nat) : Prop := ∃ t, exec i s = .next t ∧
          (t.dev.coreAt c).get dst = dst' (ext (leNat (readBytes m (n - b) size)))
        (c = .truss → 0x40000000 ≤ n → n + size ≤ 0x40020000 → s.dev.thatch.trussMem.ue = [] →
          got s.dev.thatch.trussMem.cells 0x40000000) ∧
        (c = .gable → n + size ≤ 0x20000 → s.dev.thatch.gableMem.ue = [] → got s.dev.thatch.gableMem.cells 0) ∧
        (c = .soffit → n + size ≤ 0x2000 → s.dev.thatch.soffitMem.ue = [] → got s.dev.thatch.soffitMem.cells 0) ∧
        (∀ e i, c = .engine e → s.dev.invAt e = some i → i.ls = true → n + size ≤ 0x1000 →
          got (s.dev.engAt i.home).slotMem[i.slot.val] 0)
    let stores (i : Instr) (op : Byte) (size : Nat) : Prop :=
      s.executes c (encI op dst a imm) (memCycles c addr true) = true → n % size = 0 → s.dev.memWf = true →
        let put (m : Dev → Mem) (b : Nat) : Prop := ∃ t, exec i s = .next t ∧
          readBytes (m t.dev) (n - b) size = leBytes (k.get dst).toNat size ∧ (t.dev.coreAt c).s = k.s ∧
          ∀ y, y < n - b ∨ n - b + size ≤ y → cellGet (m t.dev) y = cellGet (m s.dev) y
        let free (i : Option Image) : Prop := ∀ y, i = some y → y.inSection [1] n = false
        (c = .truss → 0x40000000 ≤ n → n + size ≤ 0x40020000 → put (fun d => d.thatch.trussMem.cells) 0x40000000) ∧
        (c = .gable → n + size ≤ 0x1F000 → free s.dev.thatch.gableImage → put (fun d => d.thatch.gableMem.cells) 0) ∧
        (c = .soffit → n + size ≤ 0x2000 → free s.dev.thatch.soffitImage → put (fun d => d.thatch.soffitMem.cells) 0) ∧
        (∀ e i, c = .engine e → s.dev.invAt e = some i → i.ls = true → n + size ≤ 0x1000 →
          put (fun d => (d.engAt i.home).slotMem[i.slot.val]) 0)
    loads (.ld c dst a imm) 0x60 4 (BitVec.ofNat 32) ∧
    loads (.ldh c dst a imm) 0x61 2 (fun v => (BitVec.ofNat 16 v).signExtend 32) ∧
    loads (.ldhu c dst a imm) 0x62 2 (BitVec.ofNat 32) ∧
    loads (.ldb c dst a imm) 0x63 1 (fun v => (BitVec.ofNat 8 v).signExtend 32) ∧
    loads (.ldbu c dst a imm) 0x64 1 (BitVec.ofNat 32) ∧
    stores (.st c dst a imm) 0x65 4 ∧ stores (.sth c dst a imm) 0x66 2 ∧ stores (.stb c dst a imm) 0x67 1 ∧
    (s.executes c (encL 0x52 0 0) 1 = true → ∃ t, exec (.fence c) s = .next t ∧ (t.dev.coreAt c).s = k.s) ∧
    (s.executes c (encI 0x4E dst 0 imm) 1 = true → ∃ t, exec (.csrr c dst imm) s = .next t ∧
      (t.dev.coreAt c).get dst = dst' ((s.fetched c).dev.csr c imm.toNat)) ∧
    (s.executes c (encI 0x4F dst a 0) 1 = true → ∃ t, exec (.csrw c dst a 0) s = .next t ∧
      (t.dev.coreAt c).flg = { z := x.getLsbD 0, n := x.getLsbD 1, c := x.getLsbD 2, v := x.getLsbD 3, q := x.getLsbD 4 } ∧
      (t.dev.coreAt c).get dst = dst' k.flg.word) ∧
    (s.executes .truss (encI 0x4F dst a 2) 1 = true → ∃ t, exec (.csrw .truss dst a 2) s = .next t ∧
      t.dev.thatch.truss.tpc = s.dev.thatch.truss.get a ∧ t.dev.thatch.truss.get dst = dst' s.dev.thatch.truss.tpc) ∧
    (s.executes .truss (encI 0x50 0 0 imm) 1 = true → s.dev.thatch.truss.inHandler = false →
      ∀ i, s.dev.thatch.trussImage = some i → i.trapEntry ≠ 0 → ∃ t, exec (.trap .truss imm) s = .next t ∧
        t.dev.thatch.truss.tcause = 0x0D ∧ t.dev.thatch.truss.tpc = s.dev.thatch.truss.pc ∧
        t.dev.thatch.truss.tval = imm.setWidth 32 ∧ t.dev.thatch.truss.pc = i.trapEntry) ∧
    (s.executes .truss (encL 0x51 0 0) 1 = true → s.dev.acc.attached = true → ∃ t, exec (.brk .truss) s = .next t ∧
      t.dev.thatch.truss.dbgHalt = true ∧ t.dev.thatch.truss.s = s.dev.thatch.truss.s) ∧
    (∀ code i, wordCause (CoreId.profile .truss) w = some code → s.dev.coreRuns .truss = true → s.dev.fetches .truss = true →
      s.dev.thatch.truss.inHandler = false → s.dev.thatch.trussImage = some i → i.trapEntry ≠ 0 →
      ∃ t, exec (.unassignedInstruction .truss w) s = .next t ∧ t.dev.thatch.truss.tcause = code ∧
        t.dev.thatch.truss.tval = w ∧ t.dev.thatch.truss.pc = i.trapEntry)

/-- O55. The instructions of one profile complete, and so do the starts and the bounds of tasks and invocations: what the next
    state holds of each one's result. (04 R113, 04 R114, 04 R115, 04 R116, 04 R123, 04 R124, 05 R158, 11 R326, 11 R344, 13 R416,
    13 R417) -/
def Obligations.ProfileInstructionsComplete : Prop :=
  ∀ (s : State) (dst a b : BitVec 5) (strict : Bool) (item : BitVec 2) (imm : BitVec 14) (e : Fin 8),
    let g := s.dev.thatch.gable
    let k := s.dev.thatch.truss
    let f := s.dev.thatch.soffit
    let dst' (v : Word) : Word := if dst = 0 then 0 else v
    let ends (i : Instr) (P : Dev → Prop) : Prop := ∃ t, exec i s = .next t ∧ P t.dev
    (s.executes .gable (encR 0xC0 dst a b (if strict then 1 else 0)) 24 = true → (g.get a).toNat % 8 = 0 →
      (g.get a).toNat + 128 ≤ 0x20000 → s.dev.thatch.gableMem.ue = [] → dst ≠ 0 →
      ends (.zrow dst a b strict) fun d => ∀ i : Fin 16,
        let v := zrowValue (g.get b) (g.get (b + 1)) (g.get (b + 2))
          (readBytes s.dev.thatch.gableMem.cells (g.get a).toNat 128) i.val
        (d.thatch.gable.get dst).getLsbD i.val = (if strict then decide (0 < v) else decide (0 ≤ v))) ∧
    (s.executes .gable (encI 0xC1 dst 0 (item.setWidth 14)) 2 = true →
      ends (.encg dst item) fun d => d.thatch.gable.get dst = dst' (s.dev.encItem item)) ∧
    (s.executes .gable (encI 0xC2 0 0 imm) 1 = true →
      ends (.sig imm) fun d => d.thatch.gable.signat = g.signat.rotateLeft 3 ^^^ zx imm) ∧
    (s.executes .gable (encL 0xC3 0 0) 1 = true → g.signat = s.dev.sigExpect →
      ends .tend fun d => d.thatch.gable.mode = .stopped) ∧
    (s.executes .gable (encI 0xC4 0 a 0) 1 = true → s.dev.gbl.cfg.isSome = true → s.dev.rdg.pub = none →
      (g.get a).extractLsb' 0 16 = s.dev.rdg.tickFrame → 2 ^ 19 ≤ (g.get a).toNat →
      ends (.publ a) fun d => d.gbl.published = true ∧ ∃ p, d.rdg.pub = some p ∧ p.frame = s.dev.rdg.tickFrame ∧
        p.zoneSet = (g.get a).extractLsb' 16 3 ∧ p.time = s.dev.now ∧ p.zeros = false) ∧
    (s.executes .gable (encL 0xC5 0 0) 1 = true → s.dev.gbl.lost = 0 → s.dev.sys.mode ≠ .proof →
      ends .hbt fun d => d.gbl.hbt = true ∧ d.gbl.hbtMiss = 0) ∧
    (s.executes .gable (encI 0xC6 dst a 0) 2 = true → Config.sofxCapacity ≤ s.dev.fld.down.length →
      ends (.sofx dst a) fun d => d.thatch.gable.get dst = 0 ∧ d.fld.down = s.dev.fld.down) ∧
    (let n := (k.get a).toNat
     let old : Word := BitVec.ofNat 32 (leNat (readBytes s.dev.thatch.trussMem.cells (n - 0x40000000) 4))
     let now (d : Dev) : List Byte := readBytes d.thatch.trussMem.cells (n - 0x40000000) 4
     n % 4 = 0 → 0x40000000 ≤ n → n < 0x40020000 → s.dev.thatch.trussMem.ue = [] →
      (s.executes .truss (encR 0xE0 dst a b 0) 20 = true → ends (.amoadd dst a b) fun d =>
        d.thatch.truss.get dst = dst' old ∧ now d = leBytes (old + k.get b).toNat 4) ∧
      (s.executes .truss (encR 0xE1 dst a b 0) 20 = true → ends (.amoswp dst a b) fun d =>
        d.thatch.truss.get dst = dst' old ∧ now d = leBytes (k.get b).toNat 4)) ∧
    (s.executes .truss (encR 0xE2 0 a b 0) 4 = true →
      ends (.evpost a b) fun d => d.thatch.truss.s = k.s) ∧
    (s.executes .truss (encI 0xE3 dst a 0) 1 = true → k.get a = 0 ∨ k.tpend.setWidth 32 &&& k.get a ≠ 0 →
      ends (.wfi dst a) fun d => d.thatch.truss.get dst = dst' (k.tpend.setWidth 32 &&& k.get a) ∧
        d.thatch.truss.mode = .running) ∧
    (∀ mask, s.dev.coreUp = true → k.mode = .waiting dst mask → k.tpend.setWidth 32 &&& mask ≠ 0 → k.dbgHalt = false →
      ends .wfiWake fun d => d.thatch.truss.get dst = dst' (k.tpend.setWidth 32 &&& mask) ∧ d.thatch.truss.mode = .running) ∧
    (s.executes .soffit (encI 0xD0 dst 0 0) 1 = true →
      ends (.dird dst) fun d => d.thatch.soffit.get dst = dst' s.dev.soffit.w1) ∧
    (s.executes .soffit (encI 0xD1 0 a 0) 1 = true → (f.get a).extractLsb' 24 8 ≠ (0 : BitVec 8) →
      ends (.dqwr a) fun d => d.soffit = s.dev.soffit ∧ d.thatch.soffit.s = f.s) ∧
    (s.executes .soffit (encI 0xD2 0 a 0) 1 = true →
      ends (.tpls a) fun d => d.soffit = s.dev.soffit.requests (f.get a) ∧ d.thatch.soffit.s = f.s) ∧
    (∀ w r, s.executes .soffit (encI 0xD3 dst 0 0) 2 = true → s.dev.soffit.payload = w :: r →
      ends (.bfrx dst) fun d => d.thatch.soffit.get dst = dst' w ∧ d.soffit.payload = r) ∧
    (s.executes .soffit (encI 0xD4 0 a 0) 1 = true → s.dev.soffit.appended.length < 8 →
      ends (.bftx a) fun d => d.soffit.appended = s.dev.soffit.appended ++ [f.get a]) ∧
    (s.executes .soffit (encI 0xD5 0 0 0) 1 = true → ends .fend fun d => d.thatch.soffit.mode = .stopped) ∧
    (∀ (on : Bool) n r i t, (if on then s.dev.linkUp else s.dev.coreUp) = true →
      let c : CoreId := if on then .soffit else .gable
      (if on then s.dev.thatch.soffitWait else s.dev.thatch.gableWait) = n :: r → s.dev.imageAt c = some i →
      i.tasks[n]? = some t → (s.dev.coreAt c).mode = .stopped → (s.dev.coreAt c).dbgHalt = false →
      ends (.taskStart on) fun d => (d.coreAt c).mode = .running ∧ (d.coreAt c).pc = t.entry ∧
        (d.coreAt c).taskId = BitVec.ofNat 3 n ∧ (d.coreAt c).cycle = 0) ∧
    (∀ (on : Bool) i t,
      let c : CoreId := if on then .soffit else .gable
      s.dev.imageAt c = some i → i.tasks[(s.dev.coreAt c).taskId.toNat]? = some t → s.dev.coreRuns c = true →
      exec (.watchdog on) s = .next (s.any fun d => (d.countTo c (t.wcet.toNat + 1)).trapAt c 0x0E (s.dev.coreAt c).pc
        (BitVec.ofNat 32 (t.wcet.toNat + 1)))) ∧
    (∀ w r, (s.dev.engAt e).work = some w → s.dev.course.runOf w.frame = some r → s.dev.coreRuns (.engine e) = true →
      exec (.patchOverrun e) s = .next (s.any fun d => (d.countTo (.engine e) (r.limit.toNat + 1)).trapInv e 0x23
        (d.engAt e).core.pc (BitVec.ofNat 32 (r.limit.toNat + 1))))

/-- O56. Vector instructions complete: which lanes, predicates, matrix entries, accumulators and memory the next state has
    changed, and to what. (05 R133, 05 R135, 05 R138, 05 R142, 05 R143, 05 R148, 05 R149, 05 R150, 05 R152, 05 R153, 05 R154, 05
    R157) -/
def Obligations.VectorInstructionsComplete : Prop :=
  ∀ (s : State) (e : Fin 8) (dst a b n : BitVec 5) (lane : Fin 16) (p : Option (BitVec 3)) (q item : BitVec 3)
    (imm : BitVec 14) (big : BitVec 19),
    let c : CoreId := .engine e
    let g := s.dev.engAt e
    let mask : BitVec 16 := match p with
      | none => 0xFFFF
      | some q => g.pget q.toNat
    let x (k : Fin 16) : Word := (g.vget a)[k]
    let y (k : Fin 16) : Word := (g.vget b)[k]
    let z (k : Fin 16) : Word := (g.vget dst)[k]
    let lanes (i : Instr) (w : Word) (cycles : Nat) (m : BitVec 16) (f : Fin 16 → Word) : Prop :=
      dst.toNat < 16 → s.executes c w cycles = true → ∃ t, exec i s = .next t ∧
        (∀ k : Fin 16, ((t.dev.engAt e).vget dst)[k] = if m.getLsbD k.val then f k else z k) ∧
        ∀ r : BitVec 5, r ≠ dst → (t.dev.engAt e).vget r = g.vget r
    let two (i : Instr) (op : Byte) (f : Word → Word → Word) : Prop :=
      lanes i (encR op dst a b (predMod p)) 1 mask fun k => f (x k) (y k)
    let pred (i : Instr) (w : Word) (r : BitVec 16) : Prop :=
      s.executes c w 1 = true → dst.toNat < 8 → ∃ t, exec i s = .next t ∧ (t.dev.engAt e).pget dst.toNat = r
    let cmp (i : Instr) (op : Byte) (f : Word → Word → Bool) : Prop :=
      s.executes c (encR op dst a b 0) 1 = true → dst.toNat < 8 → ∃ t, exec i s = .next t ∧
        ∀ k : Fin 16, ((t.dev.engAt e).pget dst.toNat).getLsbD k.val = f (x k) (y k)
    let scalar (i : Instr) (w : Word) (v : Word) : Prop :=
      s.executes c w 1 = true → ∃ t, exec i s = .next t ∧ (t.dev.engAt e).core.get dst = if dst = 0 then 0 else v
    let product (v w : Word) : Word := (satSigned (fxShift (v.toInt * w.toInt) n.toNat true)).1
    two (.vadd e dst a b p) 0x80 (· + ·) ∧ two (.vsub e dst a b p) 0x81 (· - ·) ∧
    two (.vadds e dst a b p) 0x82 (fun v w => (satSigned (v.toInt + w.toInt)).1) ∧
    two (.vaddus e dst a b p) 0x83 (fun v w => (satUnsigned ((v.toNat : Int) + w.toNat)).1) ∧
    two (.vsubus e dst a b p) 0x84 (fun v w => (satUnsigned ((v.toNat : Int) - w.toNat)).1) ∧
    lanes (.vfmul e dst a b n p) (encR 0x85 dst a b (shiftMod n p)) 2 mask (fun k => product (x k) (y k)) ∧
    lanes (.vfmulu e dst a b n p) (encR 0x86 dst a b (shiftMod n p)) 2 mask (fun k =>
      (satUnsigned (fxShift ((x k).toNat * (y k).toNat : Nat) n.toNat true)).1) ∧
    lanes (.vfmac e dst a b n p) (encR 0x87 dst a b (shiftMod n p)) 2 mask (fun k =>
      (satSigned ((z k).toInt + (product (x k) (y k)).toInt)).1) ∧
    two (.vmin e dst a b p) 0x88 (fun v w => if w.toInt < v.toInt then w else v) ∧
    two (.vmax e dst a b p) 0x89 (fun v w => if v.toInt < w.toInt then w else v) ∧
    two (.vminu e dst a b p) 0x8A (fun v w => if w.toNat < v.toNat then w else v) ∧
    two (.vmaxu e dst a b p) 0x8B (fun v w => if v.toNat < w.toNat then w else v) ∧
    two (.vand e dst a b p) 0x8C (· &&& ·) ∧ two (.vor e dst a b p) 0x8D (· ||| ·) ∧ two (.vxor e dst a b p) 0x8E (· ^^^ ·) ∧
    lanes (.vclu e dst a p) (encR 0x8F dst a 0 (predMod p)) 1 mask (fun k =>
      if (x k).toInt < 0 then 0 else if 0x10000 < (x k).toInt then 0x10000 else x k) ∧
    lanes (.vshli e dst a n) (encI 0x90 dst a (n.setWidth 14)) 1 0xFFFF (fun k => x k <<< n.toNat) ∧
    lanes (.vshri e dst a n) (encI 0x91 dst a (n.setWidth 14)) 1 0xFFFF (fun k => x k >>> n.toNat) ∧
    lanes (.vsari e dst a n) (encI 0x92 dst a (n.setWidth 14)) 1 0xFFFF (fun k => (x k).sshiftRight n.toNat) ∧
    lanes (.vli e dst big) (encL 0x93 dst big) 1 0xFFFF (fun _ => sx big) ∧
    lanes (.vsplat e dst a p) (encR 0x94 dst a 0 (predMod p)) 1 mask (fun _ => g.core.get a) ∧
    scalar (.vget e dst a lane) (encR 0x95 dst a 0 (BitVec.ofNat 9 lane.val)) (g.vget a)[lane] ∧
    lanes (.vset e dst a lane) (encR 0x96 dst a 0 (BitVec.ofNat 9 lane.val)) 1 ((1 : BitVec 16) <<< lane.val)
      (fun _ => g.core.get a) ∧
    lanes (.vsel e dst a b q) (encR 0x97 dst a b (q.setWidth 9)) 1 0xFFFF (fun k =>
      if (g.pget q.toNat).getLsbD k.val then x k else y k) ∧
    cmp (.vcmpeq e dst a b) 0x98 (fun v w => v == w) ∧ cmp (.vcmplt e dst a b) 0x99 (fun v w => decide (v.toInt < w.toInt)) ∧
    cmp (.vcmpltu e dst a b) 0x9A (fun v w => decide (v.toNat < w.toNat)) ∧
    cmp (.vcmple e dst a b) 0x9B (fun v w => decide (v.toInt ≤ w.toInt)) ∧
    pred (.pand e dst a b) (encR 0x9C dst a b 0) (g.pget a.toNat &&& g.pget b.toNat) ∧
    pred (.por e dst a b) (encR 0x9D dst a b 0) (g.pget a.toNat ||| g.pget b.toNat) ∧
    pred (.pxor e dst a b) (encR 0x9E dst a b 0) (g.pget a.toNat ^^^ g.pget b.toNat) ∧
    pred (.pnot e dst a) (encR 0x9F dst a 0 0) (~~~ g.pget a.toNat) ∧
    pred (.pmov e dst a) (encR 0xA0 dst a 0 0) ((g.core.get a).setWidth 16) ∧
    scalar (.pget e dst a) (encR 0xA1 dst a 0 0) ((g.pget a.toNat).setWidth 32) ∧
    lanes (.vpos e dst item) (encI 0xA2 dst 0 (item.setWidth 14)) 1 0xFFFF (fun k =>
      let l := s.dev.lanePlace e k.val
      BitVec.ofNat 32 (s.dev.scan.attribute l.1 l.2 item.toNat)) ∧
    lanes (.vaccr e dst) (encL 0xAA dst 0) 1 0xFFFF (fun k => g.accAt k.val) ∧
    (s.executes c (encL 0xAB 0 0) 1 = true → ∃ t, exec (.vstep e) s = .next t ∧ (t.dev.engAt e).vidx = g.vidx + 1) ∧
    (s.executes c (encI 0xAC 0 a 0) 1 = true → ∃ t, exec (.vsetidx e a) s = .next t ∧
      (t.dev.engAt e).vidx = (g.core.get a).setWidth 8) ∧
    (∀ i, s.dev.invAt e = some i → i.ls = true →
      let u := (g.core.get a + sx imm).toNat
      let slot (d : Dev) : List Byte := readBytes (d.engAt i.home).slotMem[i.slot.val] u 64
      u + 64 ≤ 0x1000 → u % 64 = 0 → s.dev.memWf = true →
      lanes (.vld e dst a imm) (encI 0xA3 dst a imm) 2 0xFFFF (fun k =>
        BitVec.ofNat 32 (leNat (((slot s.dev).drop (4 * k.val)).take 4))) ∧
      (s.executes c (encI 0xA4 dst a imm) 2 = true → ∃ t, exec (.vst e dst a imm) s = .next t ∧
        slot t.dev = vecBytes (g.vget dst))) ∧
    (∀ i, s.dev.invAt e = some i →
      let u := (g.core.get a + sx imm).toNat
      0x2000 ≤ u → u + 32 ≤ 0x2100 → u % 8 = 0 → s.executes c (encI 0xA7 0 a imm) 8 = true →
      ∃ t, exec (.vmld e a imm) s = .next t ∧ ∀ k : Fin 16, (t.dev.engAt e).m[k] =
        byteAt i.params (u - 0x2000 + 2 * k.val + 1) ++ byteAt i.params (u - 0x2000 + 2 * k.val)) ∧
    (let clean : Prop := s.dev.loft.ce = [] ∧ s.dev.loft.ue = []
     let base := (g.core.get b).toNat
     (clean → (∀ k : Fin 16, s.dev.inRegion [1, 3, 4] (base + 4 * (x k).toNat, 4) = true) →
      lanes (.vgath e dst a b) (encR 0xA6 dst a b 0) 16 0xFFFF (fun k => read32 s.dev.loft.cells (base + 4 * (x k).toNat))) ∧
     (∀ binding bilinear clamp src, clean → s.dev.boundSource e binding.toNat = some src → dst.toNat < 13 →
      s.executes c (encR 0xA5 dst a b (sampleMod binding bilinear clamp)) (if bilinear then 32 else 16) = true →
      ∃ t, exec (.vlds e dst a b binding bilinear clamp) s = .next t ∧ ∀ (ch : Fin 4) (k : Fin 16),
        ((t.dev.engAt e).vget (dst + BitVec.ofNat 5 ch.val))[k] =
          s.dev.sample src (sampleMod binding bilinear clamp) (x k) (y k) ch.val) ∧
     (clean → base % 4 = 0 → s.dev.inRegion [4] (base, 4100) = true →
      lanes (.vlut e dst a b) (encR 0xAE dst a b 0) 16 0xFFFF (fun k =>
        let v := (unit16 (x k)).1.toNat
        let t (j : Nat) : Int := (read32 s.dev.loft.cells (base + 4 * j)).toInt
        if 1024 ≤ v / 64 then wordOf (t 1024)
        else wordOf (t (v / 64) + Int.fdiv ((t (v / 64 + 1) - t (v / 64)) * (v % 64) + 32) 64))) ∧
     (clean → s.dev.inFinish e = true → s.dev.inRegion [3] (base, s.dev.scan.emitters) = true →
      lanes (.vuni e dst a b) (encR 0xAD dst a b 0) 4 0xFFFF (fun k => match s.dev.laneWord e k.val with
        | none => 0
        | some j => (satUnsigned ((((x k).toNat * (cellGet s.dev.loft.cells (base + j)).toNat + 64) / 128 : Nat) : Int)).1))) ∧
    lanes (.vcmx e dst a p) (encR 0xA8 dst a 0 (predMod p)) 4 mask (fun k =>
      let term (j : Nat) : Int :=
        (getN g.m (4 * s.dev.laneE e k.val + j) 0).toInt * ((g.vget (a + BitVec.ofNat 5 j))[k] : Word).toInt
      (satSigned (Int.fdiv (term 0 + term 1 + term 2 + term 3 + 2048) 4096)).1) ∧
    (∀ w, s.dev.inFinish e = false → g.work = some w → cellWf w.acc = true →
      s.executes c (encR 0xA9 0 a b (shiftMod (q.setWidth 5) p)) 2 = true →
      ∃ t, exec (.vblend e a b q p) s = .next t ∧ ∀ k : Fin 16, (t.dev.engAt e).accAt k.val =
        if mask.getLsbD k.val && (s.dev.laneWord e k.val).isSome then (blend q.toNat (g.accAt k.val) (x k) (y k)).1
        else g.accAt k.val) ∧
    (s.dev.inFinish e = true →
      let top : Nat := 2 ^ s.dev.depthOf e - 1
      lanes (.vqnt e dst a) (encR 0xAF dst a 0 0) 1 0xFFFF (fun k =>
        BitVec.ofNat 32 (((unit16 (x k)).1.toNat * top + 32768) / 65536)) ∧
      (g.work.isSome = true → s.executes c (encR 0xB0 0 a 0 0) 1 = true → ∃ t, exec (.vout e a) s = .next t ∧
        ∀ k : Fin 16, (s.dev.laneWord e k.val).isSome = true → ∃ w, (t.dev.engAt e).work = some w ∧
          wordOut w.words (16 * g.vidx.toNat + k.val) = BitVec.ofInt 16 (max 0 (min (top : Int) (x k).toInt)))) ∧
    (s.executes c (encL 0xB1 0 0) 1 12 = true → exec (.pend e) s =
      .next ((s.fetched c).any fun d => ((d.count c (d.cyclesOf c 1)).endInv e).endStep c))

/-- O57. Commands fetched, patches, runs, LATs, transfers, inputs and the scrubber: where the conditions of each hold, it
    completes with its own effect. (02 R60, 03 R79, 06 R172, 06 R173, 06 R183, 06 R185, 06 R188, 07 R199, 07 R200, 07 R212, 08
    R233, 08 R241) -/
def Obligations.PictureCommandsComplete : Prop :=
  ∀ (s : State) (e : Fin 8) (c : Fin 64) (sig v : Word) (vc : BitVec 2) (corrected ok : Bool) (bytes : List Byte)
    (ends : BurstEnd) (n : Fin 4) (t : Fin 128), s.dev.coreUp = true →
    let d := s.dev
    let g := d.engAt e
    let cs := d.course
    let goes (i : Instr) (f : Dev → Dev) : Prop := exec i s = .next (s.any f)
    let holds (i : Instr) (P : Dev → Prop) : Prop := ∃ u, exec i s = .next u ∧ P u.dev
    (∀ n : Fin 24, d.trussServes = true → d.relayRing n = false → d.noteStalls.nextRing none = some n →
      d.loft.ce = [] → d.loft.ue = [] → d.sys.mode.served = true →
      let r := d.noteStalls.rings[n]
      let entry := d.noteStalls.loftBytes (r.base.toNat + 32 * (r.cons.toNat % r.entries)) 32
      entryField entry 0 1 = 0x00 →
      let h : CmdHdr := { ring := n, index := r.cons, tag := BitVec.ofNat 16 (entryField entry 2 2),
                          irq := (entryField entry 1 1) % 2 == 1 }
      goes .commandFetch fun d =>
        ((d.noteStalls.ring n.val fun r => { r with cons := r.cons + 1 }).noteServed n).complete h 0x00 .ok 0x1A160001 0) ∧
    (∀ frame p r, d.canTake e = true → d.nextPatch e = some (frame, p) → cs.runOf frame = some r →
      goes (.engineTakePatch e) fun d =>
        let w : Work := { patch := p, frame := frame, acc := [], words := [],
                          rest := r.contexts.filter fun x => x.mask.getLsbD p.val && !r.excluded.contains x.id,
                          finishDue := decide (r.finish.handle ≠ 0), epochs := [], inv := none }
        ((d.onRun frame fun r => r.dequeue p).onEng e fun g => { g with work := some w }).advance e) ∧
    (∀ x k, g.drain = some x → g.svc ≠ 2 → d.staleEpoch x = some k →
      goes (.patchDrainDone e) fun d =>
        let y : Dev := { d with course := { d.course with discard := satInc d.course.discard } }
        (((y.event 0x0306 (payN 0 k.val ||| payN 8 e.val ||| payN 16 x.patch.val ||| pay 24 x.frame)).onEng e fun g =>
          { g with drain := none }).advance e).purgeRuns) ∧
    (cs.active = true → cs.complete = true → cs.autoForce = false → goes .runComplete fun d =>
      let y : Dev := { d with course := { d.course with active := false, late := false } }
      (y.settleAll.closeCounts d.course.run).releaseHeld.trussPend 2) ∧
    (g.bistBusy = true → holds (.engineBistDone e sig true) fun d =>
      (d.engAt e).bistBusy = false ∧ (d.engAt e).bistSig = sig ∧ (d.engAt e).bistFail = false ∧
        (d.engAt e).bistFrame = cs.run.frame) ∧
    (∀ w, g.work = some w → g.svc = 0 → w.frame = cs.run.frame → goes (.engineStall e) fun d =>
      let y := (d.onEng e fun g => { g with work := none, core := { g.core with mode := .stopped } }).retireEngine e 2 2
        d.course.run.frame
      (y.onRun w.frame fun r => y.enqueue r w.patch).advanceAll.purgeRuns) ∧
    (∀ (old k : Fin 8), (d.ctxAt c).copy = some (.slot old k) → d.oldPending c = false →
      let x := d.ctxAt c
      goes (.contextCopyDone c) fun d =>
        let y := (d.freeSlot old k).onEng x.engine fun h =>
          { h with slotMem := upd h.slotMem x.slot fun _ => (s.dev.engAt old).slotMem[k] }
        (y.onCtx c fun z => { z with copy := none, moving := false, state :=
          if y.course.active && y.invPending c y.course.run then .running else .ready }).advanceAll) ∧
    (∀ l slot shadow, d.latDue = true → d.latPlan = some (l, slot, shadow, false) →
      goes .lat fun d => d.latFire l slot shadow) ∧
    (let x := d.cancelCommit.sampleCommit.mapAtWindow
     d.windowDue = true → x.scan.lats = true → x.gbl.cfg = none →
      holds .transferWindowStart fun d => d.scan.window = true) ∧
    (∀ x rx, d.scan.window = true → d.sendRest.1.scan.xfer = some x → d.sendRest.1.scan.window = true →
      d.sendRest.1.scan.step = .done → d.sendRest.1.readsCaptures = false → x.underA + x.underB = 0 →
      d.sendRest.1.rdg.blockA = 0 → d.sendRest.1.rdg.blockB = 0 → d.sys.mode ≠ .proof →
      holds (.transferWindowClose rx true) fun d => d.scan.window = false) ∧
    (d.vinRuns = true → (d.vin.burst && d.vin.discard) = false →
      let begun (f : Vin → Vin) (d : Dev) : Dev := { d with vin := (f { d.vin.inBurst with
        eccCe := if corrected then satInc d.vin.eccCe else d.vin.eccCe }).after ends }
      goes (.dsiShortPacket corrected ends) (begun id) ∧ goes (.dsiNullBlanking corrected ends) (begun id) ∧
      (∀ k x, (d.vin.streams[k]).desc = some x → x.vc = vc →
        (∀ j : Fin 4, j < k → ∀ y, (d.vin.streams[j]).desc = some y → y.vc ≠ vc) → d.effects = [] →
        goes (.dsiLongPacket vc corrected ok bytes ends) (fun d =>
          let y := Dev.appendPayload { d with vin := { d.vin.inBurst with
            eccCe := if corrected then satInc d.vin.eccCe else d.vin.eccCe } } k x bytes ok
          { y with vin := y.vin.after ends }) ∧
        goes (.dsiVerticalSyncStart vc corrected ends) (fun d =>
          let y : Dev := { d with vin := { d.vin.inBurst with
            eccCe := if corrected then satInc d.vin.eccCe else d.vin.eccCe } }
          let z := (y.endShort k).frameStart k x
          { z with vin := z.vin.after ends })) ∧
      holds (.dsiSotError ends) (fun d => d.vin.sot = satInc s.dev.vin.sot) ∧
      holds (.dsiHeaderEccError ends) (fun d => d.vin.eccUe = satInc s.dev.vin.eccUe) ∧
      goes (.dsiUlps ok) fun d => { d with vin := { d.vin with ulps := ok, hs := false, burst := false, discard := false } }) ∧
    exec .dsiTurnaroundRequest s = .next s ∧
    (s.takesWrite 0x20030000 v = true → d.vin.en = false → holds (.vinPhyCfgWrite v) fun d =>
      d.vin.en = v.getLsbD 2 ∧ d.vin.lanes = v.extractLsb' 0 2 ∧ d.vin.dpol = v.extractLsb' 8 4 ∧ d.vin.cpol = v.getLsbD 12) ∧
    (∀ x, (d.vin.streams[n]).desc = some x → d.vinRuns = true → x.lossMs ≠ 0 → (d.vin.streams[n]).lost = false →
      (d.vin.streams[n]).since + 1000 * x.lossMs.toNat ≤ d.now →
      holds (.vinLoss n) fun d => (d.vin.streams[n]).lost = true) ∧
    (d.pclkRuns = true → d.loft.ce = [] → d.loft.ue = [] → d.loft.scrubPos < 49151 → holds (.scrubRead []) fun d =>
      d.loft.scrubPos = s.dev.loft.scrubPos + 1 ∧ d.loft.cells = s.dev.loft.cells) ∧
    (s.takesWrite (0x20041000 + 16 * t.val) v = true → d.sys.mode = .load → holds (.batTileOrgWrite t v) fun d =>
      (d.scan.tile t.val).x = v.extractLsb' 0 16 ∧ (d.scan.tile t.val).y = v.extractLsb' 16 16)

/-- O58. Strings, temperatures and calibration: where the conditions of each command hold, it completes, and the next state
    holds its own result. (09 R281, 10 R291, 10 R292, 10 R293, 10 R296, 10 R300, 10 R301, 10 R304, 10 R310, 14 R425, 14 R426, 14
    R432) -/
def Obligations.StringAndTrimCommandsComplete : Prop :=
  ∀ (s : State) (ch : Fin 8) (shunt vsn : List (BitVec 11)) (v : BitVec 11) (n : Fin 6) (volts : Vector (Nat × Nat) 8)
    (t : Fin 128) (sensors : Vector (BitVec 16) 4) (w : Word) (k : Fin 48) (code : BitVec 10) (sense : Nat),
    s.dev.coreUp = true →
    let d := s.dev
    let c := d.str[ch]
    let tr := d.trim
    let goes (i : Instr) (f : Dev → Dev) : Prop := exec i s = .next (s.any f)
    let holds (i : Instr) (P : Dev → Prop) : Prop := ∃ u, exec i s = .next u ∧ P u.dev
    (d.mayRun ch = true → c.state ≠ 0 → c.mode = 1 → d.calHolds ch.val = false → c.fswN ≠ 0 → c.ovSpans = [] → c.uv = 0 →
      c.ovHold = false → (∀ x ∈ shunt, x.toNat < 1500) → v.toNat ≤ c.ov.toNat →
      holds (.switchingCycle ch shunt v) fun d =>
        (d.str[ch]).gate = true ∧ (d.str[ch]).irefNow = c.iref ∧ (d.str[ch]).vsn = v ∧ (d.str[ch]).state = c.state) ∧
    (d.mayRun ch = true → c.mode = 1 → c.state = 1 → c.rampFrom + 1000 ≤ d.now →
      holds (.supplyRampDone ch) fun d => (d.str[ch]).state = 2) ∧
    (d.mayRun ch = true → c.mode = 2 → d.otKilled ch.val = false → c.pwmsync = false →
      holds (.pwmPeriodStart ch) fun d => (d.str[ch]).periodStart = s.dev.now ∧ (d.str[ch]).state = 2 ∧
        (d.str[ch]).dutyNow = BitVec.ofNat 16 (c.duty.toNat % 2 ^ c.depth.toNat) ∧ (d.str[ch]).gap = false) ∧
    (d.mayRun ch = true → c.mode = 2 → c.state = 2 → d.shortTest ch.val = false → d.pwmTests ch.val = (false, false) →
      holds (.pwmPeriodEnd ch shunt vsn) fun d =>
        (d.prv.strings[ch]).onTested = false ∧ (d.prv.strings[ch]).offTested = false) ∧
    (∀ f, d.strQualifies ch f = true → c.state ≠ 3 → c.autoretry = false → c.lastRetry = none →
      holds (.stringProtectTimeout ch f) fun d => (d.str[ch]).state = 3 ∧ (d.str[ch]).gate = false ∧
        (d.str[ch]).latched = true ∧ (d.str[ch]).retryDue = none) ∧
    (∀ f, c.retryDue = some f → c.state = 3 → c.faultAt + 100000 ≤ d.now → d.inhibited ch.val = false →
      goes (.stringRetry ch) fun d => ((d.onStr ch fun c =>
        { c with state := 0, retries := if c.retries = 3 then 3 else c.retries + 1, lastRetry := some (d.now, f),
                 retryDue := none }).refreshChannel ch).event 0x0702 (payN 0 ch.val ||| payN 4 1)) ∧
    (s.takesWrite (0x2006002C + 64 * ch.val) 1 = true → d.owned ch.val = false → c.latched = true →
      exec (.strRestart ch false) s = .next (s.hosted fun d =>
        ((d.onStr ch fun c => { c with state := 0, latched := false, retries := 0, failed := 0, oc := false,
                                       short := false, ovFault := false, openFault := false, lastRetry := none,
                                       retryDue := none }).refreshChannel ch).event 0x0702 (payN 0 ch.val ||| payN 4 2))) ∧
    (goes (.stringInhibit ch) fun d => ((d.refreshChannel ch).strRetry ch).noteLive) ∧
    (let x := d.thm.ntc[n]
     let lut := d.thm.lut[(if x.table then 1 else 0 : Fin 2)]
     x.en = true → tr.active.getLsbD 24 = false → x.isOpen = false → x.isShort = false → 32 ≤ (ntcMean volts).toNat →
      (ntcMean volts).toNat ≤ 4063 → overTempNow x.overTemp (ntcTemp lut (ntcMean volts)) x.ot = x.overTemp →
      holds (.ntcPublish n volts) fun d => (d.thm.ntc[n]).code = ntcMean volts ∧
        (d.thm.ntc[n]).temp = ntcTemp lut (ntcMean volts) ∧ (d.thm.ntc[n]).valid = true) ∧
    (d.thm.drtEn = false → holds .derateUpdate fun d => ∀ j : Fin 8, (d.str[j]).derate = 0x10000) ∧
    (let a := (w.toNat % 2 ^ 25) / 4 * 4
     s.takesWrite 0x20061088 w = true → d.inRegion [4] (a, 512) = true →
      holds (.thmDrtAddrWrite w) fun d => d.thm.drtAddr = BitVec.ofNat 25 a) ∧
    (∀ age, (d.scan.tile t.val).tempAge = some age → 64 < age → d.thm.tileStale.getLsbD t.val = false →
      holds (.tileTempStale t) fun d => d.thm.tileStale.getLsbD t.val = true) ∧
    (let temp := sensors.toList.foldl (fun m y => if m.toInt < y.toInt then y else m) sensors[0]
     d.thm.warned = false → temp.toInt < d.thm.dieWarn.toInt → goes (.dieTempUpdate sensors) fun d =>
      Dev.calTemp { d with thm := { d.thm with
        dieTemp := temp, dieMax := if d.thm.dieMax.toInt < temp.toInt then temp else d.thm.dieMax, warned := false } }) ∧
    (d.sys.mode ≠ .off → d.sys.mode ≠ .standby → holds .thermalShutdown fun d =>
      d.coreUp = false ∧ d.sys.hold.thermal = true) ∧
    (holds .thermalShutdownEnd fun d => d.sys.hold.thermal = false) ∧
    (∀ a r, tr.queued = a :: r → d.sys.mode.calibrates = true → d.sys.mode.calRuns = true → tr.running = false →
      holds .calRunStart fun d => d.trim.running = true ∧ d.trim.queued = [] ∧
        d.trim.pend = (a :: r).foldl (fun m x => m ||| x.steps) 0 ∧ d.trim.shadow = tr.applied) ∧
    (tr.running = true → tr.pend.getLsbD k.val = true → tr.active.getLsbD k.val = false → tr.blocked k.val = false →
      d.calExpired = false → 24 ≤ k.val → d.stepReason k.val sense true = 0 →
      holds (.calStep k sense) fun d => d.trim.active = setBit tr.active k.val true ∧ d.trim.began[k] = s.dev.now) ∧
    (tr.running = true → tr.active.getLsbD k.val = true → d.stepOver k = true → d.stepReason k.val sense false = 0 →
      ((code.toNat : Int) - ((Config.factoryTrim k).toNat : Int)).natAbs ≤ 128 → setBit tr.pend k.val false ≠ 0 →
      tr.timeout = 0 → holds (.calStepDone k true code sense) fun d => d.trim.shadow[k] = code ∧
        d.trim.pend = setBit tr.pend k.val false ∧ d.trim.active = setBit tr.active k.val false) ∧
    (tr.running = true → tr.active = 0 → d.calExpired = true → goes .calTimeout fun d => d.calEnd) ∧
    (s.takesWrite (0x20070000 + 4 * k.val) (code.setWidth 32) = true → d.trimWritable = true →
      holds (.trmDacWrite k code) fun d => d.trim.shadow[k] = code) ∧
    (s.takesWrite 0x20070100 1 = true → d.trimWritable = true →
      holds .trimApply fun d => d.trim.applied = tr.shadow ∧ d.trim.gen = tr.gen + 1) ∧
    (s.takesWrite 0x20070100 2 = true → tr.running = true →
      exec .trimAbort s = .next (s.hosted fun d => d.abortTrim 3 5 0))

/-- O59. Safety, the Soffit's field side, Flashing, power and resets: where the conditions of each command hold, it
    completes, and the next state holds its own result. (11 R316, 11 R321, 11 R346, 11 R349, 12 R377, 12 R380, 13 R396, 13 R404,
    13 R410, 13 R414, 15 R457, 15 R459) -/
def Obligations.SafetyAndPowerCommandsComplete : Prop :=
  ∀ (s : State) (i : Fin 4) (k : Fin 8) (p : Fin 4) (code : Word) (ridge phase g h off ok lock : Bool) (ma mv ua lp : Nat)
    (volts amps : Vector Nat 8) (noise : List (BitVec 10)) (role : BitVec 2) (seen : ClockSeen),
    let d := s.dev
    let f := d.soffit
    let y := d.sys
    let goes (i : Instr) (f : Dev → Dev) : Prop := exec i s = .next (s.any f)
    let holds (i : Instr) (P : Dev → Prop) : Prop := ∃ u, exec i s = .next u ∧ P u.dev
    (d.coreUp = true →
      (∀ c, d.gbl.cfg = some c → c.axes = true → y.role ≠ 2 → c.fcOf (if i.val < 2 then 3 else 4) = none →
        (d.rdg.enc[i]).last = none → 2 ≤ i.val → holds (.encoderSample i true true code) fun d =>
          (d.rdg.enc[i]).fault = false ∧ (d.rdg.enc[i]).bad = 0 ∧ ∃ v, (d.rdg.enc[i]).last = some (v, s.dev.now)) ∧
      (∀ c l, d.gbl.cfg = some c → (d.rdg.enc[i]).last = some l → (d.rdg.enc[i]).fault = false →
        l.2 + 4 * c.encPeriod i.val ≤ d.now → c.axes = true →
        goes (.encoderSampleTimeout i) fun d => d.encFault i) ∧
      (d.gbl.lost = 1 → d.gbl.held = false → d.gbl.lostAt + 1000 ≤ d.now → d.gbl.restarted = false →
        holds .gableReset fun d => d.gbl.held = true ∧ d.gbl.restarted = true ∧ d.thatch.gable = Core.reset) ∧
      (d.gbl.held = true → d.gbl.cfg = none → goes .gableRestart fun d => d.gableStart) ∧
      (∀ c, d.gbl.cfg = some c → d.rdg.parityErr ≠ [] → goes .ridgeCrcCheck fun d => d.ridgeLost 3) ∧
      (d.acc.jtag.drives = false → d.gbl.live = none → holds (.liveReadback false phase g h) fun d =>
        d.gbl.live = some { run := (s.dev.liveG, s.dev.liveH), level := (g, h), wrong := (g != phase, h != !phase) }) ∧
      (∀ t, d.gbl.tdegEnd = some t → y.mode = .degraded → t ≤ d.now → goes .tdegExpire fun d => d.safeHold 5) ∧
      (∀ t, y.mode = .safeHold → d.gbl.resetWindow = some t → d.gbl.sf2Latch = false → d.gbl.demand = 0 →
        d.rdg.demand = 0 → (∀ c, d.gbl.cfg = some c → d.ridgeMemoryOk c = true) →
        (d.now ≤ t → goes (.resetInputEdge true false false) fun d =>
          let x : Dev := { d with
            gbl := { d.gbl with resetWindow := none, liveFault := false, holdCause := 0, degCause := 0, sf2Latch := false },
            rdg := { d.rdg with fault := 0 } }
          (x.toMode .proof 2 0).event 0x080D 1) ∧
        (t ≤ d.now → goes .safeHoldResetWindow fun d =>
          Dev.event { d with gbl := { d.gbl with resetWindow := none } } 0x080D 2)) ∧
      (d.gbl.sf3 = true → d.gbl.sf3Since + 1000000 ≤ d.now → d.gbl.sf3Reported = [] →
        goes .sf3FallbackTimer fun d =>
          Dev.sf3Drive { d with gbl := { d.gbl with sf3 := false, sf3Reported := [] } } false) ∧
      (∀ c, d.gbl.cfg = some c → d.gableChecks = true →
        let x := d.flash.conns[k]
        (x.state = .established → x.since + 1000 * c.fcTexp k.val < d.now → goes (.flashingTimeout k) fun d =>
          ((((d.onFlash k fun x =>
            { x.enterReset (c.fcKind k.val) .timeout with timeouts := satInc x.timeouts }).noteLive).event 0x0901
            (payN 0 k.val ||| payN 3 (if c.fcFlag k.val 2 then 1 else 0) ||| pay 16 x.seq)).flashMiss
              (c.fcKind k.val)).refreshFlash) ∧
        (c.fcKind k.val = 1 → x.state = .established → x.echoDue (c.fcTexp k.val) d.now = true →
          goes (.flashingEchoSend k) fun d =>
            (d.onFlash k fun x => { x with echoOwed := false, sentAt := some s.dev.now }).flashOut c k 5
              (beBytes x.seq.toNat 2 ++ beBytes x.ts.toNat 4 ++ [0, 0])) ∧
        (c.fcKind k.val = 2 → x.dueAfter d.now (max 1 (c.fcTexp k.val / 4)) = true →
          let m := d.flashStatus s.otp.counter
          goes (.flashingStatusSend k) fun d =>
            (d.onFlash k fun x => { x with sentAt := some s.dev.now, statusSent := m }).flashOut c k 4 m)) ∧
      (let r := d.ringAt 28
       let a := r.base.toNat + 64 * (r.cons.toNat % r.entries)
       r.enabled = true → r.stopping = false → 0 < r.held → d.clean a 64 = true → d.gbl.cfg = none →
        goes .flashingFrameRx fun d =>
          ((d.ring 28 fun r => { r with cons := r.cons + 1 }).triggerG 6).flashReceive [1, 2] (s.dev.loftBytes a 64)) ∧
      (d.fld.rxAt + 2000 ≤ d.now → d.fld.rxOk = true → goes .soffitSilent fun d =>
        ((Dev.event { d with fld := { d.fld with rxOk := false } } 0x0A07 1).refreshField).calCheck) ∧
      (∀ gs r x, d.fld.up = gs :: r → (barrierWords (withNoise gs noise)).bind inputOfWords = some x →
        d.fld.rxAny = true ∨ (x.w[0]).extractLsb' 0 4 = d.fld.rxCnt + 1 →
        goes (.soffitInputFrame noise) fun d => Dev.acceptInput { d with fld := { d.fld with up := r } } x) ∧
      (∀ c, d.gbl.cfg = some c → y.mode = .proof → y.proofBusy = true → y.proofStep = 6 → d.fld.douserStep ≠ 0 →
        d.fld.douserAt + 1000 * fDouserMs c.field < d.now → goes .douserTestTimeout fun d =>
          let x := d.douserClose.event 0x0A0B (pay 1 d.fld.douserStep)
          Dev.proofFails { x with fld := { x.fld with douserStep := 0 } } 6) ∧
      (s.takesWrite (0x20080040 + 4 * k.val) ((if off then 1 else 0) ||| (if ok then 2 else 0)) = true →
        holds (.fldDqCmdWrite k off ok) fun d => d.fld.dqOn = setBit s.dev.fld.dqOn k.val off ∧
          d.fld.dqClear = if ok then setBit s.dev.fld.dqClear k.val true else s.dev.fld.dqClear) ∧
      (d.thatch.truss.mode = .halted → d.acc.attached = false → y.haltAt + 2000 ≤ d.alwaysOn →
        holds .trussHaltReset fun d => d.coreUp = false ∧ d.sys.hold.truss = true) ∧
      (y.mode = .boot → y.attemptOpen = true → y.bootsel = false → y.attemptAt + 1000 * y.attemptMs ≤ d.now →
        holds .bootWindowExpire fun d => d.sys.attempts = satInc y.attempts ∧ d.sys.bootLast = 1 ∧
          d.sys.attemptAt = s.dev.now) ∧
      (seen.isFault = true → goes (.clockFault seen) fun d => d.ridgeLost 2) ∧
      (y.mode = .proof → y.proofBusy = true → y.proofStart + 10000000 ≤ d.now → goes .proofTimeout fun d =>
        Dev.proofEvent { d with sys := { d.sys with proofBusy := false, proofFail := true, proofStep := 8 } } false) ∧
      (y.proofAge ≠ 0xFFFF → holds .proofAgeTick fun d => d.sys.proofAge = y.proofAge + 1) ∧
      (y.mode = .proof → y.proofBusy = true → y.proofStep = 5 → 1000 ≤ y.proofLive →
        goes .proofReadbackPass fun d => (d.proofStepTo 6).proofAdvance)) ∧
    (f.powered = false → holds .soffitPowerUp fun d => d.soffit = { Soffit.reset with powered := true }) ∧
    (∀ gs r x, d.fld.down = gs :: r → (barrierWords (withNoise gs noise)).bind cmdOfWords = some x → f.accepts x = true →
      let taken (d : Dev) : Dev := { d with fld := { d.fld with down := r } }
      let z := d.soffit.receive x (d.thatch.soffit.mode == .halted || d.thatch.soffit.dbgHalt)
      (sentConfig gs = true → x.config = true →
        goes (.soffitConfigFrame noise) fun d => (taken d).onSoffit (z.1.configure x) z.2) ∧
      (sentConfig gs = false → x.config = false → goes (.soffitDataFrame noise) fun d =>
        ((taken d).onSoffit { z.1 with payload := x.words } z.2).triggerF 1)) ∧
    (f.powered = true →
      (holds .soffitInputFrameSend fun d => d.fld.up = s.dev.fld.up ++
        [barrierFrame f.upRd ([f.w0 s.dev.progRuns, f.w1, f.w2, f.w3, f.w4, f.w5] ++ f.appended)]) ∧
      ((f.inputs[k]).due ≤ f.us → d.thresholdStep k = false → holds (.inputSample k ua) fun d =>
        (d.soffit.inputs[k]).raw = (rawClass (f.inputs[k]).raw (fInMode f.field k.val 1) ua).1) ∧
      (f.test = none → f.lplus = 0 → f.mayTest k.val off = true → f.testDue k off = true → d.readbackStep = false →
        holds (.testPulseStart k off) fun d => ∃ x, d.soffit.test = some x ∧ x.out = k ∧ x.off = off ∧ x.start = f.us) ∧
      ((f.outputs[k]).on = false → holds (.outputShortTimer k ma mv) fun d =>
        (d.soffit.outputs[k]).limitSince = none ∧ d.soffit.safeState = f.safeState) ∧
      (f.lplus = 0 → goes (.outputThermal k true) fun d => { d with soffit := d.soffit.fault k.val .thermal 0 }) ∧
      (f.lplus = 0 → 19200 ≤ lp → holds (.lplusChange lp lp) fun d =>
        d.soffit.lplus = 0 ∧ d.soffit.lowTimer = none ∧ d.soffit.missTimer = none) ∧
      (f.rxAt + 1000 * fTsil f.field < f.us → goes .logicSilence fun d =>
        { d with soffit := Soffit.settle { d.soffit with safeState := true, silenced := true, rxAny := true } })) ∧
    (∀ t, (f.pairs[p]).since = some t → (f.pairs[p]).disc = false → t + 1000 * fPairDisc f.field p.val < f.us →
      holds (.pairDiscTimeout p) fun d => (d.soffit.pairs[p]).disc = true ∧ d.soffit.faultKind = 7) ∧
    (∀ t, f.test = some t → t.start + t.width ≤ f.us → t.off = false → f.lplus ≠ 0 →
      holds (.testPulseEnd volts amps) fun d => d.soffit.test = none) ∧
    (y.hold.brown = true → f.powered = true → holds (.powerOn lock) fun d =>
      d.sys.hold.brown = false ∧ d.sys.rails = true ∧ d.sys.vstby = true ∧ d.sys.lock = lock) ∧
    (∀ t, y.lockDue = some t → y.hold.brown = false → t ≤ d.alwaysOn → holds (.pllLockRetry lock) fun d =>
      d.sys.lock = lock ∧ d.sys.lockTries = satInc y.lockTries) ∧
    (holds (.brownOut lock) fun d => d.coreUp = false ∧ d.sys.hold.brown = true ∧ d.sys.rails = false) ∧
    (holds .vstbyLoss fun d => d.sys.mode = .off ∧ d.coreUp = false) ∧
    (y.stbyOut = false → holds .rstNAssert fun d => d.coreUp = false ∧ d.sys.hold.rstN = true) ∧
    (y.hold.rstN = true → holds .rstNRelease fun d => d.sys.hold.rstN = false) ∧
    (d.mayEnd = true → holds (.resetEnd role off) fun d => d.sys.mode = .boot ∧ d.sys.role = role) ∧
    (y.mode = .retention → y.hold.clear = true → d.acc.lapse = none → holds .retentionWake fun d =>
      d.sys.mode = (if y.retFromArmed then .proof else .load) ∧ d.sys.lock = true) ∧
    (y.mode = .standby → y.stbyOut = true → y.stbyAt + 10000 ≤ d.alwaysOn → holds .standbyWake fun d =>
      d.sys.mode = .off ∧ d.sys.stbyOut = false ∧ d.sys.resetCause = some 5)

/-- O60. Purlin, the twin, access, OTP, the TAP, the debugger and injections: where the conditions of each command hold, it
    completes, and the next state holds its own result. (16 R472, 16 R475, 16 R477, 16 R482, 16 R485, 16 R487, 17 R499, 17 R500,
    17 R503, 17 R506, 17 R509, 18 R518) -/
def Obligations.RoofAndAccessCommandsComplete : Prop :=
  ∀ (s : State) (src kind hop op : Byte) (seq : BitVec 16) (frame : BitVec 512) (x : Lanes) (k : BitVec 3)
    (line : List Bool) (interval : BitVec 24) (rtt : BitVec 16) (off : Word) (bytes : List Byte) (pins cells : List Bool)
    (mask : BitVec 4) (v : Word) (item : BitVec 136) (cell : StatusCell), s.dev.coreUp = true →
    let d := s.dev
    let r := d.roof
    let a := d.acc
    let goes (i : Instr) (f : Dev → Dev) : Prop := exec i s = .next (s.any f)
    let holds (i : Instr) (P : Dev → Prop) : Prop := ∃ u, exec i s = .next u ∧ P u.dev
    (d.manager = true →
      (r.trainAt ≤ d.now → goes (.train none) fun d =>
        Dev.sendCell { d with roof := { d.roof with trainAt := d.now + 1000 } } 1 0xFF [1]) ∧
      (cell.position ≠ 0 → (d.workerAt cell.position).lost = false → r.reenum = none →
        holds (.status (some cell)) fun d => (d.workerAt cell.position).ok = true ∧
          (d.workerAt cell.position).mode = cell.mode ∧ (d.workerAt cell.position).frame = cell.frame) ∧
      ((d.workerAt k).present = true → (d.workerAt k).lost = false → (d.workerAt k).seenAt + 30000 < d.now →
        goes (.workerStatusMissing k) fun d =>
          (d.onWorker k fun w => { w with ok := false, lost := true }).event 0x0C05 (pay 0 k ||| payN 3 1)) ∧
      (d.sys.mode.served = true → 0x40000 ≤ r.bootAddr.toNat → r.bootLen ≠ 0 →
        r.bootAddr.toNat + r.bootLen.toNat ≤ 0x1800000 → goes (.bootreq k hop) fun d =>
          let n := d.roof.bootLen.toNat
          let b := d.roof.bootAddr.toNat
          ((((d.loftTouch b n).bootCells (k.setWidth 8) b n 0 (n / 252 + 1)).event 0x0C04 (pay 0 k ||| pay 8 hop))).trussPend
            4) ∧
      (goes (.relayUp src seq frame) fun d => ((d.ack src 0x0A seq).putEntry 31 (bytes64 frame)).trussPend 4) ∧
      (d.sys.mode ≠ .boot → holds .latchMarkSend fun d =>
        d.roof.marksOut = (r.marksOut ++ [s.dev.now]).take 2) ∧
      (r.ringUp = true → holds (.latchMarkReturn rtt) fun d => d.roof.rtt = rtt ∧ d.roof.returnRun = 0 ∧
        d.roof.ringUp = true) ∧
      (r.ringUp = true → 2 ≤ (r.marksOut.filter d.markLate).length → goes .ringBroken fun d =>
        Dev.event { d with roof := { d.roof with ringUp := false, returnRun := 2 } } 0x0C02 (payN 3 1))) ∧
    (d.worker = true →
      (r.statusAt ≤ d.now → goes (.status none) fun d =>
        Dev.sendCell { d with roof := { d.roof with statusAt := d.now + 10000 } } 2 0
          (Config.cellPayload 2 d.statusContent)) ∧
      (d.gbl.cfg = none → goes (.gframe frame) fun d => (d.flashReceive [3] (bytes64 frame)).trussPend 4) ∧
      (goes (.rframe frame) fun d => d.flashReceive [4] (bytes64 frame)) ∧
      (exec (.relayDown src seq frame) s = .next (s.chip fun m =>
        Chip.relayEntry ((m.1.ack src 9 seq).trussPend 4, m.2) (bytes64 frame))) ∧
      (goes (.reenum src seq) fun d => ((d.ack src 0x0B seq).trussPend 4).reenumProof) ∧
      (d.sys.mode ≠ .boot → goes (.bootdata src seq off bytes) fun d => (d.trussPend 4).ack src 6 seq) ∧
      (∀ m, d.sys.role = 2 → markOfLanes x = some m → crc8 (m.take 11) = m.getD 11 0 →
        goes (.latchMarkReceive x) fun d => (d.putMark m).markTake (BitVec.ofNat 96 (leNat m))) ∧
      (d.markOverdue = true → r.marks = true → r.markTwin = false → r.markRun ≠ 1 → holds .latchMarkMissing fun d =>
        d.roof.markRun = r.markRun + 1 ∧ d.roof.markMiss = satInc r.markMiss ∧ d.roof.flywheel = true)) ∧
    (∀ c, cellOfLanes x = .cell c → cellKnown c.kind = true → c.dst ≠ r.position.setWidth 8 →
      c.src ≠ r.position.setWidth 8 → c.kind ≠ 1 →
      holds (.purlinCellReceive x) fun d => d.roof.fwd = r.fwd ++ [c]) ∧
    (goes (.ack src kind seq) fun d => Dev.trussPend { d with roof := { d.roof with
      unacked := d.roof.unacked.filter fun u => !(u.1.dst == src && u.1.kind == kind && u.1.seq == seq) } } 4) ∧
    (∀ c n t rest, r.unacked = (c, n, t) :: rest → t + 100 ≤ d.now → n < 3 → holds .purlinRetry fun d =>
      d.roof.unacked = rest ++ [(c, n + 1, s.dev.now)] ∧ d.roof.out = insertCell c r.out) ∧
    (∀ p, d.inRoof = true → goes (.migrate k seq p) fun d =>
      ((d.ack (k.setWidth 8) 8 seq).trussPend 4).migrateCell k p) ∧
    ((d.ringAt 30).enabled = true → (d.ringAt 30).stopping = false → 0 < (d.ringAt 30).held → d.manager = false →
      d.loft.ce = [] → d.loft.ue = [] → goes .purlinRing30Entry fun d =>
        (d.ring 30 fun r => { r with cons := r.cons + 1 }).ring 30 fun r => { r with drop := satInc r.drop }) ∧
    (d.twinHere = true →
      (d.sys.mode.mayDrive = true → d.sys.mode ≠ .boot → holds .syncWordSend fun d =>
        ∃ w, d.roof.sync = syncLine w ∧ crc8 [byteAt w 0, byteAt w 1, byteAt w 2] = byteAt w 3) ∧
      (∀ w, syncOfLine line = some w → crc8 [byteAt w 0, byteAt w 1, byteAt w 2] = byteAt w 3 → r.missRun < 2 →
        r.driving = true → holds (.syncWordReceive line interval) fun d => d.roof.peerOk = true ∧ d.roof.missRun = 0 ∧
          d.roof.peerFrame = w.extractLsb' 0 16 ∧ d.roof.peerSlot = w.extractLsb' 16 3) ∧
      (d.syncOverdue = true → r.missRun ≠ 1 → holds .syncWordMissing fun d =>
        d.roof.missRun = r.missRun + 1 ∧ d.roof.misses = satInc r.misses)) ∧
    (s.takesWrite 0x200A0008 2 = true → holds .accNonce fun d =>
      d.acc.nonce = Config.random a.draws ∧ d.acc.nonceAt = some s.dev.now) ∧
    (d.nonceValid = false → holds .nonceExpire fun d => d.acc.nonceAt = none) ∧
    (s.takesWrite 0x200A0008 1 = true → a.attached = false → a.jtag.drives = false → goes .accLock fun d =>
      let y : Dev := { d.answering with acc := { d.acc with nonceAt := none, level := 0, lapse := none, attachPending := false } }
      y.event 0x0D03 (pay 0 a.level ||| pay 2 (1 : BitVec 2))) ∧
    (∀ t, a.lapse = some t → t ≤ d.alwaysOn → goes .unlockTimeout fun d => d.lapse 2) ∧
    (∀ level, s.takesWrite 0x200A000C (level.setWidth 32) = true → 64 ≤ s.otp.fuses.toNat →
      holds (.unlockPassword level) fun d => d.acc.result = 4 ∧ d.acc.pw = 0) ∧
    (∀ level : BitVec 2, s.takesWrite 0x200A000C (16 + level.setWidth 32) = true → level = 2 ∨ level = 3 →
      a.crUntil ≤ d.alwaysOn → d.nonceValid = false → holds (.unlockChallenge level) fun d =>
        d.acc.result = 5 ∧ d.acc.lastPath = true ∧ d.acc.nonceAt = none) ∧
    (∀ (target : BitVec 3) (level : BitVec 2), s.takesWrite 0x200A0050 (fld 0 target ||| fld 4 level ||| fld 8 mask) = true →
      d.sys.mode = .load → 2 ≤ a.level → target < 4 → (s.otp.pws[targetSlot target]).programmed = false → level ≠ 0 →
      level ≠ 3 → ∃ u, exec (.otpProgram target level mask) s = .next u ∧ u.dev.acc.result = 8 ∧
        (u.otp.pws[targetSlot target]).programmed = true ∧ (u.otp.pws[targetSlot target]).level = level) ∧
    (∀ target : BitVec 3, s.takesWrite 0x200A0050 (fld 0 target ||| bit 3 true ||| fld 8 mask) = true → d.sys.mode = .load →
      2 ≤ a.level → target < 4 → (s.otp.pws[targetSlot target]).revoked = false → ∃ u,
      exec (.otpRevoke target mask) s = .next u ∧ u.dev.acc.result = 8 ∧ (u.otp.pws[targetSlot target]).revoked = true) ∧
    (d.tapRuns = true →
      holds .idcode (fun d => d.acc.tdr = 0x1A160001) ∧
      (op ∉ ([0x00, 0x01, 0x02, 0x04, 0x05, 0x10, 0x11] : List Byte) → holds (.bypass op) fun d => d.acc.tdr = 0) ∧
      (d.sys.mode ≠ .retention → holds (.samplePreload pins cells) fun d =>
        d.acc.captured = pins ∧ d.acc.boundary = cells) ∧
      (a.level = 3 → d.sys.mode = .load → holds (.extest pins cells) (fun d => d.acc.boundary = cells ∧ d.acc.jtag = .extest) ∧
        holds .highz (fun d => d.acc.jtag = .highz) ∧ holds .clamp fun d => d.acc.jtag = .clamp) ∧
      holds (.accChal false item) (fun d => d.acc.nonce = Config.random a.draws ∧ d.acc.jtag = .accChal) ∧
      (a.attached = false → 2 ≤ a.level → d.sys.mode = .load → holds .debugAttach fun d => d.acc.attached = true) ∧
      holds .debugDetach (fun d => d.acc.attached = false ∧ d.acc.attachPending = false) ∧
      (a.attached = true → d.sys.mode ≠ .boot →
        (d.thatch.truss.dbgHalt = false → holds (.debugHalt (some .truss)) fun d => d.thatch.truss.dbgHalt = true) ∧
        (d.thatch.truss.dbgHalt = true → holds (.debugStep (some .truss)) fun d => d.thatch.truss.dbgStep = true) ∧
        holds (.debugResume (some .truss)) (fun d => d.thatch.truss.dbgHalt = false) ∧
        holds (.debugRead (some .truss) .pc) (fun d => d.acc.dbgData = s.dev.thatch.truss.pc) ∧
        holds (.debugWrite (some .truss) .pc v) fun d => d.thatch.truss.pc = v)) ∧
    (let i := d.inj
     (i.schedAt + 1000000 * i.interval.toNat ≤ d.now → i.schedEn = true → d.sys.mode = .run → i.busy = true →
      holds .injectionSchedule fun d => d.inj.schedDue = true ∧ d.inj.schedAt = s.dev.now) ∧
     (i.busy = true → i.restoring = false → i.hdr = none → i.dry = true →
      let logged (r : BitVec 3) (t : BitVec 24) (d : Dev) : Dev :=
        let j := d.inj.onHead fun e => { e with result := r, detect := t }
        { d with inj := { j with detect := t } }
      let bound := d.injTime i.bit.toNat i.inst
      (d.now ≤ i.start + bound → goes .injectionDetected fun d =>
        d.injThen fun d => (logged 1 (satAdd 0 (d.now - d.inj.start)) d).injEnd true) ∧
      (i.start + bound + 1000 ≤ d.now → goes .injectionDeadline fun d =>
        d.injThen fun d => (logged 2 (satAdd 0 bound) d).injEnd false)) ∧
     (i.busy = true → i.restoring = true →
      let from' := i.start + i.detect.toNat + (if (i.log[i.head]).result = 2 then 1000 else 0)
      let drop (d : Dev) : Dev := if d.inj.held then d.withdrawInj else d
      d.now ≤ from' + d.injRestore i.bit.toNat i.inst → (drop d).injBack = false →
      goes .injectionRestored fun d => d.injThen drop))
end

