-- ==== Sys2Proof/Laws/State.lean ====
section
/-! SUPPORT. What each update of the state leaves of each field. -/

namespace Sys2Proof.Machine

open Sys2Proof

@[simp] theorem State.any_dev (s : State) (f : Dev → Dev) : (s.any f).dev = f s.dev := rfl
@[simp] theorem State.any_otp (s : State) (f : Dev → Dev) : (s.any f).otp = s.otp := rfl
@[simp] theorem State.any_wire (s : State) (f : Dev → Dev) : (s.any f).wire = s.wire := rfl
@[simp] theorem State.any_pending (s : State) (f : Dev → Dev) : (s.any f).pending = s.pending := rfl
@[simp] theorem State.chip_dev (s : State) (f : Chip → Chip) : (s.chip f).dev = (f (s.dev, s.otp)).1 := rfl
@[simp] theorem State.chip_otp (s : State) (f : Chip → Chip) : (s.chip f).otp = (f (s.dev, s.otp)).2 := rfl
@[simp] theorem State.chip_wire (s : State) (f : Chip → Chip) : (s.chip f).wire = s.wire := rfl
@[simp] theorem State.chip_pending (s : State) (f : Chip → Chip) : (s.chip f).pending = s.pending := rfl

@[simp] theorem State.window_otp (s : State) : s.window.otp = s.otp := by unfold State.window; simp only; split <;> rfl
@[simp] theorem State.window_pending (s : State) : s.window.pending = s.pending := by
  unfold State.window; simp only; split <;> rfl
@[simp] theorem State.closeWindow_otp (s : State) (rx : List (List (BitVec 10))) (ok : Bool) :
    (s.closeWindow rx ok).otp = s.otp := rfl
@[simp] theorem State.closeWindow_pending (s : State) (rx : List (List (BitVec 10))) (ok : Bool) :
    (s.closeWindow rx ok).pending = s.pending := rfl
@[simp] theorem State.microsecond_otp (s : State) : s.microsecond.otp = s.otp := by simp only [State.microsecond]
@[simp] theorem State.microsecond_pending (s : State) : s.microsecond.pending = s.pending := by
  simp only [State.microsecond]

theorem State.core_up (s : State) (f : Dev → Dev) (h : s.dev.coreUp = true) : s.core f = s.any f := by
  simp [State.core, h]
theorem State.core_down (s : State) (f : Dev → Dev) (h : s.dev.coreUp = false) : s.core f = s := by
  simp [State.core, h]
theorem State.chipUp_up (s : State) (f : Chip → Chip) (h : s.dev.coreUp = true) : s.chipUp f = s.chip f := by
  simp [State.chipUp, h]
theorem State.chipUp_down (s : State) (f : Chip → Chip) (h : s.dev.coreUp = false) : s.chipUp f = s := by
  simp [State.chipUp, h]

@[simp] theorem State.core_otp (s : State) (f : Dev → Dev) : (s.core f).otp = s.otp := by
  unfold State.core; split <;> rfl
@[simp] theorem State.core_wire (s : State) (f : Dev → Dev) : (s.core f).wire = s.wire := by
  unfold State.core; split <;> rfl
@[simp] theorem State.core_pending (s : State) (f : Dev → Dev) : (s.core f).pending = s.pending := by
  unfold State.core; split <;> rfl
@[simp] theorem State.chipUp_wire (s : State) (f : Chip → Chip) : (s.chipUp f).wire = s.wire := by
  unfold State.chipUp; split <;> rfl
@[simp] theorem State.chipUp_pending (s : State) (f : Chip → Chip) : (s.chipUp f).pending = s.pending := by
  unfold State.chipUp; split <;> rfl

/-- A change that changes nothing. -/
theorem State.core_same {s : State} {f : Dev → Dev} (h : f s.dev = s.dev) : s.core f = s := by
  unfold State.core State.any; split <;> simp only [h]

/-- Two changes that agree on the device as it stands are one. -/
theorem State.any_congr {s : State} {f g : Dev → Dev} (h : f s.dev = g s.dev) : s.any f = s.any g := by
  simp only [State.any, h]

/-- A change of the device keeps the queue and what left the ports. -/
theorem keeps_any (s : State) (f : Dev → Dev) :
    ∃ t, Host.Outcome.next (s.any f) = (.next t : Host.Outcome State Fault Refusal) ∧
      t.pending = s.pending ∧ t.wire = s.wire :=
  ⟨_, rfl, rfl, rfl⟩

/-- The same for a change of the core die. -/
theorem keeps_core (s : State) (f : Dev → Dev) :
    ∃ t, Host.Outcome.next (s.core f) = (.next t : Host.Outcome State Fault Refusal) ∧
      t.pending = s.pending ∧ t.wire = s.wire :=
  ⟨_, rfl, State.core_pending s f, State.core_wire s f⟩

/-- The same for a change of the chip. -/
theorem keeps_chip (s : State) (f : Chip → Chip) :
    ∃ t, Host.Outcome.next (s.chip f) = (.next t : Host.Outcome State Fault Refusal) ∧
      t.pending = s.pending ∧ t.wire = s.wire :=
  ⟨_, rfl, rfl, rfl⟩

/-- The same for a change of the chip that is up. -/
theorem keeps_chipUp (s : State) (f : Chip → Chip) :
    ∃ t, Host.Outcome.next (s.chipUp f) = (.next t : Host.Outcome State Fault Refusal) ∧
      t.pending = s.pending ∧ t.wire = s.wire :=
  ⟨_, rfl, State.chipUp_pending s f, State.chipUp_wire s f⟩

end Sys2Proof.Machine
end

