-- ==== Sys2Proof/Laws/Commands.lean ====
section
/-! SUPPORT. What a ring command comes to once its tests have passed, and reads of clean Loft. -/

namespace Sys2Proof.Machine

open Sys2Proof

/-- What `serves` asks for. -/
theorem serves_iff {s : State} {h : CmdHdr} {op : Byte} {a : Args} : s.serves h op a = true ↔
    s.dev.nextRing (some h.ring) = some h.ring ∧ s.dev.levelNeeded op a ≤ s.dev.acc.level.toNat ∧
      s.dev.modeAllowed op a = true := by
  simp [State.serves, and_assoc]

/-- A command that passes tests 1 to 3 goes on to its own, its ring noted as served. -/
theorem command_serves {s : State} {h : CmdHdr} {op : Byte} {a : Args} (f : CmdBody) (hs : s.serves h op a = true) :
    Chip.command (s.dev, s.otp) h op a f =
      Chip.conclude (s.dev.noteServed h.ring, s.otp) h op a (f (s.dev.noteServed h.ring, s.otp) h a) := by
  obtain ⟨h1, h2, h3⟩ := serves_iff.1 hs
  have h2' : ¬ (s.dev.noteServed h.ring).acc.level.toNat < (s.dev.noteServed h.ring).levelNeeded op a := Nat.not_lt.mpr h2
  have h3' : (s.dev.noteServed h.ring).modeAllowed op a = true := h3
  simp only [Chip.command, Chip.tests, h1, if_true, h2', h3', if_false]

/-- A served command that answers, by what its own tests come to. -/
theorem answers_of {s : State} {h : CmdHdr} {op : Byte} {a : Args} {f : CmdBody} {st r0 r1 e}
    (hs : s.serves h op a = true) (hf : f (s.dev.noteServed h.ring, s.otp) h a = CmdOut.answer st r0 r1 e) :
    s.chip (fun m => m.command h op a f) = s.answers h op st r0 r1 e := by
  simp only [State.chip, command_serves f hs, hf]; rfl

/-- A served command that becomes long, by what its own tests come to. -/
theorem starts_of {s : State} {h : CmdHdr} {op : Byte} {a : Args} {f : CmdBody} {e}
    (hs : s.serves h op a = true) (hf : f (s.dev.noteServed h.ring, s.otp) h a = CmdOut.long e) :
    s.chip (fun m => m.command h op a f) = s.startsLong h op a e := by
  simp only [State.chip, command_serves f hs, hf]; rfl

/-- A clean range is free Loft. -/
theorem clean_free {d : Dev} {x n : Nat} (h : d.clean x n = true) : loftFree x n = true := by
  simp only [Dev.clean, Bool.and_eq_true] at h; exact h.1.1

/-- A read of a clean range changes nothing. -/
theorem clean_touch {d : Dev} {x n : Nat} (h : d.clean x n = true) : d.loftTouch x n = d := by
  simp only [Dev.clean, Bool.and_eq_true, List.all_eq_true, Bool.not_eq_true'] at h
  have h1 : d.loft.ce.filter (touchesWord x n) = [] := List.filter_eq_nil_iff.mpr fun w hw => by simp [h.1.2 w hw]
  have h2 : d.loft.ue.filter (touchesWord x n) = [] := List.filter_eq_nil_iff.mpr fun w hw => by simp [h.2 w hw]
  simp [Dev.loftTouch, h1, h2]

/-- A clean range holds no uncorrectable word. -/
theorem clean_ue {d : Dev} {x n : Nat} (h : d.clean x n = true) : d.loftUe x n = false := by
  simp only [Dev.clean, Bool.and_eq_true, List.all_eq_true, Bool.not_eq_true'] at h
  simp only [Dev.loftUe, Bool.eq_false_iff, ne_eq, List.any_eq_true, not_exists, not_and]
  intro w hw hc
  have := h.2 w hw
  simp only [touchesWord] at this
  simp_all

/-- A command that reads clean Loft goes on with the bytes there. -/
theorem reading_clean {m : Chip} {h : CmdHdr} {op : Byte} {a : Args} {x n : Nat} {k : List Byte → CmdOut}
    (hc : m.1.clean x n = true) :
    m.conclude h op a (m.1.reading x n k) = m.conclude h op a (k (m.1.loftBytes x n)) := by
  have h1 := clean_touch hc
  have h2 := clean_ue hc
  simp only [Dev.reading, h2, Bool.false_eq_true, if_false, Chip.conclude, CmdOut.also, h1]

/-- A search finds the one element that qualifies. -/
theorem find_unique {n : Nat} {p : Fin n → Bool} {k : Fin n} (h : p k = true) (hu : ∀ j, p j = true → j = k) :
    (List.finRange n).find? p = some k := by
  cases e : (List.finRange n).find? p with
  | none => exact absurd h (by simpa using List.find?_eq_none.mp e k (List.mem_finRange k))
  | some j => rw [hu j (List.find?_some e)]

/-- An argument that names a loaded handle. -/
theorem handleArg_of {d : Dev} {x : Word} {k : Fin 64} (h1 : x = BitVec.ofNat 32 (k.val + 1))
    (h2 : d.thatch.handles[k].isSome = true) : d.handleArg x = some k := by
  refine find_unique ?_ ?_
  · simp only [h1, beq_self_eq_true, Bool.true_and]; exact h2
  · intro j hj
    simp only [Bool.and_eq_true, beq_iff_eq, h1] at hj
    have := congrArg BitVec.toNat hj.1
    simp only [BitVec.toNat_ofNat] at this
    have := j.isLt; have := k.isLt
    exact Fin.ext (by omega)

/-- An argument that names a context. -/
theorem ctxArg_of {x : Word} {c : Fin 64} (h0 : c ≠ 0) (h : (x.extractLsb' 0 6).toNat = c.val) :
    ctxArg x = some c := by
  have : (⟨(slice x 0 6).toNat, (slice x 0 6).isLt⟩ : Fin 64) = c := Fin.ext h
  unfold ctxArg
  simp only [this, h0, if_false]

/-- A served command that reads one clean Loft range. -/
theorem answers_clean {s : State} {h : CmdHdr} {op : Byte} {a : Args} {f : CmdBody} {st r0 r1 e} {x n : Nat}
    {k : List Byte → CmdOut} (hs : s.serves h op a = true) (hc : s.dev.clean x n = true)
    (hf : f (s.dev.noteServed h.ring, s.otp) h a = (s.dev.noteServed h.ring).reading x n k)
    (hk : k (s.dev.loftBytes x n) = CmdOut.answer st r0 r1 e) :
    s.chip (fun m => m.command h op a f) = s.answers h op st r0 r1 e := by
  have := reading_clean (m := (s.dev.noteServed h.ring, s.otp)) (h := h) (op := op) (a := a) (k := k)
    (show (s.dev.noteServed h.ring).clean x n = true from hc)
  simp only [State.chip, command_serves f hs, hf, this]
  rw [show k ((s.dev.noteServed h.ring).loftBytes x n) = CmdOut.answer st r0 r1 e from hk]; rfl

/-- A served command that reads two clean Loft ranges. -/
theorem answers_clean2 {s : State} {h : CmdHdr} {op : Byte} {a : Args} {f : CmdBody} {st r0 r1 e} {x n x' n' : Nat}
    {k k' : List Byte → CmdOut} (hs : s.serves h op a = true) (hc : s.dev.clean x n = true) (hc' : s.dev.clean x' n' = true)
    (hf : f (s.dev.noteServed h.ring, s.otp) h a = (s.dev.noteServed h.ring).reading x n k)
    (hk : k (s.dev.loftBytes x n) = (s.dev.noteServed h.ring).reading x' n' k')
    (hk' : k' (s.dev.loftBytes x' n') = CmdOut.answer st r0 r1 e) :
    s.chip (fun m => m.command h op a f) = s.answers h op st r0 r1 e := by
  have h1 := reading_clean (m := (s.dev.noteServed h.ring, s.otp)) (h := h) (op := op) (a := a) (k := k)
    (show (s.dev.noteServed h.ring).clean x n = true from hc)
  have h2 := reading_clean (m := (s.dev.noteServed h.ring, s.otp)) (h := h) (op := op) (a := a) (k := k')
    (show (s.dev.noteServed h.ring).clean x' n' = true from hc')
  simp only [State.chip, command_serves f hs, hf, h1]
  rw [show k ((s.dev.noteServed h.ring).loftBytes x n) = _ from hk, h2,
    show k' ((s.dev.noteServed h.ring).loftBytes x' n') = _ from hk']; rfl

/-- The end of a long command whose work ends by itself. -/
theorem longComplete_of {m : Chip} {n : Fin 24} {c : LongCommand} {f : CmdBody} {x : CmdOut} {y : Answer}
    (h1 : m.1.coreUp = true) (h2 : m.1.trussServes = true) (h3 : m.1.rings[n].inService = some c)
    (h4 : longEnd c.opcode = some f) (hx : f m c.hdr c.args = x) (hy : x.ans = some y) :
    m.longComplete n = x.eff ((x.pre m.1).finishLong c.hdr c.opcode y.st y.r0 y.r1, m.2) := by
  have h3' : m.1.rings[n.val].inService = some c := h3
  subst hx
  simp only [Chip.longComplete, h3', h1, h2, Bool.and_self, if_true, h4, hy]

/-- A command that reads clean Loft is, but for its touch, what it comes to with the bytes there. -/
theorem reading_eq {d : Dev} {x n : Nat} {k : List Byte → CmdOut} (hc : d.clean x n = true) :
    d.reading x n k = (k (d.loftBytes x n)).also fun d => d.loftTouch x n := by
  simp only [Dev.reading, clean_ue hc, Bool.false_eq_true, if_false]

/-- STALLED is a matter of the ring registers only. -/
theorem noteStalls_eq (d : Dev) : d.noteStalls = { d with rings := d.noteStalls.rings } := by
  unfold Dev.noteStalls
  suffices h : ∀ (l : List (Fin 24)) (f : Dev → Fin 24 → Dev) (d : Dev),
      (∀ d n, f d n = { d with rings := (f d n).rings }) → l.foldl f d = { d with rings := (l.foldl f d).rings } by
    refine h _ _ d fun d n => ?_
    simp only
    split
    · rfl
    · rfl
  intro l f d hf
  induction l generalizing d with
  | nil => rfl
  | cons n l ih => simp only [List.foldl_cons]; rw [ih (f d n), hf d n]

end Sys2Proof.Machine
end

