-- ==== Sys2Proof/Laws/Events.lean ====
section
/-! SUPPORT. What the machine's shared notices can change: a ring entry written, an event, a completion. The relation says the
whole of it; the lemmas after it give the fields that stay. -/

namespace Sys2Proof.Machine

open Sys2Proof

/-- `t` differs from `d` in the rings, the interrupt registers, the Loft, the count of unrouted events, the cells sent and the
record of the last completion at most. -/
def Dev.Notices (d t : Dev) : Prop :=
  t = { d with rings := t.rings, int := t.int, loft := t.loft, unrouted := t.unrouted, roof := t.roof, lastCpl := t.lastCpl }

theorem Dev.Notices.refl (d : Dev) : d.Notices d := rfl

theorem Dev.Notices.trans {d t u : Dev} (h1 : d.Notices t) (h2 : t.Notices u) : d.Notices u := by
  unfold Dev.Notices at *
  rw [h2, h1]

/-- A ring changed. -/
theorem Dev.ring_notices (d : Dev) (n : Nat) (f : Ring → Ring) : d.Notices (d.ring n f) := rfl

/-- A ring's signal. -/
theorem Dev.signalRing_notices (d : Dev) (n : Nat) : d.Notices (d.signalRing n) := rfl

/-- The count of what a ring has not signalled. -/
theorem Dev.noteWrite_notices (d : Dev) (n : Nat) : d.Notices (d.noteWrite n) := by
  unfold Dev.noteWrite
  simp only
  split
  · exact (d.ring_notices n _).trans (Dev.signalRing_notices _ n)
  · exact d.ring_notices n _

/-- Bytes put into the Loft. -/
theorem Dev.loftPut_notices (d : Dev) (a : Nat) (bs : List Byte) : d.Notices (d.loftPut a bs) := rfl

/-- An entry put into a ring. -/
theorem Dev.putEntry_notices (d : Dev) (n : Nat) (e : List Byte) : d.Notices (d.putEntry n e) := by
  unfold Dev.putEntry
  simp only
  split
  · split
    · exact ((d.loftPut_notices _ _).trans (Dev.ring_notices _ n _)).trans (Dev.noteWrite_notices _ n)
    · exact d.ring_notices n _
  · exact .refl d

/-- A cell queued. -/
theorem Dev.sendCell_notices (d : Dev) (k dst : Byte) (p : List Byte) : d.Notices (d.sendCell k dst p) := rfl

/-- Notices one after another. -/
theorem Dev.foldl_notices {α : Type} (f : Dev → α → Dev) (h : ∀ d x, Dev.Notices d (f d x)) (l : List α) (d : Dev) :
    d.Notices (l.foldl f d) := by
  induction l generalizing d with
  | nil => exact .refl d
  | cons x l ih => exact (h d x).trans (ih (f d x))

/-- An entry routed to the event rings. -/
theorem Dev.routeEntry_notices (d : Dev) (dest : List Nat) (routed : Bool) (e : List Byte) :
    d.Notices (d.routeEntry dest routed e) := by
  have h1 := Dev.foldl_notices (fun d m => d.putEntry m e) (fun d m => d.putEntry_notices m e) dest d
  unfold Dev.routeEntry
  simp only
  generalize dest.foldl (fun d m => d.putEntry m e) d = x at h1 ⊢
  refine h1.trans ?_
  have up : x.Notices { x with unrouted := satInc x.unrouted } := rfl
  cases routed
  · simp only [Bool.false_eq_true, if_false]
    split
    · exact up.trans (Dev.sendCell_notices _ _ _ _)
    · exact up
  · simp only [if_true]
    split
    · exact Dev.sendCell_notices _ _ _ _
    · exact .refl _

/-- The reports of lost entries. -/
theorem Dev.reportDrops_notices (d : Dev) : d.Notices d.reportDrops := by
  unfold Dev.reportDrops
  exact ((Dev.foldl_notices (fun (x : Dev) n => x.ring n fun r => { r with lost := 0 })
      (fun d n => d.ring_notices n _) _ d).trans
    (Dev.foldl_notices _ (fun d n => d.putEntry_notices n _) _ _)).trans
    (Dev.foldl_notices _ (fun d _ => d.routeEntry_notices _ _ _) _ _)

/-- An event. -/
theorem Dev.event_notices (d : Dev) (code : BitVec 16) (p : BitVec 64) : d.Notices (d.event code p) :=
  d.reportDrops_notices.trans (Dev.routeEntry_notices _ _ _ _)

/-- A single-bit error corrected. -/
theorem Dev.correctCe_notices (d : Dev) (w : Nat) : d.Notices (d.correctCe w) := by
  have h0 (d : Dev) (l : Loft) : d.Notices { d with loft := l } := rfl
  unfold Dev.correctCe
  simp only
  split
  · exact (h0 d _).trans (Dev.event_notices _ _ _)
  · split
    · exact (h0 d _).trans (Dev.event_notices _ _ _)
    · exact h0 d _

/-- A double-bit error reported. -/
theorem Dev.reportUe_notices (d : Dev) (w : Nat) : d.Notices (d.reportUe w) := by
  have h0 (d : Dev) (l : Loft) (i : Interrupts) : d.Notices { d with loft := l, int := i } := rfl
  unfold Dev.reportUe
  exact (h0 d _ _).trans (Dev.event_notices _ _ _)

/-- A read of the Loft. -/
theorem Dev.loftTouch_notices (d : Dev) (a n : Nat) : d.Notices (d.loftTouch a n) :=
  (Dev.foldl_notices _ Dev.correctCe_notices _ d).trans (Dev.foldl_notices _ Dev.reportUe_notices _ _)

/-- A Loft write. -/
theorem Dev.loftWrite_notices (d : Dev) (a : Nat) (bs : List Byte) : d.Notices (d.loftWrite a bs) :=
  (Dev.foldl_notices _ Dev.correctCe_notices _ d).trans (Dev.loftPut_notices _ a bs)

/-- A completion. -/
theorem Dev.complete_notices (d : Dev) (h : CmdHdr) (op : Byte) (st : CmdStatus) (r0 r1 : Word) :
    d.Notices (d.complete h op st r0 r1) := by
  unfold Dev.complete
  simp only
  generalize hx : ({ d with lastCpl := some _ } : Dev) = x
  have h0 : d.Notices x := by rw [← hx]; rfl
  refine h0.trans ?_
  have h1 (a : Nat) (bs : List Byte) (n : Nat) (f : Ring → Ring) :
      x.Notices (((x.loftPut a bs).ring n f).noteWrite n) :=
    ((x.loftPut_notices a bs).trans (Dev.ring_notices _ n f)).trans (Dev.noteWrite_notices _ n)
  split
  · exact Dev.sendCell_notices _ _ _ _
  · split
    · split
      · exact (h1 _ _ _ _).trans (Dev.signalRing_notices _ _)
      · exact h1 _ _ _ _
    · exact .refl x

@[simp] theorem Dev.event_hp (d : Dev) (code : BitVec 16) (p : BitVec 64) : (d.event code p).hp = d.hp := by
  rw [d.event_notices code p]
@[simp] theorem Dev.event_served (d : Dev) (code : BitVec 16) (p : BitVec 64) : (d.event code p).served = d.served := by
  rw [d.event_notices code p]
@[simp] theorem Dev.event_regions (d : Dev) (code : BitVec 16) (p : BitVec 64) : (d.event code p).regions = d.regions := by
  rw [d.event_notices code p]
@[simp] theorem Dev.event_effects (d : Dev) (code : BitVec 16) (p : BitVec 64) : (d.event code p).effects = d.effects := by
  rw [d.event_notices code p]
@[simp] theorem Dev.event_eventTimes (d : Dev) (code : BitVec 16) (p : BitVec 64) : (d.event code p).eventTimes = d.eventTimes := by
  rw [d.event_notices code p]
@[simp] theorem Dev.event_thatch (d : Dev) (code : BitVec 16) (p : BitVec 64) : (d.event code p).thatch = d.thatch := by
  rw [d.event_notices code p]
@[simp] theorem Dev.event_course (d : Dev) (code : BitVec 16) (p : BitVec 64) : (d.event code p).course = d.course := by
  rw [d.event_notices code p]
@[simp] theorem Dev.event_vin (d : Dev) (code : BitVec 16) (p : BitVec 64) : (d.event code p).vin = d.vin := by
  rw [d.event_notices code p]
@[simp] theorem Dev.event_scan (d : Dev) (code : BitVec 16) (p : BitVec 64) : (d.event code p).scan = d.scan := by
  rw [d.event_notices code p]
@[simp] theorem Dev.event_prv (d : Dev) (code : BitVec 16) (p : BitVec 64) : (d.event code p).prv = d.prv := by
  rw [d.event_notices code p]
@[simp] theorem Dev.event_str (d : Dev) (code : BitVec 16) (p : BitVec 64) : (d.event code p).str = d.str := by
  rw [d.event_notices code p]
@[simp] theorem Dev.event_thm (d : Dev) (code : BitVec 16) (p : BitVec 64) : (d.event code p).thm = d.thm := by
  rw [d.event_notices code p]
@[simp] theorem Dev.event_gbl (d : Dev) (code : BitVec 16) (p : BitVec 64) : (d.event code p).gbl = d.gbl := by
  rw [d.event_notices code p]
@[simp] theorem Dev.event_rdg (d : Dev) (code : BitVec 16) (p : BitVec 64) : (d.event code p).rdg = d.rdg := by
  rw [d.event_notices code p]
@[simp] theorem Dev.event_flash (d : Dev) (code : BitVec 16) (p : BitVec 64) : (d.event code p).flash = d.flash := by
  rw [d.event_notices code p]
@[simp] theorem Dev.event_soffit (d : Dev) (code : BitVec 16) (p : BitVec 64) : (d.event code p).soffit = d.soffit := by
  rw [d.event_notices code p]
@[simp] theorem Dev.event_fld (d : Dev) (code : BitVec 16) (p : BitVec 64) : (d.event code p).fld = d.fld := by
  rw [d.event_notices code p]
@[simp] theorem Dev.event_trim (d : Dev) (code : BitVec 16) (p : BitVec 64) : (d.event code p).trim = d.trim := by
  rw [d.event_notices code p]
@[simp] theorem Dev.event_sys (d : Dev) (code : BitVec 16) (p : BitVec 64) : (d.event code p).sys = d.sys := by
  rw [d.event_notices code p]
@[simp] theorem Dev.event_acc (d : Dev) (code : BitVec 16) (p : BitVec 64) : (d.event code p).acc = d.acc := by
  rw [d.event_notices code p]
@[simp] theorem Dev.event_inj (d : Dev) (code : BitVec 16) (p : BitVec 64) : (d.event code p).inj = d.inj := by
  rw [d.event_notices code p]
@[simp] theorem Dev.event_alwaysOn (d : Dev) (code : BitVec 16) (p : BitVec 64) : (d.event code p).alwaysOn = d.alwaysOn := by
  rw [d.event_notices code p]

@[simp] theorem Dev.complete_hp (d : Dev) (h : CmdHdr) (op : Byte) (st : CmdStatus) (r0 r1 : Word) : (d.complete h op st r0 r1).hp = d.hp := by
  rw [d.complete_notices h op st r0 r1]
@[simp] theorem Dev.complete_served (d : Dev) (h : CmdHdr) (op : Byte) (st : CmdStatus) (r0 r1 : Word) : (d.complete h op st r0 r1).served = d.served := by
  rw [d.complete_notices h op st r0 r1]
@[simp] theorem Dev.complete_regions (d : Dev) (h : CmdHdr) (op : Byte) (st : CmdStatus) (r0 r1 : Word) : (d.complete h op st r0 r1).regions = d.regions := by
  rw [d.complete_notices h op st r0 r1]
@[simp] theorem Dev.complete_effects (d : Dev) (h : CmdHdr) (op : Byte) (st : CmdStatus) (r0 r1 : Word) : (d.complete h op st r0 r1).effects = d.effects := by
  rw [d.complete_notices h op st r0 r1]
@[simp] theorem Dev.complete_eventTimes (d : Dev) (h : CmdHdr) (op : Byte) (st : CmdStatus) (r0 r1 : Word) : (d.complete h op st r0 r1).eventTimes = d.eventTimes := by
  rw [d.complete_notices h op st r0 r1]
@[simp] theorem Dev.complete_thatch (d : Dev) (h : CmdHdr) (op : Byte) (st : CmdStatus) (r0 r1 : Word) : (d.complete h op st r0 r1).thatch = d.thatch := by
  rw [d.complete_notices h op st r0 r1]
@[simp] theorem Dev.complete_course (d : Dev) (h : CmdHdr) (op : Byte) (st : CmdStatus) (r0 r1 : Word) : (d.complete h op st r0 r1).course = d.course := by
  rw [d.complete_notices h op st r0 r1]
@[simp] theorem Dev.complete_vin (d : Dev) (h : CmdHdr) (op : Byte) (st : CmdStatus) (r0 r1 : Word) : (d.complete h op st r0 r1).vin = d.vin := by
  rw [d.complete_notices h op st r0 r1]
@[simp] theorem Dev.complete_scan (d : Dev) (h : CmdHdr) (op : Byte) (st : CmdStatus) (r0 r1 : Word) : (d.complete h op st r0 r1).scan = d.scan := by
  rw [d.complete_notices h op st r0 r1]
@[simp] theorem Dev.complete_prv (d : Dev) (h : CmdHdr) (op : Byte) (st : CmdStatus) (r0 r1 : Word) : (d.complete h op st r0 r1).prv = d.prv := by
  rw [d.complete_notices h op st r0 r1]
@[simp] theorem Dev.complete_str (d : Dev) (h : CmdHdr) (op : Byte) (st : CmdStatus) (r0 r1 : Word) : (d.complete h op st r0 r1).str = d.str := by
  rw [d.complete_notices h op st r0 r1]
@[simp] theorem Dev.complete_thm (d : Dev) (h : CmdHdr) (op : Byte) (st : CmdStatus) (r0 r1 : Word) : (d.complete h op st r0 r1).thm = d.thm := by
  rw [d.complete_notices h op st r0 r1]
@[simp] theorem Dev.complete_gbl (d : Dev) (h : CmdHdr) (op : Byte) (st : CmdStatus) (r0 r1 : Word) : (d.complete h op st r0 r1).gbl = d.gbl := by
  rw [d.complete_notices h op st r0 r1]
@[simp] theorem Dev.complete_rdg (d : Dev) (h : CmdHdr) (op : Byte) (st : CmdStatus) (r0 r1 : Word) : (d.complete h op st r0 r1).rdg = d.rdg := by
  rw [d.complete_notices h op st r0 r1]
@[simp] theorem Dev.complete_flash (d : Dev) (h : CmdHdr) (op : Byte) (st : CmdStatus) (r0 r1 : Word) : (d.complete h op st r0 r1).flash = d.flash := by
  rw [d.complete_notices h op st r0 r1]
@[simp] theorem Dev.complete_soffit (d : Dev) (h : CmdHdr) (op : Byte) (st : CmdStatus) (r0 r1 : Word) : (d.complete h op st r0 r1).soffit = d.soffit := by
  rw [d.complete_notices h op st r0 r1]
@[simp] theorem Dev.complete_fld (d : Dev) (h : CmdHdr) (op : Byte) (st : CmdStatus) (r0 r1 : Word) : (d.complete h op st r0 r1).fld = d.fld := by
  rw [d.complete_notices h op st r0 r1]
@[simp] theorem Dev.complete_trim (d : Dev) (h : CmdHdr) (op : Byte) (st : CmdStatus) (r0 r1 : Word) : (d.complete h op st r0 r1).trim = d.trim := by
  rw [d.complete_notices h op st r0 r1]
@[simp] theorem Dev.complete_sys (d : Dev) (h : CmdHdr) (op : Byte) (st : CmdStatus) (r0 r1 : Word) : (d.complete h op st r0 r1).sys = d.sys := by
  rw [d.complete_notices h op st r0 r1]
@[simp] theorem Dev.complete_acc (d : Dev) (h : CmdHdr) (op : Byte) (st : CmdStatus) (r0 r1 : Word) : (d.complete h op st r0 r1).acc = d.acc := by
  rw [d.complete_notices h op st r0 r1]
@[simp] theorem Dev.complete_inj (d : Dev) (h : CmdHdr) (op : Byte) (st : CmdStatus) (r0 r1 : Word) : (d.complete h op st r0 r1).inj = d.inj := by
  rw [d.complete_notices h op st r0 r1]
@[simp] theorem Dev.complete_alwaysOn (d : Dev) (h : CmdHdr) (op : Byte) (st : CmdStatus) (r0 r1 : Word) : (d.complete h op st r0 r1).alwaysOn = d.alwaysOn := by
  rw [d.complete_notices h op st r0 r1]

end Sys2Proof.Machine
end

