-- ==== Sys2Proof/Laws/Host.lean ====
section
/-! SUPPORT. A host write of a whole register. -/

namespace Sys2Proof.Machine

open Sys2Proof

/-- The four bytes of a word, least significant first, joined again. -/
theorem leBytes_join (v : Word) :
    (BitVec.ofNat 8 (v.toNat / 256 / 256 / 256) ++ BitVec.ofNat 8 (v.toNat / 256 / 256) ++ BitVec.ofNat 8 (v.toNat / 256) ++
      BitVec.ofNat 8 v.toNat : BitVec 32) = v := by
  apply BitVec.eq_of_toNat_eq
  simp only [BitVec.toNat_append, BitVec.toNat_ofNat]
  have := v.isLt
  have h (n : Nat) : n % 2 ^ 8 < 2 ^ 8 := Nat.mod_lt _ (by decide)
  rw [← Nat.shiftLeft_add_eq_or_of_lt (h _), ← Nat.shiftLeft_add_eq_or_of_lt (h _), ← Nat.shiftLeft_add_eq_or_of_lt (h _)]
  simp only [Nat.shiftLeft_eq]
  omega

/-- What `takesWrite` asks for, and that the write is taken. -/
theorem takes_parts {s : State} {a : Nat} {v : Word} (h : s.takesWrite a v = true) :
    s.dev.coreUp = true ∧ a % 4 = 0 ∧ loftSize ≤ a ∧ a < 2 ^ 32 ∧ windowRead s.dev.answering a = none ∧
      regOutcome s.dev.answering s.otp a v = .done := by
  simp only [State.takesWrite, Bool.and_eq_true, decide_eq_true_eq, Option.isNone_iff_eq_none, Bool.not_eq_true'] at h
  obtain ⟨⟨⟨⟨⟨⟨⟨h1, h2⟩, h3⟩, h4⟩, h5⟩, h6⟩, h7⟩, h8⟩ := h
  refine ⟨h1, h2, h3, h4, h5, ?_⟩
  have h9 : (regRead s.dev.answering s.otp a).isNone = false := by
    cases hx : regRead s.dev.answering s.otp a <;> simp_all
  have h10 : ¬ (a = 0x20000100 ∧ v.extractLsb' 0 2 = (3 : BitVec 2)) := by
    rintro ⟨h, h'⟩; simp [h, h'] at h8
  simp only [regOutcome, h9, h7, h10, if_false, Bool.false_eq_true]

/-- A host write that reaches its register has exactly that register's effect. -/
theorem hostPut_takes {s : State} {a : Nat} {v : Word} (h : s.takesWrite a v = true) :
    s.chip (fun m => m.1.hostPut m.2 a v) =
      { s with dev := (regEffect s.dev.answering s.otp a v).1, otp := (regEffect s.dev.answering s.otp a v).2 } := by
  obtain ⟨h1, h2, h3, h4, h5, h6⟩ := takes_parts h
  have ha : (BitVec.ofNat 32 a).toNat = a := by simp only [BitVec.toNat_ofNat]; omega
  have e1 : ¬ a < 0x40000 := by unfold loftSize at h3; omega
  have e2 : ¬ a < loftSize := by omega
  have hl : leBytes v.toNat 4 = [BitVec.ofNat 8 v.toNat, BitVec.ofNat 8 (v.toNat / 256), BitVec.ofNat 8 (v.toNat / 256 / 256), BitVec.ofNat 8 (v.toNat / 256 / 256 / 256)] := by
    rfl
  have hj := leBytes_join v
  have h5' : windowRead { s.dev with hp := { s.dev.hp with out := [] } } a = none := h5
  have h6' : regOutcome { s.dev with hp := { s.dev.hp with out := [] } } s.otp a v = .done := h6
  simp only [State.chip, Dev.hostPut, Dev.hostWrite, hostAccess, h1, if_true, hl, List.length_cons, List.length_nil]
  simp only [HostAcc.put, ha, e1, e2, if_false, h2, decide_true, h5', hj, HostAcc.putReg, regWrite, h6', Bool.or_self]
  simp [HostAcc.close, Dev.answering]

end Sys2Proof.Machine
end

