-- ==== Sys2Proof/Laws/Memory.lean ====
section
/-! SUPPORT. Sparse tables: what a read finds after a write, and that the canonical form stays. -/

namespace Sys2Proof.Machine

open Sys2Proof

theorem cellGet_of_lt {w : Nat} (t : Cells w) (lo a : Nat) (h : cellWfFrom lo t = true) (ha : a < lo) :
    cellGet t a = 0 := by
  cases t with
  | nil => rfl
  | cons p r =>
    obtain ⟨k, v⟩ := p
    simp only [cellWfFrom, Bool.and_eq_true, decide_eq_true_eq] at h
    simp only [cellGet]
    rw [if_neg (by omega), if_pos (by omega)]

theorem cellWfFrom_mono {w : Nat} (t : Cells w) (a b : Nat) (hab : a ≤ b) (h : cellWfFrom b t = true) :
    cellWfFrom a t = true := by
  cases t with
  | nil => rfl
  | cons p r =>
    obtain ⟨k, v⟩ := p
    simp only [cellWfFrom, Bool.and_eq_true, decide_eq_true_eq] at h ⊢
    exact ⟨⟨by omega, h.1.2⟩, h.2⟩

theorem cellSet_wfFrom {w : Nat} (x : BitVec w) (a : Nat) :
    ∀ (t : Cells w) (lo : Nat), lo ≤ a → cellWfFrom lo t = true → cellWfFrom lo (cellSet t a x) = true := by
  intro t
  induction t with
  | nil =>
    intro lo hlo _
    by_cases hx : x = 0#w <;> simp [cellSet, cellWfFrom, hx, hlo]
  | cons p r ih =>
    obtain ⟨k, v⟩ := p
    intro lo hlo h
    have h' := h
    simp only [cellWfFrom, Bool.and_eq_true, decide_eq_true_eq] at h'
    obtain ⟨⟨hk, hv⟩, hr⟩ := h'
    have hv' : ¬v = 0#w := hv
    by_cases h1 : a < k
    · by_cases hx : x = 0#w
      · simpa [cellSet, h1, hx] using h
      · simp [cellSet, h1, hx, cellWfFrom, hlo, hv', hr] <;> omega
    · by_cases h2 : a = k
      · subst h2
        by_cases hx : x = 0#w
        · simpa [cellSet, hx] using cellWfFrom_mono r lo (a + 1) (by omega) hr
        · simp [cellSet, hx, cellWfFrom, hlo, hr]
      · have := ih (k + 1) (by omega) hr
        simp [cellSet, h1, h2, cellWfFrom, hk, hv', this]

/-- A write keeps the canonical form. -/
theorem cellSet_wf {w : Nat} (t : Cells w) (a : Nat) (x : BitVec w) (h : cellWf t = true) :
    cellWf (cellSet t a x) = true := cellSet_wfFrom x a t 0 (Nat.zero_le a) h

theorem cellGet_cellSet_from {w : Nat} (x : BitVec w) (a b : Nat) :
    ∀ (t : Cells w) (lo : Nat), cellWfFrom lo t = true →
      cellGet (cellSet t a x) b = if b = a then x else cellGet t b := by
  intro t
  induction t with
  | nil =>
    intro _ _
    by_cases hx : x = 0#w
    · simp [cellSet, cellGet, hx]
    · by_cases hb : b = a <;> simp [cellSet, cellGet, hx, hb]
  | cons p r ih =>
    obtain ⟨k, v⟩ := p
    intro lo h
    simp only [cellWfFrom, Bool.and_eq_true, decide_eq_true_eq] at h
    obtain ⟨⟨_, _⟩, hr⟩ := h
    by_cases h1 : a < k
    · by_cases hx : x = 0#w
      · by_cases hb : b = a
        · subst hb; simp [cellSet, h1, hx, cellGet] <;> omega
        · simp [cellSet, h1, hx, hb]
      · by_cases hb : b = a
        · simp [cellSet, h1, hx, cellGet, hb]
        · by_cases hba : b < a
          · simp [cellSet, h1, hx, cellGet, hb, hba]
            rw [if_neg (by omega), if_pos (by omega)]
          · simp [cellSet, h1, hx, cellGet, hb, hba]
    · by_cases h2 : a = k
      · subst h2
        by_cases hx : x = 0#w
        · by_cases hb : b = a
          · subst hb; simp [cellSet, hx, cellGet_of_lt r (b + 1) b hr (by omega)]
          · by_cases hba : b < a
            · simp [cellSet, hx, cellGet, hb, hba, cellGet_of_lt r (a + 1) b hr (by omega)]
            · simp [cellSet, hx, cellGet, hb, hba]
        · by_cases hb : b = a <;> simp [cellSet, hx, cellGet, hb]
      · have := ih (k + 1) hr
        by_cases hbk : b = k
        · subst hbk
          simp [cellSet, h1, h2, cellGet] <;> omega
        · by_cases hb : b < k
          · simp [cellSet, h1, h2, cellGet, hbk, hb] <;> omega
          · simp [cellSet, h1, h2, cellGet, hbk, hb, this]

/-- A read after a write: the value written at its place, and what was there at every other. -/
theorem cellGet_cellSet {w : Nat} (t : Cells w) (a b : Nat) (x : BitVec w) (h : cellWf t = true) :
    cellGet (cellSet t a x) b = if b = a then x else cellGet t b := cellGet_cellSet_from x a b t 0 h

/-- Writing bytes keeps the canonical form. -/
theorem writeBytes_wf (bs : List Byte) : ∀ (m : Mem) (a : Nat), cellWf m = true → cellWf (writeBytes m a bs) = true := by
  induction bs with
  | nil => intro m a h; exact h
  | cons b bs ih => intro m a h; exact ih _ _ (cellSet_wf m a b h)

/-- A byte outside the bytes written reads as before. -/
theorem cellGet_writeBytes_ne (bs : List Byte) : ∀ (m : Mem) (a b : Nat), cellWf m = true →
    (b < a ∨ a + bs.length ≤ b) → cellGet (writeBytes m a bs) b = cellGet m b := by
  induction bs with
  | nil => intro m a b _ _; rfl
  | cons x bs ih =>
    intro m a b h hb
    rw [List.length_cons] at hb
    rw [writeBytes, ih _ _ _ (cellSet_wf m a x h) (by omega), cellGet_cellSet m a b x h, if_neg (by omega)]

/-- Reading back what was written. -/
theorem readBytes_writeBytes (bs : List Byte) : ∀ (m : Mem) (a : Nat), cellWf m = true →
    readBytes (writeBytes m a bs) a bs.length = bs := by
  induction bs with
  | nil => intro m a _; rfl
  | cons x bs ih =>
    intro m a h
    have h1 := ih (cellSet m a x) (a + 1) (cellSet_wf m a x h)
    simp only [writeBytes, List.length_cons, readBytes, h1]
    rw [cellGet_writeBytes_ne bs _ _ _ (cellSet_wf m a x h) (by omega), cellGet_cellSet m a a x h, if_pos rfl]

/-- Bytes put into the Loft keep its canonical form. -/
theorem Dev.loftPut_wf (d : Dev) (a : Nat) (bs : List Byte) (h : Memory.wf d.loft.cells = true) :
    Memory.wf (d.loftPut a bs).loft.cells = true := writeBytes_wf bs d.loft.cells a h

/-- A step that keeps the Loft's canonical form keeps it however often it is taken. -/
theorem foldl_loft_wf {α : Type} (f : Dev → α → Dev)
    (h : ∀ d x, Memory.wf d.loft.cells = true → Memory.wf (f d x).loft.cells = true) (l : List α) (d : Dev)
    (hd : Memory.wf d.loft.cells = true) : Memory.wf (l.foldl f d).loft.cells = true := by
  induction l generalizing d with
  | nil => exact hd
  | cons x l ih => exact ih _ (h d x hd)

/-- The count of what a ring has not signalled leaves the Loft. -/
theorem Dev.noteWrite_loft (d : Dev) (n : Nat) : (d.noteWrite n).loft = d.loft := by
  unfold Dev.noteWrite; simp only; split <;> rfl

/-- An entry put into a ring keeps the Loft's canonical form. -/
theorem Dev.putEntry_wf (d : Dev) (n : Nat) (e : List Byte) (h : Memory.wf d.loft.cells = true) :
    Memory.wf (d.putEntry n e).loft.cells = true := by
  unfold Dev.putEntry
  simp only
  split
  · split
    · rw [Dev.noteWrite_loft]; exact d.loftPut_wf _ e h
    · exact h
  · exact h

/-- An entry routed to the event rings keeps it. -/
theorem Dev.routeEntry_wf (d : Dev) (dest : List Nat) (routed : Bool) (e : List Byte)
    (h : Memory.wf d.loft.cells = true) : Memory.wf (d.routeEntry dest routed e).loft.cells = true := by
  have h1 := foldl_loft_wf (fun (d : Dev) m => d.putEntry m e) (fun d m hd => d.putEntry_wf m e hd) dest d h
  unfold Dev.routeEntry
  simp only
  generalize dest.foldl (fun d m => d.putEntry m e) d = x at h1 ⊢
  split <;> split <;> exact h1

/-- The reports of lost entries keep it. -/
theorem Dev.reportDrops_wf (d : Dev) (h : Memory.wf d.loft.cells = true) :
    Memory.wf d.reportDrops.loft.cells = true := by
  unfold Dev.reportDrops
  exact foldl_loft_wf _ (fun d n hd => d.routeEntry_wf _ _ _ hd) _ _
    (foldl_loft_wf _ (fun d n hd => d.putEntry_wf _ _ hd) _ _
      (foldl_loft_wf (fun (x : Dev) n => x.ring n fun r => { r with lost := 0 }) (fun _ _ hd => hd) _ d h))

/-- An event keeps it. -/
theorem Dev.event_wf (d : Dev) (code : BitVec 16) (p : BitVec 64) (h : Memory.wf d.loft.cells = true) :
    Memory.wf (d.event code p).loft.cells = true :=
  Dev.routeEntry_wf _ _ _ _ (d.reportDrops_wf h)

/-- A corrected word keeps it. -/
theorem Dev.correctCe_wf (d : Dev) (w : Nat) (h : Memory.wf d.loft.cells = true) :
    Memory.wf (d.correctCe w).loft.cells = true := by
  unfold Dev.correctCe
  simp only
  split
  · exact Dev.event_wf _ _ _ h
  · split
    · exact Dev.event_wf _ _ _ h
    · exact h

/-- A Loft write keeps the Loft's canonical form. -/
theorem Dev.loftWrite_wf (d : Dev) (a : Nat) (bs : List Byte) (h : Memory.wf d.loft.cells = true) :
    Memory.wf (d.loftWrite a bs).loft.cells = true :=
  Dev.loftPut_wf _ a bs (foldl_loft_wf _ (fun d w hd => d.correctCe_wf w hd) _ d h)

/-- Bytes written to the Loft together keep its canonical form. -/
theorem Dev.loftWriteAll_wf (d : Dev) (bs : List (Nat × Byte)) (h : Memory.wf d.loft.cells = true) :
    Memory.wf (d.loftWriteAll bs).loft.cells = true := by
  unfold Dev.loftWriteAll
  generalize byteRuns bs = l
  induction l generalizing d with
  | nil => exact h
  | cons r l ih => exact ih _ (d.loftWrite_wf r.1 r.2 h)

/-- A write to a core memory keeps its canonical form. -/
theorem CoreMem.write_wf (m : CoreMem) (a : Nat) (bs : List Byte) (h : Memory.wf m.cells = true) :
    Memory.wf (m.write a bs).cells = true := writeBytes_wf bs m.cells a h

/-- The sections of an image placed in a memory keep its canonical form. -/
theorem placeSections_wf (m : Mem) (f : List Byte) (base : Nat) (h : Memory.wf m = true) :
    Memory.wf (placeSections m f base) = true := by
  unfold placeSections
  generalize rawSections f = l
  induction l generalizing m with
  | nil => exact h
  | cons s l ih => exact ih _ (writeBytes_wf _ _ _ h)

/-- The memories of the machine at reset are in canonical form. -/
theorem Dev.reset_memWf : Dev.reset.memWf = true := by decide

end Sys2Proof.Machine
end

