-- ==== Sys2Proof/Laws/Thatch.lean ====
section
/-! SUPPORT. What an executed Thatch instruction comes to, by what its work answers: one lemma for each way it can end. -/

namespace Sys2Proof.Machine

open Sys2Proof

/-- A fetch that succeeds gives the fetched device. -/
theorem fetches_ok {d : Dev} {c : CoreId} (h : d.fetches c = true) : d.fetch c = .ok (d.fetched c) := by
  unfold Dev.fetches at h
  unfold Dev.fetched
  cases hx : d.fetch c with
  | error e => simp [hx] at h
  | ok x => rfl

/-- A core with a memory of its own fetches without an effect. -/
theorem fetched_own {d : Dev} {c : CoreId} (h : ∀ e, c ≠ .engine e) : d.fetched c = d := by
  have two (p : Bool) (k : Byte) : (match (if p then .error (k, d) else .ok d : Access Dev) with
      | .error e => e.2
      | .ok x => x) = d := by cases p <;> rfl
  unfold Dev.fetched Dev.fetch
  by_cases hx : (!d.executable c (d.coreAt c).pc) = true
  · simp only [hx, if_true]
  · simp only [hx, if_false]
    cases c with
    | engine e => exact absurd rfl (h e)
    | truss => exact two _ _
    | gable => exact two _ _
    | soffit => exact two _ _

/-- A notice leaves the cores. -/
theorem Dev.Notices.coreAt {d t : Dev} (h : d.Notices t) (c : CoreId) : t.coreAt c = d.coreAt c := by
  rw [h]; cases c <;> rfl

/-- What counting cycles leaves of a core. -/
theorem count_coreAt (d : Dev) (e : Fin 8) (n : Nat) (c : CoreId) :
    ∃ k, (d.count (.engine e) n).coreAt c = { d.coreAt c with cycle := k } := by
  cases c with
  | engine f =>
    by_cases hf : e = f
    · subst hf
      exact ⟨(d.coreAt (.engine e)).cycle + BitVec.ofNat 64 n, by
        simp [Dev.count, Dev.drawn, Dev.onCore, Dev.coreAt, Dev.onEng, Dev.engAt, upd]⟩
    · have hv : e.val ≠ f.val := fun h => hf (Fin.ext h)
      exact ⟨(d.coreAt (.engine f)).cycle, by
        simp [Dev.count, Dev.drawn, Dev.onCore, Dev.coreAt, Dev.onEng, Dev.engAt, upd, hv]⟩
  | truss => exact ⟨d.thatch.truss.cycle, rfl⟩
  | gable => exact ⟨d.thatch.gable.cycle, rfl⟩
  | soffit => exact ⟨d.thatch.soffit.cycle, rfl⟩

/-- A line of the cache is none of the core. -/
theorem onIcache_coreAt (d : Dev) (e : Fin 8) (l : List Nat) (c : CoreId) :
    (d.onEng e fun g => { g with icache := l }).coreAt c = d.coreAt c := by
  cases c with
  | engine f =>
    by_cases hf : e = f
    · subst hf; simp [Dev.coreAt, Dev.onEng, Dev.engAt, upd]
    · have hv : e.val ≠ f.val := fun h => hf (Fin.ext h)
      simp [Dev.coreAt, Dev.onEng, Dev.engAt, upd, hv]
  | truss => rfl
  | gable => rfl
  | soffit => rfl

/-- What a fetch comes to: nothing but, on an engine, a line of the cache filled. -/
theorem fetched_cases (d : Dev) (c : CoreId) : d.fetched c = d ∨ ∃ e t, c = .engine e ∧ d.Notices t ∧
    (d.fetched c = t.count c 16 ∨ ∃ l, d.fetched c = (t.count c 16).onEng e fun g => { g with icache := l }) := by
  by_cases h : ∃ e, c = .engine e
  · obtain ⟨e, rfl⟩ := h
    unfold Dev.fetched Dev.fetch
    simp only
    by_cases hx : (!d.executable (.engine e) (d.coreAt (.engine e)).pc) = true
    · left; simp only [hx, if_true]
    · simp only [hx, if_false]
      unfold Dev.cacheFetch
      simp only
      by_cases hh : (d.engAt e).icache.contains ((d.coreAt (.engine e)).pc.toNat / 32) = true
      · left; simp only [hh, if_true]; rfl
      · right
        simp only [hh, Bool.false_eq_true, if_false]
        refine ⟨e, _, rfl, d.loftTouch_notices (32 * ((d.coreAt (.engine e)).pc.toNat / 32)) 32, ?_⟩
        split
        · left
          rename_i heq
          split at heq
          · simp at heq; subst heq; rfl
          · simp at heq
        · right
          rename_i heq
          split at heq
          · simp_all
          · simp at heq; exact ⟨_, heq.symm⟩
  · left; exact fetched_own fun e he => h ⟨e, he⟩

/-- A fetch leaves all of every core but its count of cycles. -/
theorem fetched_coreAt (d : Dev) (c c' : CoreId) : ∃ k, (d.fetched c).coreAt c' = { d.coreAt c' with cycle := k } := by
  rcases fetched_cases d c with h | ⟨e, t, rfl, hn, h | ⟨l, h⟩⟩
  · exact ⟨(d.coreAt c').cycle, by rw [h]⟩
  · obtain ⟨k, hk⟩ := count_coreAt t e 16 c'
    exact ⟨k, by rw [h, hk, hn.coreAt]⟩
  · obtain ⟨k, hk⟩ := count_coreAt t e 16 c'
    exact ⟨k, by rw [h, onIcache_coreAt, hk, hn.coreAt]⟩

/-- A fetch leaves the registers. -/
theorem fetched_get (d : Dev) (c c' : CoreId) (r : BitVec 5) : ((d.fetched c).coreAt c').get r = (d.coreAt c').get r := by
  obtain ⟨k, h⟩ := fetched_coreAt d c c'; rw [h]; rfl

/-- The work of an engine but for the cycles of its invocation. -/
def Work.uncounted (w : Work) : Work := { w with inv := w.inv.map fun i => { i with cycles := 0 } }

/-- What counting cycles leaves of an engine. -/
theorem count_engAt (d : Dev) (e f : Fin 8) (n : Nat) : ∃ k w, (d.count (.engine e) n).engAt f =
    { d.engAt f with core := { (d.engAt f).core with cycle := k }, work := w } ∧
      w.map Work.uncounted = (d.engAt f).work.map Work.uncounted := by
  by_cases hf : e = f
  · subst hf
    refine ⟨(d.engAt e).core.cycle + BitVec.ofNat 64 n, _, by
      simp [Dev.count, Dev.drawn, Dev.onCore, Dev.onEng, Dev.engAt, upd]; rfl, ?_⟩
    simp only [Option.map_map]
    congr 1
    funext w
    simp only [Function.comp_apply, Work.uncounted, Option.map_map]
    rfl
  · have hv : e.val ≠ f.val := fun h => hf (Fin.ext h)
    exact ⟨(d.engAt f).core.cycle, (d.engAt f).work, by
      simp [Dev.count, Dev.drawn, Dev.onCore, Dev.onEng, Dev.engAt, upd, hv], rfl⟩

/-- A line of the cache is nothing else of the engine. -/
theorem onIcache_engAt (d : Dev) (e f : Fin 8) (l : List Nat) :
    ∃ m, (d.onEng e fun g => { g with icache := l }).engAt f = { d.engAt f with icache := m } := by
  by_cases hf : e = f
  · subst hf; exact ⟨l, by simp [Dev.onEng, Dev.engAt, upd]⟩
  · have hv : e.val ≠ f.val := fun h => hf (Fin.ext h)
    exact ⟨(d.engAt f).icache, by simp [Dev.onEng, Dev.engAt, upd, hv]⟩

/-- A fetch leaves all of every engine but its counts of cycles and its cache. -/
theorem fetched_engAt (d : Dev) (c : CoreId) (e : Fin 8) : ∃ k w l, (d.fetched c).engAt e =
    { d.engAt e with core := { (d.engAt e).core with cycle := k }, work := w, icache := l } ∧
      w.map Work.uncounted = (d.engAt e).work.map Work.uncounted := by
  rcases fetched_cases d c with h | ⟨f, t, rfl, hn, h | ⟨l, h⟩⟩
  · exact ⟨(d.engAt e).core.cycle, (d.engAt e).work, (d.engAt e).icache, by rw [h], rfl⟩
  · obtain ⟨k, w, hk, hw⟩ := count_engAt t f e 16
    have ht : t.engAt e = d.engAt e := by rw [hn]; rfl
    rw [ht] at hk hw
    exact ⟨k, w, (d.engAt e).icache, by rw [h, hk], hw⟩
  · obtain ⟨k, w, hk, hw⟩ := count_engAt t f e 16
    obtain ⟨m, hm⟩ := onIcache_engAt (t.count (.engine f) 16) f e l
    have ht : t.engAt e = d.engAt e := by rw [hn]; rfl
    rw [ht] at hk hw
    exact ⟨k, w, m, by rw [h, hm, hk], hw⟩

/-- What `executes` asks for, part by part. -/
theorem executes_iff (s : State) (c : CoreId) (w : Word) (n tail : Nat) : s.executes c w n tail = true ↔
   s.dev.coreRuns c = true ∧ s.dev.fetches c = true ∧ wordCause c.profile w = none ∧
   (s.dev.fetched c).overrun c ((s.dev.fetched c).cyclesOf c n) tail = none := by
  simp [State.executes, and_assoc]

/-- An executed instruction is its work on the fetched device, carried out. -/
theorem issue_runs (s : State) (c : CoreId) (w : Word) (n k tail : Nat) (work : Chip → IOut)
   (h : s.executes c w k tail = true) :
   s.chip (fun m => issue m c w n tail work) =
     s.chip fun m => (work (m.1.fetched c, m.2)).finish (m.1.fetched c, m.2) c n tail := by
  obtain ⟨h1, h2, h3, _⟩ := (executes_iff ..).1 h
  simp only [State.chip, issue, h1, fetches_ok h2, h3, if_true]

/-- An instruction whose work answers a next chip falls through with that effect. -/
theorem issue_next (s : State) (c : CoreId) (w : Word) (n tail : Nat) (work) (f : Dev → Dev)
   (h : s.executes c w n tail = true) (hw : work ((s.fetched c).dev, s.otp) = .next (f (s.fetched c).dev, s.otp)) :
   s.chip (fun m => issue m c w n tail work) = s.falls c n f := by
  obtain ⟨_, _, _, h4⟩ := (executes_iff ..).1 h
  rw [issue_runs s c w n n tail work h]
  simp only [State.fetched, State.any] at hw
  simp only [State.chip, hw, IOut.finish, IOut.cycles, h4, State.falls, State.fetched, State.any]

/-- A scalar instruction falls through with its effect on the core. -/
theorem issueCore_next (s : State) (c : CoreId) (w : Word) (n : Nat) (f : Core → Core)
   (h : s.executes c w n 0 = true) :
   s.chip (fun m => issueCore m c w n f) = s.falls c n (fun d => d.onCore c f) :=
  issue_next s c w n 0 _ _ h rfl

/-- Two effects that agree on the core they act on are one. -/
theorem onCore_congr (d : Dev) (c : CoreId) (f g : Core → Core) (h : f (d.coreAt c) = g (d.coreAt c)) : d.onCore c f = d.onCore c g := by
  cases c <;> simp_all [Dev.onCore, Dev.coreAt, Dev.onEng, Dev.engAt, upd]

/-- The same under `falls`. -/
theorem falls_congr (s : State) (c : CoreId) (n : Nat) (f g : Core → Core)
   (h : f ((s.fetched c).dev.coreAt c) = g ((s.fetched c).dev.coreAt c)) :
   s.falls c n (fun d => d.onCore c f) = s.falls c n (fun d => d.onCore c g) := by
  simp only [State.falls, State.any, onCore_congr _ _ _ _ h]

/-- A scalar instruction, its effect given by any function that agrees on the core as it stands. -/
theorem exec_core (s : State) (c : CoreId) (w : Word) (n : Nat) (f g : Core → Core)
   (h : s.executes c w n 0 = true) (hf : f ((s.fetched c).dev.coreAt c) = g ((s.fetched c).dev.coreAt c)) :
   s.chip (fun m => issueCore m c w n f) = s.falls c n (fun d => d.onCore c g) :=
  (issueCore_next s c w n f h).trans (falls_congr s c n f g hf)

/-- An instruction whose work transfers control flows on with that effect. -/
theorem issue_jump (s : State) (c : CoreId) (w : Word) (n k tail : Nat) (work) (f : Dev → Dev)
   (h : s.executes c w k tail = true) (hw : work ((s.fetched c).dev, s.otp) = .jump (f (s.fetched c).dev, s.otp) k) :
   s.chip (fun m => issue m c w n tail work) = s.flows c k f := by
  obtain ⟨_, _, _, h4⟩ := (executes_iff ..).1 h
  rw [issue_runs s c w n k tail work h]
  simp only [State.fetched, State.any] at hw
  simp only [State.chip, hw, IOut.finish, IOut.cycles, h4, State.flows, State.fetched, State.any]

/-- An instruction whose work stops its core. -/
theorem issue_stop (s : State) (c : CoreId) (w : Word) (n tail : Nat) (work) (f : Dev → Dev)
   (h : s.executes c w n tail = true)
   (hw : work ((s.fetched c).dev, s.otp) = .stop ((s.fetched c).dev, s.otp) f) :
   s.chip (fun m => issue m c w n tail work) =
     (s.fetched c).any (fun d => (f (d.count c (d.cyclesOf c n))).endStep c) := by
  obtain ⟨_, _, _, h4⟩ := (executes_iff ..).1 h
  rw [issue_runs s c w n n tail work h]
  simp only [State.fetched, State.any] at hw
  simp only [State.chip, hw, IOut.finish, IOut.cycles, h4, State.fetched, State.any]

/-- An instruction whose work traps after an effect on the device. -/
theorem issue_trapD (s : State) (c : CoreId) (w : Word) (n tail : Nat) (work) (d : Dev) (code : Byte) (tval : Word)
   (h : s.executes c w n tail = true) (hw : work ((s.fetched c).dev, s.otp) = .trap d code tval) :
   s.chip (fun m => issue m c w n tail work) =
     (s.fetched c).any fun d' => ((d.count c (d'.cyclesOf c n)).trapAt c code (d'.coreAt c).pc tval).endStep c := by
  obtain ⟨_, _, _, h4⟩ := (executes_iff ..).1 h
  rw [issue_runs s c w n n tail work h]
  simp only [State.fetched, State.any] at hw
  simp only [State.chip, hw, IOut.finish, IOut.cycles, h4, State.fetched, State.any]

/-- An instruction whose work traps. -/
theorem issue_trap (s : State) (c : CoreId) (w : Word) (n tail : Nat) (work) (code : Byte) (tval : Word)
   (h : s.executes c w n tail = true)
   (hw : work ((s.fetched c).dev, s.otp) = .trap (s.fetched c).dev code tval) :
   s.chip (fun m => issue m c w n tail work) = s.traps c n code tval := by
  rw [issue_trapD s c w n tail work _ code tval h hw, State.traps]
  exact State.any_congr rfl

/-- A result that leaves the flags is a register write. -/
theorem result_none (x : Core) (r : BitVec 5) (v : Word) : x.result r (v, x.flg) = x.put r v := by
  unfold Core.result Core.put; split <;> rfl

/-- An instruction whose work answers a next chip with its own OTP. -/
theorem issue_nextO (s : State) (c : CoreId) (w : Word) (n tail : Nat) (work) (d : Dev) (o : Otp)
   (h : s.executes c w n tail = true) (hw : work ((s.fetched c).dev, s.otp) = .next (d, o)) :
   s.chip (fun m => issue m c w n tail work) = { s with otp := o }.falls c n fun _ => d := by
  obtain ⟨_, _, _, h4⟩ := (executes_iff ..).1 h
  rw [issue_runs s c w n n tail work h]
  simp only [State.fetched, State.any] at hw
  simp only [State.chip, hw, IOut.finish, IOut.cycles, h4, State.falls, State.fetched, State.any]

/-- Two effects that agree on the chip as it stands are one. -/
theorem chip_congr (s : State) (f g : Chip → Chip) (h : f (s.dev, s.otp) = g (s.dev, s.otp)) : s.chip f = s.chip g := by
  simp only [State.chip, h]

/-- Two effects that agree on the engine they act on are one. -/
theorem onEng_congr (d : Dev) (e : Fin 8) (f g : Engine → Engine) (h : f (d.engAt e) = g (d.engAt e)) : d.onEng e f = d.onEng e g := by
  simp only [Dev.engAt] at h
  simp [Dev.onEng, upd, h]

/-- The same under `falls`. -/
theorem falls_engCongr (s : State) (c : CoreId) (n : Nat) (e : Fin 8) (f g : Engine → Engine)
   (h : f ((s.fetched c).dev.engAt e) = g ((s.fetched c).dev.engAt e)) :
   s.falls c n (fun d => d.onEng e f) = s.falls c n (fun d => d.onEng e g) := by
  simp only [State.falls, State.any, onEng_congr _ _ _ _ h]

/-- A vector instruction, its effect given by any function that agrees on the engine as it stands. -/
theorem exec_eng (s : State) (e : Fin 8) (w : Word) (n : Nat) (f g : Engine → Engine)
   (h : s.executes (.engine e) w n 0 = true)
   (hf : f ((s.fetched (.engine e)).dev.engAt e) = g ((s.fetched (.engine e)).dev.engAt e)) :
   s.chip (fun m => issueEng m e w n f) = s.falls (.engine e) n (fun d => d.onEng e g) :=
  (issue_next s _ w n 0 _ (fun d => d.onEng e f) h rfl).trans (falls_engCongr s _ n e f g hf)

/-- The modifier of an unpredicated shift names no predicate. -/
theorem shiftMod_none_bit : ∀ n : BitVec 5, (shiftMod n none).getLsbD 3 = false := by decide

/-- The modifier of a predicated shift names one. -/
theorem shiftMod_some_bit : ∀ (n : BitVec 5) (q : BitVec 3), (shiftMod n (some q)).getLsbD 3 = true := by decide

/-- Which predicate it names. -/
theorem shiftMod_some_pred : ∀ (n : BitVec 5) (q : BitVec 3), (shiftMod n (some q)).extractLsb' 0 3 = q := by decide

/-- The shift amount without a predicate. -/
theorem shiftMod_none_shift : ∀ n : BitVec 5, (shiftMod n none).extractLsb' 4 5 = n := by decide

/-- The shift amount beside a predicate. -/
theorem shiftMod_some_shift : ∀ (n : BitVec 5) (q : BitVec 3), (shiftMod n (some q)).extractLsb' 4 5 = n := by decide

/-- The shift amount of either modifier. -/
theorem shiftMod_n (n : BitVec 5) (p : Option (BitVec 3)) : ((shiftMod n p).extractLsb' 4 5) = n := by
  cases p; exact shiftMod_none_shift n; exact shiftMod_some_shift n _

/-- The lanes that a shift's predicate enables. -/
theorem lanes_pred (g : Engine) (n : BitVec 5) (p : Option (BitVec 3)) : g.lanes (shiftMod n p) = match p with
      | none => 0xFFFF
      | some q => g.pget q.toNat := by
  cases p with
  | none => simp only [Engine.lanes, shiftMod_none_bit]; rfl
  | some q => simp only [Engine.lanes, shiftMod_some_bit, shiftMod_some_pred, if_true]

/-! Least cycles of the rows whose count a statement names (05 R143). -/

theorem rowCycles_A8 : rowCycles 0xA8 = 4 := by simp [rowCycles, isa, isaVector, isaRow, isaPred]
theorem rowCycles_A9 : rowCycles 0xA9 = 2 := by simp [rowCycles, isa, isaVector, isaRow, isaPred]
theorem rowCycles_AD : rowCycles 0xAD = 4 := by simp [rowCycles, isa, isaVector, isaRow, isaPred]
theorem rowCycles_AE : rowCycles 0xAE = 16 := by simp [rowCycles, isa, isaVector, isaRow, isaPred]
theorem rowCycles_AF : rowCycles 0xAF = 1 := by simp [rowCycles, isa, isaVector, isaRow, isaPred]
theorem rowCycles_B0 : rowCycles 0xB0 = 1 := by simp [rowCycles, isa, isaVector, isaRow, isaPred]
theorem rowCycles_B1 : rowCycles 0xB1 = 1 := by simp [rowCycles, isa, isaVector, isaRow, isaPred]
theorem rowCycles_A3 : rowCycles 0xA3 = 2 := by simp [rowCycles, isa, isaVector, isaRow, isaPred]
theorem rowCycles_A4 : rowCycles 0xA4 = 2 := by simp [rowCycles, isa, isaVector, isaRow, isaPred]
theorem rowCycles_A5 : rowCycles 0xA5 = 16 := by simp [rowCycles, isa, isaVector, isaRow, isaPred]
theorem rowCycles_A6 : rowCycles 0xA6 = 16 := by simp [rowCycles, isa, isaVector, isaRow, isaPred]
theorem rowCycles_A7 : rowCycles 0xA7 = 8 := by simp [rowCycles, isa, isaVector, isaRow, isaPred]

end Sys2Proof.Machine
end

