-- ==== Sys2Proof/WellFormed.lean ====
section
/-! DEFINITION. Which commands the world can send: operands that stand for something the spec says can occur. A command
outside this still has its meaning; it stands for nothing real. -/

namespace Sys2Proof

open Sys2Proof.Machine

/-- Whether a soft error lies in the memory that it names (01 R10). -/
def SoftError.wf : SoftError → Bool
  | .loftSingle w => decide (w < 3145728)
  | .loftDouble w mask => decide (w < 3145728) && mask != 0
  | .trussDouble _ mask | .gableDouble _ mask | .soffitDouble _ mask => mask != 0
  | .ridgeStatic entry mask => decide (entry < 1048576) && mask != 0
  | .ridgeCell _ cell mask => decide (cell < 16384) && mask != 0
  | .ridgeOther => true

/-- Whether a command's operands can occur. -/
def Instr.wf (i : Instr) : Bool :=
  match i with
  | .write addr data _ => addr.isSome || data.isEmpty
  | .read addr n _ _ => addr.isSome || n == 0
  | .hpUnknownCommand rise fall => (hostCommand rise).isNone || (fall != ~~~rise && !(rise == 0xFF && fall == 0xFF))
  | .registerWrite _ _ len => len != 0
  | .ringEnable _ log2 => log2 != 0
  | .ringDoorbell n _ => hostProduced n.val
  | .ringConsWrite n _ => !hostProduced n.val
  | .ringCplConsWrite n _ => decide (n.val < 24)
  | .unassignedInstruction c word => (wordCause c.profile word).isSome
  | .contextCopyDone ctx => ctx != 0
  | .dsiLongPacket _ _ _ bytes _ => decide (bytes.length < 65536)
  | .scrubRead soft => soft.all SoftError.wf
  | .bootdata _ _ _ bytes => !bytes.isEmpty && decide (bytes.length ≤ 252)
  | .workerStatusMissing k => k != 0
  | .bootreq src _ => src != 0
  | .bypass opcode => jtagOf opcode == .bypass
  | _ => true

end Sys2Proof
end

