-- ==== Sys2Proof/Tests/Slice0.lean ====
section
/-! SUPPORT. The model's own tests: for every obligation with hypotheses, states and operands that meet them all together
(wit_<the obligation's name>); the values the spec's examples work out; and for every check of WellFormed a command it
refuses. -/

set_option maxRecDepth 4000
-- One proof at a time: side by side they wait for each other's checks, each with a stack of its own.
set_option Elab.async false

namespace Sys2Proof.Tests

open Sys2Proof Sys2Proof.Machine

/-! ### Small states -/

/-- The state after reset with a device of one's own. -/
def made (f : Dev → Dev) : State := { State.reset with dev := f State.reset.dev }

/-- An image whose one code section is the first `n` bytes of its core's memory. -/
def codeImage (n : Nat) : Image :=
  { sections := [{ kind := 1, addr := 0, length := n }], tasks := [], entry := 0, trapEntry := 0, hash := 0, buildId := 0,
    base := 0x40000, length := n }

/-- A safety configuration of zeros. -/
def blank : SafetyConfig :=
  { params := 0, encoder := 0, zones := 0, zoneSets := 0, superCells := 0, geometry := 0, feed := 0, field := 0, flashing := 0,
    hash := 0, headHash := 0, gableHash := 0 }

/-- The Truss, the Gable and the Soffit sequencer running, with 3 in s1, minus one in s2 and 64 in s3. -/
def cores : State := made fun d =>
  let x : Core := { d.thatch.truss with
    mode := .running, s := ((d.thatch.truss.s.set 1 3).set 2 0xFFFFFFFF).set 3 64 }
  { d with soffit := { d.soffit with powered := true }, sys := { d.sys with lock := true }, thatch := { d.thatch with
      truss := { x with pc := 0x40000000, s := x.s.set 4 0x40000100 }, gable := x, soffit := x,
      gableImage := some (codeImage 64), soffitImage := some (codeImage 64) } }

/-- An engine in an invocation of a run: context 1, in a local-store slot, its code in the cache, with the values of
`cores`. -/
def engine : State := made fun d =>
  let i : Invocation := { ctx := 1, rank := 0, handle := 1, params := 0, src := 0, ls := true, home := 0, slot := 0, cycles := 0 }
  let w : Work :=
    { patch := 0, frame := d.course.run.frame, acc := [], words := [], rest := [], finishDue := false, epochs := [],
      inv := some i }
  let x : Core := { d.thatch.truss with
    mode := .running, s := ((d.thatch.truss.s.set 1 3).set 2 0xFFFFFFFF).set 3 64 }
  let d : Dev := { d with
    thatch := { d.thatch with handles := d.thatch.handles.set 0 (some (codeImage 64)) },
    course := { d.course with active := true, run := { d.course.run with limit := 0xFFFFFF } } }
  d.onEng 0 fun g => { g with work := some w, core := x, icache := [0] }

/-- Whether a core executes every word of a list. -/
def allRun (s : State) (c : CoreId) (l : List (Word × Nat)) : Bool := l.all fun p => s.executes c p.1 p.2

/-- Whether an engine's invocation can spend `n` cycles and any the core adds (04 R122) within the run's limit (05 R158). -/
def roomy (s : State) (e : Fin 8) (n tail : Nat) : Bool :=
  match (s.dev.engAt e).work with
  | none => true
  | some w => match w.inv, s.dev.course.runOf w.frame with
    | some i, some r => decide (i.cycles + (n + 65535) + tail ≤ r.limit.toNat)
    | _, _ => true

/-- Whether an engine's cache holds the word that it executes next. -/
def cached (s : State) (e : Fin 8) : Bool :=
  s.dev.executable (.engine e) (s.dev.coreAt (.engine e)).pc &&
    (s.dev.engAt e).icache.contains ((s.dev.coreAt (.engine e)).pc.toNat / 32)

theorem fetch_of_cached {s : State} {e : Fin 8} (h : cached s e = true) : s.dev.fetch (.engine e) = .ok s.dev := by
  simp only [cached, Bool.and_eq_true] at h
  have n : (!s.dev.executable (.engine e) (s.dev.coreAt (.engine e)).pc) = false := by rw [h.1]; rfl
  simp only [Dev.fetch, n]
  exact if_pos h.2

/-- Whether an engine executes every word of a list, each with its cycles and those its last one adds, whatever
Config.extraCycles says. -/
def engineRuns (s : State) (e : Fin 8) (l : List (Word × Nat × Nat)) : Bool := l.all fun p =>
  s.dev.coreRuns (.engine e) && cached s e && (wordCause (CoreId.engine e).profile p.1).isNone &&
    roomy s e p.2.1 p.2.2

theorem executes_of_engineRuns {s : State} {e : Fin 8} {l : List (Word × Nat × Nat)} (h : engineRuns s e l = true) :
    ∀ p ∈ l, s.executes (.engine e) p.1 p.2.1 p.2.2 = true := by
  intro p hp
  have hx := List.all_eq_true.mp h p hp
  simp only [Bool.and_eq_true] at hx
  obtain ⟨⟨⟨h1, h2⟩, h3⟩, h4⟩ := hx
  have f : s.dev.fetches (.engine e) = true := by simp [Dev.fetches, fetch_of_cached h2]
  have g : s.dev.fetched (.engine e) = s.dev := by simp [Dev.fetched, fetch_of_cached h2]
  simp only [State.executes, h1, f, g, h3, Bool.true_and]
  have hc : s.dev.cyclesOf (.engine e) p.2.1 ≤ p.2.1 + 65535 := by
    have hb := (Config.extraCycles s.dev.thatch.draws).isLt
    show p.2.1 + (Config.extraCycles s.dev.thatch.draws).toNat ≤ _
    omega
  generalize s.dev.cyclesOf (.engine e) p.2.1 = n at hc
  simp only [Dev.overrun]
  simp only [roomy] at h4
  split
  · rfl
  · rename_i w hw
    rw [hw] at h4
    simp only at h4
    split
    · rename_i i r hi hr
      rw [hi, hr] at h4
      simp only [decide_eq_true_eq] at h4
      rw [if_neg (by omega)]
      rfl
    · rfl

/-- The first command of ring 0. -/
def hdr : CmdHdr := { ring := 0, index := 0, tag := 7, irq := false }

/-- A device in a mode and at an access level that serves ring 0, in the free Loft at 50000, completions at 51000. -/
def ready (m : Mode) (level : BitVec 2) : State := made fun d =>
  let r : Ring := { d.ringAt 0 with enabled := true, log2 := 4, base := 0x50000, cplBase := 0x51000, irqCount := 0 }
  { d with sys := { d.sys with mode := m }, acc := { d.acc with level := level }, rings := d.rings.set 0 r }

/-- The arguments of a command, the rest 0. -/
def args (a b c : Word) : Args := #v[a, b, c, 0, 0, 0, 0]

/-- The same with bytes in its Loft. -/
def holding (s : State) (a : Nat) (bs : List Byte) : State :=
  s.any fun d => { d with loft := { d.loft with cells := writeBytes d.loft.cells a bs } }

/-- The same with an image of profile P at handle 1. -/
def imaged (s : State) : State :=
  s.any fun d => { d with thatch := { d.thatch with handles := d.thatch.handles.set 0 (some (codeImage 64)) } }

/-! ### Witnesses of the statements' hypotheses: Thatch -/

theorem wit_ScalarSumsAndFlags : allRun cores .truss [(encR 0x01 5 1 2 0, 1), (encR 0x02 5 1 2 0, 1), (encI 0x03 5 1 0x3FFF, 1),
    (encR 0x04 0 1 2 0, 1), (encR 0x05 31 1 2 0, 1), (encR 0x1C 5 2 2 0, 1), (encR 0x1D 5 1 2 0, 1), (encR 0x1E 5 2 2 0, 1),
    (encR 0x1F 5 1 2 0, 1)] = true ∧
    allRun cores .gable [(encR 0x01 5 1 2 0, 1), (encR 0x1C 31 2 2 0, 1)] = true ∧
    allRun cores .soffit [(encR 0x01 15 1 2 0, 1)] = true := by decide

theorem wit_ScalarBitsAndShifts : allRun cores .truss [(encR 0x06 5 1 2 0, 1), (encR 0x07 5 1 2 0, 1), (encR 0x08 5 1 2 0, 1),
    (encI 0x09 5 1 0x3FFF, 1), (encI 0x0A 5 1 0, 1), (encI 0x0B 5 1 1, 1), (encR 0x0C 5 1 3 0, 1), (encR 0x0D 5 1 3 0, 1),
    (encR 0x0E 5 2 3 0, 1), (encI 0x0F 5 1 31, 1), (encI 0x10 5 1 31, 1), (encI 0x11 5 2 31, 1), (encR 0x12 5 0 0 0, 1)] = true := by
  decide

theorem wit_ScalarProductsAndQuotients : allRun cores .truss [(encR 0x13 5 1 2 0, 2), (encR 0x14 5 1 2 0, 2), (encR 0x15 5 2 2 0, 2),
    (encR 0x16 5 2 2 0x7F, 3), (encR 0x17 5 2 2 0x60, 3), (encR 0x18 5 1 2 0, 34), (encR 0x19 5 1 2 0, 34), (encR 0x1A 5 1 2 0, 34),
    (encR 0x1B 5 1 2 0, 34), (encR 0x18 5 1 0 0, 34), (encR 0x19 5 1 0 0, 34), (encR 0x1A 5 1 0 0, 34), (encR 0x1B 5 1 0 0, 34),
    (encR 0x2C 5 1 0 31, 1), (encR 0x2D 5 1 0 30, 1)] = true ∧
    (cores.dev.coreAt .truss).get 2 ≠ 0 ∧ (cores.dev.coreAt .truss).get 0 = 0 := by decide

theorem wit_ScalarChoicesAndConstants : allRun cores .truss [(encR 0x20 5 1 2 0, 1), (encR 0x21 5 1 2 0, 1), (encR 0x22 5 1 2 0, 1),
    (encR 0x23 5 1 2 0, 1), (encR 0x24 5 1 2 0, 1), (encR 0x25 5 1 2 0, 1), (encR 0x26 5 1 1 0, 1), (encI 0x27 5 1 0x3FFF, 1),
    (encI 0x28 5 1 0x3FFF, 1), (encR 0x29 5 1 2 3, 1), (encL 0x2A 5 0x7FFFF, 1), (encL 0x2B 5 0x40000, 1)] = true := by decide

/-- `cores` with full stacks. -/
def full : State := cores.any fun d => d.onCore .truss fun x =>
  { x with rstack := List.replicate CoreId.truss.rmax 0x40000000,
           lstack := List.replicate CoreId.truss.lmax { start := 0x40000000, last := 0x40000000, left := 2, depth := 0 } }

theorem wit_ControlFlowTargets :
    allRun cores .truss [(encB 0x41 1 1 0x1FFF, 2), (encB 0x42 1 2 0x2000, 2), (encB 0x43 2 1 1, 2), (encB 0x44 1 2 1, 2),
      (encB 0x45 1 2 1, 2), (encB 0x46 2 1 1, 2), (encB 0x41 1 2 1, 1), (encB 0x42 1 1 1, 1), (encB 0x43 1 2 1, 1),
      (encB 0x44 2 1 1, 1), (encB 0x45 2 1 1, 1), (encB 0x46 1 2 1, 1), (encL 0x47 0 0x40000, 2), (encL 0x48 0 4, 2),
      (encL 0x49 0 0, 2), (encR 0x4A 0 4 0 0, 2), (encR 0x4A 0 3 0 0, 2), (encR 0x4B 0 4 0 0, 2), (encR 0x4B 0 3 0 0, 2),
      (encL 0x4C 0 0x7FFFF, 1), (encL 0x4C 0 0, 1), (encL 0x4C 0 1, 1), (encI 0x4D 0 1 0x1FF, 1), (encI 0x4D 0 1 0, 1),
      (encI 0x4D 0 0 1, 1), (encL 0xE4 0 0, 2)] = true ∧
    (let x := (cores.dev.coreAt .truss).get 1
     let y := (cores.dev.coreAt .truss).get 2
     (x == x) = true ∧ (x != y) = true ∧ y.toInt < x.toInt ∧ x.toNat < y.toNat) ∧
    (cores.dev.coreAt .truss).rstack = [] ∧ (cores.dev.coreAt .truss).lstack.length < CoreId.truss.lmax ∧
    cores.dev.executable .truss ((cores.dev.coreAt .truss).get 4) = true ∧
    cores.dev.executable .truss ((cores.dev.coreAt .truss).get 3) = false ∧
    allRun full .truss [(encL 0x48 0 4, 2), (encL 0x49 0 0, 2), (encL 0x4C 0 0x7FFFF, 1), (encI 0x4D 0 1 1, 1)] = true ∧
    CoreId.truss.rmax ≤ (full.dev.coreAt .truss).rstack.length ∧ CoreId.truss.lmax ≤ (full.dev.coreAt .truss).lstack.length := by
  decide

/-- `cores` with a debugger attached, the Truss waiting for an event it has, the Gable's pc outside its code, and words the
Truss cannot execute. -/
def attached : State := cores.any fun d =>
  let d : Dev := { d with acc := { d.acc with attached := true } }
  d.onCore .gable fun x => { x with pc := 64 }

theorem wit_SystemInstructionsAndWordTraps :
    allRun cores .truss [(encL 0x40 0 0, 1), (encL 0x52 0 0, 1), (encI 0x4E 5 0 0x0F, 1), (encI 0x4F 5 1 0, 1),
      (encI 0x4F 5 1 1, 1), (encI 0x4F 5 1 2, 1), (encI 0x4F 5 1 0x0E, 1), (encI 0x4F 5 1 0x0F, 1), (encI 0x50 0 0 0x3FFF, 1),
      (encL 0x51 0 0, 1)] = true ∧
    cores.dev.acc.attached = false ∧ attached.dev.acc.attached = true ∧
    attached.executes .truss (encL 0x51 0 0) 1 = true ∧
    (wordCause CoreId.gable.profile 0 = some 0x01 ∧ cores.dev.coreRuns .gable = true ∧ cores.dev.fetches .gable = true ∧
      (cores.dev.fetched .gable).overrun .gable ((cores.dev.fetched .gable).cyclesOf .gable 1) 0 = none) ∧
    (attached.dev.coreRuns .gable = true ∧ attached.dev.executable .gable (attached.dev.coreAt .gable).pc = false ∧
      attached.dev.overrun .gable (attached.dev.cyclesOf .gable 1) 0 = none) := by decide

/-- `cores` with a Truss image that has a trap handler. -/
def handled : State := cores.any fun d =>
  { d with thatch := { d.thatch with trussImage := some { codeImage 64 with trapEntry := 0x40000040 } } }

/-- `cores` after a Gable loss. -/
def lost : State := cores.any fun d => { d with gbl := { d.gbl with lost := 1 } }

theorem wit_TrapEntryByProfile :
    cores.executes .truss (encI 0x50 0 0 7) 1 = true ∧
    ((match cores.dev.thatch.trussImage with | none => 0 | some i => i.trapEntry) : Word) = 0 ∧
    handled.executes .truss (encI 0x50 0 0 7) 1 = true ∧ handled.dev.thatch.truss.inHandler = false ∧
    ((match handled.dev.thatch.trussImage with | none => 0 | some i => i.trapEntry) : Word) ≠ 0 ∧
    lost.executes .gable (encI 0x50 0 0 7) 1 = true ∧ lost.dev.gbl.lost ≠ 0 ∧
    cores.executes .soffit (encI 0x50 0 0 7) 1 = true := by decide

/-- `cores` with addresses in s5 to s10: Loft memory (its first byte, an odd byte, the last word), Truss memory, and an
unmapped register. -/
def pointed : State := cores.any fun d => d.onCore .truss fun x =>
  { x with s := (((((x.s.set 5 0x40000).set 6 0x40001).set 7 0x17FFFFC).set 8 0x40000100).set 9 0x2FFFFFF0).set 10 0x40000102 }

/-- Whether a load of the Truss answers. -/
def loads (s : State) (a : Word) (n : Nat) : Option Nat :=
  match memLoad (s.dev, s.otp) .truss a n with
  | .ok x => some (leNat x.1)
  | .error _ => none

/-- Whether a store of the Truss answers. -/
def stores (s : State) (a : Word) (n : Nat) : Bool :=
  match memStore (s.dev, s.otp) .truss a (leBytes 3 n) with
  | .ok _ => true
  | .error _ => false

theorem wit_LoadsAndStores :
    (let r (a : Word) : Nat := memCycles .truss a false
     let w (a : Word) : Nat := memCycles .truss a true
     allRun pointed .truss [(encI 0x60 1 5 0, r 0x40000), (encI 0x61 1 5 0, r 0x40000), (encI 0x62 1 5 0, r 0x40000),
        (encI 0x63 1 5 0, r 0x40000), (encI 0x64 1 5 0, r 0x40000), (encI 0x60 1 8 0, r 0x40000100), (encI 0x60 1 9 0, r 0x2FFFFFF0),
        (encI 0x60 1 6 0, r 0x40001), (encI 0x61 1 6 0, r 0x40001), (encI 0x65 1 5 0, w 0x40000), (encI 0x66 1 5 0, w 0x40000),
        (encI 0x67 1 5 0, w 0x40000), (encI 0x65 1 10 0, w 0x40000102), (encI 0x66 1 6 0, w 0x40001)] = true) ∧
    loads pointed 0x40000 4 = some 0 ∧ loads pointed 0x17FFFFC 4 = some 0 ∧ loads pointed 0x40000100 4 = some 0 ∧
    loads pointed 0x40000 2 = some 0 ∧ loads pointed 0x40000 1 = some 0 ∧
    loads pointed 0x2FFFFFF0 4 = none ∧ loads pointed 0x40001 4 = none ∧
    stores pointed 0x40000 4 = true ∧ stores pointed 0x40000 2 = true ∧ stores pointed 0x40001 1 = true ∧
    (0x40001 : Word).toNat % 4 ≠ 0 ∧ (0x40000102 : Word).toNat % 4 ≠ 0 := by decide

theorem wit_StoresReachTheirMemory :
    let inside (a : Word) (n lo hi : Nat) : Prop := (n = 1 ∨ n = 2 ∨ n = 4) ∧ a.toNat % n = 0 ∧ lo ≤ a.toNat ∧ a.toNat + n ≤ hi
    cores.dev.memWf = true ∧ engine.dev.memWf = true ∧
    inside 0x40000000 4 0x40000000 0x40020000 ∧ inside 0x4001FFFF 1 0x40000000 0x40020000 ∧
    cores.dev.thatch.trussMem.ue = [] ∧ inside 0 4 0 loftSize ∧ inside 0x17FFFFC 4 0 loftSize ∧
    (inside 0x40 4 0 0x1F000 ∧ inside 0x1EFFC 4 0 0x1F000 ∧ (codeImage 64).inSection [1] 0x40 = false) ∧
    cores.dev.thatch.gableImage = some (codeImage 64) ∧ cores.dev.thatch.gableMem.ue = [] ∧
    (inside 0x1F000 4 0x1F000 0x20000 ∧ inside 0x3C 4 0 0x20000 ∧ (codeImage 64).inSection [1] 0x3C = true) ∧
    (inside 0x1FFC 4 0 0x2000 ∧ cores.dev.thatch.soffitImage = some (codeImage 64) ∧
      (codeImage 64).inSection [1] 0x1FFC = false ∧ cores.dev.thatch.soffitMem.ue = []) ∧
    0x2000 < (0x2000 : Word).toNat + 4 ∧
    (∃ i, engine.dev.invAt 0 = some i ∧ i.ls = true ∧ inside 0xFFC 4 0 0x1000) ∧ 0x1000 < (0x1000 : Word).toNat + 4 ∧
    (∃ i, (engine.any fun d => d.onEng 0 fun g => { g with work := g.work.map fun w =>
      { w with inv := w.inv.map fun i => { i with ls := false } } }).dev.invAt 0 = some i ∧ i.ls = false) := by
  refine ⟨by decide, by decide, by decide, by decide, by decide, by decide, by decide, by decide, by decide, by decide,
    by decide, by decide, by decide, ⟨_, rfl, by decide⟩, by decide, ⟨_, rfl, by decide⟩⟩

/-- `cores` with a safety configuration and the Gable in a task of expected signature 0; s3 names frame 64 in the top half of
its zone set field. -/
def safe : State := cores.any fun d =>
  let i : Image := { codeImage 64 with tasks := [{ entry := 0, wcet := 0x100000, sig := 0, trigger := 1 }] }
  let d : Dev := { d with gbl := { d.gbl with cfg := some blank }, rdg := { d.rdg with tickFrame := 3, pub := none },
                          sys := { d.sys with mode := .run }, thatch := { d.thatch with gableImage := some i } }
  d.onCore .gable fun x => { x with s := (x.s.set 6 0x00080003).set 7 0x1FF80 }

/-- `safe` after a publication, with another signature. -/
def published : State := safe.any fun d =>
  let p : Publication := { frame := 3, zoneSet := 0, zeros := false, time := 0, fresh := true, mismatch := 0, buf := false }
  let d : Dev := { d with rdg := { d.rdg with pub := some p } }
  d.onCore .gable fun x => { x with signat := 5 }

/-- `pointed` with an event pending on the Truss; the Truss waiting for it. -/
def pended : State := pointed.any fun d => d.onCore .truss fun x => { x with tpend := 1 }
def waiting : State := pended.any fun d => d.onCore .truss fun x => { x with mode := .waiting 5 1 }

theorem wit_GableAndTrussInstructions :
    allRun safe .gable [(encR 0xC0 5 3 1 0, 24), (encR 0xC0 5 3 1 1, 24), (encI 0xC1 5 0 3, 2), (encI 0xC2 0 0 0x3FFF, 1),
      (encL 0xC3 0 0, 1), (encI 0xC4 0 6 0, 1), (encL 0xC5 0 0, 1), (encI 0xC6 5 1 0, 2)] = true ∧
    (let g := safe.dev.thatch.gable
     (g.get 3).toNat % 8 = 0 ∧ (g.get 3).toNat + 128 ≤ 0x20000 ∧ (g.get 7).toNat + 128 = 0x20000 ∧
      safe.dev.thatch.gableMem.ue = [] ∧ g.signat = safe.dev.sigExpect ∧ safe.dev.gbl.cfg.isSome = true ∧
      safe.dev.rdg.pub = none ∧ (g.get 6).extractLsb' 0 16 = safe.dev.rdg.tickFrame ∧ 2 ^ 19 ≤ (g.get 6).toNat ∧
      safe.dev.gbl.lost = 0 ∧ safe.dev.sys.mode ≠ .proof) ∧
    (allRun published .gable [(encL 0xC3 0 0, 1), (encI 0xC4 0 6 0, 1)] = true ∧
      published.dev.thatch.gable.signat ≠ published.dev.sigExpect ∧ published.dev.rdg.pub.isSome = true) ∧
    (allRun pointed .truss [(encR 0xE0 1 8 2 0, 20), (encR 0xE1 1 8 2 0, 20), (encR 0xE0 1 5 2 0, 20), (encR 0xE2 0 1 2 0, 4),
        (encI 0xE3 5 0 0, 1), (encI 0xE3 5 1 0, 1)] = true ∧
      loads pointed 0x40000100 4 = some 0 ∧ stores pointed 0x40000100 4 = true ∧ loads pointed 0x40000 4 = some 0 ∧
      stores pointed 0x40000 4 = true ∧ (0x40000 : Word).toNat % 4 = 0 ∧ (0x40000 : Word).toNat < loftSize ∧
      pointed.dev.thatch.truss.get 0 = 0 ∧ pointed.dev.thatch.truss.get 1 ≠ 0 ∧
      pointed.dev.thatch.truss.tpend.setWidth 32 &&& pointed.dev.thatch.truss.get 1 = 0 ∧
      pended.executes .truss (encI 0xE3 5 1 0) 1 = true ∧
      pended.dev.thatch.truss.tpend.setWidth 32 &&& pended.dev.thatch.truss.get 1 ≠ 0) ∧
    (waiting.dev.coreUp = true ∧ waiting.dev.thatch.truss.mode = .waiting 5 1 ∧
      waiting.dev.thatch.truss.tpend.setWidth 32 &&& (1 : Word) ≠ 0 ∧ waiting.dev.thatch.truss.dbgHalt = false) := by decide

/-- A task, and an image that has it. -/
def task : Task := { entry := 0, wcet := 100, sig := 0, trigger := 1 }
def taskImage : Image := { codeImage 64 with tasks := [task] }

/-- `cores` with its sequencers stopped and a task of each waiting; s5 names a bad code. -/
def triggered : State := cores.any fun d =>
  { d with thatch := { d.thatch with
      gable := { d.thatch.gable with mode := .stopped }, soffit := { d.thatch.soffit with mode := .stopped },
      gableImage := some taskImage, soffitImage := some taskImage, gableWait := [0], soffitWait := [0] } }

/-- The same in those tasks, with a payload word received. -/
def tasked : State := triggered.any fun d =>
  { d with soffit := { d.soffit with payload := [7] },
           thatch := { d.thatch with gable := { d.thatch.gable with mode := .running },
                                     soffit := { d.thatch.soffit with mode := .running } } }

theorem wit_SoffitInstructionsAndTaskBounds :
    allRun cores .soffit [(encI 0xD0 15 0 0, 1), (encI 0xD1 0 1 0, 1), (encI 0xD1 0 2 0, 1), (encI 0xD2 0 1 0, 1),
      (encI 0xD3 15 0 0, 2), (encI 0xD4 0 1 0, 1), (encI 0xD5 0 0 0, 1)] = true ∧
    ((cores.dev.thatch.soffit.get 1).extractLsb' 24 8 = (0 : BitVec 8) ∧
      (cores.dev.thatch.soffit.get 2).extractLsb' 24 8 ≠ (0 : BitVec 8) ∧ cores.dev.soffit.payload = [] ∧
      cores.dev.soffit.appended.length < 8) ∧
    (tasked.executes .soffit (encI 0xD3 15 0 0) 2 = true ∧ tasked.dev.soffit.payload = [7]) ∧
    (triggered.dev.coreUp = true ∧ triggered.dev.thatch.gableWait = [0] ∧ triggered.dev.thatch.gableImage = some taskImage ∧
      taskImage.tasks[0]? = some task ∧ triggered.dev.thatch.gable.mode = .stopped ∧
      triggered.dev.thatch.gable.dbgHalt = false) ∧
    (triggered.dev.thatch.soffitWait = [0] ∧ triggered.dev.thatch.soffitImage = some taskImage ∧
      triggered.dev.thatch.soffit.mode = .stopped ∧ triggered.dev.thatch.soffit.dbgHalt = false) ∧
    (tasked.dev.imageAt .gable = some taskImage ∧ (tasked.dev.coreAt .gable).taskId.toNat = 0 ∧
      tasked.dev.coreRuns .gable = true) ∧
    (tasked.dev.imageAt .soffit = some taskImage ∧ (tasked.dev.coreAt .soffit).taskId.toNat = 0 ∧
      tasked.dev.coreRuns .soffit = true) ∧
    (((engine.dev.engAt 0).work.any fun w => (engine.dev.course.runOf w.frame).isSome) = true ∧
      engine.dev.coreRuns (.engine 0) = true) := by decide

theorem wit_VectorLaneArithmetic :
    (∀ p ∈ ([(encR 0x80 1 2 3 (predMod none), 1, 0), (encR 0x80 1 2 3 (predMod (some 7)), 1, 0), (encR 0x81 1 2 3 (predMod none), 1, 0),
      (encR 0x82 1 2 3 (predMod none), 1, 0), (encR 0x83 1 2 3 (predMod none), 1, 0), (encR 0x84 1 2 3 (predMod none), 1, 0),
      (encR 0x85 1 2 3 (shiftMod 31 (some 7)), 2, 0), (encR 0x86 1 2 3 (shiftMod 0 none), 2, 0),
      (encR 0x87 1 2 3 (shiftMod 16 none), 2, 0), (encR 0x88 1 2 3 (predMod none), 1, 0), (encR 0x89 1 2 3 (predMod none), 1, 0),
      (encR 0x8A 1 2 3 (predMod none), 1, 0), (encR 0x8B 1 2 3 (predMod none), 1, 0), (encR 0x8C 1 2 3 (predMod none), 1, 0),
      (encR 0x8D 1 2 3 (predMod none), 1, 0), (encR 0x8E 1 2 3 (predMod none), 1, 0), (encR 0x8F 1 2 0 (predMod none), 1, 0),
      (encI 0x90 1 2 31, 1, 0), (encI 0x91 1 2 31, 1, 0), (encI 0x92 1 2 31, 1, 0), (encR 0x94 1 2 0 (predMod none), 1, 0)] :
        List (Word × Nat × Nat)), engine.executes (.engine 0) p.1 p.2.1 p.2.2 = true) ∧ (15 : BitVec 5).toNat < 16 :=
  ⟨executes_of_engineRuns (by decide), by decide⟩

theorem wit_VectorMovesAndPredicates :
    ∀ p ∈ ([(encL 0x93 1 0x40000, 1, 0), (encR 0x95 1 2 0 15, 1, 0), (encR 0x96 1 2 0 15, 1, 0), (encR 0x97 1 2 3 7, 1, 0),
      (encR 0x98 1 2 3 0, 1, 0), (encR 0x99 1 2 3 0, 1, 0), (encR 0x9A 1 2 3 0, 1, 0), (encR 0x9B 1 2 3 0, 1, 0),
      (encR 0x9C 1 2 3 0, 1, 0), (encR 0x9D 1 2 3 0, 1, 0), (encR 0x9E 1 2 3 0, 1, 0), (encR 0x9F 1 2 0 0, 1, 0),
      (encR 0xA0 1 2 0 0, 1, 0), (encR 0xA1 1 2 0 0, 1, 0), (encI 0xA2 1 0 7, 1, 0), (encL 0xAA 1 0, 1, 0), (encL 0xAB 0 0, 1, 0),
      (encI 0xAC 0 2 0, 1, 0)] : List (Word × Nat × Nat)), engine.executes (.engine 0) p.1 p.2.1 p.2.2 = true :=
  executes_of_engineRuns (by decide)

/-- `engine` with a region of every kind, a source bound to the context, and the local address FC0, the parameter address
20E0, the Loft's window and a Loft address in s5 to s8. -/
def regioned : State := engine.any fun d =>
  let g (k : Nat) : Option Region := some { kind := k, base := 0x40000 * k, length := 0x40000 }
  let x : SourceDesc :=
    { fmt := 0, range := false, width := 16, height := 16, link := none, bases := Vector.replicate 3 0x40000,
      strides := Vector.replicate 3 64 }
  let r : RunSource := { desc := x, hold := none }
  let d : Dev := { d with
    regions := (((d.regions.set 0 (g 1)).set 1 (g 2)).set 2 (g 3)).set 63 (g 4)
    course := { d.course with run := { d.course.run with sources := d.course.run.sources.set 0 (some r) } } }
  d.onCore (.engine 0) fun x => { x with s := (((x.s.set 5 0xFC0).set 6 0x20E0).set 7 0x10000000).set 8 0x40000 }

theorem wit_VectorMemoryAndSources :
    (∀ p ∈ ([(encI 0xA3 1 5 0, 2, 0), (encI 0xA4 1 5 0, 2, 0), (encI 0xA7 0 6 0, 8, 0), (encI 0xA3 1 1 0, 2, 0),
      (encI 0xA3 1 7 0, 2, 0), (encR 0xA6 1 2 8 0, 16, 0), (encR 0xA6 1 2 0 0, 16, 0),
      (encR 0xA5 1 2 3 (sampleMod 0 true true), 32, 0), (encR 0xA5 1 2 3 (sampleMod 3 false false), 16, 0)] :
        List (Word × Nat × Nat)), regioned.executes (.engine 0) p.1 p.2.1 p.2.2 = true) ∧
    (regioned.dev.invAt 0).any (·.ls) = true ∧
    (let s (k : BitVec 5) : Nat := ((regioned.dev.engAt 0).core.get k).toNat
     s 5 + 64 = 0x1000 ∧ s 5 % 64 = 0 ∧ s 6 + 32 = 0x2100 ∧ s 6 % 8 = 0 ∧ s 1 % 64 ≠ 0 ∧ s 7 % 64 = 0 ∧ s 7 = 0x10000000 ∧
      ((regioned.dev.engAt 0).vget 2).toList = List.replicate 16 0 ∧ regioned.dev.inRegion [1, 3, 4] (s 8, 4) = true ∧
      regioned.dev.inRegion [1, 3, 4] (s 0, 4) = false) ∧
    regioned.dev.loft.ce = [] ∧ regioned.dev.loft.ue = [] ∧
    (regioned.dev.boundSource 0 0).isSome = true ∧ engine.dev.boundSource 0 3 = none := by
  exact ⟨executes_of_engineRuns (by decide), by decide⟩

/-- `regioned` in the finishing invocation, with the tables of kinds 3 and 4 in s9 and s10. -/
def finishing : State := regioned.any fun d =>
  let d : Dev := d.onEng 0 fun g =>
    { g with work := g.work.map fun w => { w with inv := w.inv.map fun i => { i with ctx := 0 } } }
  let d : Dev := { d with course := { d.course with run := { d.course.run with
    finish := { d.course.run.finish with handle := 1 } } } }
  d.onCore (.engine 0) fun x => { x with s := (x.s.set 9 0xC0000).set 10 0x100000 }

theorem wit_VectorPictureOperations :
    (∀ p ∈ ([(encR 0xA8 1 2 0 (predMod (some 7)), 4, 0), (encR 0xA9 0 2 3 (shiftMod 7 none), 2, 0), (encR 0xAD 1 2 9 0, 4, 0),
      (encR 0xAE 1 2 10 0, 16, 0), (encR 0xAF 1 2 0 0, 1, 0), (encR 0xB0 0 2 0 0, 1, 0), (encL 0xB1 0 0, 1, 12)] :
        List (Word × Nat × Nat)), finishing.executes (.engine 0) p.1 p.2.1 p.2.2 = true) ∧
    (∀ p ∈ ([(encR 0xA9 0 2 3 (shiftMod 7 none), 2, 0), (encR 0xAD 1 2 9 0, 4, 0), (encR 0xAF 1 2 0 0, 1, 0),
      (encR 0xB0 0 2 0 0, 1, 0)] : List (Word × Nat × Nat)), regioned.executes (.engine 0) p.1 p.2.1 p.2.2 = true) ∧
    finishing.dev.inFinish 0 = true ∧ regioned.dev.inFinish 0 = false ∧
    finishing.dev.inRegion [3] (((finishing.dev.engAt 0).core.get 9).toNat, finishing.dev.scan.emitters) = true ∧
    finishing.dev.inRegion [4] (((finishing.dev.engAt 0).core.get 10).toNat, 4100) = true ∧
    ((finishing.dev.engAt 0).core.get 10).toNat % 4 = 0 ∧ finishing.dev.loft.ce = [] ∧ finishing.dev.loft.ue = [] := by
  exact ⟨executes_of_engineRuns (by decide), executes_of_engineRuns (by decide), by decide⟩

/-! ### Witnesses of the statements' hypotheses: the machine -/

/-- State.reset with the core die held in retention; its clocks locked; with a word on the wire. -/
def down : State := made fun d => { d with sys := { d.sys with mode := .retention } }
def locked : State := made fun d => { d with sys := { d.sys with lock := true } }
def wired : State := { State.reset with wire :=
  [{ port := false, index := 0, static := 0, ceil := 5, word := 5 }, { port := true, index := 1, static := 2, ceil := 0, word := 0 }] }

theorem wit_IdleStepIsAMicrosecond : State.reset.pending = [] ∧ State.reset.dev.scan.window = false ∧ locked.pending = [] ∧ locked.dev.sys.lock = true ∧
    down.pending = [] ∧ down.dev.sys.mode = .retention := by decide

theorem wit_DownCoreDoesNothing : down.dev.coreUp = false := by decide

theorem wit_OtpIsNeverErased : State.reset.otp.grows State.reset.otp ∧ ∃ t, step State.reset = .next t :=
  ⟨⟨fun _ => ⟨fun h => ⟨h, rfl, rfl⟩, id⟩, fun _ => ⟨fun h => ⟨h, rfl, rfl, rfl⟩, id⟩, by decide, by decide, rfl, rfl⟩, _, rfl⟩

theorem wit_WordsStayUnderTheirCeilings : (∀ w ∈ wired.wire, w.word ≤ w.ceil) ∧ ∃ t, step wired = .next t :=
  ⟨by decide, _, rfl⟩

/-- A display of one tile of two emitters in its period's transfer, the first static-dark, in SERVICE under a capped
degradation. -/
def lit : State := made fun d =>
  let tiles := updN d.scan.tiles 0 fun t => { t with present := true, desc := 0x0002000100010000 }
  { d with
    sys := { d.sys with mode := .service, htime := 10 }, gbl := { d.gbl with cfg := some { blank with params := 0x00100010 } },
    scan := { d.scan with lats := true, firstLat := false, enumValid := true, frame := 7, tiles := tiles },
    rdg := { d.rdg with staticMap := [(0, 2)], deg := .cap, tickResult := some 0 } }

/-- The same with its emitters and its cell capped by the maps; with patch 0 dark by the coarse ceiling. -/
def capped (entry : Byte) : State := lit.any fun d =>
  { d with rdg := { d.rdg with staticMap := [(0, entry)], buffers := Vector.replicate 2 [(0, entry)] } }
def coarse : State := lit.any fun d => { d with rdg := { d.rdg with deg := .coarse 1 } }

theorem wit_RidgeHoldsItsCeilings :
    ((∀ w ∈ wired.wire, w.static = 2 → w.word = 0) ∧ (wired.wire.any fun w => w.static == 2) = true ∧
      ∃ t, step wired = .next t) ∧
    (mapEntry lit.dev.rdg.staticMap 0 = 2 ∧ lit.dev.gbl.cfg.isSome = true ∧ lit.dev.rdg.deg = .cap ∧
      lit.dev.serviceCap false = some 0x10) ∧
    (mapEntry (capped 1).dev.rdg.staticMap 0 = 1 ∧
      mapEntry ((capped 1).dev.newXfer false).ceil.map ((capped 1).dev.scan.cellAt 0 0) = 1 ∧
      mapEntry ((capped 2).dev.newXfer false).ceil.map ((capped 2).dev.scan.cellAt 0 0) = 2 ∧
      lit.dev.scan.placeIn 0 0 = (0, 0)) ∧
    (∃ m, coarse.dev.rdg.deg = .coarse m ∧ m.getLsbD (coarse.dev.scan.patchAt 0 0) = true) := by
  refine ⟨⟨by decide, by decide, _, rfl⟩, by decide +kernel, by decide +kernel, 1, rfl, by decide +kernel⟩

/-! ### Witnesses of the statements' hypotheses: rules of single registers and memories -/

/-- `cores` with these loops open, all at the top of the return stack. -/
def looping (l : List (Word × Word)) : State := cores.any fun d => d.onCore .truss fun x =>
  { x with lstack := l.map fun p => { start := 0x40000000, last := p.1, left := p.2, depth := 0 } }

theorem wit_LoopEndsCountDown :
    let here (e : LoopEntry) : Bool := e.last == 0x40000000 && e.depth == 0
    let stack (s : State) : List (Bool × Nat) := (s.dev.coreAt .truss).lstack.map fun e => (here e, e.left.toNat)
    let last : Word := 0x40000000
    let runs (l : List (Word × Word)) : Bool := (looping l).executes .truss (encL 0x40 0 0) 1
    (cores.dev.coreAt .truss).pc = last ∧ (cores.dev.coreAt .truss).rstack = [] ∧
    (runs [] = true ∧ stack (looping []) = []) ∧ (runs [(4, 2)] = true ∧ stack (looping [(4, 2)]) = [(false, 2)]) ∧
    (runs [(last, 2)] = true ∧ stack (looping [(last, 2)]) = [(true, 2)]) ∧
    (runs [(last, 1)] = true ∧ stack (looping [(last, 1)]) = [(true, 1)]) ∧
    (runs [(last, 1), (4, 2)] = true ∧ stack (looping [(last, 1), (4, 2)]) = [(true, 1), (false, 2)]) ∧
    (runs [(last, 1), (last, 2)] = true ∧ stack (looping [(last, 1), (last, 2)]) = [(true, 1), (true, 2)]) := by decide

theorem wit_ReturnStackTraps : CoreId.truss.rmax ≤ (full.dev.coreAt .truss).rstack.length ∧
    allRun full .truss [(encL 0x48 0 4, 2), (encR 0x4B 0 4 0 0, 2)] = true ∧
    full.dev.executable .truss ((full.dev.coreAt .truss).get 4) = true ∧
    (cores.dev.coreAt .truss).rstack = [] ∧ cores.executes .truss (encL 0x49 0 0) 2 = true := by decide

theorem wit_DerateTableAddress : State.reset.takesWrite 0x20061088 0xFFFFFFFF = true ∧
    State.reset.takesWrite 0x20061088 0 = true ∧ regioned.takesWrite 0x20061088 (0x100000 + 0x3FE00) = true ∧
    (regioned.dev.regions[63]).map (fun g => (g.kind, g.base, g.base + g.length)) = some (4, 0x100000, 0x140000) := by decide

theorem wit_UncorrectableWordMarks : State.reset.dev.coreUp = true ∧ State.reset.dev.memWf = true ∧
    0x40000 ≤ (0x40000 : Word).toNat ∧ (0x40000 : Word).toNat + (List.replicate 8 (5 : Byte)).length ≤ loftSize ∧
    (0x17FFFF8 : Word).toNat + (List.replicate 8 (5 : Byte)).length = loftSize := by decide

theorem wit_SoffitDefaults : (made fun d => { d with soffit := { d.soffit with powered := false } }).dev.soffit.powered = false ∧
    State.reset.dev.soffit.cfg = none := by decide

theorem wit_CompletionsArePosted : (ready .load 0).serves hdr 0x00 (args 0 0 0) = true ∧
    (ready .load 0).dev.relayRing hdr.ring = false ∧ hdr.irq = false ∧
    ((ready .load 0).dev.rings[hdr.ring.val]).irqCount = 0 ∧ (ready .load 0).dev.memWf = true := by decide

/-- `ready` with a source described at index 0. -/
def sourced : State := (ready .armed 2).any fun d =>
  let x : SourceDesc :=
    { fmt := 0, range := false, width := 16, height := 16, link := none, bases := Vector.replicate 3 0x40000,
      strides := Vector.replicate 3 64 }
  { d with vin := { d.vin with sources := upd d.vin.sources 0 fun s => { s with desc := some x } } }

theorem wit_LaterEffectsSupersede : (ready .armed 2).serves hdr 0x24 (args 63 0 0) = true ∧
    (ready .armed 2).dev.migrating 63 = false ∧ sourced.serves hdr 0x3A (args 1 0 0) = true ∧
    (∀ i ∈ bitsOf (1 : BitVec 16), sourced.dev.sourceDescs i ≠ []) ∧
    (ready .armed 2).serves hdr 0x41 (args 7 0 0) = true ∧ (ready .armed 2).dev.slotRefused (slotArg 7) = false := by decide

theorem wit_HpCfgReset : State.reset.dev.coreUp = true ∧ State.reset.dev.sys.stbyOut = false ∧
    (let s := made fun d => { d with sys := { d.sys with mode := .standby, stbyOut := true, stbyAt := 0 }, alwaysOn := 10000 }
     s.dev.sys.mode = .standby ∧ s.dev.sys.stbyOut = true ∧ s.dev.sys.stbyAt + 10000 = s.dev.alwaysOn) ∧
    (match Sys2Proof.Machine.exec .rstNAssert State.reset with
      | .next u => (match Sys2Proof.Machine.exec .rstNRelease u with
        | .next t => t.dev.mayEnd
        | _ => false)
      | _ => false) = true := by decide +kernel

/-! ### Witnesses of the statements' hypotheses: the host port and the rings -/

/-- A device whose port has already flagged an error. -/
def flagged : State := made fun d => { d with hp := { d.hp with flags := 0x10 } }

theorem wit_HostPortCommands : State.reset.dev.coreUp = true ∧
    (0x40000 ≤ (0x40000 : Word).toNat ∧ (0x17FFFFF : Word).toNat + ([5] : List Byte).length = loftSize ∧ ([5] : List Byte) ≠ [] ∧
      State.reset.dev.memWf = true) ∧
    State.reset.takesWrite 0x20000100 0x0802 = true ∧
    (State.reset.dev.loft.ce = [] ∧ State.reset.dev.loft.ue = [] ∧ (0 : Word).toNat + loftSize ≤ loftSize) ∧
    ((0x20000000 : Word).toNat % 4 = 0 ∧ loftSize ≤ (0x20000000 : Word).toNat ∧
      windowRead State.reset.dev.answering 0x20000000 = none ∧ (0x20000000 : Word) ≠ 0x20000030 ∧
      (regRead State.reset.dev.answering State.reset.otp 0x20000000).isSome = true) ∧
    (∀ c : Byte, State.reset.dev.hp.proto ≠ 2 ∧ (0xFF : Byte) = 0xFF ∧ (c = 0xFE ∨ c = 0 → State.reset.dev.hp.selects c 0 = none)) ∧
    ({ State.reset.dev.hp with proto := 2 } : HostPort).selects 0x02 0x02 = none ∧ flagged.dev.hp.selects 0 0 = none ∧
    flagged.dev.coreUp = true ∧ flagged.dev.hp.flags.getLsbD 4 = true ∧
    State.reset.dev.hp.flags = 0 := by decide

/-- A device with these values in a ring. -/
def ringed (n : Fin 32) (f : Ring → Ring) : State := made fun d => { d with rings := upd d.rings n f }

theorem wit_RingRegisterCommands : State.reset.dev.coreUp = true ∧ (State.reset.dev.ringAt 23).enabled = false ∧
    (0xFFFFFFC0 : Word).toNat % 64 = 0 ∧ (0xFFFFFFC1 : Word).toNat % 64 ≠ 0 ∧ (ringed 0 fun r => { r with enabled := true }).dev.coreUp = true ∧
    (let s := ringed 5 fun r => { r with base := 0x50000, cplBase := 0x51000 }
     (s.dev.ringAt 5).enabled = false ∧ (4 : BitVec 4) ≠ 0 ∧ s.dev.enableCause 5 4 = 0 ∧ s.dev.sys.recordOwed = false) ∧
    (let s := ringed 23 fun r => { r with base := 0x50000, cplBase := 0x80000 }
     (s.dev.ringAt 23).enabled = false ∧ s.dev.enableCause 23 12 = 0 ∧ s.dev.sys.recordOwed = false ∧ s.dev.roof.relay = false) ∧
    (let s := ringed 31 fun r => { r with enabled := true, stopping := true }
     (s.dev.ringAt 31).enabled = true ∧ (s.dev.ringAt 31).stopping = true ∧ (s.dev.ringAt 31).inService = none) ∧
    (let s := ringed 23 fun r => { r with enabled := true, log2 := 4, prod := 0xFFFF, cons := 0xFFF8 }
     let r := s.dev.ringAt 23
     hostProduced 23 = true ∧ r.enabled = true ∧ r.held ≤ ((8 : BitVec 16) - r.cons).toNat ∧
      ((8 : BitVec 16) - r.cons).toNat = r.entries ∧ r.entries < ((9 : BitVec 16) - r.cons).toNat) ∧
    (let s := ringed 24 fun r => { r with enabled := true, log2 := 4, prod := 2, cons := 0xFFFE }
     let r := s.dev.ringAt 24
     hostProduced 24 = false ∧ r.enabled = true ∧ (r.prod - 0xFFFE).toNat = r.held ∧ r.held < (r.prod - 0xFFFD).toNat) ∧
    (let s := ringed 23 fun r => { r with enabled := true, log2 := 4, cplProd := 2, cplCons := 0xFFFE }
     let r := s.dev.ringAt 23
     r.enabled = true ∧ (r.cplProd - 0xFFFE).toNat ≤ r.cplHeld ∧ (r.cplProd - 0xFFFE).toNat < r.entries) ∧
    (let s := ringed 23 fun r => { r with oldest := some 0, irqTime := 1 }
     let t : State := s.any fun d => { d with sys := { d.sys with htime := 1 } }
     (t.dev.ringAt 23).oldest = some 0 ∧ signals 23 = true ∧ (t.dev.ringAt 23).irqTime ≠ 0 ∧
      0 + (t.dev.ringAt 23).irqTime.toNat ≤ t.dev.now) ∧
    (let s := ringed 24 fun r => { r with enabled := true, log2 := 4, lost := 1 }
     reportRings.contains 24 = true ∧ s.dev.dropDue 24 = true ∧ s.dev.coreUp = true) := by decide

/-! ### Witnesses of the statements' hypotheses: ring commands -/

/-- A table of a timing mode: 24 kHz frames of depth 8. -/
def tmodeBytes : List Byte := leBytes 416667 4 ++ [8, 1, 1, 0] ++ List.replicate 8 0

theorem wit_CommandsAnsweredAtOnce :
    (ready .boot 0).serves hdr 0x00 (args 0 0 0) = true ∧
    ((ready .proof 0).serves hdr 0x01 (args 5 0 0) = true ∧ Mode.ofCode (slice (5 : Word) 0 4) = some .proof ∧
      (ready .proof 0).dev.sys.pending = none ∧ (ready .proof 0).dev.modeFault .proof = none) ∧
    ((ready .armed 0).serves hdr 0x01 (args 4 0 0) = true ∧ Mode.ofCode (slice (4 : Word) 0 4) = some .load ∧
      (ready .armed 0).dev.modeFault .load = none ∧ modeRow (ready .armed 0).dev.sys.trimFromArmed .armed .load = some false) ∧
    (ready .load 0).serves hdr 0x02 (args 5 0 0) = true ∧
    ((imaged (ready .load 0)).serves hdr 0x11 (args 1 0 0) = true ∧
      ((imaged (ready .load 0)).dev.thatch.handles[(0 : Fin 64)]).isSome = true ∧
      (imaged (ready .load 0)).dev.handleUsed 1 = false) ∧
    (let a := args 0x43F 0x60000 0x40
     (ready .load 0).serves hdr 0x18 a = true ∧ (a[0].extractLsb' 8 4).toNat ≤ 4 ∧ regionArg a[0] = 63 ∧
      a[1].toNat % 64 = 0 ∧ a[2].toNat % 64 = 0 ∧ a[2] ≠ 0 ∧ inFreeLoft (a[1].toNat, a[2].toNat) = true ∧
      ((ready .load 0).dev.takenRanges 63).any (rangesMeet (a[1].toNat, a[2].toNat)) = false ∧
      (ready .load 0).dev.regionUsed 63 = false) ∧
    (let s := (ready .load 0).any fun d =>
       { d with regions := d.regions.set 63 (some { kind := 0, base := 0x60000, length := 64 }) }
     s.serves hdr 0x19 (args 63 0 0) = true ∧ (s.dev.regions[63]).isSome = true ∧ s.dev.regionUsed (regionArg 63) = false) ∧
    (let s := holding (ready .load 0) 0x40000 tmodeBytes
     s.serves hdr 0x40 (args 7 0x40000 0) = true ∧ s.dev.clean 0x40000 16 = true ∧
      (parseTMode (s.dev.loftBytes 0x40000 16)).isSome = true ∧ slotArg 7 ≠ s.dev.scan.slot) ∧
    ((ready .load 0).serves hdr 0x51 (args 0x17FFF80 0 0) = true ∧ (0x17FFF80 : Word).toNat % 8 = 0 ∧
      loftFree 0x17FFF80 128 = true) := by decide

/-- `ready` with a suspended context 63 in a local-store slot, bound to image 1, and bytes for a mask, a place for
parameters. -/
def bound : State := holding (imaged ((ready .armed 2).any fun d =>
  { d with course := { d.course with ctx := upd d.course.ctx 63 fun x => { x with state := .suspended, ls := true } } }))
  0x52000 [1]

/-- The same with the context ready and its device in a roof. -/
def roofed : State := bound.any fun d =>
  { d with course := { d.course with ctx := upd d.course.ctx 63 fun x => { x with state := .ready, ls := true } },
           roof := { d.roof with ringUp := true, workers := 2 } }

theorem wit_ContextCommandsAreDeferred :
    (let s := holding (imaged (ready .armed 0)) 0x52000 [1]
     let a : Args := #v[63, 1, 0, 0x52000, 0x17FFF00, 0xFF0F0001, 0x13E]
     s.serves hdr 0x20 a = true ∧ (63 : Fin 64) ≠ 0 ∧ (a[0].extractLsb' 0 6).toNat = 63 ∧ s.dev.migrating 63 = false ∧
      (s.dev.thatch.handles[(0 : Fin 64)]).isSome = true ∧ s.dev.clean 0x52000 32 = true ∧
      maskOf (s.dev.loftBytes 0x52000 32) ≠ 0 ∧ s.dev.clean 0x17FFF00 256 = true ∧ bindingsOk a[5] = true ∧
      (a[6].extractLsb' 0 6 : BitVec 6) ≠ 63 ∧
      s.dev.rankTaken (.ctxBind 63 1 a[2] a[5] (maskOf (s.dev.loftBytes 0x52000 32)) 0 62 true) 62 63 = false ∧
      s.dev.rankReserved (a[6].extractLsb' 0 6) = none ∧ (s.dev.ctxAt 63).state = .idle ∧ a[6].getLsbD 8 = true ∧
      s.dev.slotTest (.ctxBind 63 1 a[2] a[5] (maskOf (s.dev.loftBytes 0x52000 32)) 0 62 true)
        (maskOf (s.dev.loftBytes 0x52000 32)) 63 = .free) ∧
    (bound.serves hdr 0x21 (args 63 1 0) = true ∧ bound.dev.migrating 63 = false ∧ bound.dev.moving 63 = false) ∧
    bound.serves hdr 0x22 (args 63 0x17FFF00 0) = true ∧
    (bound.serves hdr 0x23 (args 63 0x52000 62) = true ∧ bound.dev.clean 0x52000 32 = true ∧
      maskOf (bound.dev.loftBytes 0x52000 32) ≠ 0 ∧
      (bound.dev.projected (.ctxPlace 63 (maskOf (bound.dev.loftBytes 0x52000 32)) 62)).placeSplits 63
        (maskOf (bound.dev.loftBytes 0x52000 32)) = false ∧ bound.dev.rankReserved 62 = none) ∧
    bound.serves hdr 0x24 (args 63 0 0) = true ∧ bound.serves hdr 0x26 (args 63 0 0) = true ∧
    (bound.serves hdr 0x25 (args 63 0 0) = true ∧ (bound.dev.ctxAt 63).state = .suspended ∧ (bound.dev.ctxAt 63).ls = true ∧
      bound.dev.slotTest (.ctxResume 63) (bound.dev.ctxAt 63).mask 63 = .free) ∧
    (let x := bound.dev.projected (.ctxMigrate 63 (engArg 7) bound.dev.nextRun)
     bound.serves hdr 0x27 (args 63 7 0) = true ∧ (7 : Word).getLsbD 15 = false ∧ (bound.dev.ctxAt 63).ls = true ∧
      (x.engAt (engArg 7)).inService = true ∧ (x.ctxAt 63).slotValid = false ∧
      (x.groupOf 63).length ≤ (x.engAt (engArg 7)).freeSlots ∧ bound.dev.moving 63 = false) ∧
    (roofed.serves hdr 0x27 (args 63 0x8200 0) = true ∧ (0x8200 : Word).getLsbD 15 = true ∧ roofed.dev.inRoof = true ∧
      ((0x8200 : Word).extractLsb' 8 3 : BitVec 3) ≠ roofed.dev.roof.position ∧ roofed.dev.inRoofRange 2 = true ∧
      ((roofed.dev.projected (.ctxMigrate 63 0 (roofed.dev.nextRun + 1))).groupOf 63).length ≤ 1 ∧ roofed.dev.moving 63 = false ∧ roofed.dev.migrating 63 = false) ∧
    (bound.serves hdr 0x28 (args 1 0 0x17FFF00) = true ∧ bound.dev.clean 0x17FFF00 256 = true) ∧
    (bound.serves hdr 0x30 (args 7 0 0) = true ∧ (bound.dev.engAt 7).inService = true ∧ bound.dev.servingBut 7 ≠ [] ∧
      bound.dev.engineMoves 7 = false) ∧
    (bound.serves hdr 0x31 (args 7 0 0) = true ∧ (bound.dev.engAt 7).bistFail = false) := by decide

theorem leNat_leBytes : ∀ (n x : Nat), leNat (leBytes x n) = x % 256 ^ n := by
  intro n
  induction n with
  | zero => intro x; simp [leBytes, leNat, Nat.mod_one]
  | succ n ih =>
    intro x
    simp only [leBytes, leNat, ih, BitVec.toNat_ofNat]
    rw [show 2 ^ 8 = 256 from rfl, Nat.pow_succ, Nat.mul_comm (256 ^ n) 256, Nat.mod_mul]

/-- A calibration record of this die, taken at 0 degrees, its codes 0 (14 R434). -/
def recordHead : List Byte :=
  [0x54, 0x52, 0x4D, 0x53, 0, 0, 0, 1] ++ leBytes Config.dieId.toNat 8 ++ List.replicate 108 0
def record : List Byte := recordHead ++ leBytes (crc32 recordHead).toNat 4

/-- The same device with that record in the Loft at 60000. -/
def recorded : State := holding (ready .load 0) 0x60000 record

theorem record_accepted : (ready .load 0).dev.restoreCheck record = 1 := by
  have h1 : (record.drop 124).take 4 = leBytes (crc32 recordHead).toNat 4 := rfl
  have h2 : record.take 124 = recordHead := rfl
  have h3 : record.take 4 = [0x54, 0x52, 0x4D, 0x53] := rfl
  have h4 : (record.drop 18).take 2 = [0, 0] := rfl
  have h5 : (record.drop 120).take 4 = [0, 0, 0, 0] := rfl
  have h6 : (record.drop 8).take 8 = leBytes Config.dieId.toNat 8 := rfl
  have h7 : (record.drop 7).take 1 = [1] := rfl
  have h8 : (record.drop 16).take 2 = [0, 0] := rfl
  have h9 : ((upTo 48).any fun k => decide (1023 < leNat ((record.drop (24 + 2 * k)).take 2))) = false := rfl
  have c : (crc32 recordHead).toNat % 256 ^ 4 = (crc32 recordHead).toNat := Nat.mod_eq_of_lt (crc32 recordHead).isLt
  have i : Config.dieId.toNat % 256 ^ 8 = Config.dieId.toNat := Nat.mod_eq_of_lt Config.dieId.isLt
  simp only [Dev.restoreCheck, h1, h2, h3, h4, h5, h6, h7, h8, h9, leNat_leBytes, c, i]
  rw [if_neg (fun h => h rfl), if_neg (by decide), if_neg (fun h => h rfl)]
  decide

theorem wit_CommandsAnsweredAtOnce_restore : recorded.serves hdr 0x52 (args 0x60000 0 0) = true ∧
    recorded.dev.clean 0x60000 128 = true ∧ recorded.dev.restoreCheck (recorded.dev.loftBytes 0x60000 128) = 1 ∧
    recorded.dev.trim.running = false ∧ recorded.dev.trim.queued = [] := by
  have h : recorded.dev.loftBytes 0x60000 128 = record := readBytes_writeBytes record [] 0x60000 rfl
  refine ⟨rfl, rfl, ?_, rfl, rfl⟩
  rw [h]
  exact record_accepted

/-- `ready` with a source region at 60000, a stream descriptor of one buffer at 52000 and one that disables at 53000, a
source descriptor at 54000 and one that disables at 55000. -/
def pictured : State :=
  let s := sourced.any fun d => { d with regions := d.regions.set 0 (some { kind := 0, base := 0x60000, length := 0x10000 }) }
  let x : List Byte := [0, 1, 0, 0, 0, 0, 0, 0] ++ leBytes 0x60000 4 ++ List.replicate 8 0 ++ leBytes 0 4 ++ leBytes 64 4 ++
    leBytes 48 2 ++ leBytes 16 2
  let y : List Byte := leBytes 1 4 ++ leBytes 16 2 ++ leBytes 16 2 ++ leBytes 255 4 ++ leBytes 0x60000 4 ++ leBytes 64 4
  holding (holding s 0x52000 x) 0x54000 y

theorem wit_PictureCommandsAreDeferred :
    (pictured.serves hdr 0x38 (args 3 0x52000 0) = true ∧ pictured.dev.clean 0x52000 64 = true ∧
      (parseStreamDesc (pictured.dev.loftBytes 0x52000 64)).any (fun x => pictured.dev.streamOk 3 x && x.nbuf != 0) = true) ∧
    (pictured.dev.clean 0x53000 64 = true ∧
      (parseStreamDesc (pictured.dev.loftBytes 0x53000 64)).any (fun x => pictured.dev.streamOk 3 x && x.nbuf == 0) = true) ∧
    (pictured.serves hdr 0x39 (args 15 0x54000 0) = true ∧ pictured.dev.clean 0x54000 48 = true ∧
      (parseSourceDesc (pictured.dev.loftBytes 0x54000 48)).any (·.any pictured.dev.sourceOk) = true) ∧
    (pictured.dev.clean 0x55000 48 = true ∧ parseSourceDesc (pictured.dev.loftBytes 0x55000 48) = some none) ∧
    (sourced.serves hdr 0x3A (args 1 0 0) = true ∧ (∀ i ∈ bitsOf (1 : BitVec 16), sourced.dev.sourceDescs i ≠ [])) ∧
    ((ready .armed 0).serves hdr 0x41 (args 7 0 0) = true ∧ (ready .armed 0).dev.slotRefused (slotArg 7) = false) ∧
    ((ready .armed 0).serves hdr 0x42 (args 0x01400000 0 0) = true ∧
      (ready .service 0).serves hdr 0x42 (args 0x01600000 0 0) = true) ∧
    ((ready .armed 0).serves hdr 0x50 (args 0 0x8000 0) = true ∧
      ((0x8000 : Word).extractLsb' 0 16 : BitVec 16) ++ (0 : Word) ≠ 0) ∧
    ((ready .run 1).serves hdr 0x62 (args 7 0 0) = true ∧ (ready .run 1).dev.gbl.lost = 0) ∧
    (ready .safeHold 1).serves hdr 0x03 (args 0 0 0) = true ∧
    (let s := (ready .run 0).any fun d => { d with roof := { d.roof with twin := true, peerOk := true, peerHealth := 1 } }
     s.serves hdr 0x79 (args 0 0 0) = true ∧ s.dev.sys.role = 0 ∧ s.dev.roof.twin = true ∧ s.dev.roof.peerOk = true ∧
      s.dev.roof.peerHealth ≠ 0) := by decide

theorem wit_LongCommands_starts :
    ((ready .armed 0).serves hdr 0x01 (args 7 0 0) = true ∧ Mode.ofCode (slice (7 : Word) 0 4) = some .run ∧
      (ready .armed 0).dev.sys.pending = none ∧ (ready .armed 0).dev.modeFault .run = none ∧
      modeRow (ready .armed 0).dev.sys.trimFromArmed .armed .run = some true) ∧
    (ready .load 0).serves hdr 0x10 (args 0x60000 64 1) = true ∧
    (ready .load 1).serves hdr 0x60 (args 0x60000 64 0x70000) = true ∧
    (ready .load 1).serves hdr 0x61 (args 0x60000 64 0x70000) = true ∧
    ((ready .armed 0).serves hdr 0x70 (args 0 0 0) = true ∧
      (ready .armed 0).dev.injInstances 0 (ready .armed 0).dev.inj.target ≠ [] ∧ (ready .armed 0).dev.inj.busy = false) ∧
    ((ready .run 0).serves hdr 0x70 (args 54 1 0) = true ∧
      (ready .run 0).dev.injInstances 54 (ready .run 0).dev.inj.target ≠ [] ∧ (1 : Word).getLsbD 0 = true ∧
      dryBit 54 = true ∧ (ready .run 0).dev.inj.busy = false) ∧
    ((ready .armed 0).serves hdr 0x78 (args 7 0 0) = true ∧ (ready .armed 0).dev.sys.role ≠ 2 ∧
      ((ready .armed 0).dev.workerAt 7).lit = false ∧ (ready .armed 0).dev.roof.reenum = none) := by decide

/-- `ready` with one command waiting; its first byte; its word uncorrectable. -/
def asking (m : Mode) (op : Byte) (ue : List Nat) : State :=
  (holding (ready m 0) 0x50000 [op, 0, 7, 0]).any fun d =>
    { d with rings := d.rings.set 0 { d.ringAt 0 with prod := 1 }, loft := { d.loft with ue := ue } }

theorem wit_CommandTestsAndFetch :
    (ready .safeHold 0).dev.nextRing (some hdr.ring) = some hdr.ring ∧ (ready .safeHold 0).dev.acc.level.toNat < 1 ∧
    ((ready .load 1).dev.nextRing (some hdr.ring) = some hdr.ring ∧ (ready .load 1).dev.sys.mode ≠ .run ∧
      (ready .load 1).dev.sys.mode ≠ .degraded) ∧
    ((ready .armed 1).dev.nextRing (some hdr.ring) = some hdr.ring ∧ 1 ≤ (ready .armed 1).dev.acc.level.toNat) ∧
    (ready .load 0).serves hdr 0x10 (args 0 0 1) = true ∧ (ready .load 0).serves hdr 0x18 (args 0 0 0) = true ∧
    (ready .armed 0).serves hdr 0x50 (args 0 0 0) = true ∧ (ready .load 1).serves hdr 0x60 (args 0 0 0) = true ∧
    State.reset.dev.nextRing (some hdr.ring) ≠ some hdr.ring ∧
    (let able (s : State) : Bool := s.dev.coreUp && s.dev.trussServes && !s.dev.relayRing 0 && s.dev.noteStalls.nextRing none == some 0
     able (asking .load 0 [0xA000]) = true ∧ (asking .load 0 [0xA000]).dev.noteStalls.loftUe 0x50000 32 = true ∧
      able (asking .load 0x7F []) = true ∧ (asking .load 0x7F []).dev.noteStalls.loftUe 0x50000 32 = false ∧
      (commandOf 0x7F).isNone = true ∧ able (asking .load 0 []) = true ∧
      entryField ((asking .load 0x7F []).dev.noteStalls.loftBytes 0x50000 32) 0 1 = 0x7F ∧
      entryField ((asking .load 0 []).dev.noteStalls.loftBytes 0x50000 32) 0 1 = 0 ∧ Mode.load.served = true) := by decide

/-- An image of profile P at 60000, one PEND, with a signature made for it: r and s are its hash, and the key is what those
ask for. -/
def imageHead : List Byte :=
  [0x54, 0x48, 0x43, 0x48, 1, 1, 1, 0] ++ leBytes 0 8 ++ leBytes 84 4 ++ List.replicate 44 0 ++ [1, 0, 0, 0] ++
    leBytes 80 4 ++ leBytes 0x60050 4 ++ leBytes 4 4 ++ leBytes 0xB1000000 4
def imageKey : List Byte :=
  beBytes 0xE2D4FB6B316910CB0EF222C36B42ECF208AEF2206993769CED0BF04A7D094661 32 ++
    beBytes 0xD595CDE5764DE9FFC4CAECC9788F81C578228AA8E698D0819739DCA23D1F3702 32
def imageFile : List Byte := imageHead ++ imageKey ++
  beBytes 0x1FE07EE81BF03B003787CCF57FCB29DC5CA13EFF3FC283F12921E00F9A1F14C8 32 ++
    beBytes 0x1FE07EE81BF03B003787CCF57FCB29DC5CA13EFF3FC283F12921E00F9A1F14C8 32

/-- The same device with that image in a program region, a key slot for its key, and IMAGE_LOAD of it in service. -/
def loading : State :=
  let s := holding (ready .load 0) 0x60000 imageFile
  let slot : KeySlot := { programmed := true, revoked := false, mask := 2, hash := sha256Bits imageKey }
  let c : LongCommand := { hdr := hdr, opcode := 0x10, args := args 0x60000 212 1 }
  { s with
    otp := { s.otp with keys := s.otp.keys.set 3 slot },
    dev := { s.dev with regions := s.dev.regions.set 0 (some { kind := 2, base := 0x60000, length := 256 }),
                        rings := s.dev.rings.set 0 { s.dev.ringAt 0 with inService := some c } } }

theorem wit_LongCommands_image : loading.dev.coreUp = true ∧ loading.dev.trussServes = true ∧
    (loading.dev.rings[(0 : Fin 24)]).inService = some { hdr := hdr, opcode := 0x10, args := args 0x60000 212 1 } ∧
    loading.dev.clean 0x60000 212 = true ∧ loading.dev.inRegion [2] (0x60000, 212) = true ∧
    imageCheck (loading.dev.loftBytes 0x60000 212) 0x60000 212 1 = none ∧
    imageAuth loading.otp loading.dev.gbl.cfg (loading.dev.loftBytes 0x60000 212) 1 = 0 ∧ loading.dev.freeHandle = some 0 := by
  have h : loading.dev.loftBytes 0x60000 212 = imageFile := readBytes_writeBytes imageFile [] 0x60000 rfl
  rw [h]
  exact ⟨rfl, rfl, rfl, rfl, by decide +kernel, by decide +kernel, by decide +kernel, rfl⟩

theorem readBytes_writeBytes_ne (bs : List Byte) (m : Mem) (a : Nat) (h : cellWf m = true) :
    ∀ (n b : Nat), (b + n ≤ a ∨ a + bs.length ≤ b) → readBytes (writeBytes m a bs) b n = readBytes m b n := by
  intro n
  induction n with
  | zero => intro b _; rfl
  | succ n ih =>
    intro b hb
    simp only [readBytes]
    rw [cellGet_writeBytes_ne bs m a b h (by omega), ih (b + 1) (by omega)]

/-- The parts of a configuration blob: no zones, no connections, no outputs; the reset input is DI 0. -/
def blobParams : List Byte :=
  leBytes 0 4 ++ leBytes 10 4 ++ leBytes 1 4 ++ leBytes 1 4 ++ leBytes 1 4 ++ leBytes 1 4 ++ leBytes 0 4 ++ leBytes 6554 4 ++
    [0, 0, 0xFF, 0, 0, 0, 0, 0] ++ leBytes 0x3DEE1D4B 4 ++ List.replicate 212 0
def blobField : List Byte :=
  leBytes 20 2 ++ leBytes 50 2 ++ List.replicate 12 0 ++ [1, 0, 1, 1, 0xFF, 0, 0, 0] ++
    (List.replicate 7 ([0, 0, 1, 1, 0xFF, 0, 0, 0] : List Byte)).flatten ++
    (List.replicate 4 ([0, 0, 1, 0] : List Byte)).flatten ++ List.replicate 64 0
def blobEntry (t o n : Nat) : List Byte := leBytes t 4 ++ leBytes o 4 ++ leBytes n 4
def blob : List Byte :=
  [0x53, 0x46, 0x43, 0x46, 1, 10, 0, 0] ++ leBytes 7640 4 ++ List.replicate 52 0 ++
    blobEntry 1 184 256 ++ blobEntry 2 440 64 ++ blobEntry 3 504 1152 ++ blobEntry 4 1656 16 ++ blobEntry 5 1672 0 ++
    blobEntry 6 1672 4096 ++ blobEntry 7 5768 1536 ++ blobEntry 8 7304 40 ++ blobEntry 9 7344 160 ++ blobEntry 10 7504 136 ++
    blobParams ++ List.replicate 64 0 ++ List.replicate 1168 0 ++ List.replicate 4096 0 ++ List.replicate 1536 0 ++
    List.replicate 40 0 ++ blobField ++ leBytes 1 4 ++ List.replicate 132 0

theorem blob_ok : blobOk blob false = true := by decide +kernel
theorem blob_hashes : (blobConfig blob).ghash = 0 ∧ (blobConfig blob).fhash = 0 := by decide +kernel
theorem blob_length : blob.length = 7640 := by decide +kernel

/-- The CRC-32 register after `n` bytes of zero, its test there for the kernel to evaluate each in turn. -/
def crcZeros : Nat → Word → Word
  | 0, c => c
  | n + 1, c => if c.getLsbD 0 then crcZeros n (crc32Byte c 0) else crcZeros n (crc32Byte c 0)

theorem crcZeros_eq : ∀ (n : Nat) (c : Word), (List.replicate n (0 : Byte)).foldl crc32Byte c = crcZeros n c := by
  intro n
  induction n with
  | zero => intro c; rfl
  | succ n ih =>
    intro c
    rw [List.replicate_succ, List.foldl_cons, ih, crcZeros]
    split <;> rfl

theorem blob_crc : ridgeCrcOk blob = true := by
  have h : sectionBytes blob 3 ++ sectionBytes blob 4 ++ sectionBytes blob 5 ++ sectionBytes blob 6 =
      List.replicate 5264 0 := by decide +kernel
  rw [ridgeCrcOk, h, crc32, crcZeros_eq]
  decide +kernel

/-- The head of a change log that ends in that blob, under the opaque key of the device. -/
def logHead : List Byte := List.replicate 64 0 ++ keyBytes (sha256Bits blob)
def logEntry : List Byte := logHead ++ entryMac logHead

theorem keyBytes_length (k : BitVec 256) : (keyBytes k).length = 32 := rfl

theorem logHead_length : logHead.length = 96 := rfl

/-- The same device with bytes at 60000 and at 70000, the images of hash 0, and SAFETY_LOAD of them in service. -/
def configured (f e : List Byte) : State :=
  let s := (holding (ready .load 1) 0x60000 f).any fun d =>
    { d with loft := { d.loft with cells := writeBytes d.loft.cells 0x70000 e } }
  let c : LongCommand := { hdr := hdr, opcode := 0x60, args := args 0x60000 7640 0x70000 }
  s.any fun d => { d with
    thatch := { d.thatch with gableImage := some (codeImage 64), soffitImage := some (codeImage 64) },
    rings := d.rings.set 0 { d.ringAt 0 with inService := some c } }
def configuring : State := configured blob logEntry

theorem configured_cells (f e : List Byte) :
    (configured f e).dev.loft.cells = writeBytes (writeBytes [] 0x60000 f) 0x70000 e := rfl

theorem sha256_length (m : List Byte) : (sha256 m).length = 32 := by simp [sha256, beBytes4, leBytes]

theorem logEntry_length : logEntry.length = 128 := by
  rw [logEntry, List.length_append, logHead_length, entryMac, hmac, sha256_length]

theorem two_writes (f e : List Byte) (n : Nat) (hf : f.length = n) (hn : 0x60000 + n ≤ 0x70000) :
    readBytes (writeBytes (writeBytes [] 0x60000 f) 0x70000 e) 0x60000 n = f := by
  subst hf
  rw [readBytes_writeBytes_ne e _ _ (writeBytes_wf f [] _ rfl) _ _ (Or.inl hn), readBytes_writeBytes f [] _ rfl]

theorem configuring_blob : configuring.dev.loftBytes 0x60000 7640 = blob := by
  rw [Dev.loftBytes, configuring, configured_cells]
  exact two_writes blob logEntry 7640 blob_length (by omega)

theorem configuring_entry : configuring.dev.loftBytes 0x70000 128 = logEntry := by
  rw [Dev.loftBytes, configuring, configured_cells, ← logEntry_length]
  exact readBytes_writeBytes logEntry _ _ (writeBytes_wf blob [] _ rfl)

theorem blob_accepted : configuring.dev.safetyTests blob logEntry 0 = .pass := by
  have h1 : blobOk blob configuring.dev.roofRole = true := blob_ok
  have h2 : configuring.dev.imagesMatch (blobConfig blob) = true := by
    show ((codeImage 64).hash == (blobConfig blob).ghash && (codeImage 64).hash == (blobConfig blob).fhash) = true
    rw [blob_hashes.1, blob_hashes.2]
    rfl
  have h3 : keyBytes (blobConfig blob).hash = (logEntry.drop 64).take 32 := rfl
  have h4 : entryCounter logEntry = 0 := rfl
  have h5 : entryMacOk logEntry = true := by
    have a : logEntry.take 96 = logHead := rfl
    have b : logEntry.drop 96 = entryMac logHead := rfl
    have c : entryMac logEntry = entryMac logHead := by rw [entryMac, a]; rfl
    have n : (entryMac logHead).length = 32 := by rw [entryMac, hmac, sha256_length]
    rw [entryMacOk, c, b, List.take_of_length_le (Nat.le_of_eq n), beq_self_eq_true]
  simp only [Dev.safetyTests, h1, h2, h4, h5, blob_crc, ← h3]
  simp

theorem wit_LongCommands_config : configuring.dev.coreUp = true ∧ configuring.dev.trussServes = true ∧
    (configuring.dev.rings[(0 : Fin 24)]).inService =
      some { hdr := hdr, opcode := 0x60, args := args 0x60000 7640 0x70000 } ∧
    configuring.dev.clean 0x60000 7640 = true ∧ configuring.dev.clean 0x70000 128 = true ∧
    configuring.dev.safetyTests (configuring.dev.loftBytes 0x60000 7640) (configuring.dev.loftBytes 0x70000 128)
      configuring.otp.counter.toNat = .pass := by
  rw [configuring_blob, configuring_entry]
  exact ⟨rfl, rfl, rfl, rfl, rfl, blob_accepted⟩

/-! ### Witnesses of the statements' hypotheses: the picture -/

/-- A run of frame 0 with patch 255 shared and unstarted, engine 7 alone in service and idle. -/
def course : State := made fun d =>
  let d := (upTo 7).foldl (fun d e => d.onEng (Fin.ofNat 8 e) fun g => { g with svc := 2 }) d
  { d with course := { d.course with active := true, run := { d.course.run with
      shared := [255], patches := 1, done := 0, frame := 0 } } }

/-- Engine 7 with a drain of patch 255 of that run, of the current epochs; its context 63 has moved on. -/
def draining (epoch : Byte) : State := course.any fun d => (d.onCtx 63 fun x => { x with state := .ready }).onEng 7 fun g =>
  { g with drain := some { patch := 255, frame := 0, words := [], epochs := [(63, epoch)] } }

theorem wit_CourseEnginesAndRuns :
    State.reset.dev.coreUp = true ∧ State.reset.dev.canTake 7 = false ∧
    (course.dev.coreUp = true ∧ course.dev.canTake 7 = true ∧ course.dev.nextPatch 7 = some (0, 255) ∧
      (course.dev.course.runOf 0).isSome = true) ∧
    (((draining 9).dev.engAt 7).drain.any (fun x => (draining 9).dev.staleEpoch x == some 63) = true ∧
      ((draining 9).dev.engAt 7).svc ≠ 2) ∧
    (((draining ((draining 0).dev.ctxAt 63).epoch).dev.engAt 7).drain.any
      (fun x => (draining ((draining 0).dev.ctxAt 63).epoch).dev.staleEpoch x == none) = true) ∧
    (let s := course.any fun d => { d with course := { d.course with run := { d.course.run with done := 1 } } }
     s.dev.course.active = true ∧ s.dev.course.complete = true) ∧
    (course.dev.course.active = true ∧ course.dev.course.complete = false ∧ State.reset.dev.course.active = false) ∧
    (let s (svc : BitVec 2) := course.any fun d => d.onEng 7 fun g => { g with bistBusy := true, svc := svc }
     ((s 0).dev.engAt 7).bistBusy = true ∧ ((s 0).dev.engAt 7).svc = 0 ∧ ((s 1).dev.engAt 7).bistBusy = true ∧
      ((s 1).dev.engAt 7).svc ≠ 0) ∧
    (((engine.dev.engAt 0).work.any fun w => w.frame == engine.dev.course.run.frame) = true ∧ (engine.dev.engAt 0).svc = 0) ∧
    (let s := course.any fun d => d.onCtx 63 fun x => { x with copy := some (.slot 7 6) }
     (s.dev.ctxAt 63).copy = some (.slot 7 6) ∧ s.dev.oldPending 63 = false) := by decide

/-- A display that sends LATs, with the plan of the next one; with the LAT held. -/
def latching (hold : BitVec 5) : State := made fun d =>
  { d with scan := { d.scan with lats := true, latFrom := 0 }, roof := { d.roof with yieldHold := hold.setWidth _ } }

/-- A window open on a transfer of depth 0. -/
def windowed : State := lit.any fun d =>
  let x : Transfer := { d.newXfer false with depth := 0, underA := 0, underB := 0 }
  { d with scan := { d.scan with xfer := some x, window := true, step := .done, light := some { x with ndepth := 0 } } }

theorem wit_LatsAndTransferWindows :
    (let d := lit.dev.cancelCommit.sampleCommit.mapAtWindow
     (d.openXfer (d.newXfer false)).scan.window = true ∧ d.gbl.cfg.isSome = true) ∧
    (let s := lit.any fun d => { d with gbl := { d.gbl with cfg := none } }
     let d := s.dev.cancelCommit.sampleCommit.mapAtWindow
     s.dev.windowDue = true ∧ d.scan.lats = true ∧ d.gbl.cfg = none) ∧
    State.reset.dev.latDue = false ∧ State.reset.dev.windowDue = false ∧ State.reset.dev.scan.xfer = none ∧
    ((latching 0).dev.latDue = true ∧ (latching 0).dev.latPlan = some (0, 0, (latching 0).dev.scan.shadow, false)) ∧
    ((latching 1).dev.latDue = true ∧ (latching 1).dev.latPlan = some (0, 0, (latching 1).dev.scan.shadow, true)) ∧
    (lit.dev.windowDue = true ∧ (lit.dev.cancelCommit.sampleCommit.mapAtWindow).scan.lats = true) ∧
    (let d := windowed.dev.sendRest.1
     windowed.dev.coreUp = true ∧ windowed.dev.scan.window = true ∧ d.scan.window = true ∧ d.scan.step = .done ∧
      d.readsCaptures = false ∧ d.scan.xfer.any (fun x => x.underA + x.underB == 0) = true ∧ d.rdg.blockA = 0 ∧
      d.rdg.blockB = 0) ∧
    ((ready .load 0).takesWrite (0x20041000 + 16 * 127) 0xFFFFFFFF = true ∧
      (ready .run 0).takesWrite (0x20041000 + 16 * 127) 0 = true ∧ (ready .run 0).dev.sys.mode ≠ .load) := by decide +kernel

/-- An input that runs, with a descriptor of channel 3 on stream 3. -/
def streaming : State := (ready .armed 0).any fun d =>
  let x : StreamDesc :=
    { vc := 3, nbuf := 1, keep := false, auto := false, lossMs := 1, bases := Vector.replicate 3 0x60000, segments := [] }
  { d with sys := { d.sys with htime := 1000 }, vin := { d.vin with
      en := true, streams := upd d.vin.streams 3 fun s => { s with desc := some x, lost := false, since := 0 } } }

theorem wit_InputsAndScrubber :
    State.reset.dev.coreUp = true ∧ State.reset.dev.vinRuns = false ∧ streaming.dev.coreUp = true ∧
    streaming.dev.vinRuns = true ∧
    (∀ k : Fin 4, (streaming.dev.vin.streams[k]).desc.any (fun x => x.vc == 2) = false) ∧
    streaming.dev.effects = [] ∧
    (streaming.dev.vin.streams[(3 : Fin 4)]).desc.any (fun x => x.vc == 3 && x.lossMs == 1) = true ∧
    (∀ k : Fin 4, k < 3 → (streaming.dev.vin.streams[k]).desc = none) ∧
    (streaming.dev.vin.streams[(3 : Fin 4)]).lost = false ∧
    (streaming.dev.vin.streams[(3 : Fin 4)]).since + 1000 * 1 = streaming.dev.now ∧
    (let s (n : Nat) := locked.any fun d => { d with loft := { d.loft with scrubPos := n } }
     (s 49150).dev.pclkRuns = true ∧ (s 49150).dev.loft.ce = [] ∧ (s 49150).dev.loft.ue = [] ∧
      (s 49150).dev.loft.scrubPos < 49151 ∧ (s 49151).dev.loft.scrubPos = 49151 ∧ (s 49151).dev.pclkRuns = true) ∧
    ((ready .load 0).takesWrite 0x20030000 0x1F07 = true ∧ (ready .load 0).dev.vin.en = false) ∧
    (streaming.takesWrite 0x20030000 4 = true ∧ streaming.dev.vin.en = true ∧ (4 : Word).getLsbD 2 = true ∧
      (4 : Word).extractLsb' 0 2 = streaming.dev.vin.lanes ∧ (4 : Word).extractLsb' 8 4 = streaming.dev.vin.dpol ∧
      (4 : Word).getLsbD 12 = streaming.dev.vin.cpol) ∧
    (streaming.takesWrite 0x20030000 5 = true ∧ (5 : Word).getLsbD 2 = true ∧
      (5 : Word).extractLsb' 0 2 ≠ streaming.dev.vin.lanes) := by decide

/-! ### Witnesses of the statements' hypotheses: strings, temperatures, trim -/

/-- A device in a mode with channel 7 as given, 1 s after its reset. -/
def strung (m : Mode) (f : StrChannel → StrChannel) : State := (ready m 0).any fun d =>
  { d with sys := { d.sys with htime := 1000000 }, str := upd d.str 7 f }

theorem wit_StringChannels :
    (strung .load id).dev.coreUp = true ∧ (strung .load id).dev.mayRun 7 = false ∧
    (let s := strung .run fun c => { c with mode := 1, state := 1, uv := 0 }
     let x := s.dev.str[(7 : Fin 8)]
     s.dev.mayRun 7 = true ∧ x.state ≠ 0 ∧ x.mode = 1 ∧ s.dev.calHolds 7 = false ∧ x.fswN ≠ 0 ∧ x.ovSpans = [] ∧ x.uv = 0 ∧
      (1499 : BitVec 11).toNat < 1500 ∧ (1200 : BitVec 11).toNat ≤ x.ov.toNat ∧ ¬ (1201 : BitVec 11).toNat ≤ x.ov.toNat ∧
      x.ovHold = false) ∧
    (let s := strung .run fun c => { c with mode := 1, state := 2, ocRun := 7 }
     s.dev.mayRun 7 = true ∧ (s.dev.str[(7 : Fin 8)]).ocRun = 7 ∧ s.dev.calHolds 7 = false ∧
      ∃ x ∈ (List.replicate 25 (1500 : BitVec 11)).drop 24, 1500 ≤ x.toNat) ∧
    (let s := strung .run fun c => { c with mode := 2, state := 2, depth := 16, dutyNow := 0, ocRun := 0, lowSince := none }
     s.dev.mayRun 7 = true ∧ s.dev.gateWindow 7 = 0 ∧ (s.dev.str[(7 : Fin 8)]).lowSince = none) ∧
    (let s (t : Nat) (st : BitVec 2) := strung .run fun c => { c with mode := 1, state := st, rampFrom := t }
     (s 999000 1).dev.mayRun 7 = true ∧ (s 999000 1).dev.now = 999000 + 1000 ∧ (s 999001 1).dev.now < 999001 + 1000 ∧
      ((s 998000 2).dev.str[(7 : Fin 8)]).state = 2 ∧ (s 998000 2).dev.now = 998000 + 2000) ∧
    (let s (y : Bool) (n : BitVec 6) := strung .run fun c => { c with mode := 2, state := 2, pwmsync := y, periodsLeft := n }
     (s true 0).dev.mayRun 7 = true ∧ (s true 0).dev.otKilled 7 = false ∧ ((s true 0).dev.str[(7 : Fin 8)]).pwmsync = true ∧
      ((s true 63).dev.str[(7 : Fin 8)]).periodsLeft ≠ 0 ∧ ((s false 0).dev.str[(7 : Fin 8)]).pwmsync = false) ∧
    (let s (auto : Bool) (last : Option (Nat × StrFault)) := strung .run fun c =>
       { c with mode := 1, state := 2, ocRun := 8, autoretry := auto, lastRetry := last }
     (s true none).dev.strQualifies 7 .oc = true ∧ (strung .run id).dev.strQualifies 7 .oc = false ∧
      ((s true none).dev.str[(7 : Fin 8)]).state ≠ 3 ∧ (s false none).dev.strQualifies 7 .oc = true ∧
      (s true (some (900000, .oc))).dev.strQualifies 7 .oc = true ∧
      (s true (some (900000, .oc))).dev.now = 900000 + 100000) ∧
    (let s (duty : BitVec 16) := strung .run fun c => { c with mode := 2, state := 2, depth := 16, pwmPeriod := 20000, dutyNow := duty }
     (s 1).dev.mayRun 7 = true ∧ (s 1).dev.shortTest 7 = false ∧ (s 0x4000).dev.pwmTests 7 = (false, true) ∧
      (s 0xFFFF).dev.pwmTests 7 = (true, false) ∧ (s 0xFFFF).dev.isMarker 7 = false ∧ (s 0xFFFF).dev.shortTest 7 = false) ∧
    (let s := strung .run fun c => { c with mode := 2, state := 2, depth := 16, pwmPeriod := 400, dutyNow := 1 }
     s.dev.pwmTests 7 = (false, false) ∧ s.dev.shortTest 7 = false ∧ s.dev.mayRun 7 = true) ∧
    (let s (t : Nat) := strung .run fun c => { c with state := 3, retryDue := some .oc, faultAt := t }
     ((s 900000).dev.str[(7 : Fin 8)]).retryDue = some .oc ∧ (s 900000).dev.now = 900000 + 100000 ∧
      (s 900000).dev.inhibited 7 = false ∧ (s 900001).dev.now < 900001 + 100000) ∧
    ((strung .run id).dev.str[(7 : Fin 8)]).retryDue = none ∧
    (let s := strung .run fun c => { c with latched := true }
     s.takesWrite (0x2006002C + 64 * 7) 1 = true ∧ s.dev.owned 7 = false ∧ (s.dev.str[(7 : Fin 8)]).latched = true) ∧
    (let s := (strung .run fun c => { c with latched := true }).any fun d =>
       { d with gbl := { d.gbl with cfg := some { blank with feed := ~~~ 0 } } }
     s.takesWrite (0x2006002C + 64 * 7) 1 = true ∧ s.dev.owned 7 = true ∧ (s.dev.str[(7 : Fin 8)]).latched = true ∧
      s.dev.gbl.lost = 0) ∧
    ((strung .run id).takesWrite (0x2006002C + 64 * 7) 1 = true ∧ (strung .run id).dev.owned 7 = false ∧
      ((strung .run id).dev.str[(7 : Fin 8)]).latched = false) := by
  repeat' apply And.intro
  all_goals decide +kernel

/-- A device with input 5 as given, and the die sensor's warning as given. -/
def warm (f : Ntc → Ntc) (warned : Bool) : State := made fun d =>
  { d with thm := { d.thm with ntc := upd d.thm.ntc 5 f, warned := warned } }

/-- A device whose tile 127 sent its temperature so many frames ago. -/
def aged (n : Nat) : State := made fun d =>
  { d with scan := { d.scan with tiles := updN d.scan.tiles 127 fun t => { t with tempAge := some n } } }

theorem wit_Temperatures :
    State.reset.dev.coreUp = true ∧ (State.reset.dev.thm.ntc[(5 : Fin 6)]).en = false ∧
    (let s := warm (fun x => { x with en := true, overTemp := false, ot := 0x7FFF }) false
     let x := s.dev.thm.ntc[(5 : Fin 6)]
     s.dev.coreUp = true ∧ x.en = true ∧ x.isOpen = false ∧ x.isShort = false ∧
      overTempNow x.overTemp (ntcTemp (s.dev.thm.lut[(if x.table then 1 else 0 : Fin 2)]) 32) x.ot = x.overTemp ∧
      overTempNow x.overTemp (ntcTemp (s.dev.thm.lut[(if x.table then 1 else 0 : Fin 2)]) 4063) x.ot = x.overTemp) ∧
    (let x := (warm (fun x => { x with en := true, openRun := 9 }) false).dev.thm.ntc[(5 : Fin 6)]
     x.en = true ∧ x.isOpen = false ∧ x.isShort = false ∧ x.openRun = 9 ∧ x.overTemp = false) ∧
    State.reset.dev.thm.drtEn = false ∧
    (regioned.takesWrite 0x20061088 0x13FE03 = true ∧ regioned.dev.inRegion [4] (0x13FE00, 512) = true ∧
      regioned.takesWrite 0x20061088 0x13FE04 = true ∧ regioned.dev.inRegion [4] (0x13FE04, 512) = false) ∧
    (((aged 65).dev.scan.tile 127).tempAge = some 65 ∧ (aged 65).dev.thm.tileStale.getLsbD 127 = false ∧
      ((aged 64).dev.scan.tile 127).tempAge = some 64) ∧
    ((warm id false).dev.thm.warned = false ∧ (warm id true).dev.thm.warned = true ∧
      (let w := (warm id true).dev.thm.dieWarn
       (w - 1).toInt < w.toInt ∧ w.toInt - 32 < (w - 31).toInt ∧ (w - 32).toInt ≤ w.toInt - 32)) ∧
    State.reset.dev.sys.mode ≠ .off ∧ State.reset.dev.sys.mode ≠ .standby ∧
    (made fun d => { d with sys := { d.sys with mode := .standby } }).dev.sys.mode = .standby := by decide

/-- A device in a mode with its calibration as given. -/
def trimming (m : Mode) (f : Trim → Trim) : State := (ready m 0).any fun d => { d with trim := f d.trim }

theorem wit_CalibrationRunsAndCodes :
    (let a : CalAsk := { steps := 1, trigger := 2, cmd := some (0, 7) }
     let s (m : Mode) := trimming m fun t => { t with queued := [a], running := false }
     (s .run).dev.coreUp = true ∧ (s .run).dev.trim.queued = [a] ∧ Mode.run.calibrates = true ∧ Mode.run.calRuns = true ∧
      (s .run).dev.trim.running = false ∧ (s .load).dev.coreUp = true ∧ Mode.load.calibrates = true ∧ Mode.load.calRuns = false) ∧
    (trimming .load id).dev.trim.queued = [] ∧
    (let s := trimming .load fun t => { t with running := true, pend := 0x400001000000, active := 0 }
     s.dev.trim.running = true ∧ s.dev.trim.pend.getLsbD 46 = true ∧ s.dev.trim.active.getLsbD 46 = false ∧
      s.dev.trim.blocked 46 = false ∧ s.dev.stepReason 46 0 true = 0 ∧ s.dev.calExpired = false ∧ s.dev.trim.pend.getLsbD 24 = true ∧
      s.dev.trim.active.getLsbD 24 = false ∧ s.dev.trim.blocked 24 = false ∧ s.dev.stepReason 24 0 true = 0) ∧
    (let s := trimming .load fun t => { t with running := true, pend := 1, active := 0 }
     s.dev.trim.blocked 0 = false ∧ s.dev.calExpired = false ∧ s.dev.trim.pend.getLsbD 0 = true) ∧
    (let s (r : BitVec 48) := trimming .run fun t => { t with running := true, pend := 1, active := 0, deferredRun := r }
     (s 0).dev.trim.running = true ∧ (s 0).dev.trim.pend.getLsbD 0 = true ∧ (s 0).dev.trim.active.getLsbD 0 = false ∧
      (s 0).dev.trim.blocked 0 = false ∧ (s 0).dev.stepReason 0 0 true ≠ 0 ∧ (s 0).dev.trim.deferredRun.getLsbD 0 = false ∧
      (s 1).dev.trim.blocked 0 = false ∧ (s 1).dev.stepReason 0 0 true ≠ 0 ∧ (s 1).dev.trim.deferredRun.getLsbD 0 = true) ∧
    (let s (p : BitVec 48) := trimming .load fun t => { t with running := true, pend := p, active := 0x400000000000, timeout := 0 }
     (s 0x400000000000).dev.trim.running = true ∧ (s 0x400000000000).dev.trim.active.getLsbD 46 = true ∧
      (s 3).dev.stepOver 46 = true ∧ (s 3).dev.stepReason 46 0 false = 0 ∧
      setBit (s 0x400000000000).dev.trim.pend 46 false = 0 ∧ setBit (s 3).dev.trim.pend 46 false ≠ 0 ∧
      (s 3).dev.trim.timeout = 0) ∧
    (let s := (trimming .load fun t => { t with running := true, pend := 0x20000000000, active := 0x20001000000, deferredRun := 0 }).any
       fun d => { d with vin := { d.vin with en := true, hs := true } }
     s.dev.trim.active.getLsbD 41 = true ∧ s.dev.stepOver 41 = true ∧ s.dev.stepReason 41 0 false ≠ 0 ∧
      s.dev.trim.deferredRun.getLsbD 41 = false ∧ s.dev.stepOver 24 = false) ∧
    (let s := trimming .load fun t => { t with running := true, active := 0, timeout := 1, startTime := 0 }
     let u := s.any fun d => { d with sys := { d.sys with htime := 1000000 } }
     u.dev.trim.running = true ∧ u.dev.trim.active = 0 ∧ u.dev.calExpired = true ∧ s.dev.calExpired = false) ∧
    ((trimming .load id).takesWrite (0x20070000 + 4 * 47) 0x3FF = true ∧ (trimming .load id).dev.trimWritable = true ∧
      (trimming .run id).takesWrite (0x20070000 + 4 * 47) 0 = true ∧ (trimming .run id).dev.trimWritable = false) ∧
    ((trimming .load id).takesWrite 0x20070100 1 = true ∧ (trimming .run id).takesWrite 0x20070100 1 = true ∧
      (trimming .load id).takesWrite 0x20070100 2 = true ∧ (trimming .load id).dev.trim.running = false ∧
      (trimming .load fun t => { t with running := true }).takesWrite 0x20070100 2 = true) := by decide

/-- Codes near and far from any factory code of the opaque table (14 R429). -/
theorem wit_CalibrationRunsAndCodes_codes (k : Fin 48) :
    (∃ code : BitVec 10, ((code.toNat : Int) - ((Config.factoryTrim k).toNat : Int)).natAbs ≤ 128) ∧
    (∃ code : BitVec 10, 128 < ((code.toNat : Int) - ((Config.factoryTrim k).toNat : Int)).natAbs) := by
  refine ⟨⟨Config.factoryTrim k, by simp⟩, ?_⟩
  have h := (Config.factoryTrim k).isLt
  by_cases hx : (Config.factoryTrim k).toNat < 512
  · exact ⟨1023, by have e : (1023 : BitVec 10).toNat = 1023 := rfl; omega⟩
  · exact ⟨0, by have e : (0 : BitVec 10).toNat = 0 := rfl; omega⟩

/-! ### Witnesses of the statements' hypotheses: safety -/

/-- `ready` with a safety configuration of two axes, 16-bit encoders sampled each millisecond, and connection 0 of kind `kind`
with an expiry of 1 ms; 4 ms after its reset. -/
def guarded (m : Mode) (kind : Byte) : State := (ready m 1).any fun d =>
  let c : SafetyConfig := { blank with
    params := 0x0100000000000000, encoder := 0x03E8000000000010, flashing := (kind.setWidth 1088) <<< 64 ||| (1 <<< 80) }
  { d with sys := { d.sys with htime := 4000 }, gbl := { d.gbl with cfg := some c } }

/-- The same with a change to its safety unit. -/
def monitored (m : Mode) (f : Gbl → Gbl) : State := (guarded m 1).any fun d => { d with gbl := f d.gbl }

theorem wit_SafetyMechanisms :
    (let s := guarded .run 1
     s.dev.coreUp = true ∧ s.dev.gbl.cfg.any (fun c => c.axes && c.encBits 0 == 16 && c.encPeriod 0 == 1000) = true ∧
      s.dev.sys.role ≠ 2 ∧ s.dev.roof.ringUp = false ∧ (s.dev.rdg.enc[(0 : Fin 4)]).last = none) ∧
    (let s (t : Nat) := (guarded .run 1).any fun d =>
       { d with rdg := { d.rdg with enc := upd d.rdg.enc 0 fun e => { e with last := some (0, t) } } }
     ((s 0).dev.rdg.enc[(0 : Fin 4)]).last = some (0, 0) ∧ ((s 0).dev.rdg.enc[(0 : Fin 4)]).fault = false ∧
      0 + 4 * 1000 = (s 0).dev.now ∧ (s 1).dev.now < 1 + 4 * 1000 ∧
      (s 0).dev.gbl.cfg.any (fun c => c.jumpOk 0 (0, 0) 0 4000) = true) ∧
    (∀ c ∈ ([1, 3, 4] : List (BitVec 4)), (monitored .run fun g => { g with lost := c }).dev.gbl.lost = c) ∧
    ((guarded .run 1).dev.gbl.held = false ∧ (guarded .run 1).dev.gbl.restarted = false ∧ (guarded .run 1).dev.gbl.lost = 0) ∧
    ((monitored .run fun g => { g with held := true }).dev.gbl.held = true ∧
      (monitored .run fun g => { g with held := true, cfg := none }).dev.gbl.cfg = none) ∧
    ((guarded .run 1).dev.gbl.cfg.isSome = true ∧ (guarded .run 1).dev.rdg.parityErr = []) ∧
    ((monitored .degraded fun g => { g with tdegEnd := some 4000 }).dev.gbl.tdegEnd = some 4000 ∧
      (monitored .degraded fun g => { g with tdegEnd := some 4000 }).dev.sys.mode = .degraded ∧
      4000 ≤ (guarded .degraded 1).dev.now ∧ (guarded .degraded 1).dev.now < 4001) ∧
    (let s := monitored .safeHold fun g => { g with resetWindow := some 4000, demand := 0 }
     s.dev.sys.mode = .safeHold ∧ s.dev.gbl.resetWindow = some 4000 ∧ s.dev.now = 4000 ∧ s.dev.gbl.demand = 0 ∧
      s.dev.rdg.demand = 0 ∧ s.dev.rdg.parityErr = [] ∧ 3999 < s.dev.now ∧
      (monitored .safeHold fun g => { g with resetWindow := some 4000, demand := 1 }).dev.gbl.demand ≠ 0) ∧
    (let s (t : BitVec 64) := (monitored .run fun g => { g with sf3 := true, sf3Since := 0 }).any fun d =>
       { d with sys := { d.sys with htime := t } }
     (s 0).dev.gbl.sf3 = true ∧ (s 999999).dev.now < (s 0).dev.gbl.sf3Since + 1000000 ∧
      (s 1000000).dev.gbl.sf3Since + 1000000 = (s 1000000).dev.now ∧ (s 1000000).dev.gbl.sf3Reported = []) ∧
    (let s (k : Byte) := (guarded .run k).any fun d =>
       d.onFlash 0 fun x => { x with state := .established, since := 2999 }
     ((s 1).dev.flash.conns[(0 : Fin 8)]).state = .established ∧ (s 1).dev.gableChecks = true ∧
      (s 1).dev.gbl.cfg.any (fun c => c.fcKind 0 == 1 && decide (2999 + 1000 * c.fcTexp 0 < (s 1).dev.now)) = true ∧
      (s 2).dev.gbl.cfg.any (fun c => c.fcKind 0 == 2) = true ∧ (s 2).dev.gableChecks = true) ∧
    ((State.reset.dev.ringAt 28).enabled = false) ∧
    (let s := (ringed 28 fun r => { r with enabled := true, log2 := 4, base := 0x50000, prod := 1 })
     (s.dev.ringAt 28).enabled = true ∧ 0 < (s.dev.ringAt 28).held ∧ s.dev.clean 0x50000 64 = true ∧
      s.dev.gbl.cfg = none) := by decide +kernel

/-- A held Gable whose memory has the hash of its configuration, and one whose has not (11 R346). -/
theorem wit_SafetyMechanisms_hashes :
    (∃ (s : State) (c : SafetyConfig), s.dev.gbl.held = true ∧ s.dev.gbl.cfg = some c ∧ c.gableHash = s.dev.gableHashNow) ∧
    (∃ (s : State) (c : SafetyConfig), s.dev.gbl.held = true ∧ s.dev.gbl.cfg = some c ∧ c.gableHash ≠ s.dev.gableHashNow) := by
  have h : ∀ x : BitVec 256, x + 1 ≠ x := fun x => by bv_omega
  exact ⟨⟨monitored .run fun g => { g with
        held := true, cfg := some { blank with gableHash := State.reset.dev.gableHashNow } }, _, rfl, rfl, rfl⟩,
    ⟨monitored .run fun g => { g with
        held := true, cfg := some { blank with gableHash := State.reset.dev.gableHashNow + 1 } }, _, rfl, rfl, h _⟩⟩

/-- A device with its Soffit die powered and as given. -/
def fielded (f : Soffit → Soffit) : State := made fun d => { d with soffit := f { d.soffit with powered := true } }

/-- A command frame's code groups as its kind has them, with CNT 0; an input frame's, with CNT 0. -/
def commandGroups (config : Bool) : List (BitVec 10) := barrierFrame false [if config then 0xA5200000 else 0xA5100000, 0]
def inputGroups : List (BitVec 10) := barrierFrame false (List.replicate 6 0)

/-- A frame with its second group turned, and with the groups of a frame of another CNT expected next. -/
def turned : List (BitVec 10) := [0, 0x3FF]

/-- What a Soffit with `cnt` as its last counter makes of a command frame. -/
def downward (config : Bool) (cnt : BitVec 4) : State := (fielded fun f => { f with rxAny := false, rxCnt := cnt }).any fun d =>
  { d with fld := { d.fld with down := [commandGroups config] } }

/-- An input frame on the way up to a core that takes any counter, or the next one. -/
def upward (any : Bool) : State := made fun d =>
  { d with fld := { d.fld with up := [inputGroups], rxAny := any, rxCnt := 3 } }

/-- Output 0 assigned to the program, with both test pulses; configured at the Soffit. -/
def assigned (f : Soffit → Soffit) : State := fielded fun g =>
  f { g with cfg := some ((1 : BitVec 1280) <<< 768 ||| (5 : BitVec 1280) <<< 784 ||| (5 : BitVec 1280) <<< 808), lplus := 0 }

/-- A Soffit with input 7 as given, whose sample is due. -/
def sampled (lplus : BitVec 2) (f : FieldIn → FieldIn) : State :=
  fielded fun g => { g with us := 50, lplus := lplus, inputs := upd g.inputs 7 fun i => f { i with due := 50 } }

theorem wit_SoffitFieldSide :
    (fielded id).dev.soffit.powered = true ∧ (made fun d => { d with soffit := Soffit.reset }).dev.soffit.powered = false ∧
    (∀ c : Bool, ((downward c 15).dev.fld.down = [commandGroups c] ∧ sentConfig (commandGroups c) = c) ∧
      ((barrierWords (withNoise (commandGroups c) [])).bind cmdOfWords).any
        (fun x => x.config == c && (downward c 15).dev.soffit.accepts x && !(downward c 0).dev.soffit.accepts x) = true ∧
      (barrierWords (withNoise (commandGroups c) turned)).bind cmdOfWords = none) ∧
    State.reset.dev.fld.down = [] ∧
    ((∀ any : Bool, (upward any).dev.coreUp = true ∧ (upward any).dev.fld.up = [inputGroups] ∧ (upward any).dev.fld.rxAny = any) ∧
      ((barrierWords (withNoise inputGroups [])).bind inputOfWords).any
        (fun x => (x.w[0]).extractLsb' 0 4 == (0 : BitVec 4)) = true ∧ (0 : BitVec 4) ≠ (upward false).dev.fld.rxCnt + 1 ∧
      (barrierWords (withNoise inputGroups turned)).bind inputOfWords = none) ∧
    (let s (t : BitVec 64) := made fun d => { d with sys := { d.sys with htime := t }, fld := { d.fld with rxAt := 0, rxOk := true } }
     (s 1999).dev.coreUp = true ∧ (s 1999).dev.now < (s 1999).dev.fld.rxAt + 2000 ∧
      (s 2000).dev.fld.rxAt + 2000 = (s 2000).dev.now ∧ (s 2000).dev.fld.rxOk = true) ∧
    (let f := (sampled 0 fun i => { i with due := 51 }).dev.soffit
     f.us < (f.inputs[(7 : Fin 8)]).due) ∧
    (let s (l : BitVec 2) (n : Nat) := sampled l fun i => { i with filtered := .off, candidate := .on, count := n }
     (s 0 1).dev.soffit.powered = true ∧ ((s 0 1).dev.soffit.inputs[(7 : Fin 8)]).due ≤ (s 0 1).dev.soffit.us ∧
      (s 0 1).dev.thresholdStep 7 = false ∧ (s 2 1).dev.soffit.lplus = 2 ∧ (s 0 1).dev.soffit.lplus ≠ 2 ∧
      (fIn (s 0 1).dev.soffit.field 7 3).toNat = 3 ∧ (rawClass .off true 400).1 = .off ∧ (1 : Nat) - 1 ≠ 3 ∧
      (rawClass .off true 2000).1 = .on ∧ (2 : Nat) + 1 = 3 ∧ (1 : Nat) + 1 ≠ 3) ∧
    (let s := (sampled 0 id).any fun d => { d with trim := { d.trim with running := true, active := 0x100000000 } }
     s.dev.thresholdStep 7 = true ∧ s.dev.soffit.powered = true) ∧
    (let f := (fielded fun f => { f with
        us := 1000 * fPairDisc f.field 3 + 1, pairs := upd f.pairs 3 fun p => { p with since := some 0, disc := false } }).dev.soffit
     (f.pairs[(3 : Fin 4)]).since = some 0 ∧ (f.pairs[(3 : Fin 4)]).disc = false ∧
      0 + 1000 * fPairDisc f.field 3 < f.us ∧ (f.pairs[(0 : Fin 4)]).since = none) ∧
    (let s := assigned id
     let f := s.dev.soffit
     f.powered = true ∧ f.test = none ∧ f.lplus = 0 ∧ f.mayTest 0 false = true ∧ f.testDue 0 false = true ∧
      s.dev.readbackStep = false) ∧
    (let f := (assigned fun f => { f with tests := [(0, true)], outputs := upd f.outputs 0 fun o => { o with on := true } }).dev.soffit
     f.mayTest 0 true = true ∧ f.lplus = 0 ∧ f.testDue 0 true = true) ∧
    (let s (us : Nat) := fielded fun f =>
       { f with us := us, lplus := 1, test := some { out := 7, off := false, members := 0x80, start := 0, width := 5 } }
     (s 4).dev.soffit.test.any (fun t => t.out == 7 && decide ((s 4).dev.soffit.us < t.start + t.width)) = true ∧
      (s 5).dev.soffit.test.any (fun t => !t.off && decide (t.start + t.width ≤ (s 5).dev.soffit.us)) = true ∧
      (s 5).dev.soffit.lplus ≠ 0) ∧
    (let f := (fielded fun f => { f with
        us := 200, lplus := 0, outputs := upd f.outputs 7 fun o => { o with on := true, limitSince := some 0 } }).dev.soffit
     (f.outputs[(7 : Fin 8)]).on = true ∧ f.lplus = 0 ∧ f.underTest 7 = false ∧
      (f.outputs[(7 : Fin 8)]).limitSince = some 0 ∧ 0 + 200 ≤ f.us ∧ (f.outputs[(0 : Fin 8)]).on = false) ∧
    (let f := (fielded fun f => { f with us := 1000, lplus := 0, lowTimer := some 0, missTimer := some 0 }).dev.soffit
     f.lplus = 0 ∧ f.lowTimer = some 0 ∧ f.missTimer = some 0 ∧ 0 + 1000 ≤ f.us ∧ f.lplus ≠ 2) ∧
    (let s (us : Nat) := fielded fun f => { f with us := us, rxAt := 0 }
     (s 20001).dev.soffit.rxAt + 1000 * fTsil (s 20001).dev.soffit.field < (s 20001).dev.soffit.us ∧
      (s 20000).dev.soffit.us ≤ (s 20000).dev.soffit.rxAt + 1000 * fTsil (s 20000).dev.soffit.field) ∧
    (let s := made fun d => { d with sys := { d.sys with mode := .proof, proofBusy := true, proofStep := 6, htime := 1 },
                                     gbl := { d.gbl with cfg := some blank }, fld := { d.fld with douserStep := 1, douserAt := 0 } }
     s.dev.coreUp = true ∧ s.dev.sys.mode = .proof ∧ s.dev.sys.proofBusy = true ∧ s.dev.sys.proofStep = 6 ∧
      s.dev.fld.douserStep ≠ 0 ∧ s.dev.gbl.cfg = some blank ∧ s.dev.fld.douserAt + 1000 * fDouserMs blank.field < s.dev.now) ∧
    (let s := (ready .load 0).any fun d =>
       { d with gbl := { d.gbl with cfg := some { blank with field := (2 : BitVec 1280) <<< 1216 } } }
     s.takesWrite (0x20080040 + 4 * 7) 3 = true) := by
  repeat' apply And.intro
  all_goals decide +kernel

/-! ### Witnesses of the statements' hypotheses: power and resets -/

/-- A device with its clocks, power and resets as given. -/
def powered (f : Sys → Sys) : State := made fun d => { d with sys := f d.sys }

/-- A device whose LIVE outputs toggle in PROOF step 5. -/
def living : State := (powered fun y => { y with mode := .proof, proofBusy := true, proofStep := 5, proofLive := 1000 }).any fun d =>
  { d with gbl := { d.gbl with cfg := some blank, hbtHeld := true },
           thatch := { d.thatch with gableImage := some (codeImage 64) } }

theorem wit_PowerResetsAndProof :
    (let s := powered fun y => { y with hold := { y.hold with brown := true } }
     s.dev.sys.hold.brown = true ∧ s.dev.soffit.powered = true ∧
      (s.any fun d => { d with soffit := Soffit.reset }).dev.soffit.powered = false) ∧
    (let s (t : Nat) := powered fun y => { y with lockDue := some t }
     (s 0).dev.sys.lockDue = some 0 ∧ (s 0).dev.sys.hold.brown = false ∧ 0 ≤ (s 0).dev.alwaysOn ∧ (s 1).dev.alwaysOn < 1) ∧
    (State.reset.dev.sys.lock = false ∧ State.reset.dev.sys.hold.brown = false ∧ State.reset.dev.sys.mode ≠ .standby ∧
      State.reset.dev.sys.mode ≠ .retention ∧ State.reset.dev.sys.stbyOut = false ∧ State.reset.dev.sys.hold.rstN = false ∧
      State.reset.dev.mayEnd = false ∧ State.reset.dev.sys.hold.brown = false) ∧
    (powered fun y => { y with stbyOut := true }).dev.sys.stbyOut = true ∧
    (powered fun y => { y with hold := { y.hold with rstN := true } }).dev.sys.hold.rstN = true ∧
    (let s := (made fun d => d.onCore .truss fun x => { x with mode := .halted }).any fun d => { d with alwaysOn := 2000 }
     s.dev.coreUp = true ∧ s.dev.thatch.truss.mode = .halted ∧ s.dev.acc.attached = false ∧
      s.dev.sys.haltAt + 2000 = s.dev.alwaysOn) ∧
    (powered fun y => { y with resetCause := some 1 }).dev.mayEnd = true ∧
    (State.reset.dev.coreUp = true ∧ State.reset.dev.sys.mode = .boot ∧ State.reset.dev.sys.attemptOpen = true ∧
      State.reset.dev.sys.bootsel = false ∧
      State.reset.dev.now < State.reset.dev.sys.attemptAt + 1000 * State.reset.dev.sys.attemptMs ∧
      (let s := powered fun y => { y with htime := 100000 }
       s.dev.sys.attemptAt + 1000 * s.dev.sys.attemptMs = s.dev.now)) ∧
    (∀ k : Fin 2, (ClockSeen.window (1359 + k.val) 2720).isFault = (k == 0) ∧
      (ClockSeen.window 1840 (3681 - k.val)).isFault = (k == 0)) ∧
    (down.dev.sys.mode = .retention ∧ down.dev.sys.hold.clear = true ∧ down.dev.acc.lapse = none) ∧
    (let s := (powered fun y => { y with mode := .standby, stbyOut := true }).any fun d => { d with alwaysOn := 10000 }
     s.dev.sys.mode = .standby ∧ s.dev.sys.stbyOut = true ∧ s.dev.sys.stbyAt + 10000 = s.dev.alwaysOn) ∧
    (let s (t : BitVec 64) := powered fun y => { y with mode := .proof, proofBusy := true, proofStart := 0, htime := t }
     (s 10000000).dev.coreUp = true ∧ (s 10000000).dev.sys.proofStart + 10000000 = (s 10000000).dev.now ∧
      (s 9999999).dev.now < (s 9999999).dev.sys.proofStart + 10000000) ∧
    (let s (n : BitVec 16) := powered fun y => { y with proofAge := n }
     (s 0xFFFE).dev.sys.proofAge ≠ 0xFFFF ∧ (s 0xFFFE).dev.sys.proofAge + 1 ≠ 1380 ∧
      (s 0xFFFE).dev.sys.proofAge + 1 ≠ 1440 ∧ (s 1379).dev.sys.proofAge = 1379) ∧
    (living.dev.coreUp = true ∧ living.dev.sys.mode = .proof ∧ living.dev.sys.proofBusy = true ∧
      living.dev.sys.proofStep = 5 ∧ 1000 ≤ living.dev.sys.proofLive) := by
  repeat' apply And.intro
  all_goals decide +kernel

/-! ### Witnesses of the statements' hypotheses: roofs -/

/-- A device in a mode and role with its roof as given. -/
def roof (m : Mode) (role : BitVec 2) (f : Roof → Roof) : State := (ready m 0).any fun d =>
  { d with sys := { d.sys with role := role }, roof := f d.roof }

/-- A cell, the two lanes that carry it, the same of an unknown kind, with a wrong CRC, and with a code error. -/
def aCell (kind : Byte) : PCell := { kind := kind, dst := 3, src := 1, seq := 0, payload := [0, 0, 0, 0] }
def goodLanes (kind : Byte) : Lanes := (aCell kind).lanes (false, false)
def crcLanes : Lanes :=
  let bs := (aCell 2).body ++ [1, 2, 3, 4]
  (cellLane false (evens bs), cellLane false (odds bs))

/-- A status cell of worker 7. -/
def status7 : StatusCell :=
  { position := 7, mode := 7, live := true, cfg := true, degCause := 0, holdCause := 0, frame := 0, attempts := 0,
    proofDone := true, reset := 0 }

theorem wit_RoofCells :
    (State.reset.dev.coreUp = true ∧ State.reset.dev.manager = true ∧ State.reset.dev.worker = false) ∧
    (State.reset.dev.roof.trainAt ≤ State.reset.dev.now ∧
      (let s := roof .load 0 fun r => { r with trainAt := 1 }
       s.dev.manager = true ∧ s.dev.now < s.dev.roof.trainAt)) ∧
    (1 ≤ (1 : Byte).toNat ∧ (8 : Byte).toNat ≤ 8 ∧ 8 < (9 : Byte).toNat) ∧
    (let s := roof .load 2 id
     s.dev.coreUp = true ∧ s.dev.manager = false ∧ s.dev.sys.role = 2 ∧ (7 : Byte) ≠ 0 ∧ (7 : Byte).toNat ≤ 7) ∧
    (cellOfLanes (goodLanes 2) = .cell (aCell 2) ∧ cellOfLanes (goodLanes 0xFF) = .cell (aCell 0xFF) ∧
      cellOfLanes crcLanes = .crcError ∧ cellOfLanes ([0], []) = .codeError ∧ cellKnown 0xFF = false ∧ cellKnown 2 = true ∧
      (aCell 2).dst ≠ State.reset.dev.roof.position.setWidth 8 ∧ (aCell 2).src ≠ State.reset.dev.roof.position.setWidth 8 ∧
      (0 : Byte) = State.reset.dev.roof.position.setWidth 8) ∧
    (let s := roof .load 2 fun r => { r with posValid := true, position := 7 }
     s.dev.worker = true ∧ s.dev.gbl.cfg = none ∧ s.dev.sys.mode ≠ .boot ∧ s.dev.roof.statusAt ≤ s.dev.now ∧
      (s.any fun d => { d with roof := { d.roof with statusAt := 1 } }).dev.roof.statusAt = s.dev.now + 1) ∧
    (let s := (roof .load 2 fun r => { r with posValid := true, position := 7 }).any fun d =>
       { d with gbl := { d.gbl with cfg := some blank } }
     s.dev.worker = true ∧ s.dev.gableChecks = true) ∧
    (status7.position ≠ 0 ∧ (State.reset.dev.workerAt 7).lost = false ∧ State.reset.dev.roof.reenum = none) ∧
    (let s (lost : Bool) := (roof .load 0 fun r =>
       { r with worker := r.worker.set 7 { WorkerView.reset with present := true, lost := lost } }).any fun d =>
         { d with sys := { d.sys with htime := 30001 } }
     ((s false).dev.workerAt 7).present = true ∧ ((s false).dev.workerAt 7).lost = false ∧
      ((s false).dev.workerAt 7).seenAt + 30000 < (s false).dev.now ∧
      ((roof .load 0 id).dev.workerAt 7).seenAt + 30000 ≥ (roof .load 0 id).dev.now ∧
      ((s true).dev.workerAt 7).lost = true ∧ (s true).dev.manager = true) ∧
    State.reset.dev.roof.unacked = [] ∧
    (let c : PCell := { kind := 2, dst := 1, src := 0, seq := 0, payload := [] }
     let s (n t : Nat) := (roof .load 0 fun r => { r with unacked := [(c, n, 0)] }).any fun d =>
       { d with sys := { d.sys with htime := BitVec.ofNat 64 t } }
     (s 2 100).dev.roof.unacked = [(c, 2, 0)] ∧ 0 + 100 = (s 2 100).dev.now ∧ (s 2 99).dev.now < 0 + 100 ∧
      (s 3 100).dev.roof.unacked = [(c, 3, 0)] ∧ c.kind ≠ 9) ∧
    (let s := roof .load 0 fun r => { r with bootAddr := 0x17C0000, bootLen := 0x3FFFF }
     s.dev.manager = true ∧ s.dev.sys.mode.served = true ∧ 0x40000 ≤ s.dev.roof.bootAddr.toNat ∧ s.dev.roof.bootLen ≠ 0 ∧
      s.dev.roof.bootAddr.toNat + s.dev.roof.bootLen.toNat ≤ 0x1800000) ∧
    roofed.dev.inRoof = true ∧ (State.reset.dev.ringAt 30).enabled = false ∧
    (let s := (roof .load 2 id).any fun d =>
       { d with rings := upd d.rings 30 fun r => { r with enabled := true, log2 := 4, base := 0x50000, prod := 1 } }
     (s.dev.ringAt 30).enabled = true ∧ (s.dev.ringAt 30).stopping = false ∧ 0 < (s.dev.ringAt 30).held ∧
      s.dev.manager = false ∧ s.dev.loft.ce = [] ∧ s.dev.loft.ue = []) := by
  repeat' apply And.intro
  all_goals decide +kernel

/-- Twins of which this device drives, or is genlocked to the other, in light of 1000000 cycles a frame. -/
def twins (driving : Bool) (missed : Nat) : State := (roof .run 0 fun r =>
  { r with twin := true, driving := driving, missRun := missed }).any fun d =>
    { d with scan := { d.scan with light := some { d.newXfer false with period := 1000000 } } }

theorem wit_RoofMarksAndSyncWords :
    (let b : List Byte := List.replicate 11 0
     let good : List Byte := b ++ [crc8 b]
     let bad : List Byte := b ++ [crc8 b + 1]
     markOfLanes (markLanes (false, false) good) = some good ∧ crc8 (good.take 11) = good.getD 11 0 ∧
      markOfLanes (markLanes (true, false) bad) = some bad ∧ crc8 (bad.take 11) ≠ bad.getD 11 0 ∧
      markOfLanes ([0], []) = none ∧ (roof .load 2 id).dev.sys.role = 2 ∧ (roof .load 2 id).dev.worker = false) ∧
    ((ready .load 0).dev.coreUp = true ∧ (ready .load 0).dev.manager = true ∧ (ready .load 0).dev.sys.mode ≠ .boot) ∧
    (let s (n : Nat) := (roof .load 2 fun r =>
       { r with posValid := true, position := 7, marks := true, markTwin := false, markRun := n }).any fun d =>
         { d with sys := { d.sys with htime := 2 } }
     (s 0).dev.worker = true ∧ (s 0).dev.markOverdue = true ∧ (ready .load 0).dev.markOverdue = false ∧ (s 0).dev.roof.marks = true ∧ (s 0).dev.roof.markTwin = false ∧ (s 0).dev.roof.markRun ≠ 1 ∧
      (s 1).dev.roof.markRun = 1 ∧ (s 1).dev.worker = true) ∧
    State.reset.dev.worker = false ∧
    (let s (l : List Nat) := (roof .load 0 fun r => { r with ringUp := true, marksOut := l }).any fun d =>
       { d with sys := { d.sys with htime := 1000000 } }
     (s [0, 1]).dev.coreUp = true ∧ (s [0, 1]).dev.roof.ringUp = true ∧ (s [0, 1]).dev.manager = true ∧
      2 ≤ ((s [0, 1]).dev.roof.marksOut.filter (s [0, 1]).dev.markLate).length ∧
      ((s [0, 1000000]).dev.roof.marksOut.filter (s [0, 1000000]).dev.markLate).length < 2) ∧
    ((roof .load 0 fun r => { r with ringUp := true }).dev.roof.ringUp = true ∧
      (roof .load 0 fun r => { r with ringUp := true }).dev.manager = true ∧ (ready .load 0).dev.roof.ringUp = false) ∧
    ((twins true 0).dev.coreUp = true ∧ (twins true 0).dev.twinHere = true ∧ (twins true 0).dev.sys.mode.mayDrive = true ∧
      (twins true 0).dev.sys.mode ≠ .boot ∧ (twins true 0).dev.roof.driving = true ∧ (twins true 0).dev.roof.missRun < 2 ∧
      (twins true 1).dev.roof.missRun = 1 ∧ (twins true 0).dev.roof.missRun ≠ 1) ∧
    (let w : Word := (crc8 [1, 0, 0]).setWidth 32 <<< 24 ||| 1
     syncOfLine (syncLine w) = some w ∧ syncOfLine (syncLine (w ^^^ 1)) = some (w ^^^ 1) ∧ syncOfLine [] = none ∧
      crc8 [byteAt w 0, byteAt w 1, byteAt w 2] = byteAt w 3 ∧ crc8 [byteAt (w ^^^ 1) 0, byteAt (w ^^^ 1) 1, byteAt (w ^^^ 1) 2] ≠ byteAt (w ^^^ 1) 3) ∧
    ((twins false 0).dev.roof.driving = false ∧ (twins false 0).dev.periodNow = 1000000 ∧
      (1000400 : BitVec 24).toNat ≤ 1000000 + 400 ∧ 1000000 ≤ (999600 : BitVec 24).toNat + 400 ∧
      1000000 + 400 < (1000401 : BitVec 24).toNat) ∧
    (let s := (twins true 1).any fun d => { d with sys := { d.sys with htime := 2503 } }
     s.dev.syncOverdue = true ∧ s.dev.roof.missRun = 1 ∧ (twins true 1).dev.syncOverdue = false) ∧
    State.reset.dev.twinHere = false := by
  repeat' apply And.intro
  all_goals decide +kernel

/-! ### Witnesses of the statements' hypotheses: access, the TAP, injections -/

/-- A device in a mode and at a level, its access unit as given, 70 s after its reset. -/
def entered (m : Mode) (level : BitVec 2) (f : Acc → Acc) : State := (ready m level).any fun d =>
  { d with sys := { d.sys with htime := 70000000 }, acc := f d.acc, alwaysOn := 70000000 }

theorem wit_AccessAndOtp :
    (let s := entered .load 0 id
     s.dev.coreUp = true ∧ s.takesWrite 0x200A0008 2 = true ∧ s.takesWrite 0x200A0008 1 = true ∧
      s.dev.acc.attached = false ∧ s.dev.acc.jtag.drives = false ∧ s.dev.acc.lapse = none) ∧
    ((entered .load 0 fun a => { a with nonceAt := some 10000001 }).dev.nonceValid = true ∧
      (entered .load 0 fun a => { a with nonceAt := some 10000000 }).dev.nonceValid = false) ∧
    (let s (t : Nat) := entered .load 0 fun a => { a with lapse := some t }
     (s 70000000).dev.acc.lapse = some 70000000 ∧ 70000000 ≤ (s 70000000).dev.alwaysOn ∧
      (s 70000001).dev.alwaysOn < 70000001) ∧
    (∀ level : BitVec 2, (entered .load 0 id).takesWrite 0x200A000C (level.setWidth 32) = true ∧
      (entered .load 0 id).takesWrite 0x200A000C (16 + level.setWidth 32) = true) ∧
    ({ entered .load 0 id with otp := { State.reset.otp with fuses := 64 } } : State).otp.fuses = 64 ∧
    State.reset.otp.fuses.toNat < 64 ∧
    (let s (n : BitVec 8) := entered .load 0 fun a => { a with pwUntil := 70000001, crUntil := 70000001, pwFail := n.setWidth _ }
     (s 0).dev.alwaysOn < (s 0).dev.acc.pwUntil ∧ (s 0).dev.alwaysOn < (s 0).dev.acc.crUntil) ∧
    ((entered .load 0 id).dev.acc.pwUntil ≤ (entered .load 0 id).dev.alwaysOn ∧
      (entered .load 0 id).dev.acc.crUntil ≤ (entered .load 0 id).dev.alwaysOn ∧
      (satInc (entered .load 0 id).dev.acc.pwFail).toNat % 8 ≠ 0 ∧ State.reset.otp.passwordLevel (entered .load 0 id).dev.acc.password = 0) ∧
    (let v : Word := fld 0 (3 : BitVec 3) ||| fld 4 (2 : BitVec 2) ||| fld 8 (0xF : BitVec 4)
     (entered .load 2 id).takesWrite 0x200A0050 v = true ∧ (entered .load 2 id).dev.sys.mode = .load ∧
      2 ≤ (entered .load 2 id).dev.acc.level ∧ (entered .load 1 id).takesWrite 0x200A0050 v = true ∧
      (entered .load 1 id).dev.acc.level < 2 ∧ (entered .armed 3 id).takesWrite 0x200A0050 v = true ∧
      (State.reset.otp.pws[targetSlot 3]).programmed = false) ∧
    (let v : Word := fld 0 (7 : BitVec 3) ||| fld 4 (0 : BitVec 2) ||| fld 8 (0xF : BitVec 4)
     let s := entered .load 2 fun a => { a with progAddr := 0x40000 }
     s.takesWrite 0x200A0050 v = true ∧ (State.reset.otp.keys[targetSlot 7]).programmed = false ∧ targetSlot 7 ≠ 0 ∧
      s.dev.clean s.dev.acc.progAddr.toNat 32 = true) ∧
    (let v : Word := fld 0 (3 : BitVec 3) ||| bit 3 true ||| fld 8 (0 : BitVec 4)
     (entered .load 2 id).takesWrite 0x200A0050 v = true ∧ (State.reset.otp.pws[targetSlot 3]).revoked = false) := by decide +kernel

/-- A slot of level 2 for the password of one byte 1, and an OTP that has it in slot 3. -/
def slot2 : PwSlot := { programmed := true, revoked := false, level := 2, salt := 0, tag := passwordTag 0 [1] }
def keyed : Otp := { State.reset.otp with pws := State.reset.otp.pws.set 3 slot2 }

theorem keyed_passwordLevel : keyed.passwordLevel [1] = 2 := by
  have h : keyed.pws.toList = [State.reset.otp.pws[0], State.reset.otp.pws[1], State.reset.otp.pws[2], slot2] := rfl
  have h0 : (State.reset.otp.pws[0]).programmed = false := rfl
  have h1 : (State.reset.otp.pws[1]).programmed = false := rfl
  have h2 : (State.reset.otp.pws[2]).programmed = false := rfl
  simp [Otp.passwordLevel, h, h0, h1, h2, slot2]

/-- A password that a slot of OTP knows, and a response that answers its nonce. -/
theorem wit_AccessAndOtp_right :
    (∃ s : State, s.takesWrite 0x200A000C 2 = true ∧ s.otp.fuses.toNat < 64 ∧ s.dev.acc.pwUntil ≤ s.dev.alwaysOn ∧
      s.otp.passwordLevel s.dev.acc.password ≠ 0) ∧
    (∃ s : State, s.takesWrite 0x200A000C (16 + 2) = true ∧ s.dev.acc.crUntil ≤ s.dev.alwaysOn ∧ s.dev.nonceValid = true ∧
      s.dev.acc.resp = challengeResponse s.dev.acc.nonce 2) := by
  refine ⟨⟨{ entered .load 0 fun a => { a with pw := 1 } with otp := keyed }, by decide +kernel, by decide, by decide, ?_⟩,
    ⟨entered .load 0 fun a => { a with nonceAt := some 70000000, resp := challengeResponse Acc.reset.nonce 2 },
      by decide +kernel, by decide, by decide, rfl⟩⟩
  have e : (entered .load 0 fun a => { a with pw := 1 }).dev.acc.password = [1] := by decide
  show keyed.passwordLevel (entered .load 0 fun a => { a with pw := 1 }).dev.acc.password ≠ 0
  rw [e, keyed_passwordLevel]
  decide

theorem wit_TapAndDebugger :
    ((entered .load 3 id).dev.tapRuns = true ∧ (entered .load 3 id).dev.sys.mode ≠ .retention ∧
      (entered .load 3 id).dev.coreUp = true ∧ (entered .load 3 id).dev.acc.level = 3 ∧
      (entered .safeHold 3 id).dev.tapRuns = true ∧ (entered .safeHold 3 id).dev.coreUp = true) ∧
    ((entered .load 2 id).dev.acc.level ≠ 3 ∧ (entered .load 2 id).dev.tapRuns = true ∧
      (entered .load 2 id).dev.acc.attached = false ∧ 2 ≤ (entered .load 2 id).dev.acc.level) ∧
    (down.dev.tapRuns = true ∧ (powered fun y => { y with mode := .standby }).dev.tapRuns = false) ∧
    (∀ m ∈ [Mode.load, .armed, .trim, .service, .run, .proof], (entered m 2 id).dev.tapRuns = true ∧
      (entered m 2 id).dev.coreUp = true ∧ (entered m 2 id).dev.acc.attached = false ∧ (entered m 2 id).dev.sys.mode = m) ∧
    ((entered .load 1 id).dev.acc.level < 2 ∧ (entered .load 1 id).dev.acc.attached = false) ∧
    (let s := entered .load 2 fun a => { a with attached := true }
     s.dev.tapRuns = true ∧ s.dev.coreUp = true ∧ s.dev.acc.attached = true ∧ s.dev.thatch.truss.dbgHalt = false ∧
      (s.dev.engAt 7).inService = true ∧
      (s.any fun d => d.onCore .truss fun x => { x with dbgHalt := true }).dev.thatch.truss.dbgHalt = true) := by
  decide +kernel

/-- A device with its injection unit as given, `t` us after its reset. -/
def injecting (m : Mode) (t : Nat) (f : Inj → Inj) : State := (ready m 0).any fun d =>
  { d with sys := { d.sys with htime := BitVec.ofNat 64 t }, inj := f d.inj }

theorem wit_FaultInjections :
    (let s := injecting .run 0 fun i => { i with schedEn := true }
     s.dev.coreUp = true ∧ s.dev.inj.schedEn = true ∧ s.dev.sys.mode = .run ∧ s.dev.inj.busy = false ∧
      ((dryOrder s.dev.inj.nextSched).find? fun b => !(s.dev.injInstances b 0xFF).isEmpty).isSome = true) ∧
    ((ready .run 0).dev.inj.schedEn = false ∧ (ready .run 0).dev.inj.busy = false) ∧
    (let s := injecting .run 0 fun i => { i with schedEn := true, busy := true }
     s.dev.coreUp = true ∧ s.dev.inj.schedEn = true ∧ s.dev.sys.mode = .run ∧ s.dev.inj.busy = true) ∧
    (∀ dry : Bool,
     let s (t : Nat) := injecting .armed t fun i =>
       { i with busy := true, restoring := false, hdr := none, bit := 0, inst := 0, start := 0, dry := dry }
     (s 21000).dev.inj.busy = true ∧ (s 21000).dev.inj.dry = dry ∧
      (s 21000).dev.now ≤ (s 21000).dev.inj.start + (s 21000).dev.injTime 0 0 ∧
      (s 22000).dev.inj.start + (s 22000).dev.injTime 0 0 + 1000 ≤ (s 22000).dev.now) ∧
    (let s (t : Nat) := injecting .armed t fun i =>
       let i : Inj := { i with busy := true, restoring := true, bit := 0, inst := 0, start := 0, detect := 0 }
       i.onHead fun e => { e with result := 2 }
     (s 0).dev.inj.busy = true ∧ (s 0).dev.inj.restoring = true ∧ (s 0).dev.now ≤ 1000 + (s 0).dev.injRestore 0 0 ∧
      1000 + (s 9000000).dev.injRestore 0 0 < (s 9000000).dev.now ∧
      ((s 9000000).dev.inj.log[(s 9000000).dev.inj.head]).result ≠ 1) := by decide +kernel

/-! ### Witnesses of the statements that every command completes -/

/-- `cores`, their program counters past their own code, with an address in s5 that each core may store to and a pending
event; a Truss image with a trap handler, a debugger attached. -/
def working (a : Word) : State := cores.any fun d =>
  let put (x : Core) : Core := { x with s := x.s.set 5 a, tpend := 1 }
  { d with acc := { d.acc with attached := true }, thatch := { d.thatch with
      truss := put d.thatch.truss, gable := put d.thatch.gable, soffit := put d.thatch.soffit,
      trussImage := some { codeImage 64 with trapEntry := 0x40000080 } } }

/-- `engine` with a local-store address in s5. -/
def storing : State := engine.any fun d => d.onCore (.engine 0) fun x => { x with s := x.s.set 5 0xFFC }

theorem wit_SystemAndMemoryInstructionsComplete :
    (∀ p ∈ ([(.truss, 0x4001FFFC), (.gable, 0x1EFFC), (.soffit, 0x1FFC)] : List (CoreId × Word)),
      let s := working p.2
      ((s.dev.coreAt p.1).get 5 + sx (0 : BitVec 14) = p.2 ∧ p.2.toNat % 4 = 0 ∧ s.dev.memWf = true) ∧
      allRun s p.1 ([0x60, 0x61, 0x62, 0x63, 0x64].map fun op => (encI op 1 5 0, memCycles p.1 p.2 false)) = true ∧
      allRun s p.1 ([0x65, 0x66, 0x67].map fun op => (encI op 1 5 0, memCycles p.1 p.2 true)) = true ∧
      allRun s p.1 [(encL 0x52 0 0, 1), (encI 0x4E 6 0 8, 1), (encI 0x4F 6 3 0, 1)] = true) ∧
    (let t := (working 0).dev.thatch
     t.trussMem.ue = [] ∧ t.gableMem.ue = [] ∧ t.soffitMem.ue = [] ∧ t.gableImage = some (codeImage 64) ∧
      t.soffitImage = some (codeImage 64) ∧ (codeImage 64).inSection [1] 0x1EFFC = false ∧
      (codeImage 64).inSection [1] 0x1FFC = false ∧ 0x4001FFFC + 4 = 0x40020000 ∧ 0x1EFFC + 4 = 0x1F000 ∧ 0x1FFC + 4 = 0x2000) ∧
    ((∀ p ∈ ([0x60, 0x61, 0x62, 0x63, 0x64].map fun op => (encI op 1 5 0, memCycles (.engine 0) 0xFFC false, 0)) ++
        ([0x65, 0x66, 0x67].map fun op => (encI op 1 5 0, memCycles (.engine 0) 0xFFC true, 0)) ++
        ([(encL 0x52 0 0, 1, 0), (encI 0x4E 6 0 8, 1, 0), (encI 0x4F 6 3 0, 1, 0)] : List (Word × Nat × Nat)),
        storing.executes (.engine 0) p.1 p.2.1 p.2.2 = true) ∧
      (storing.dev.coreAt (.engine 0)).get 5 = 0xFFC ∧ storing.dev.memWf = true ∧
      (storing.dev.invAt 0).any (·.ls) = true ∧ 0xFFC + 4 = 0x1000) ∧
    (let s := working 0
     allRun s .truss [(encI 0x4F 6 3 2, 1), (encI 0x50 0 0 0x3FFF, 1), (encL 0x51 0 0, 1)] = true ∧
      s.dev.thatch.truss.inHandler = false ∧ s.dev.acc.attached = true ∧
      s.dev.thatch.trussImage = some { codeImage 64 with trapEntry := 0x40000080 } ∧ (0x40000080 : Word) ≠ 0 ∧
      wordCause (CoreId.profile .truss) 0 = some 0x01 ∧ s.dev.coreRuns .truss = true ∧ s.dev.fetches .truss = true) := by
  refine ⟨by decide +kernel, by decide, ⟨executes_of_engineRuns (by decide +kernel), by decide, by decide, by decide, by decide⟩,
    by decide +kernel⟩

/-- `safe` with so many command frames already on the link that no build of it has room for another (13 R408). -/
def crowded : State := safe.any fun d => { d with fld := { d.fld with down := List.replicate Config.sofxCapacity [] } }

theorem wit_ProfileInstructionsComplete :
    (allRun safe .gable [(encR 0xC0 5 3 1 0, 24), (encR 0xC0 5 3 1 1, 24), (encI 0xC1 5 0 3, 2), (encI 0xC2 0 0 0x3FFF, 1),
        (encL 0xC3 0 0, 1), (encI 0xC4 0 6 0, 1), (encL 0xC5 0 0, 1)] = true ∧
      (let g := safe.dev.thatch.gable
       (g.get 3).toNat % 8 = 0 ∧ (g.get 3).toNat + 128 ≤ 0x20000 ∧ safe.dev.thatch.gableMem.ue = [] ∧ (5 : BitVec 5) ≠ 0 ∧
        g.signat = safe.dev.sigExpect ∧ safe.dev.gbl.cfg.isSome = true ∧ safe.dev.rdg.pub = none ∧
        (g.get 6).extractLsb' 0 16 = safe.dev.rdg.tickFrame ∧ 2 ^ 19 ≤ (g.get 6).toNat ∧ safe.dev.gbl.lost = 0 ∧
        safe.dev.sys.mode ≠ .proof)) ∧
    (crowded.executes .gable (encI 0xC6 5 1 0) 2 = true ∧ Config.sofxCapacity ≤ crowded.dev.fld.down.length) ∧
    (let s := working 0x4001FFFC
     allRun s .truss [(encR 0xE0 1 5 2 0, 20), (encR 0xE1 1 5 2 0, 20), (encR 0xE2 0 1 2 0, 4), (encI 0xE3 6 1 0, 1),
        (encI 0xE3 6 0 0, 1)] = true ∧ (s.dev.thatch.truss.get 5).toNat = 0x4001FFFC ∧
      s.dev.thatch.truss.tpend.setWidth 32 &&& s.dev.thatch.truss.get 1 ≠ 0 ∧ s.dev.thatch.truss.get 0 = 0) ∧
    (waiting.dev.coreUp = true ∧ waiting.dev.thatch.truss.mode = .waiting 5 1 ∧
      waiting.dev.thatch.truss.tpend.setWidth 32 &&& (1 : Word) ≠ 0 ∧ waiting.dev.thatch.truss.dbgHalt = false) ∧
    (allRun cores .soffit [(encI 0xD0 15 0 0, 1), (encI 0xD1 0 2 0, 1), (encI 0xD2 0 1 0, 1), (encI 0xD4 0 1 0, 1),
        (encI 0xD5 0 0 0, 1)] = true ∧ (cores.dev.thatch.soffit.get 2).extractLsb' 24 8 ≠ (0 : BitVec 8) ∧
      cores.dev.soffit.appended.length < 8 ∧ tasked.executes .soffit (encI 0xD3 15 0 0) 2 = true ∧
      tasked.dev.soffit.payload = [7]) ∧
    (triggered.dev.coreUp = true ∧ triggered.dev.linkUp = true ∧ triggered.dev.thatch.gableWait = [0] ∧
      triggered.dev.thatch.soffitWait = [0] ∧ triggered.dev.imageAt .gable = some taskImage ∧
      triggered.dev.imageAt .soffit = some taskImage ∧ taskImage.tasks[0]? = some task ∧
      triggered.dev.thatch.gable.mode = .stopped ∧ triggered.dev.thatch.soffit.mode = .stopped ∧
      triggered.dev.thatch.gable.dbgHalt = false ∧ triggered.dev.thatch.soffit.dbgHalt = false) ∧
    (∀ c ∈ [CoreId.gable, .soffit], tasked.dev.imageAt c = some taskImage ∧ (tasked.dev.coreAt c).taskId = 0 ∧
      tasked.dev.coreRuns c = true) ∧
    (((engine.dev.engAt 0).work.any fun w => (engine.dev.course.runOf w.frame).isSome) = true ∧
      engine.dev.coreRuns (.engine 0) = true) := by
  refine ⟨by decide, ⟨by decide, by simp [crowded, State.any]⟩, by decide +kernel, by decide, by decide, by decide, by decide, by decide⟩

theorem wit_VectorInstructionsComplete :
    (∀ p ∈ ([(encR 0x80 1 2 3 (predMod none), 1, 0), (encR 0x81 1 2 3 (predMod (some 7)), 1, 0), (encR 0x82 1 2 3 (predMod none), 1, 0),
      (encR 0x83 1 2 3 (predMod none), 1, 0), (encR 0x84 1 2 3 (predMod none), 1, 0), (encR 0x85 1 2 3 (shiftMod 31 (some 7)), 2, 0),
      (encR 0x86 1 2 3 (shiftMod 0 none), 2, 0), (encR 0x87 1 2 3 (shiftMod 16 none), 2, 0), (encR 0x88 1 2 3 (predMod none), 1, 0),
      (encR 0x89 1 2 3 (predMod none), 1, 0), (encR 0x8A 1 2 3 (predMod none), 1, 0), (encR 0x8B 1 2 3 (predMod none), 1, 0),
      (encR 0x8C 1 2 3 (predMod none), 1, 0), (encR 0x8D 1 2 3 (predMod none), 1, 0), (encR 0x8E 1 2 3 (predMod none), 1, 0),
      (encR 0x8F 1 2 0 (predMod none), 1, 0), (encI 0x90 1 2 31, 1, 0), (encI 0x91 1 2 31, 1, 0), (encI 0x92 1 2 31, 1, 0),
      (encL 0x93 1 0x40000, 1, 0), (encR 0x94 1 2 0 (predMod none), 1, 0), (encR 0x95 1 2 0 15, 1, 0), (encR 0x96 1 2 0 15, 1, 0),
      (encR 0x97 1 2 3 7, 1, 0), (encR 0x98 1 2 3 0, 1, 0), (encR 0x99 1 2 3 0, 1, 0), (encR 0x9A 1 2 3 0, 1, 0),
      (encR 0x9B 1 2 3 0, 1, 0), (encR 0x9C 1 2 3 0, 1, 0), (encR 0x9D 1 2 3 0, 1, 0), (encR 0x9E 1 2 3 0, 1, 0),
      (encR 0x9F 1 2 0 0, 1, 0), (encR 0xA0 1 2 0 0, 1, 0), (encR 0xA1 1 2 0 0, 1, 0), (encI 0xA2 1 0 7, 1, 0), (encL 0xAA 1 0, 1, 0),
      (encL 0xAB 0 0, 1, 0), (encI 0xAC 0 2 0, 1, 0), (encR 0xA8 1 2 0 (predMod (some 7)), 4, 0),
      (encL 0xB1 0 0, 1, 12)] : List (Word × Nat × Nat)), engine.executes (.engine 0) p.1 p.2.1 p.2.2 = true) ∧
    (∀ p ∈ ([(encI 0xA3 1 5 0, 2, 0), (encI 0xA4 1 5 0, 2, 0), (encI 0xA7 0 6 0, 8, 0), (encR 0xA6 1 2 8 0, 16, 0),
      (encR 0xA5 1 2 3 (sampleMod 0 true true), 32, 0), (encR 0xA5 1 2 3 (sampleMod 0 false false), 16, 0),
      (encR 0xA9 0 2 3 (shiftMod 7 none), 2, 0)] : List (Word × Nat × Nat)),
        regioned.executes (.engine 0) p.1 p.2.1 p.2.2 = true) ∧
    (∀ p ∈ ([(encR 0xAE 1 2 10 0, 16, 0), (encR 0xAD 1 2 9 0, 4, 0), (encR 0xAF 1 2 0 0, 1, 0), (encR 0xB0 0 2 0 0, 1, 0)] :
        List (Word × Nat × Nat)), finishing.executes (.engine 0) p.1 p.2.1 p.2.2 = true) ∧
    ((15 : BitVec 5).toNat < 16 ∧ (7 : BitVec 5).toNat < 8 ∧ (12 : BitVec 5).toNat < 13) ∧
    ((regioned.dev.invAt 0).any (·.ls) = true ∧ regioned.dev.memWf = true ∧ regioned.dev.loft.ce = [] ∧
      regioned.dev.loft.ue = [] ∧ (regioned.dev.boundSource 0 0).isSome = true ∧ regioned.dev.inFinish 0 = false ∧
      (regioned.dev.engAt 0).work.any (fun w => cellWf w.acc) = true ∧
      (let s (k : BitVec 5) : Nat := ((regioned.dev.engAt 0).core.get k).toNat
       s 5 + 64 = 0x1000 ∧ s 5 % 64 = 0 ∧ s 6 + 32 = 0x2100 ∧ s 6 % 8 = 0 ∧
        ((regioned.dev.engAt 0).vget 2).toList = List.replicate 16 0 ∧ regioned.dev.inRegion [1, 3, 4] (s 8, 4) = true)) ∧
    (let d := finishing.dev
     d.inFinish 0 = true ∧ (d.engAt 0).work.isSome = true ∧ d.loft.ce = [] ∧ d.loft.ue = [] ∧
      d.inRegion [3] (((d.engAt 0).core.get 9).toNat, d.scan.emitters) = true ∧
      d.inRegion [4] (((d.engAt 0).core.get 10).toNat, 4100) = true ∧ ((d.engAt 0).core.get 10).toNat % 4 = 0) := by
  refine ⟨executes_of_engineRuns (by decide +kernel), executes_of_engineRuns (by decide +kernel),
    executes_of_engineRuns (by decide +kernel), by decide, by decide +kernel, by decide +kernel⟩

/-- A device of which ring 5 has an entry of opcode 0, the next to be served. -/
def asked : State := made fun d =>
  let r : Ring := { d.ringAt 5 with enabled := true, log2 := 4, base := 0x50000, cplBase := 0x51000, irqCount := 0, prod := 1 }
  { d with sys := { d.sys with mode := .load, lock := true }, rings := d.rings.set 5 r,
           thatch := { d.thatch with truss := { d.thatch.truss with mode := .running } } }

theorem wit_PictureCommandsComplete :
    (asked.dev.coreUp = true ∧ asked.dev.trussServes = true ∧ asked.dev.relayRing 5 = false ∧
      asked.dev.noteStalls.nextRing none = some 5 ∧ asked.dev.loft.ce = [] ∧ asked.dev.loft.ue = [] ∧
      asked.dev.sys.mode.served = true ∧
      entryField (asked.dev.noteStalls.loftBytes 0x50000 32) 0 1 = 0x00) ∧
    (course.dev.coreUp = true ∧ course.dev.canTake 7 = true ∧ course.dev.nextPatch 7 = some (0, 255) ∧
      (course.dev.course.runOf 0).isSome = true) ∧
    (((draining 9).dev.engAt 7).drain.any (fun x => (draining 9).dev.staleEpoch x == some 63) = true ∧
      ((draining 9).dev.engAt 7).svc ≠ 2) ∧
    (let s := course.any fun d => { d with course := { d.course with autoForce := false, run := { d.course.run with done := 1 } } }
     s.dev.course.active = true ∧ s.dev.course.complete = true ∧ s.dev.course.autoForce = false) ∧
    (((course.any fun d => d.onEng 7 fun g => { g with bistBusy := true }).dev.engAt 7).bistBusy = true) ∧
    (((engine.dev.engAt 0).work.any fun w => w.frame == engine.dev.course.run.frame) = true ∧ (engine.dev.engAt 0).svc = 0) ∧
    (let s := course.any fun d => d.onCtx 63 fun x => { x with copy := some (.slot 7 6) }
     (s.dev.ctxAt 63).copy = some (.slot 7 6) ∧ s.dev.oldPending 63 = false) ∧
    ((latching 0).dev.latDue = true ∧ (latching 0).dev.latPlan = some (0, 0, (latching 0).dev.scan.shadow, false)) ∧
    (let s := lit.any fun d => { d with gbl := { d.gbl with cfg := none } }
     let d := s.dev.cancelCommit.sampleCommit.mapAtWindow
     s.dev.windowDue = true ∧ d.scan.lats = true ∧ d.gbl.cfg = none) ∧
    (let d := windowed.dev.sendRest.1
     windowed.dev.coreUp = true ∧ windowed.dev.scan.window = true ∧ d.scan.window = true ∧ d.scan.step = .done ∧
      d.readsCaptures = false ∧ d.scan.xfer.any (fun x => x.underA + x.underB == 0) = true ∧ d.rdg.blockA = 0 ∧
      d.rdg.blockB = 0 ∧ windowed.dev.sys.mode ≠ .proof) ∧
    (streaming.dev.coreUp = true ∧ streaming.dev.vinRuns = true ∧ (streaming.dev.vin.burst && streaming.dev.vin.discard) = false ∧
      (streaming.dev.vin.streams[(3 : Fin 4)]).desc.any (fun x => x.vc == 3 && x.lossMs == 1) = true ∧
      (∀ k : Fin 4, k < 3 → (streaming.dev.vin.streams[k]).desc = none) ∧ streaming.dev.effects = [] ∧
      (streaming.dev.vin.streams[(3 : Fin 4)]).lost = false ∧
      (streaming.dev.vin.streams[(3 : Fin 4)]).since + 1000 * 1 ≤ streaming.dev.now) ∧
    ((ready .load 0).takesWrite 0x20030000 0x1F07 = true ∧ (ready .load 0).dev.vin.en = false) ∧
    (let s := locked.any fun d => { d with loft := { d.loft with scrubPos := 49150 } }
     s.dev.coreUp = true ∧ s.dev.pclkRuns = true ∧ s.dev.loft.ce = [] ∧ s.dev.loft.ue = [] ∧ s.dev.loft.scrubPos < 49151) ∧
    ((ready .load 0).takesWrite (0x20041000 + 16 * 127) 0xFFFFFFFF = true ∧ (ready .load 0).dev.sys.mode = .load) := by
  repeat' apply And.intro
  all_goals decide +kernel

theorem wit_StringAndTrimCommandsComplete :
    (let s := strung .run fun c => { c with mode := 1, state := 1, uv := 0, rampFrom := 999000 }
     let x := s.dev.str[(7 : Fin 8)]
     s.dev.coreUp = true ∧ s.dev.mayRun 7 = true ∧ x.state ≠ 0 ∧ x.mode = 1 ∧ s.dev.calHolds 7 = false ∧ x.fswN ≠ 0 ∧
      x.ovSpans = [] ∧ x.uv = 0 ∧ x.ovHold = false ∧ (1499 : BitVec 11).toNat < 1500 ∧ (1200 : BitVec 11).toNat ≤ x.ov.toNat ∧
      x.state = 1 ∧ x.rampFrom + 1000 ≤ s.dev.now) ∧
    (let s := strung .run fun c => { c with mode := 2, state := 2, depth := 16, pwmPeriod := 400, dutyNow := 1, pwmsync := false }
     s.dev.mayRun 7 = true ∧ s.dev.otKilled 7 = false ∧ (s.dev.str[(7 : Fin 8)]).pwmsync = false ∧ s.dev.shortTest 7 = false ∧
      s.dev.pwmTests 7 = (false, false)) ∧
    (let s := strung .run fun c => { c with mode := 1, state := 2, ocRun := 8, autoretry := false, lastRetry := none }
     s.dev.strQualifies 7 .oc = true ∧ (s.dev.str[(7 : Fin 8)]).state ≠ 3) ∧
    (let s := strung .run fun c => { c with state := 3, retryDue := some .oc, faultAt := 900000 }
     (s.dev.str[(7 : Fin 8)]).retryDue = some .oc ∧ 900000 + 100000 ≤ s.dev.now ∧ s.dev.inhibited 7 = false) ∧
    (let s := strung .run fun c => { c with latched := true }
     s.takesWrite (0x2006002C + 64 * 7) 1 = true ∧ s.dev.owned 7 = false ∧ (s.dev.str[(7 : Fin 8)]).latched = true) ∧
    (let s := warm (fun x => { x with en := true, overTemp := false, ot := 0x7FFF }) false
     let x := s.dev.thm.ntc[(5 : Fin 6)]
     let volts : Vector (Nat × Nat) 8 := Vector.replicate 8 (4063, 4095)
     s.dev.coreUp = true ∧ x.en = true ∧ s.dev.trim.active.getLsbD 24 = false ∧ x.isOpen = false ∧ x.isShort = false ∧
      32 ≤ (ntcMean volts).toNat ∧ (ntcMean volts).toNat = 4063 ∧
      overTempNow x.overTemp (ntcTemp (s.dev.thm.lut[(if x.table then 1 else 0 : Fin 2)]) (ntcMean volts)) x.ot = x.overTemp) ∧
    (State.reset.dev.thm.drtEn = false ∧ regioned.takesWrite 0x20061088 0x13FE03 = true ∧
      regioned.dev.inRegion [4] (0x13FE00, 512) = true) ∧
    (((aged 65).dev.scan.tile 127).tempAge = some 65 ∧ (aged 65).dev.thm.tileStale.getLsbD 127 = false) ∧
    ((warm id false).dev.thm.warned = false ∧ (0 : BitVec 16).toInt < (warm id false).dev.thm.dieWarn.toInt) ∧
    (State.reset.dev.sys.mode ≠ .off ∧ State.reset.dev.sys.mode ≠ .standby) ∧
    (let s := trimming .run fun t => { t with queued := [{ steps := 1, trigger := 2, cmd := some (0, 7) }], running := false }
     s.dev.coreUp = true ∧ s.dev.trim.queued = [{ steps := 1, trigger := 2, cmd := some (0, 7) }] ∧
      Mode.run.calibrates = true ∧ Mode.run.calRuns = true ∧ s.dev.trim.running = false) ∧
    (let s := trimming .load fun t => { t with running := true, pend := 0x400001000000, active := 0 }
     s.dev.trim.running = true ∧ s.dev.trim.pend.getLsbD 46 = true ∧ s.dev.trim.active.getLsbD 46 = false ∧
      s.dev.trim.blocked 46 = false ∧ s.dev.calExpired = false ∧ s.dev.stepReason 46 0 true = 0) ∧
    (let s := trimming .load fun t => { t with running := true, pend := 3, active := 0x400000000000, timeout := 0 }
     s.dev.trim.active.getLsbD 46 = true ∧ s.dev.stepOver 46 = true ∧ s.dev.stepReason 46 0 false = 0 ∧
      setBit s.dev.trim.pend 46 false ≠ 0 ∧ s.dev.trim.timeout = 0) ∧
    (let s := (trimming .load fun t => { t with running := true, active := 0, timeout := 1, startTime := 0 }).any fun d =>
       { d with sys := { d.sys with htime := 1000000 } }
     s.dev.trim.running = true ∧ s.dev.trim.active = 0 ∧ s.dev.calExpired = true) ∧
    ((trimming .load id).takesWrite (0x20070000 + 4 * 47) 0x3FF = true ∧ (trimming .load id).dev.trimWritable = true ∧
      (trimming .load id).takesWrite 0x20070100 1 = true ∧
      (trimming .load fun t => { t with running := true }).takesWrite 0x20070100 2 = true) := by
  repeat' apply And.intro
  all_goals decide +kernel

/-- `guarded` with the first connection of `kind` established and `since` given. -/
def connected (kind : Byte) (since : Nat) : State := (guarded .run kind).any fun d =>
  d.onFlash 0 fun x => { x with state := .established, since := since, echoOwed := true }

theorem wit_SafetyAndPowerCommandsComplete :
    (let s := guarded .run 1
     s.dev.coreUp = true ∧ s.dev.gbl.cfg.any (fun c => c.axes && c.fcOf 4 == none) = true ∧ s.dev.sys.role ≠ 2 ∧
      (s.dev.rdg.enc[(3 : Fin 4)]).last = none ∧ 2 ≤ (3 : Fin 4).val) ∧
    (let s := (guarded .run 1).any fun d =>
       { d with rdg := { d.rdg with enc := upd d.rdg.enc 0 fun e => { e with last := some (0, 0) }, parityErr := [3] } }
     (s.dev.rdg.enc[(0 : Fin 4)]).last = some (0, 0) ∧ (s.dev.rdg.enc[(0 : Fin 4)]).fault = false ∧
      s.dev.gbl.cfg.any (fun c => c.axes && decide (0 + 4 * c.encPeriod 0 ≤ s.dev.now)) = true ∧ s.dev.rdg.parityErr ≠ []) ∧
    (let g := (monitored .run fun g => { g with lost := 1, lostAt := 3000 }).dev.gbl
     g.lost = 1 ∧ g.held = false ∧ g.lostAt + 1000 ≤ (guarded .run 1).dev.now ∧ g.restarted = false) ∧
    (let g := (monitored .run fun g => { g with held := true, cfg := none }).dev.gbl
     g.held = true ∧ g.cfg = none) ∧
    ((guarded .run 1).dev.acc.jtag.drives = false ∧ (guarded .run 1).dev.gbl.live = none) ∧
    ((monitored .degraded fun g => { g with tdegEnd := some 4000 }).dev.gbl.tdegEnd = some 4000 ∧
      4000 ≤ (guarded .degraded 1).dev.now) ∧
    (let s := made fun d => { d with sys := { d.sys with mode := .safeHold }, gbl := { d.gbl with resetWindow := some 0 } }
     s.dev.coreUp = true ∧ s.dev.sys.mode = .safeHold ∧ s.dev.gbl.resetWindow = some 0 ∧ s.dev.now = 0 ∧
      s.dev.gbl.sf2Latch = false ∧ s.dev.gbl.demand = 0 ∧ s.dev.rdg.demand = 0 ∧ s.dev.gbl.cfg = none) ∧
    (let s := (monitored .run fun g => { g with sf3 := true, sf3Since := 0 }).any fun d =>
       { d with sys := { d.sys with htime := 1000000 } }
     s.dev.gbl.sf3 = true ∧ s.dev.gbl.sf3Since + 1000000 ≤ s.dev.now ∧ s.dev.gbl.sf3Reported = []) ∧
    (let s := connected 1 2999
     let x := s.dev.flash.conns[(0 : Fin 8)]
     s.dev.gableChecks = true ∧ x.state = .established ∧
      s.dev.gbl.cfg.any (fun c => c.fcKind 0 == 1 && decide (x.since + 1000 * c.fcTexp 0 < s.dev.now) &&
        x.echoDue (c.fcTexp 0) s.dev.now) = true) ∧
    (let s := connected 2 0
     s.dev.gableChecks = true ∧ s.dev.gbl.cfg.any (fun c => c.fcKind 0 == 2 &&
       (s.dev.flash.conns[(0 : Fin 8)]).dueAfter s.dev.now (max 1 (c.fcTexp 0 / 4))) = true) ∧
    (let s := ringed 28 fun r => { r with enabled := true, log2 := 4, base := 0x50000, prod := 1 }
     (s.dev.ringAt 28).enabled = true ∧ (s.dev.ringAt 28).stopping = false ∧ 0 < (s.dev.ringAt 28).held ∧
      s.dev.clean 0x50000 64 = true ∧ s.dev.gbl.cfg = none) ∧
    (let s := made fun d => { d with sys := { d.sys with htime := 2000 }, fld := { d.fld with rxAt := 0, rxOk := true } }
     s.dev.fld.rxAt + 2000 ≤ s.dev.now ∧ s.dev.fld.rxOk = true) ∧
    ((upward true).dev.fld.up = [inputGroups] ∧ (upward true).dev.fld.rxAny = true ∧
      ((barrierWords (withNoise inputGroups [])).bind inputOfWords).isSome = true) ∧
    (let s := made fun d => { d with sys := { d.sys with mode := .proof, proofBusy := true, proofStep := 6, htime := 10000000 },
                                     gbl := { d.gbl with cfg := some blank }, fld := { d.fld with douserStep := 1, douserAt := 0 } }
     s.dev.coreUp = true ∧ s.dev.sys.proofBusy = true ∧ s.dev.fld.douserStep ≠ 0 ∧ s.dev.gbl.cfg = some blank ∧
      s.dev.fld.douserAt + 1000 * fDouserMs blank.field < s.dev.now ∧ s.dev.sys.proofStart + 10000000 ≤ s.dev.now) ∧
    (((ready .load 0).any fun d =>
       { d with gbl := { d.gbl with cfg := some { blank with field := (2 : BitVec 1280) <<< 1216 } } }).takesWrite
          (0x20080040 + 4 * 7) 3 = true) ∧
    (let s := (made fun d => d.onCore .truss fun x => { x with mode := .halted }).any fun d => { d with alwaysOn := 2000 }
     s.dev.coreUp = true ∧ s.dev.thatch.truss.mode = .halted ∧ s.dev.acc.attached = false ∧
      s.dev.sys.haltAt + 2000 ≤ s.dev.alwaysOn) ∧
    (let s := powered fun y => { y with htime := 100000 }
     s.dev.sys.mode = .boot ∧ s.dev.sys.attemptOpen = true ∧ s.dev.sys.bootsel = false ∧
      s.dev.sys.attemptAt + 1000 * s.dev.sys.attemptMs ≤ s.dev.now) ∧
    ((ClockSeen.window 1359 2720).isFault = true ∧ (powered fun y => { y with proofAge := 0xFFFE }).dev.sys.proofAge ≠ 0xFFFF) ∧
    (living.dev.sys.mode = .proof ∧ living.dev.sys.proofBusy = true ∧ living.dev.sys.proofStep = 5 ∧
      1000 ≤ living.dev.sys.proofLive) ∧
    ((made fun d => { d with soffit := Soffit.reset }).dev.soffit.powered = false) ∧
    (∀ c : Bool, (downward c 15).dev.fld.down = [commandGroups c] ∧ sentConfig (commandGroups c) = c ∧
      ((barrierWords (withNoise (commandGroups c) [])).bind cmdOfWords).any
        (fun x => x.config == c && (downward c 15).dev.soffit.accepts x) = true) ∧
    (let s := sampled 0 id
     s.dev.soffit.powered = true ∧ (s.dev.soffit.inputs[(7 : Fin 8)]).due ≤ s.dev.soffit.us ∧ s.dev.thresholdStep 7 = false ∧
      (s.dev.soffit.outputs[(7 : Fin 8)]).on = false ∧ s.dev.soffit.lplus = 0) ∧
    (let s := assigned id
     let f := s.dev.soffit
     f.powered = true ∧ f.test = none ∧ f.lplus = 0 ∧ f.mayTest 0 false = true ∧ f.testDue 0 false = true ∧
      s.dev.readbackStep = false) ∧
    (let f := (fielded fun f => { f with us := 20001, rxAt := 0 }).dev.soffit
     f.powered = true ∧ f.rxAt + 1000 * fTsil f.field < f.us) ∧
    (let f := (fielded fun f => { f with
        us := 1000 * fPairDisc f.field 3 + 1, pairs := upd f.pairs 3 fun p => { p with since := some 0, disc := false } }).dev.soffit
     (f.pairs[(3 : Fin 4)]).since = some 0 ∧ (f.pairs[(3 : Fin 4)]).disc = false ∧ 0 + 1000 * fPairDisc f.field 3 < f.us) ∧
    (let f := (fielded fun f => { f with
        us := 5, lplus := 1, test := some { out := 7, off := false, members := 0x80, start := 0, width := 5 } }).dev.soffit
     f.test.any (fun t => !t.off && decide (t.start + t.width ≤ f.us)) = true ∧ f.lplus ≠ 0) ∧
    (let s := powered fun y => { y with hold := { y.hold with brown := true } }
     s.dev.sys.hold.brown = true ∧ s.dev.soffit.powered = true) ∧
    (let s := powered fun y => { y with lockDue := some 0 }
     s.dev.sys.lockDue = some 0 ∧ s.dev.sys.hold.brown = false ∧ 0 ≤ s.dev.alwaysOn ∧ s.dev.sys.stbyOut = false) ∧
    ((powered fun y => { y with hold := { y.hold with rstN := true } }).dev.sys.hold.rstN = true ∧
      (powered fun y => { y with resetCause := some 1 }).dev.mayEnd = true) ∧
    (down.dev.sys.mode = .retention ∧ down.dev.sys.hold.clear = true ∧ down.dev.acc.lapse = none) ∧
    (let s := (powered fun y => { y with mode := .standby, stbyOut := true }).any fun d => { d with alwaysOn := 10000 }
     s.dev.sys.mode = .standby ∧ s.dev.sys.stbyOut = true ∧ s.dev.sys.stbyAt + 10000 ≤ s.dev.alwaysOn) := by
  repeat' apply And.intro
  all_goals decide +kernel

theorem wit_RoofAndAccessCommandsComplete :
    (let s := (roof .load 0 fun r => { r with
       bootAddr := 0x17C0000, bootLen := 0x3FFFF, ringUp := true, marksOut := [0, 1],
       worker := r.worker.set 7 { WorkerView.reset with present := true, lost := false } }).any fun d =>
         { d with sys := { d.sys with htime := 1000000 } }
     s.dev.coreUp = true ∧ s.dev.manager = true ∧ s.dev.roof.trainAt ≤ s.dev.now ∧ status7.position ≠ 0 ∧
      (s.dev.workerAt 7).present = true ∧ (s.dev.workerAt 7).lost = false ∧ s.dev.roof.reenum = none ∧
      (s.dev.workerAt 7).seenAt + 30000 < s.dev.now ∧ s.dev.sys.mode.served = true ∧
      0x40000 ≤ s.dev.roof.bootAddr.toNat ∧ s.dev.roof.bootLen ≠ 0 ∧
      s.dev.roof.bootAddr.toNat + s.dev.roof.bootLen.toNat ≤ 0x1800000 ∧ s.dev.sys.mode ≠ .boot ∧ s.dev.roof.ringUp = true ∧
      2 ≤ (s.dev.roof.marksOut.filter s.dev.markLate).length) ∧
    (let s := (roof .load 2 fun r => { r with posValid := true, position := 7, marks := true, markTwin := false, markRun := 0 }).any
       fun d => { d with sys := { d.sys with htime := 2 } }
     s.dev.coreUp = true ∧ s.dev.worker = true ∧ s.dev.roof.statusAt ≤ s.dev.now ∧ s.dev.gbl.cfg = none ∧
      s.dev.sys.mode ≠ .boot ∧ s.dev.sys.role = 2 ∧ s.dev.markOverdue = true ∧ s.dev.roof.marks = true ∧
      s.dev.roof.markTwin = false ∧ s.dev.roof.markRun ≠ 1) ∧
    (let m : List Byte := List.replicate 11 0 ++ [crc8 (List.replicate 11 0)]
     markOfLanes (markLanes (false, false) m) = some m ∧ crc8 (m.take 11) = m.getD 11 0) ∧
    (cellOfLanes (goodLanes 2) = .cell (aCell 2) ∧ cellKnown (aCell 2).kind = true ∧
      (aCell 2).dst ≠ State.reset.dev.roof.position.setWidth 8 ∧ (aCell 2).src ≠ State.reset.dev.roof.position.setWidth 8 ∧
      (aCell 2).kind ≠ 1) ∧
    (let c : PCell := { kind := 2, dst := 1, src := 0, seq := 0, payload := [] }
     let s := (roof .load 0 fun r => { r with unacked := [(c, 2, 0)] }).any fun d => { d with sys := { d.sys with htime := 100 } }
     s.dev.roof.unacked = [(c, 2, 0)] ∧ 0 + 100 ≤ s.dev.now ∧ 2 < 3) ∧
    roofed.dev.inRoof = true ∧
    (let s := (roof .load 2 id).any fun d =>
       { d with rings := upd d.rings 30 fun r => { r with enabled := true, log2 := 4, base := 0x50000, prod := 1 } }
     (s.dev.ringAt 30).enabled = true ∧ (s.dev.ringAt 30).stopping = false ∧ 0 < (s.dev.ringAt 30).held ∧
      s.dev.manager = false ∧ s.dev.loft.ce = [] ∧ s.dev.loft.ue = []) ∧
    (let s := (twins true 0).any fun d => { d with sys := { d.sys with htime := 2503 } }
     let w : Word := (crc8 [1, 0, 0]).setWidth 32 <<< 24 ||| 1
     s.dev.twinHere = true ∧ s.dev.sys.mode.mayDrive = true ∧ s.dev.sys.mode ≠ .boot ∧ s.dev.roof.driving = true ∧
      s.dev.roof.missRun < 2 ∧ s.dev.roof.missRun ≠ 1 ∧ s.dev.syncOverdue = true ∧ syncOfLine (syncLine w) = some w ∧
      crc8 [byteAt w 0, byteAt w 1, byteAt w 2] = byteAt w 3) ∧
    (let s := entered .load 0 fun a => { a with lapse := some 70000000 }
     s.dev.coreUp = true ∧ s.takesWrite 0x200A0008 2 = true ∧ s.takesWrite 0x200A0008 1 = true ∧ s.dev.nonceValid = false ∧
      s.dev.acc.attached = false ∧ s.dev.acc.jtag.drives = false ∧ s.dev.acc.lapse = some 70000000 ∧
      70000000 ≤ s.dev.alwaysOn ∧ s.takesWrite 0x200A000C 2 = true ∧ s.takesWrite 0x200A000C (16 + 2) = true ∧
      s.dev.acc.crUntil ≤ s.dev.alwaysOn ∧ 64 ≤ ({ s with otp := { s.otp with fuses := 64 } } : State).otp.fuses.toNat) ∧
    (let s := entered .load 2 id
     s.takesWrite 0x200A0050 (fld 0 (3 : BitVec 3) ||| fld 4 (2 : BitVec 2) ||| fld 8 (0xF : BitVec 4)) = true ∧
      s.takesWrite 0x200A0050 (fld 0 (3 : BitVec 3) ||| bit 3 true ||| fld 8 (0 : BitVec 4)) = true ∧ s.dev.sys.mode = .load ∧
      2 ≤ s.dev.acc.level ∧ (3 : BitVec 3) < 4 ∧ (s.otp.pws[targetSlot 3]).programmed = false ∧
      (s.otp.pws[targetSlot 3]).revoked = false ∧ s.dev.tapRuns = true ∧ s.dev.acc.attached = false) ∧
    ((entered .load 3 id).dev.tapRuns = true ∧ (entered .load 3 id).dev.acc.level = 3 ∧ (entered .load 3 id).dev.sys.mode = .load ∧
      0xFF ∉ ([0x00, 0x01, 0x02, 0x04, 0x05, 0x10, 0x11] : List Byte)) ∧
    (∀ h : Bool,
     let s := (entered .load 2 fun a => { a with attached := true }).any fun d =>
       d.onCore .truss fun x => { x with dbgHalt := h }
     s.dev.tapRuns = true ∧ s.dev.acc.attached = true ∧ s.dev.sys.mode ≠ .boot ∧ s.dev.thatch.truss.dbgHalt = h) ∧
    (let s := injecting .run 3600000000 fun i => { i with schedEn := true, busy := true, interval := 3600 }
     s.dev.coreUp = true ∧ s.dev.inj.schedAt + 1000000 * s.dev.inj.interval.toNat ≤ s.dev.now ∧ s.dev.inj.schedEn = true ∧
      s.dev.sys.mode = .run ∧ s.dev.inj.busy = true) ∧
    (let s (t : Nat) := injecting .armed t fun i =>
       { i with busy := true, restoring := false, hdr := none, bit := 0, inst := 0, start := 0, dry := true }
     (s 21000).dev.inj.busy = true ∧ (s 21000).dev.now ≤ (s 21000).dev.inj.start + (s 21000).dev.injTime 0 0 ∧
      (s 22000).dev.inj.start + (s 22000).dev.injTime 0 0 + 1000 ≤ (s 22000).dev.now) ∧
    (let s := injecting .run 0 fun i =>
       let i : Inj := { i with busy := true, restoring := true, bit := 0, inst := 0, start := 0, detect := 0, stopG := true }
       i.onHead fun e => { e with result := 2 }
     s.dev.inj.busy = true ∧ s.dev.inj.restoring = true ∧ s.dev.inj.held = false ∧
      s.dev.now ≤ 1000 + s.dev.injRestore 0 0 ∧ (s.dev.inj.log[s.dev.inj.head]).result = 2 ∧ s.dev.injBack = false) := by
  repeat' apply And.intro
  all_goals decide +kernel

/-! ### Further clauses' witnesses -/

/-- A Gable lost, for the commands that it executes (03 R81). -/
theorem wit_LongCommands_lost :
    (∀ p ∈ ([(.run, 0x62), (.safeHold, 0x03)] : List (Mode × Byte)),
      let s := (ready p.1 1).any fun d => { d with gbl := { d.gbl with lost := 1 } }
      s.serves hdr p.2 (args 0 0 0) = true ∧ s.dev.gbl.lost ≠ 0) ∧
    (∀ op ∈ ([0x60, 0x61] : List Byte),
      let c : LongCommand := { hdr := hdr, opcode := op, args := args 0x60000 64 0x70000 }
      let s := (ready .load 1).any fun d =>
        let r : Ring := { d.ringAt 0 with inService := some c }
        { d with rings := d.rings.set 0 r, gbl := { d.gbl with lost := 1 } }
      s.dev.coreUp = true ∧ s.dev.trussServes = true ∧ (s.dev.rings[(0 : Fin 24)]).inService = some c ∧
        s.dev.gbl.lost ≠ 0) := by decide

/-- A burst whose rest is discarded. -/
theorem wit_InputsAndScrubber_discards :
    let s := streaming.any fun d => { d with vin := { d.vin with burst := true, discard := true } }
    s.dev.coreUp = true ∧ s.dev.vinRuns = true ∧ (s.dev.vin.burst && s.dev.vin.discard) = true ∧
      (streaming.dev.vin.burst && streaming.dev.vin.discard) = false := by decide

/-- Conversions whose mean is at each bound of R301, and past it. -/
theorem wit_Temperatures_codes :
    (∀ c ∈ ([32, 4063, 4064] : List Nat), (ntcMean (Vector.replicate 8 (c, 4095))).toNat = c) ∧
    ((warm id false).dev.thm.dieWarn.toInt ≤ (0x7FFF : BitVec 16).toInt) := by decide

/-- A second sample of the LIVE outputs beside a first, with and without a fault; memories with a wrong CRC and with a parity
error; frames due and not. -/
theorem wit_SafetyMechanisms_times :
    (let s := monitored .run fun g => { g with lost := 3, lostAt := 3000 }
     s.dev.gbl.held = false ∧ s.dev.gbl.lostAt + 1000 ≤ s.dev.now ∧ s.dev.sys.mode ≠ .degraded) ∧
    (let s := monitored .run fun g => { g with lost := 3, lostAt := 3001 }
     s.dev.now < s.dev.gbl.lostAt + 1000) ∧
    (let l : LiveSample := { run := (true, true), level := (false, true), wrong := (true, true) }
     let s := (guarded .run 1).any fun d => { d with gbl := { d.gbl with live := some l } }
     let x : LiveSample := { run := (true, true), level := (false, true), wrong := (true, true) }
     s.dev.acc.jtag.drives = false ∧ s.dev.gbl.live = some l ∧ l.faults x ≠ 0 ∧ s.dev.gbl.liveFault = false ∧
      s.dev.gbl.cfg.isSome = true ∧ l.faults { x with wrong := (false, false) } = 0) ∧
    (let l : LiveSample := { run := (false, false), level := (true, false), wrong := (false, false) }
     (guarded .run 1).dev.liveG = false ∧ l.run.1 = false ∧ l.level.1 ≠ false) ∧
    (let s := (guarded .run 1).any fun d => { d with rdg := { d.rdg with memParity := true } }
     s.dev.rdg.memParity = true ∧ s.dev.gbl.cfg.isSome = true) ∧
    (let s := made fun d => { d with gbl := { d.gbl with cfg := none } }
     s.dev.gbl.cfg = none) ∧
    ((connected 1 2999).dev.gbl.cfg.any (fun c => c.fcKind 0 == 1 &&
       ((connected 1 2999).dev.flash.conns[(0 : Fin 8)]).echoDue (c.fcTexp 0) 4000) = true ∧
      !{ FlashConn.reset with state := .established }.echoDue 1 4000) ∧
    (let s := ringed 28 fun r => { r with enabled := true, stopping := true }
     (s.dev.ringAt 28).stopping = true) ∧
    (let s := (connected 2 0).any fun d => d.onFlash 0 fun x => { x with sentAt := some d.now, statusSent := d.flashStatus 0 }
     s.dev.gbl.cfg.any (fun c => c.fcKind 0 == 2 && (s.dev.flash.conns[(0 : Fin 8)]).statusSent == s.dev.flashStatus 0 &&
       !(s.dev.flash.conns[(0 : Fin 8)]).dueAfter s.dev.now (max 1 (c.fcTexp 0 / 4))) = true) := by
  refine ⟨by decide, by decide, by decide, by decide, by decide, by decide, by decide +kernel,
    by decide, by decide +kernel⟩

/-- A configuration whose RCRC the Ridge's memories give, and one whose they do not (11 R321). -/
theorem wit_SafetyMechanisms_ridge :
    (∃ c : SafetyConfig, State.reset.dev.ridgeCrcNow c = c.rcrc) ∧ (∃ c : SafetyConfig, State.reset.dev.ridgeCrcNow c ≠ c.rcrc) := by
  have with' (d : Dev) (x : Word) : ∃ c : SafetyConfig, d.ridgeCrcNow c = d.ridgeCrcNow blank ∧ c.rcrc = x := by
    refine ⟨{ blank with params := x.setWidth _ <<< 320 }, by simp only [Dev.ridgeCrcNow], ?_⟩
    ext i hi
    simp [SafetyConfig.rcrc, word32, hi, show 320 + i < 2048 by omega]
  generalize State.reset.dev = d at *
  obtain ⟨c, hc, h⟩ := with' d (d.ridgeCrcNow blank)
  obtain ⟨c', hc', h'⟩ := with' d (d.ridgeCrcNow blank + 1)
  exact ⟨⟨c, by rw [hc, h]⟩, ⟨c', by rw [hc', h']; bv_omega⟩⟩

/-- The schedule's interval gone and not, and restoration with and without all of it back. -/
theorem wit_FaultInjections_times :
    (∀ busy : Bool,
     let s (t : Nat) := injecting .run t fun i => { i with schedEn := true, busy := busy, interval := 3600 }
     (s 3600000000).dev.inj.schedAt + 1000000 * (s 3600000000).dev.inj.interval.toNat = (s 3600000000).dev.now ∧
      ¬ (s 3599999999).dev.inj.schedAt + 1000000 * (s 3599999999).dev.inj.interval.toNat ≤ (s 3599999999).dev.now ∧
      ((dryOrder (s 3600000000).dev.inj.nextSched).find? fun b => !((s 3600000000).dev.injInstances b 0xFF).isEmpty).isSome =
        true) ∧
    ((injecting .load 3600000000 fun i => { i with interval := 3600 }).dev.inj.schedEn = false) ∧
    (∀ g : Bool,
     let s := injecting .run 0 fun i => { i with busy := true, restoring := true, bit := 0, inst := 0, start := 0, detect := 0, stopG := g }
     s.dev.inj.held = false ∧ s.dev.now ≤ s.dev.injRestore 0 0 ∧ s.dev.injBack = !g) := by decide +kernel

/-! ### Values the spec works out -/

/-- Whether a command answers a next state with a property. -/
def gives (i : Instr) (s : State) (p : State → Bool) : Bool :=
  match exec i s with
  | .next t => p t
  | _ => false

/-- The words of the Gable task of chapter 04's example. -/
theorem test_words_of_the_gable_task :
    encI 0xC1 1 0 0 = 0xC1080000 ∧ encI 0x10 2 1 16 = 0x10104010 ∧ encR 0x08 1 1 2 0 = 0x08084400 ∧
    encI 0x2B 3 0 45 = 0x2B18002D ∧ encR 0x16 4 1 3 0x25 = 0x16204625 ∧ encI 0x65 4 0 0x40 = 0x65200040 ∧
    encI 0xC2 0 0 0xA5 = 0xC20000A5 ∧ encL 0xC3 0 0 = 0xC3000000 := by decide

/-- The words of the layer of chapter 05's example. -/
theorem test_words_of_the_layer :
    encI 0x2B 10 0 0x2000 = 0x2B502000 ∧ encI 0x60 1 10 0 = 0x600A8000 ∧ encI 0x60 2 10 4 = 0x60128004 ∧
    encR 0x94 8 1 0 0 = 0x94404000 ∧ encR 0x80 0 0 10 0 = 0x80001400 ∧ encR 0xA5 4 0 1 0 = 0xA5200200 ∧
    encR 0x86 4 4 8 0x100 = 0x86211100 ∧ encR 0xA9 0 4 9 0x60 = 0xA9011260 := by decide

/-- `cores` with the registers of chapter 04's FXMUL example. -/
def stepped : State := cores.any fun d => d.onCore .truss fun x => { x with s := (x.s.set 5 1).set 6 0x800 }

/-- FXMUL of the smallest step and one half, n = 12, with R = 1 and with R = 0 (04 R102, the example). -/
theorem test_fxmul_rounds :
    gives (.fxmul .truss 7 5 6 0x2C) stepped (fun t => (t.dev.coreAt .truss).get 7 == 1) = true ∧
    gives (.fxmul .truss 7 5 6 0x0C) stepped (fun t => (t.dev.coreAt .truss).get 7 == 0) = true := by decide

/-- Chapter 04's example: 0x60_0000 in Gray is the quarter turn 0x40_0000. -/
theorem test_gray : grayToBin 0x600000 = 0x400000 ∧ binToGray 0x400000 = 0x600000 := by decide

/-- Chapter 05's example: the pixel (255, 128, 0) in format 3. -/
theorem test_pixel : pixelChannels 3 false [255, 128, 0] = [0x10000, 0x8081, 0, 0x10000] := by decide

/-- The check values of the two checksums of 08 R226 and of the one of 12 R368, over "123456789". -/
theorem test_checksums :
    crc32 [0x31, 0x32, 0x33, 0x34, 0x35, 0x36, 0x37, 0x38, 0x39] = 0xCBF43926 ∧
    crc8 [0x31, 0x32, 0x33, 0x34, 0x35, 0x36, 0x37, 0x38, 0x39] = 0xF4 ∧
    crcAutosar [0x31, 0x32, 0x33, 0x34, 0x35, 0x36, 0x37, 0x38, 0x39] = 0x1697D06A := by decide +kernel

/-- Chapter 09's example: the threshold of 200 ns at 240 Hz. -/
theorem test_threshold : threshold 200 2 16 1666667 = 7 := by decide

/-- A transfer of frame N in slot 2 of the moving head. -/
def movingHead (n : BitVec 16) : Transfer :=
  { frame := n, cmd := .normal, depth := 16, ndepth := 16, slot := 2, period := 1666667, pwmper := 1, g := 8, shadow := false,
    buf := false, div := 0, start := 0, underA := 0, underB := 0, closed := false,
    ceil := { map := [], degraded := .none, service := none, capWord := 0 } }

/-- Chapter 09's example: the word 3 of index 100,005 leaves as 24 in frame 0x5003 and as 0 before. -/
theorem test_gathering :
    gather (movingHead 0x5003) 7 100005 3 true = (24, true) ∧ gather (movingHead 0x5002) 7 100005 3 true = (0, true) ∧
    gather (movingHead 0x5003) 7 100005 3 false = (3, false) ∧ sentClass 24 true 7 = 1 ∧ sentClass 0 true 7 = 3 ∧
    sentClass 3 false 7 = 2 := by decide

/-- Chapter 10's example: code 519 between 1369 and 1218, and the factor of 1361 on the reset curve. -/
theorem test_derating :
    ntcTemp (((Vector.replicate 33 0).set 4 1369).set 5 1218) 519 = 1361 ∧ deratePoint 1361 1120 1600 0x8000 = 0xBFBC := by
  decide

/-- Chapter 11's example: the margin at the longest horizon is 0x0001_3571 rounded up. -/
theorem test_margin :
    let v : BitVec 960 := (0x10E0000 : BitVec 960) <<< 64 ||| (0x7080000 : BitVec 960) <<< 128 ||| (0x8000 : BitVec 960) <<< 192
    let c : SafetyConfig := { blank with params := v.setWidth _ }
    (c.marginAxis 0 1666667 10000000 250 + marginDen - 1) / marginDen = 0x13571 := by decide +kernel

/-- Chapter 02's example: READ ID returns 0x01, 0x00, 0x16, 0x1A, and the write of 0x0000_1002 to 0x2000_0100 sets PROTO 2 and
DUMMY 16. -/
theorem test_host_port :
    gives (.readId 4) State.reset (fun t => t.dev.hp.out == [0x01, 0x00, 0x16, 0x1A]) = true ∧
    gives (.write (some 0x20000100) [0x02, 0x10, 0x00, 0x00] false) State.reset
      (fun t => t.dev.hp.proto == 2 && t.dev.hp.dummy == 16) = true := by decide +kernel

/-! ### Commands that stand for nothing real -/

theorem test_wf_write_without_address : (Instr.write none [1] false).wf = false := by decide
theorem test_wf_read_without_address : (Instr.read none 1 0 true).wf = false := by decide
theorem test_wf_known_command_byte : (Instr.hpUnknownCommand 0x02 0xFD).wf = false := by decide
theorem test_wf_write_of_no_bytes : (Instr.registerWrite 0x20000100 0 0).wf = false := by decide
theorem test_wf_enable_without_size : (Instr.ringEnable 0 0).wf = false := by decide
theorem test_wf_doorbell_of_a_device_ring : (Instr.ringDoorbell 24 1).wf = false := by decide
theorem test_wf_cons_of_a_host_ring : (Instr.ringConsWrite 0 1).wf = false := by decide
theorem test_wf_completions_of_an_event_ring : (Instr.ringCplConsWrite 24 1).wf = false := by decide
theorem test_wf_assigned_word : (Instr.unassignedInstruction .truss (encR 0x01 1 2 3 0)).wf = false := by decide
theorem test_wf_copy_of_context_0 : (Instr.contextCopyDone 0).wf = false := by decide
theorem test_wf_long_packet (bs : List Byte) (e : BurstEnd) (h : 65536 ≤ bs.length) :
    (Instr.dsiLongPacket 0 false true bs e).wf = false := by
  simp [Instr.wf]; omega
theorem test_wf_soft_error_outside_the_loft : (Instr.scrubRead [.loftSingle 3145728]).wf = false := by decide
theorem test_wf_bypass_by_another_opcode : (Instr.bypass 0x01).wf = false := by decide
theorem test_wf_bootdata_empty : (Instr.bootdata 0 0 0 []).wf = false := by decide
theorem test_wf_status_of_the_manager : (Instr.workerStatusMissing 0).wf = false := by decide
theorem test_wf_bootreq_of_the_manager : (Instr.bootreq 0 0).wf = false := by decide

end Sys2Proof.Tests
end

section
/-! PROOF. What every command does to the queue and to what left the ports (01 R12, 08 R233). -/

namespace Sys2Proof.Machine

open Sys2Proof

/-- Every command but those of the transfer window goes on, with the queue and what left the ports as they were: it
changes the device, or the device and its OTP. -/
theorem exec_keeps_wire (c : Instr) (s : State) (hs : c ≠ .transferWindowStart)
    (hc : ∀ rx ok, c ≠ .transferWindowClose rx ok) :
    ∃ t, exec c s = .next t ∧ t.pending = s.pending ∧ t.wire = s.wire := by
  cases c with
  | transferWindowStart => exact absurd rfl hs
  | transferWindowClose rx ok => exact absurd rfl (hc rx ok)
  | scrubRead soft => exact keeps_core (s.any fun d => soft.foldl Dev.softError d) Dev.scrub
  | strRestart ch byGable =>
    cases byGable
    · exact keeps_chip s _
    · exact keeps_core s _
  | watchdog | taskStart | thermalShutdown | thermalShutdownEnd | soffitPowerUp | soffitDataFrame | soffitConfigFrame
  | soffitInputFrameSend | inputSample | pairDiscTimeout | testPulseStart | testPulseEnd | outputShortTimer | outputThermal
  | lplusChange | logicSilence | powerOn | pllLockRetry | brownOut | vstbyLoss | rstNAssert | rstNRelease | resetEnd
  | retentionWake | standbyWake | unlockTimeout | extest | idcode | samplePreload | highz | clamp | bypass | debugAttach
  | debugDetach | debugHalt | debugStep | debugResume | debugWrite => exact keeps_any s _
  | ringDisableDone | ringIrqTimer | ringDropReport | wfiWake | patchOverrun | lat | engineTakePatch | patchDrainDone
  | runComplete | engineBistDone | engineStall | contextCopyDone | dsiVerticalSyncStart | dsiLongPacket | dsiShortPacket
  | dsiNullBlanking | dsiSotError | dsiUlps | dsiTurnaroundRequest | vinLoss | switchingCycle | supplyRampDone
  | pwmPeriodStart | pwmPeriodEnd | stringProtectTimeout | stringRetry | stringInhibit | ntcPublish | derateUpdate
  | tileTempStale | dieTempUpdate | encoderSample | encoderSampleTimeout | gableReset | gableRestart | ridgeCrcCheck
  | liveReadback | tdegExpire | resetInputEdge | safeHoldResetWindow | sf3FallbackTimer | soffitInputFrame | soffitSilent
  | douserTestTimeout | flashingFrameRx | flashingTimeout | flashingEchoSend | calRunStart | calStep | calStepDone
  | calTimeout | trussHaltReset | bootWindowExpire | clockFault | proofTimeout | proofAgeTick | train | purlinCellReceive
  | status | workerStatusMissing | gframe | rframe | bootreq | ack | purlinRetry | migrate | relayUp | purlinRing30Entry
  | reenum | latchMarkSend | latchMarkReceive | latchMarkMissing | ringBroken | syncWordSend | syncWordReceive
  | syncWordMissing | nonceExpire | injectionSchedule | injectionDeadline | injectionDetected | injectionRestored
  | dsiHeaderEccError | latchMarkReturn | proofReadbackPass => exact keeps_core s _
  | commandFetch | longCommandComplete | flashingStatusSend | bootdata | relayDown => exact keeps_chipUp s _
  | _ => exact keeps_chip s _

theorem exec_transferWindowStart (s : State) :
    exec .transferWindowStart s = .next (if s.dev.coreUp then s.window else s) := rfl

theorem exec_transferWindowClose (s : State) (rx : List (List (BitVec 10))) (ok : Bool) :
    exec (.transferWindowClose rx ok) s = .next (if s.dev.coreUp then s.closeWindow rx ok else s) := rfl

theorem exec_transferWindowStart_up {s : State} (h : s.dev.coreUp = true) : exec .transferWindowStart s = .next s.window :=
  congrArg Host.Outcome.next (if_pos h)

theorem exec_transferWindowClose_up {s : State} (h : s.dev.coreUp = true) (rx : List (List (BitVec 10))) (ok : Bool) :
    exec (.transferWindowClose rx ok) s = .next (s.closeWindow rx ok) :=
  congrArg Host.Outcome.next (if_pos h)

/-- Settles O4, by the three kinds of command: a window's start, a window's close, and any other. -/
theorem everyCommandGoesOn : Obligations.EveryCommandGoesOn := by
  intro c s
  by_cases hs : c = .transferWindowStart
  · subst hs
    refine ⟨_, exec_transferWindowStart s, ?_, fun h => absurd rfl h⟩
    split
    · exact s.window_pending
    · rfl
  by_cases hc : ∃ rx ok, c = .transferWindowClose rx ok
  · obtain ⟨rx, ok, rfl⟩ := hc
    refine ⟨_, exec_transferWindowClose s rx ok, ?_, fun _ => ?_⟩
    · split <;> rfl
    · have none_else (ws : List SentWord) :
          (∀ rx' ok', Instr.transferWindowClose rx ok ≠ .transferWindowClose rx' ok') → ws = [] :=
        fun h => absurd rfl (h rx ok)
      split
      · exact ⟨s.dev.sendRest.2, rfl, none_else _⟩
      · exact ⟨[], (List.append_nil _).symm, none_else _⟩
  · obtain ⟨t, he, hp, hw⟩ := exec_keeps_wire c s hs fun rx ok e => hc ⟨rx, ok, e⟩
    exact ⟨t, he, hp, fun _ => ⟨[], by rw [hw, List.append_nil], fun _ => rfl⟩⟩

end Sys2Proof.Machine
end

section
/-! PROOF. The words that left the ports: each is one that the Ridge checked (01 R12, R21), and what its ceilings make of it
(01 R22, 11 R324, R343). -/

namespace Sys2Proof.Machine

open Sys2Proof

/-! ### The ceilings of a word -/

theorem scaleCap_le_maxWord (c : BitVec 16) (depth : Nat) : scaleCap c depth ≤ maxWord depth := by
  have hc : c.toNat < 2 ^ 16 := c.isLt
  have hlt : c.toNat >>> (16 - depth) < 2 ^ depth := by
    rw [Nat.shiftRight_eq_div_pow]
    apply Nat.div_lt_of_lt_mul
    rw [← Nat.pow_add]
    exact Nat.lt_of_lt_of_le hc (Nat.pow_le_pow_right (by decide) (by omega))
  unfold scaleCap maxWord
  omega

theorem effCeiling_le_maxWord (depth static cell : Nat) (cap : BitVec 16) :
    effCeiling depth static cell cap ≤ maxWord depth := by
  unfold effCeiling
  split
  · exact Nat.zero_le _
  · split
    · exact scaleCap_le_maxWord cap depth
    · exact Nat.le_refl _

theorem effCeiling_dark {static cell : Nat} (depth : Nat) (cap : BitVec 16) (h : static = 2 ∨ 2 ≤ cell) :
    effCeiling depth static cell cap = 0 := if_pos h

theorem effCeiling_capped {static cell : Nat} (depth : Nat) (cap : BitVec 16) (h : static = 1 ∨ cell = 1) :
    effCeiling depth static cell cap ≤ scaleCap cap depth := by
  unfold effCeiling
  split
  · exact Nat.zero_le _
  · exact Nat.le_refl _

theorem lowerBy_le (x : Nat × Nat) (rung : Nat) (o : Option Nat) : (lowerBy x rung o).1 ≤ x.1 := by
  cases o with
  | none => exact Nat.le_refl _
  | some y =>
    simp only [lowerBy]
    split
    · exact Nat.le_of_lt ‹_›
    · exact Nat.le_refl _

theorem lowerBy_some_le (x : Nat × Nat) (rung y : Nat) : (lowerBy x rung (some y)).1 ≤ y := by
  simp only [lowerBy]
  split
  · exact Nat.le_refl _
  · exact Nat.le_of_not_lt ‹_›

section
variable (c : Ceilings) (static : Mem) (depth n p cell : Nat)

theorem ceilingAt_le_eff :
    (ceilingAt c static depth n p cell).1 ≤ effCeiling depth (mapEntry static n) (mapEntry c.map cell) c.capWord :=
  Nat.le_trans (lowerBy_le _ _ _) (lowerBy_le _ _ _)

theorem ceilingAt_le_degraded {y : Nat} (h : degCeilingAt c.degraded depth p c.capWord = some y) :
    (ceilingAt c static depth n p cell).1 ≤ y := by
  refine Nat.le_trans (lowerBy_le _ _ _) ?_
  rw [h]
  exact lowerBy_some_le _ _ _

theorem ceilingAt_le_service {v : BitVec 16} (h : c.service = some v) :
    (ceilingAt c static depth n p cell).1 ≤ scaleCap v depth := by
  unfold ceilingAt
  rw [h]
  exact lowerBy_some_le _ _ _

end

/-! ### A word under its ceilings -/

/-- What `Dev.wordAt` makes of a word `m` under a ceiling `c`. -/
theorem clamped_le (parity hit : Bool) (last m c : Nat) :
    (if parity = true then 0 else if hit = true then min last (min m c) else min m c) ≤ c := by
  cases parity
  · cases hit
    · exact Nat.min_le_right _ _
    · exact Nat.le_trans (Nat.min_le_right _ _) (Nat.min_le_right _ _)
  · exact Nat.zero_le _

section
variable (d : Dev) (x : Transfer) (t k n last : Nat)

/-- The lowest ceiling in force for the word at offset `k` of tile `t`, index `n` (01 R22, R23). -/
def Dev.wordCeiling : Nat :=
  let place := d.scan.placeIn t k
  (ceilingAt (d.ceilNow x) d.rdg.staticMap x.depth.toNat n (d.scan.patchAt place.1 place.2)
    (d.scan.cellAt place.1 place.2)).1

/-- A parity error makes the word and its ceiling 0 (11 R321); otherwise the ceiling is the lowest in force. -/
theorem Dev.wordAt_ceil_cases :
    (d.wordAt x t k n last).ceil = d.wordCeiling x t k n ∨
      ((d.wordAt x t k n last).ceil = 0 ∧ (d.wordAt x t k n last).word = 0) := by
  cases hp : (d.wordAt x t k n last).parity with
  | false => exact .inl (if_neg (Bool.eq_false_iff.mp hp))
  | true => exact .inr ⟨if_pos hp, if_pos hp⟩

/-- The Ridge cannot raise a word (01 R21). -/
theorem Dev.wordAt_le_wordCeiling : (d.wordAt x t k n last).word ≤ d.wordCeiling x t k n :=
  clamped_le _ _ _ _ _

theorem Dev.wordAt_le_ceil : (d.wordAt x t k n last).word ≤ (d.wordAt x t k n last).ceil := by
  rcases d.wordAt_ceil_cases x t k n last with h | ⟨h, h'⟩
  · exact h ▸ d.wordAt_le_wordCeiling x t k n last
  · exact h' ▸ Nat.zero_le _

theorem Dev.wordAt_le_eff :
    (d.wordAt x t k n last).word ≤ effCeiling x.depth.toNat (mapEntry d.rdg.staticMap n)
      (mapEntry x.ceil.map (d.scan.cellAt (d.scan.placeIn t k).1 (d.scan.placeIn t k).2)) x.ceil.capWord :=
  Nat.le_trans (d.wordAt_le_wordCeiling x t k n last) (ceilingAt_le_eff (d.ceilNow x) _ _ _ _ _)

theorem Dev.wordAt_dark
    (h : mapEntry d.rdg.staticMap n = 2 ∨
      2 ≤ mapEntry x.ceil.map (d.scan.cellAt (d.scan.placeIn t k).1 (d.scan.placeIn t k).2)) :
    (d.wordAt x t k n last).word = 0 :=
  Nat.le_zero.mp (effCeiling_dark x.depth.toNat _ h ▸ d.wordAt_le_eff x t k n last)

/-- A Degraded ceiling in force bounds the word as it leaves (11 R343). -/
theorem Dev.wordAt_le_degraded {y : Nat} (hd : d.rdg.deg ≠ .none)
    (h : degCeilingAt d.rdg.deg x.depth.toNat (d.scan.patchAt (d.scan.placeIn t k).1 (d.scan.placeIn t k).2)
      x.ceil.capWord = some y) :
    (d.wordAt x t k n last).word ≤ y := by
  refine Nat.le_trans (d.wordAt_le_wordCeiling x t k n last) (ceilingAt_le_degraded (d.ceilNow x) _ _ _ _ _ ?_)
  simp only [Dev.ceilNow, hd, if_false]
  exact h

theorem Dev.wordAt_le_service {v : BitVec 16} (h : x.ceil.service = some v) :
    (d.wordAt x t k n last).word ≤ scaleCap v x.depth.toNat :=
  Nat.le_trans (d.wordAt_le_wordCeiling x t k n last) (ceilingAt_le_service (d.ceilNow x) _ _ _ _ _ h)

end

/-! ### The ceilings taken at a window start -/

/-- The cap word that a transfer is checked against is CAP16 of the configuration in force (11 R327). -/
theorem Dev.newXfer_capWord {d : Dev} {c : SafetyConfig} (noCap : Bool) (h : d.gbl.cfg = some c) :
    (d.newXfer noCap).ceil.capWord = c.cap16 := by
  simp only [Dev.newXfer, Dev.ceilings, h]

/-- The service cap in force is taken at the window start (01 R22). -/
theorem Dev.newXfer_service {d : Dev} {noCap : Bool} {c : BitVec 16} (h : d.serviceCap noCap = some c) :
    (d.newXfer noCap).ceil.service = some c := by
  cases hg : d.gbl.cfg with
  | none => simp only [Dev.serviceCap, hg, reduceCtorEq] at h
  | some g => simp only [Dev.newXfer, Dev.ceilings, hg, h]

/-! ### The record of a word on the wire -/

theorem sentWord_static (port : Bool) (w : WordOut) (h : w.static < 4) : (sentWord port w).static.toNat = w.static := by
  simp only [sentWord, BitVec.toNat_ofNat]
  exact Nat.mod_eq_of_lt h

theorem mapEntry_lt (m : Mem) (i : Nat) : mapEntry m i < 4 := Nat.mod_lt _ (by decide)

theorem sentWord_word_le_ceil (port : Bool) {w : WordOut} (h : w.word ≤ w.ceil) :
    (sentWord port w).word ≤ (sentWord port w).ceil := by
  simp only [sentWord, BitVec.le_def, BitVec.toNat_ofNat]
  omega

/-- The record is of a word as the Ridge let it leave (01 R12). -/
def SentWord.Checked (w : SentWord) : Prop :=
  ∃ (d : Dev) (x : Transfer) (t k n last : Nat), w = sentWord (portOf t) (d.wordAt x t k n last)

theorem SentWord.Checked.word_le_ceil {w : SentWord} (h : w.Checked) : w.word ≤ w.ceil := by
  obtain ⟨d, x, t, k, n, last, rfl⟩ := h
  exact sentWord_word_le_ceil _ (d.wordAt_le_ceil x t k n last)

theorem SentWord.Checked.dark {w : SentWord} (h : w.Checked) (hs : w.static = 2) : w.word = 0 := by
  obtain ⟨d, x, t, k, n, last, rfl⟩ := h
  have hm : mapEntry d.rdg.staticMap n = 2 :=
    (sentWord_static _ (d.wordAt x t k n last) (mapEntry_lt _ _)).symm.trans (congrArg BitVec.toNat hs)
  simp only [sentWord, d.wordAt_dark x t k n last (.inl hm), Nat.zero_min]
  rfl

/-! ### Every word that a step sends is checked -/

/-- Every word of `m` is checked. -/
def Sending.Checked (m : Sending) : Prop := ∀ w ∈ m.2, w.Checked

theorem Sending.checked_nil (d : Dev) : Sending.Checked (d, []) := fun _ h => absurd h List.not_mem_nil

theorem sendWord_checked {m : Sending} (h : m.Checked) (x : Transfer) (c t : Nat) : (sendWord m x c t).Checked := by
  intro w hw
  simp only [sendWord, List.mem_append, List.mem_singleton] at hw
  rcases hw with hw | hw
  · exact h w hw
  · exact ⟨m.1, x, t, _, _, _, hw⟩

theorem ite_cases {α : Type} (p : Prop) [Decidable p] (a b : α) :
    (if p then a else b) = b ∨ (if p then a else b) = a := by
  by_cases h : p
  · exact .inr (if_pos h)
  · exact .inl (if_neg h)

/-- A lane goes on in an open window only, with the next word of the tile it is at. -/
theorem sendLane_succ_cases (m : Sending) (c : Nat) (limit : Option Nat) (n : Nat) :
    sendLane m c limit (n + 1) = m ∨
      ∃ x t ts, m.1.scan.window = true ∧ m.1.scan.xfer = some x ∧ (m.1.scan.lane c).todo = t :: ts ∧
        sendLane m c limit (n + 1) = sendLane (sendWord m x c t) c limit n := by
  cases hx : m.1.scan.xfer with
  | none => exact .inl (by simp only [sendLane, hx])
  | some x =>
    cases ht : (m.1.scan.lane c).todo with
    | nil => exact .inl (by simp only [sendLane, hx, ht])
    | cons t ts =>
      cases hw : m.1.scan.window with
      | false => exact .inl (by simp only [sendLane, hx, ht, hw, Bool.false_and, Bool.false_eq_true, if_false])
      | true =>
        simp only [sendLane, hx, ht, hw]
        exact (ite_cases _ _ _).imp_right fun e => ⟨x, t, ts, trivial, rfl, rfl, e⟩

theorem sendLane_checked (c : Nat) (limit : Option Nat) (n : Nat) {m : Sending} (h : m.Checked) :
    (sendLane m c limit n).Checked := by
  induction n generalizing m with
  | zero => exact h
  | succ n ih =>
    rcases sendLane_succ_cases m c limit n with e | ⟨x, t, -, -, -, -, e⟩
    · rwa [e]
    · exact e ▸ ih (sendWord_checked h x c t)

theorem Dev.sendWords_checked (d : Dev) (limit : Option Nat) : (d.sendWords limit).Checked :=
  List.foldlRecOn (upTo 16) _ (Sending.checked_nil d) fun _ hm _ _ => sendLane_checked _ _ _ hm

theorem Dev.sendDue_checked (d : Dev) : d.sendDue.Checked := by
  unfold Dev.sendDue
  split
  · exact Sending.checked_nil d
  · split
    · exact d.sendWords_checked _
    · exact Sending.checked_nil d

theorem Dev.sendRest_checked (d : Dev) : d.sendRest.Checked := by
  unfold Dev.sendRest
  split
  · exact d.sendWords_checked _
  · exact Sending.checked_nil d

theorem Dev.wordTick_checked (d : Dev) : d.wordTick.Checked := by
  unfold Dev.wordTick
  split
  · exact d.sendDue_checked
  · exact Sending.checked_nil d

/-- A window's start leaves on the wire the words of the last transfer, or its own, which are checked. -/
theorem State.window_wire_checked (s : State) : ∀ w ∈ s.window.wire, w ∈ s.wire ∨ w.Checked := by
  intro w hw
  unfold State.window at hw
  simp only at hw
  split at hw
  · exact .inr (Dev.sendDue_checked _ w hw)
  · exact .inl hw

theorem exec_wire_checked {c : Instr} {s t : State} (h : exec c s = .next t) :
    ∀ w ∈ t.wire, w ∈ s.wire ∨ w.Checked := by
  intro w hw
  by_cases hs : c = .transferWindowStart
  · subst hs
    rw [exec_transferWindowStart, Host.Outcome.next.injEq] at h
    subst h
    split at hw
    · exact s.window_wire_checked w hw
    · exact .inl hw
  by_cases hc : ∃ rx ok, c = .transferWindowClose rx ok
  · obtain ⟨rx, ok, rfl⟩ := hc
    rw [exec_transferWindowClose, Host.Outcome.next.injEq] at h
    subst h
    split at hw
    · exact (List.mem_append.mp hw).imp_right (s.dev.sendRest_checked w)
    · exact .inl hw
  · obtain ⟨u, he, -, hu⟩ := exec_keeps_wire c s hs fun rx ok e => hc ⟨rx, ok, e⟩
    rw [he, Host.Outcome.next.injEq] at h
    subst h
    exact .inl (hu ▸ hw)

/-- A step adds checked words to the wire, and no others (01 R12). -/
theorem step_wire_checked {s t : State} (h : step s = .next t) : ∀ w ∈ t.wire, w ∈ s.wire ∨ w.Checked := by
  unfold step at h
  split at h
  · exact fun w hw => exec_wire_checked h w hw
  · rw [Host.Outcome.next.injEq] at h
    subst h
    exact fun w hw => (List.mem_append.mp hw).imp_right (Dev.wordTick_checked _ w)

/-- Settles O7: a word that a step adds is at most its ceiling as it leaves. -/
theorem wordsStayUnderTheirCeilings : Obligations.WordsStayUnderTheirCeilings := fun _ _ hs h w hw =>
  (step_wire_checked h w hw).elim (hs w) SentWord.Checked.word_le_ceil

/-- Settles O9: over a step by what a checked word is, and for the ceilings by the lowest of them. -/
theorem ridgeHoldsItsCeilings : Obligations.RidgeHoldsItsCeilings := by
  refine ⟨fun _ _ hs h w hw hd => (step_wire_checked h w hw).elim (fun hw => hs w hw hd) fun hw => hw.dark hd, ?_⟩
  intro d d' noCap t k n last x w place cell static scaled
  have hcap {c : SafetyConfig} (hc : d.gbl.cfg = some c) : x.ceil.capWord = c.cap16 := Dev.newXfer_capWord noCap hc
  have heff : w.word ≤ effCeiling x.depth.toNat static cell x.ceil.capWord := d'.wordAt_le_eff x t k n last
  refine ⟨d'.wordAt_le_ceil x t k n last, Nat.le_trans heff (effCeiling_le_maxWord _ _ _ _),
    sentWord_static _ w (mapEntry_lt _ _), d'.wordAt_dark x t k n last, ?capped, ?degraded, ?coarse, ?service⟩
  case capped =>
    intro c hc h
    exact hcap hc ▸ Nat.le_trans heff (effCeiling_capped _ _ h)
  case degraded =>
    intro c hc h
    refine d'.wordAt_le_degraded x t k n last (by rw [h]; exact nofun) ?_
    rw [h, degCeilingAt, hcap hc]
    rfl
  case coarse =>
    intro dark h hp
    refine Nat.le_zero.mp (d'.wordAt_le_degraded x t k n last (by rw [h]; exact nofun) ?_)
    rw [h, degCeilingAt]
    exact if_pos hp
  case service =>
    intro c hc
    exact d'.wordAt_le_service x t k n last (Dev.newXfer_service hc)

theorem Otp.grows_refl (o : Otp) : o.grows o :=
  ⟨fun _ => ⟨fun h => ⟨h, rfl, rfl⟩, id⟩, fun _ => ⟨fun h => ⟨h, rfl, rfl, rfl⟩, id⟩,
    BitVec.le_refl _, BitVec.le_refl _, rfl, rfl⟩

/-- Settles O8: nothing is on the wire at reset, and key slot 0 alone is programmed. -/
theorem invariantsHoldAtReset : Obligations.InvariantsHoldAtReset :=
  ⟨fun _ h => absurd h List.not_mem_nil, Otp.grows_refl _, by decide⟩

end Sys2Proof.Machine
end

section
/-! PROOF. Passing time (01 R26, R27, 08 R254): of all that a microsecond does, only its own count moves the clocks, and none
of it opens a transfer window. -/

namespace Sys2Proof.Machine

open Sys2Proof

/-! ### What a mode change leaves of the clocks and of the window (15 R442) -/

theorem Scan.onMode_window (s : Scan) (m : Mode) (now : Nat) : (s.onMode m now).window = true → s.window = true := by
  cases m with
  | trim =>
    simp only [Scan.onMode]
    split <;> exact id
  | proof | armed | run | degraded | service => exact id
  | boot | load | safeHold | off | standby | retention => exact nofun

theorem Sys.leaveProof_htime (s : Sys) (m : Mode) : (s.leaveProof m).htime = s.htime := by
  unfold Sys.leaveProof
  split <;> rfl

/-! ### The same instant -/

/-- The two clocks, and whether a transfer window is open. -/
abbrev Dev.instant (d : Dev) : Nat × BitVec 64 × Bool := (d.alwaysOn, d.sys.htime, d.scan.window)

/-- `t` is at the same instant as `d`, on both clocks, and has opened no transfer window. -/
structure Dev.SameInstant (d t : Dev) : Prop where
  alwaysOn : t.alwaysOn = d.alwaysOn
  htime : t.sys.htime = d.sys.htime
  window : t.scan.window = true → d.scan.window = true

namespace Dev.SameInstant

theorem refl (d : Dev) : d.SameInstant d := ⟨rfl, rfl, id⟩

theorem window_closed {d t : Dev} (h : d.SameInstant t) (hw : d.scan.window = false) : t.scan.window = false :=
  Bool.eq_false_iff.mpr fun e => Bool.eq_false_iff.mp hw (h.window e)

section
variable {d t u : Dev}

/-- A change of other fields. -/
theorem other (h : d.SameInstant t) (hu : u.instant = t.instant) : d.SameInstant u := by
  simp only [Dev.instant, Prod.mk.injEq] at hu
  obtain ⟨ha, ht, hw⟩ := hu
  exact ⟨ha.trans h.alwaysOn, ht.trans h.htime, fun e => h.window (hw.symm.trans e)⟩

/-- A change of other fields that closes the window. -/
theorem closing (h : d.SameInstant t) (hu : u.instant = (t.alwaysOn, t.sys.htime, false)) : d.SameInstant u := by
  simp only [Dev.instant, Prod.mk.injEq] at hu
  obtain ⟨ha, ht, hw⟩ := hu
  exact ⟨ha.trans h.alwaysOn, ht.trans h.htime, fun e => absurd (hw.symm.trans e) (by decide)⟩

theorem ite {p : Prop} [Decidable p] (h : d.SameInstant t) (h' : d.SameInstant u) : d.SameInstant (if p then t else u) := by
  split
  · exact h
  · exact h'

theorem foldl {α : Type} {f : Dev → α → Dev} (h : d.SameInstant t) (l : List α)
    (hf : ∀ {t} x, d.SameInstant t → d.SameInstant (f t x)) : d.SameInstant (l.foldl f t) :=
  List.foldlRecOn l f h fun _ ht x _ => hf x ht

theorem notices (h : d.SameInstant t) (hn : t.Notices u) : d.SameInstant u := by
  rw [hn]
  exact h.other (by rfl)

/-! ### Notices -/

theorem event (h : d.SameInstant t) (code : BitVec 16) (p : BitVec 64) : d.SameInstant (t.event code p) :=
  h.notices (t.event_notices code p)

theorem eventLimited (h : d.SameInstant t) (code : BitVec 16) (i gap : Nat) (p : BitVec 64) :
    d.SameInstant (t.eventLimited code i gap p) := by
  unfold Dev.eventLimited
  exact ite (event (h.other (by rfl)) _ _) h

theorem interrupt (h : d.SameInstant t) (i : Nat) : d.SameInstant (t.interrupt i) := h.other (by rfl)

theorem finishLong (h : d.SameInstant t) (c : CmdHdr) (op : Byte) (st : CmdStatus) (r0 r1 : Word) :
    d.SameInstant (t.finishLong c op st r0 r1) :=
  notices (t := t.ring c.ring.val _) (h.other (by rfl)) (Dev.complete_notices _ _ _ _ _ _)

/-! ### Channels, inhibits and injections (10 R296 to R298, 11 R318, 18 R529) -/

theorem refreshChannel (h : d.SameInstant t) (ch : Fin 8) : d.SameInstant (t.refreshChannel ch) := h.other (by rfl)

theorem refreshChannels (h : d.SameInstant t) : d.SameInstant t.refreshChannels :=
  h.foldl _ fun ch h => h.refreshChannel ch

theorem noteLive (h : d.SameInstant t) : d.SameInstant t.noteLive := by
  unfold Dev.noteLive
  exact ite h (h.other (by rfl))

theorem strRetry (h : d.SameInstant t) (ch : Fin 8) : d.SameInstant (t.strRetry ch) := by
  unfold Dev.strRetry
  simp only
  split
  · exact h
  · exact ite (event (refreshChannel (h.other (by rfl)) ch) _ _) h

theorem refreshInhibits (h : d.SameInstant t) : d.SameInstant t.refreshInhibits := by
  unfold Dev.refreshInhibits
  exact noteLive ((refreshChannels (h.other (by rfl))).foldl _ fun ch h => h.strRetry ch)

theorem withdrawInj (h : d.SameInstant t) : d.SameInstant t.withdrawInj := by
  unfold Dev.withdrawInj
  exact refreshInhibits (h.other (by rfl))

theorem abortTrim (h : d.SameInstant t) (cause : BitVec 2) (lastEnd : BitVec 3) (dac : BitVec 6) :
    d.SameInstant (t.abortTrim cause lastEnd dac) := by
  unfold Dev.abortTrim
  exact event (h.other (by rfl)) _ _

/-- An INJECT not yet completed is answered, if there is one. -/
theorem answerInj (h : d.SameInstant t) (c : Option CmdHdr) :
    d.SameInstant (match c with
      | none => t
      | some c => t.finishLong c 0x70 .fault 0x0E02 0) := by
  cases c
  · exact h
  · exact h.finishLong _ _ _ _ _

theorem abortInj (h : d.SameInstant t) (cause : BitVec 2) (m : Mode) : d.SameInstant (t.abortInj cause m) := by
  unfold Dev.abortInj
  refine ite h (ite (ite (refreshInhibits (h.other (by rfl))) h) ?_)
  have told (i : Inj) := (h.event 0x0E02 (pay 0 t.inj.bit ||| pay 12 cause ||| pay 16 m.code)).other
    (u := { t.event 0x0E02 (pay 0 t.inj.bit ||| pay 12 cause ||| pay 16 m.code) with inj := i }) rfl
  have answered (i : Inj) (c : Option CmdHdr) := (told i).answerInj c
  exact ite (answered _ _).withdrawInj (answered _ _).refreshInhibits

/-! ### What a mode change does (15 R441, R442) -/

theorem trimOnMode (h : d.SameInstant t) (m : Mode) : d.SameInstant (t.trimOnMode m) := by
  unfold Dev.trimOnMode
  have aborted := ite (p := (t.trim.running && !m.calibrates) = true)
    (other (u := { t.abortTrim 2 4 0 with trim := (t.abortTrim 2 4 0).trim.queue t.trim.steps t.trim.trigger })
      (h.abortTrim 2 4 0) rfl) h
  exact ite (ite (aborted.other (by rfl)) (aborted.other (by rfl))) aborted

theorem injOnMode (h : d.SameInstant t) (m : Mode) : d.SameInstant (t.injOnMode m) := by
  unfold Dev.injOnMode
  have scheduled := ite (p := m = .run) (u := t) (h.other (u := { t with inj := { t.inj with schedAt := t.now } }) rfl) h
  exact ite (scheduled.abortInj _ _) (ite scheduled (scheduled.abortInj _ _))

theorem clearGableHalt (h : d.SameInstant t) : d.SameInstant t.clearGableHalt := by
  unfold Dev.clearGableHalt
  exact ite (h.other (by rfl)) h

theorem soffitRelease (h : d.SameInstant t) : d.SameInstant t.soffitRelease := by
  unfold Dev.soffitRelease
  exact ite (h.other (by rfl)) h

theorem detach (h : d.SameInstant t) (cause : BitVec 2) : d.SameInstant (t.detach cause) := by
  unfold Dev.detach
  exact ite (event (other h.clearGableHalt.soffitRelease (by rfl)) _ _) h

theorem xferEvents (h : d.SameInstant t) (x : Transfer) : d.SameInstant (t.xferEvents x) := by
  unfold Dev.xferEvents
  have underruns (p : BitVec 64) := ite (p := x.underA + x.underB = 0) h (h.event 0x0501 p)
  exact ite (underruns _) ((underruns _).eventLimited _ _ _ _)

theorem abortXfer (h : d.SameInstant t) : d.SameInstant t.abortXfer := by
  unfold Dev.abortXfer
  split
  next => exact h
  next x _ =>
    have reported := ite (p := t.scan.window = true)
      (xferEvents (h.other (u := { t with prv := t.prv.storeClasses x.frame }) rfl) x) h
    exact reported.closing (by rfl)

theorem startProof (h : d.SameInstant t) : d.SameInstant t.startProof := by
  unfold Dev.startProof
  exact closing h.abortXfer (by rfl)

/-- The registers of the mode machine, the scan-out unit and the TAP as a mode is entered. -/
theorem entering (h : d.SameInstant t) (m : Mode) (sys : Sys) (acc : Acc) (hs : sys.htime = t.sys.htime) :
    d.SameInstant { t with sys := sys, scan := t.scan.onMode m t.now, acc := acc } :=
  ⟨h.alwaysOn, hs.trans h.htime, fun e => h.window (Scan.onMode_window _ _ _ e)⟩

theorem toMode (h : d.SameInstant t) (m : Mode) (cause : Nat) (frame : BitVec 16) :
    d.SameInstant (t.toMode m cause frame) := by
  unfold Dev.toMode
  have stopped := ite (p := m.sendsLats = true) h h.abortXfer
  have entered := fun sys acc hs => (stopped.entering m sys acc hs).interrupt 5
  have done := fun sys acc hs => (((entered sys acc hs).event 0x0101
    (pay 0 m.code ||| pay 4 t.sys.mode.code ||| payN 8 cause ||| pay 32 frame)).trimOnMode m).injOnMode m
  have same : (t.sys.leaveProof m).htime = (if m.sendsLats = true then t else t.abortXfer).sys.htime :=
    (Sys.leaveProof_htime _ _).trans (ite (refl t) (refl t).abortXfer).htime.symm
  refine refreshInhibits (ite ((done _ _ ?_).detach 3).startProof (done _ _ ?_))
  · exact same
  · exact same

theorem failPending (h : d.SameInstant t) : d.SameInstant t.failPending := by
  unfold Dev.failPending
  split
  next => exact h
  next p _ =>
    have dropped := h.other (u := { t with sys := { t.sys with pending := none } }) rfl
    cases p.hdr with
    | none => exact dropped
    | some c => exact dropped.finishLong c _ _ _ _

theorem outputsSafe (h : d.SameInstant t) : d.SameInstant t.outputsSafe := by
  unfold Dev.outputsSafe Dev.gableSafe Dev.gableOutputs
  split
  · exact h
  · split
    · exact h
    · exact ite (h.other (by rfl)) h

theorem cancelForHold (h : d.SameInstant t) : d.SameInstant t.cancelForHold := by
  unfold Dev.cancelForHold
  exact foldl (h.other (by rfl)) _ fun e h => h.event _ _

/-! ### Contexts and engines (06 R165 to R192) -/

theorem onRun (h : d.SameInstant t) (frame : BitVec 16) (f : Run → Run) : d.SameInstant (t.onRun frame f) := by
  unfold Dev.onRun
  exact ite (h.other (by rfl)) (h.other (by rfl))

theorem advanceN (e : Fin 8) (n : Nat) (h : d.SameInstant t) : d.SameInstant (t.advanceN e n) := by
  induction n generalizing t with
  | zero => exact h
  | succ n ih =>
    unfold Dev.advanceN
    split
    next => exact h
    next w _ =>
      refine ite h ?_
      split
      next => exact h
      next r _ =>
        split
        next x rest _ =>
          refine ite (ih (h.other (by rfl))) ?_
          split
          · exact h
          · exact h.other (by rfl)
        next =>
          refine ite (h.other (by rfl)) ?_
          split
          · exact h
          · exact other (h.onRun _ _) (by rfl)

theorem advanceAll (h : d.SameInstant t) : d.SameInstant t.advanceAll :=
  h.foldl _ fun e h => h.advanceN e 66

theorem takeSlot (h : d.SameInstant t) (c : Fin 64) (e : Fin 8) : d.SameInstant (t.takeSlot c e) := by
  unfold Dev.takeSlot
  split
  · exact h
  · exact h.other (by rfl)

theorem freeOld (h : d.SameInstant t) (c : Fin 64) : d.SameInstant (t.freeOld c) := by
  unfold Dev.freeOld
  split
  · exact h.other (by rfl)
  · exact h

theorem releaseSlot (h : d.SameInstant t) (c : Fin 64) (save : Bool) : d.SameInstant (t.releaseSlot c save) := by
  unfold Dev.releaseSlot
  refine ite ?_ h
  simp only
  split
  · have saved := fun a bs => ite (p := (save && (t.ctxAt c).ls) = true) (h.notices (t.loftWrite_notices a bs)) h
    exact other (freeOld (saved _ _) c) (by rfl)
  · exact other (h.freeOld c) (by rfl)

theorem suspendCtx (h : d.SameInstant t) (c : Fin 64) (cause : BitVec 4) (frame : BitVec 16) :
    d.SameInstant (t.suspendCtx c cause frame) := by
  unfold Dev.suspendCtx
  exact event (other (h.releaseSlot c true) (by rfl)) _ _

theorem moveCtx (h : d.SameInstant t) (c : Fin 64) (e : Fin 8) (frame : BitVec 16) (moving : Bool) :
    d.SameInstant (t.moveCtx c e frame moving) := by
  unfold Dev.moveCtx
  have freed := ite (p := ((t.ctxAt c).copy.isSome && (t.ctxAt c).slotValid) = true)
    (h.other (u := t.freeSlot (t.ctxAt c).engine (t.ctxAt c).slot) rfl) h
  exact other (freed.takeSlot c e) (by rfl)

theorem takeBack (h : d.SameInstant t) (c : Fin 64) (epoch : Byte) (run : BitVec 16) :
    d.SameInstant (t.takeBack c epoch run) := by
  unfold Dev.takeBack
  have renewed := h.other (u := t.onCtx c fun x => { x with epoch := epoch, switchFrame := run, copy := none }) rfl
  refine ite ?_ (renewed.other (by rfl))
  split
  · exact ite (renewed.other (by rfl)) (renewed.moveCtx c _ run false)
  · exact ite (renewed.other (by rfl)) (renewed.suspendCtx c 4 run)

theorem dropTarget (h : d.SameInstant t) (c : Fin 64) (m : Migration) : d.SameInstant (t.dropTarget c m) := by
  unfold Dev.dropTarget
  have freed := ite (p := (!m.ls) = true) h (ite (p := m.decided = true)
    (h.other (u := t.freeSlot (t.ctxAt c).engine (t.ctxAt c).slot) rfl) (h.other (u := t.freeSlot m.engine m.slot) rfl))
  have idle := freed.other (u := Dev.onCtx _ c fun _ => Context.reset) rfl
  exact advanceAll (ite (idle.onRun _ _) idle)

theorem abortMigration (h : d.SameInstant t) (c : Fin 64) (cause : Nat) (run : BitVec 16) :
    d.SameInstant (t.abortMigration c cause run) := by
  unfold Dev.abortMigration
  split
  next => exact h
  next m _ =>
    have ended := h.other (u := t.onCtx c fun x => { x with migration := none }) rfl
    exact event (ite (ended.dropTarget c m) (ite (ended.takeBack c m.epoch run) ended)) _ _

theorem abortMove (h : d.SameInstant t) (c : Fin 64) (cause : Nat) : d.SameInstant (t.abortMove c cause) := by
  unfold Dev.abortMove
  refine ite h ?_
  simp only
  split
  · exact event (ite (h.other (by rfl)) (h.other (by rfl))) _ _
  · exact event (h.other (by rfl)) _ _

theorem abortMigrations (h : d.SameInstant t) (cause : Nat) : d.SameInstant (t.abortMigrations cause) :=
  h.foldl _ fun c h => (h.abortMigration c _ _).abortMove c _

/-! ### SAFE HOLD, the loss of the Ridge, and a reset (11 R321, R345, 15 R457) -/

theorem safeHold (h : d.SameInstant t) (cause : BitVec 4) : d.SameInstant (t.safeHold cause) := by
  unfold Dev.safeHold
  refine ite h (ite (h.other (by rfl)) ?_)
  have held := h.failPending.other (u := { t.failPending with
    gbl := { t.failPending.gbl with holdCause := cause, tdegEnd := none },
    rdg := { t.failPending.rdg with deg := .none } }) rfl
  exact ((held.toMode _ _ _).outputsSafe.cancelForHold.abortMigrations _).event _ _

theorem beginReset (h : d.SameInstant t) (cause : BitVec 3) (f : ResetHold → ResetHold) :
    d.SameInstant (t.beginReset cause f) := by
  unfold Dev.beginReset
  exact refreshChannels (h.closing (by rfl))

theorem ridgeLost (h : d.SameInstant t) (fault : BitVec 3) : d.SameInstant (t.ridgeLost fault) := by
  unfold Dev.ridgeLost
  have noted := h.other
    (u := { t with rdg := { t.rdg with fault := if t.rdg.fault = 0 then fault else t.rdg.fault } }) rfl
  have told := noted.event 0x0809 (pay 0 fault)
  have aborted := fun (b : Bool) c m => ite (p := b = true) (told.abortInj c m) told
  exact ite ((aborted _ _ _).refreshInhibits.safeHold _) (beginReset ((aborted _ _ _).other (by rfl)) _ _)

/-! ### The words that leave (08 R254) -/

theorem noteWord (h : d.SameInstant t) (x : Transfer) (tile : Nat) (w : WordOut) : d.SameInstant (t.noteWord x tile w) := by
  unfold Dev.noteWord
  have reported := fun u (hu : d.SameInstant u) => ite (p := w.darkMandated = true)
    (hu.eventLimited 0x0811 0 1000000 (payN 0 w.index ||| pay 32 x.frame)) hu
  exact ite ((reported _ (h.other (by rfl))).ridgeLost 3) (reported _ (h.other (by rfl)))

theorem sendWord {m : Sending} (h : d.SameInstant m.1) (x : Transfer) (c tile : Nat) :
    d.SameInstant (Machine.sendWord m x c tile).1 := by
  unfold Machine.sendWord
  have noted := fun u w (hu : d.SameInstant u) => hu.noteWord x tile w
  exact ite ((noted _ _ (h.other (by rfl))).notices (Dev.loftTouch_notices _ _ _)) (noted _ _ (h.other (by rfl)))

theorem sendLane (c : Nat) (limit : Option Nat) (n : Nat) {m : Sending} (h : d.SameInstant m.1) :
    d.SameInstant (Machine.sendLane m c limit n).1 := by
  induction n generalizing m with
  | zero => exact h
  | succ n ih =>
    rcases sendLane_succ_cases m c limit n with e | ⟨x, tile, -, -, -, -, e⟩
    · rwa [e]
    · exact e ▸ ih (h.sendWord x c tile)

theorem sendWords (h : d.SameInstant t) (limit : Option Nat) : d.SameInstant (t.sendWords limit).1 :=
  List.foldlRecOn (motive := fun m : Sending => d.SameInstant m.1) (upTo 16) _ h
    fun _ hm c _ => hm.sendLane c limit _

theorem sendDue (h : d.SameInstant t) : d.SameInstant t.sendDue.1 := by
  unfold Dev.sendDue
  split
  · exact h
  · split
    · exact h.sendWords _
    · exact h

theorem wordTick (h : d.SameInstant t) : d.SameInstant t.wordTick.1 := by
  unfold Dev.wordTick
  split
  · exact h.sendDue
  · exact h

/-! ### The other parts of a microsecond (01 R26, 04 R115, 11 R334, 13 R394, 14 R422, 16 R475) -/

theorem triggerG (h : d.SameInstant t) (code : Nat) : d.SameInstant (t.triggerG code) := by
  unfold Dev.triggerG
  exact ite h (h.other (by rfl))

theorem triggerF (h : d.SameInstant t) (code : Nat) : d.SameInstant (t.triggerF code) := by
  unfold Dev.triggerF
  exact ite (h.other (by rfl)) h

theorem houseEvents (h : d.SameInstant t) : d.SameInstant t.houseEvents := by
  unfold Dev.houseEvents
  have timed := ite (p := t.sys.htime.setWidth 32 = t.thatch.truss.ttimer) (h.other (u := t.trussPend 6) rfl) h
  exact ite (ite (timed.triggerG 7) timed) h

theorem soffitTick (h : d.SameInstant t) : d.SameInstant t.soffitTick := by
  unfold Dev.soffitTick
  exact ite (ite (triggerF (h.other (by rfl)) 3) (h.other (by rfl))) h

theorem sendTransfer (h : d.SameInstant t) (c : Fin 64) : d.SameInstant (t.sendTransfer c) := by
  unfold Dev.sendTransfer
  simp only
  split
  · exact h
  · exact ite (h.other (by rfl)) h

theorem cellOut (h : d.SameInstant t) : d.SameInstant t.cellOut := by
  unfold Dev.cellOut
  split
  · exact h.other (by rfl)
  · exact h.other (by rfl)
  · exact h

theorem outTick (h : d.SameInstant t) : d.SameInstant t.outTick := by
  unfold Dev.outTick
  have standby := ite (p := t.sys.mode = .standby ∧ t.sys.stbyOut = false)
    (h.other (u := { t with sys := { t.sys with stbyOut := true, stbyAt := t.alwaysOn } }) rfl) h
  exact ite (cellOut (standby.foldl _ fun c h => h.sendTransfer c)) standby

theorem startCk (h : d.SameInstant t) : d.SameInstant t.startCk := by
  unfold Dev.startCk
  exact ite (h.other (by rfl)) h

theorem firstLock (h : d.SameInstant t) : d.SameInstant t.firstLock := by
  unfold Dev.firstLock
  exact ite (startCk (h.other (by rfl))) h

theorem waitTick (h : d.SameInstant t) : d.SameInstant t.waitTick := by
  unfold Dev.waitTick
  split
  · exact ite (h.other (by rfl)) h
  · exact h

theorem deferStep (h : d.SameInstant t) (k reason : Nat) : d.SameInstant (t.deferStep k reason) := by
  unfold Dev.deferStep
  exact ite h (event (h.other (by rfl)) _ _)

theorem calCheck (h : d.SameInstant t) : d.SameInstant t.calCheck := by
  unfold Dev.calCheck
  exact ite (h.foldl _ fun k h => ite h (deferStep (h.other (by rfl)) _ _)) h

theorem afterWords (h : d.SameInstant t) : d.SameInstant t.afterWords := by
  unfold Dev.afterWords Dev.stringTick Dev.proofTick
  have strings := ite (p := t.pclkRuns = true) (calCheck (h.other (u := t.gateTick) rfl)) h
  exact ite (strings.other (by rfl)) strings

end

end Dev.SameInstant

/-! ### The clocks over a microsecond -/

@[simp] theorem Dev.waitTick_sys (d : Dev) : d.waitTick.sys = d.sys := by
  unfold Dev.waitTick
  split
  · split <;> rfl
  · rfl

/-- The PLL does not lock anew where it is locked, or in RETENTION (15 R447, R462). -/
theorem Dev.firstLock_of_timed {d : Dev} (h : d.sys.lock = true ∨ d.sys.mode = .retention) : d.firstLock = d := by
  unfold Dev.firstLock
  rcases h with h | h
  · simp only [h, Bool.not_true, Bool.and_false, Bool.false_and, Bool.false_eq_true, if_false]
  · simp [Dev.coreUp, h]

@[simp] theorem Dev.houseTick_alwaysOn (d : Dev) : d.houseTick.alwaysOn = d.alwaysOn := by
  unfold Dev.houseTick
  split <;> rfl

@[simp] theorem Dev.houseTick_scan (d : Dev) : d.houseTick.scan = d.scan := by
  unfold Dev.houseTick
  split <;> rfl

theorem Dev.houseTick_htime {d : Dev} (h : d.sys.lock = true ∨ d.sys.mode = .retention) :
    d.houseTick.sys.htime = d.sys.htime + 1 := by
  unfold Dev.houseTick
  rw [if_pos h]

/-- The device with its clock one microsecond on, up to the tick of house time. -/
def Dev.clocked (d : Dev) : Dev := ({ d with alwaysOn := d.alwaysOn + 1 } : Dev).firstLock.waitTick

theorem Dev.clocked_sameInstant (d : Dev) : Dev.SameInstant { d with alwaysOn := d.alwaysOn + 1 } d.clocked :=
  (Dev.SameInstant.refl _).firstLock.waitTick

theorem Dev.clocked_sys {d : Dev} (h : d.sys.lock = true ∨ d.sys.mode = .retention) : d.clocked.sys = d.sys := by
  unfold Dev.clocked
  rw [Dev.waitTick_sys, Dev.firstLock_of_timed (d := { d with alwaysOn := d.alwaysOn + 1 }) h]

theorem Dev.beforeWords_sameInstant (d : Dev) : d.clocked.houseTick.SameInstant d.beforeWords :=
  (Dev.SameInstant.refl _).houseEvents.soffitTick.outTick

theorem State.microsecond_sameInstant (s : State) : s.dev.clocked.houseTick.SameInstant s.microsecond.dev :=
  s.dev.beforeWords_sameInstant.wordTick.afterWords

/-- With no transfer window open, no word leaves. -/
theorem Dev.wordTick_closed {d : Dev} (h : d.scan.window = false) : d.wordTick.2 = [] := by
  unfold Dev.wordTick Dev.sendDue
  split
  · split
    · rfl
    · rw [h]
      rfl
  · rfl

theorem Dev.beforeWords_closed {d : Dev} (h : d.scan.window = false) : d.beforeWords.scan.window = false :=
  d.beforeWords_sameInstant.window_closed ((congrArg Scan.window d.clocked.houseTick_scan).trans
    (d.clocked_sameInstant.window_closed h))

/-- Settles O2: each part of the microsecond but its count of time is at one instant. -/
theorem idleStepIsAMicrosecond : Obligations.IdleStepIsAMicrosecond := by
  intro s hp
  have passed := s.microsecond_sameInstant
  refine ⟨s.microsecond, s.dev.beforeWords.wordTick.2, by rw [step, hp], ?alwaysOn, s.microsecond_otp, rfl,
    fun hw => Dev.wordTick_closed (Dev.beforeWords_closed hw), s.microsecond_pending.trans hp, ?htime⟩
  case alwaysOn =>
    rw [passed.alwaysOn, Dev.houseTick_alwaysOn, s.dev.clocked_sameInstant.alwaysOn]
  case htime =>
    intro h
    have hs := Dev.clocked_sys h
    rw [passed.htime, Dev.houseTick_htime (hs.symm ▸ h), hs]

end Sys2Proof.Machine
end

section
/-! PROOF. The LAT and the transfer window as commands (01 R13, 08 R221 to R233): when they are due and what they then do. -/

namespace Sys2Proof.Machine

open Sys2Proof

/-! ### The LAT -/

theorem Dev.lat_not_due {d : Dev} (h : d.latDue = false) : d.lat = d := by
  simp only [Dev.lat, h, Bool.not_false, if_true]

/-- A LAT that is due and not held fires (08 R221). -/
theorem Dev.lat_fires {d : Dev} {l : BitVec 16} {slot : Fin 8} {shadow : Bool} (h : d.latDue = true)
    (hp : d.latPlan = some (l, slot, shadow, false)) : d.lat = d.latFire l slot shadow := by
  simp only [Dev.lat, h, Bool.not_true, Bool.false_eq_true, if_false, hp]

/-- A held one withholds the transfer and counts the frame (16 R490). -/
theorem Dev.lat_held {d : Dev} {l : BitVec 16} {slot : Fin 8} {shadow : Bool} (h : d.latDue = true)
    (hp : d.latPlan = some (l, slot, shadow, true)) :
    d.lat = { d.withhold with
      scan := { d.withhold.scan with frame := l }
      roof := { d.withhold.roof with
        nextMark := none
        yieldHold := if d.withhold.roof.yieldHold = 0 then 0 else d.withhold.roof.yieldHold - 1 } } := by
  simp only [Dev.lat, h, Bool.not_true, Bool.false_eq_true, if_false, hp, if_true]

/-- A LAT comes to a core die that is up only. -/
theorem Dev.latDue_up {d : Dev} (h : d.latDue = true) : d.coreUp = true := by
  simp only [Dev.latDue, Bool.and_eq_true] at h
  exact h.1.1.1.1.1

theorem exec_lat_due {s : State} (h : s.dev.latDue = true) : exec .lat s = .next (s.any Dev.lat) :=
  congrArg Host.Outcome.next (s.core_up Dev.lat (Dev.latDue_up h))

/-! ### The start of a window -/

theorem Dev.windowDue_up {d : Dev} (h : d.windowDue = true) : d.coreUp = true := by
  simp only [Dev.windowDue, Bool.and_eq_true] at h
  exact h.1.1.1.1.1.1.1.1

/-- What a window starts from: the commit sampled and the frame's map taken (08 R233). -/
def Dev.beforeOpen (d : Dev) : Dev := d.cancelCommit.sampleCommit.mapAtWindow

theorem Dev.windowStart_not_due {d : Dev} (noCap : Bool) (h : d.windowDue = false) : d.windowStart noCap = d := by
  simp only [Dev.windowStart, h, Bool.not_false, if_true]

theorem Dev.windowStart_due {d : Dev} (noCap : Bool) (h : d.windowDue = true) (hl : d.beforeOpen.scan.lats = true) :
    d.windowStart noCap = d.beforeOpen.openXfer (d.beforeOpen.newXfer noCap) := by
  unfold Dev.beforeOpen at hl ⊢
  simp only [Dev.windowStart, h, hl, Bool.not_true, Bool.false_eq_true, if_false]

theorem State.window_not_due {s : State} (h : s.dev.windowDue = false) : s.window = s := by
  simp only [State.window, Dev.windowStart_not_due _ h, h, Bool.false_and, Bool.false_eq_true, if_false]

theorem exec_transferWindowStart_not_due {s : State} (h : s.dev.windowDue = false) :
    exec .transferWindowStart s = .next s := by
  rw [exec_transferWindowStart, State.window_not_due h, ite_self]

/-- A window that is due opens, with the words that leave in its first microsecond. -/
theorem State.window_opens {s : State} (h : s.dev.windowDue = true) {y : Dev}
    (hy : s.dev.windowStart (s.otp.engSample && s.otp.noCap) = y) (ho : y.scan.window = true) :
    s.window = { s with dev := y.sendDue.1, wire := y.sendDue.2 } := by
  simp only [State.window, hy, h, ho, Bool.and_self, if_true]

/-- What its start may have closed again sends nothing. -/
theorem State.window_shut {s : State} {y : Dev} (hy : s.dev.windowStart (s.otp.engSample && s.otp.noCap) = y)
    (hc : y.scan.window = false) : s.window = { s with dev := y } := by
  simp only [State.window, hy, hc, Bool.and_false, Bool.false_eq_true, if_false]

@[simp] theorem leBytes_length (x n : Nat) : (leBytes x n).length = n := by
  induction n generalizing x with
  | zero => rfl
  | succ n ih => rw [leBytes, List.length_cons, ih]

@[simp] theorem Transfer.header_length (x : Transfer) : x.header.length = 12 := by
  unfold Transfer.header
  simp only [List.length_append, List.length_cons, List.length_nil, leBytes_length]

/-- With no configuration in force, or at depth 0, no channel acts as the window opens (11 R337). -/
theorem Dev.openXfer_plain {d : Dev} {x : Transfer} (h : d.gbl.cfg = none ∨ x.depth = 0) :
    (d.openXfer x).scan = { d.scan with
      xfer := some x, window := true, state := d.xferState x.cmd, late := 0,
      lanes := d.scan.lanes.mapFinIdx fun c _ _ => d.scan.laneStart x.depth x.header c } := by
  have hc : (d.gbl.cfg.isSome && x.depth != 0) = false := by
    rcases h with h | h
    · rw [h]; rfl
    · rw [h]; exact Bool.and_false _
  simp only [Dev.openXfer, hc, Bool.false_eq_true, if_false]

/-! ### Lanes with nothing to send -/

@[simp] theorem LaneOut.bytes_todo (l : LaneOut) (bs : List Byte) : (l.bytes bs).todo = l.todo :=
  List.foldlRecOn (motive := fun m : LaneOut => m.todo = l.todo) bs _ rfl fun _ h _ _ => h

@[simp] theorem LaneOut.start_todo (rd : Bool) (header : List Byte) (tiles : List Nat) :
    (LaneOut.start rd header tiles).todo = tiles := LaneOut.bytes_todo _ _

theorem LaneOut.filled_todo (rd : Bool) (header bs : List Byte) :
    ((LaneOut.start rd header []).bytes bs).finish.todo = [] :=
  (LaneOut.bytes_todo _ bs).trans (LaneOut.start_todo rd header [])

theorem Scan.laneStart_zero (s : Scan) (header : List Byte) (c : Nat) : s.laneStart 0 header c =
    ((LaneOut.start (Config.idleDisparity s.frame.toNat c) header []).bytes (List.replicate 576 0)).finish := by
  unfold Scan.laneStart
  rw [if_pos rfl]

/-- A transfer of depth 0 carries no segment (08 R227). -/
theorem Scan.laneStart_zero_todo (s : Scan) (header : List Byte) (c : Nat) : (s.laneStart 0 header c).todo = [] := by
  rw [Scan.laneStart_zero]
  exact LaneOut.filled_todo _ _ _

/-- Nothing leaves a lane without a transfer, or with no tile left. -/
theorem sendLane_idle {m : Sending} {c : Nat} (h : m.1.scan.xfer = none ∨ (m.1.scan.lane c).todo = [])
    (limit : Option Nat) (n : Nat) : sendLane m c limit n = m := by
  cases n with
  | zero => rfl
  | succ n =>
    rcases sendLane_succ_cases m c limit n with e | ⟨x, t, ts, -, hx, ht, -⟩
    · exact e
    · rw [hx, ht] at h
      rcases h with h | h
      · nomatch h
      · nomatch h

theorem Dev.sendWords_idle {d : Dev} (h : ∀ c, d.scan.xfer = none ∨ (d.scan.lane c).todo = []) (limit : Option Nat) :
    d.sendWords limit = (d, []) :=
  List.foldlRecOn (motive := fun m : Sending => m = (d, [])) (upTo 16) _ rfl fun m hm c _ => by
    subst hm
    exact sendLane_idle (h c) limit _

theorem Dev.sendDue_idle {d : Dev} (h : ∀ c, d.scan.xfer = none ∨ (d.scan.lane c).todo = []) : d.sendDue = (d, []) := by
  unfold Dev.sendDue
  split
  · rfl
  · split
    · exact Dev.sendWords_idle h _
    · rfl

/-! ### The close of a window -/

theorem Dev.sendRest_no_window {d : Dev} (h : d.scan.xfer = none ∨ d.scan.window = false) : d.sendRest = (d, []) := by
  unfold Dev.sendRest
  split
  next hw => exact Dev.sendWords_idle (fun _ => .inl (h.resolve_right (by rw [hw]; exact nofun))) none
  next => rfl

theorem Dev.windowClose_no_window {d : Dev} (h : d.scan.xfer = none ∨ d.scan.window = false)
    (rx : List (List (BitVec 10))) (ok : Bool) : d.windowClose rx ok = d := by
  unfold Dev.windowClose
  split
  next => rfl
  next x hx => simp only [h.resolve_left (by rw [hx]; exact nofun), Bool.not_false, if_true]

theorem exec_transferWindowClose_no_window {s : State} (h : s.dev.scan.xfer = none ∨ s.dev.scan.window = false)
    (rx : List (List (BitVec 10))) (ok : Bool) : exec (.transferWindowClose rx ok) s = .next s := by
  rw [exec_transferWindowClose, State.closeWindow, Dev.sendRest_no_window h, Dev.windowClose_no_window h]
  simp only [List.append_nil, ite_self]

theorem Dev.enumWindow_done {d : Dev} (h : d.scan.step = .done) (x : Transfer) (rx : List (List (BitVec 10))) :
    d.enumWindow x rx = d := by
  simp only [Dev.enumWindow, h]

theorem Dev.xferEvents_none {d : Dev} {x : Transfer} (hu : x.underA + x.underB = 0) (ha : d.rdg.blockA = 0)
    (hb : d.rdg.blockB = 0) : d.xferEvents x = d := by
  simp only [Dev.xferEvents, hu, ha, hb, and_self, if_true]

/-- A window closes with its self-test passed, no capture to read and nothing to report (08 R233). -/
theorem Dev.windowClose_quiet {d : Dev} {x : Transfer} (hx : d.scan.xfer = some x) (hw : d.scan.window = true)
    (hs : d.scan.step = .done) (hr : d.readsCaptures = false) (hu : x.underA + x.underB = 0) (ha : d.rdg.blockA = 0)
    (hb : d.rdg.blockB = 0) (rx : List (List (BitVec 10))) :
    d.windowClose rx true = Dev.proofAdvance { d with
      scan := { d.scan with window := false, xfer := some { x with closed := true } }
      prv := d.prv.storeClasses x.frame
      sys := { d.sys with proofTests := satInc d.sys.proofTests } } := by
  have hr' : Dev.readsCaptures { d with
      scan := { d.scan with window := false, xfer := some { x with closed := true } } } = false := hr
  simp only [Dev.windowClose, hx, hw, Bool.not_true, Bool.false_eq_true, if_false, if_true]
  rw [Dev.enumWindow_done (by exact hs), Dev.xferEvents_none hu (by exact ha) (by exact hb), hr']
  rfl

/-! ### Tile origins (08 R241, R258) -/

/-- A write of a scan-out register. -/
theorem regEffect_scan (d : Dev) (o : Otp) {off : Nat} (h : off < 0x10000) (v : Word) :
    regEffect d o (0x20040000 + off) v = (d.scanWrite off v, o) := by
  have h1 : (0x20040000 + off) / 0x10000 = 0x2004 := by omega
  have h2 : (0x20040000 + off) % 0x10000 = off := by omega
  simp only [regEffect, h1, h2]

theorem Dev.scanWrite_tileOrg (d : Dev) (t : Fin 128) (v : Word) :
    d.scanWrite (0x1000 + 16 * t.val) v = d.tileOrgWrite t.val v := by
  have h0 : ¬ 0x1000 + 16 * t.val = 0x00 := by omega
  have h4 : ¬ 0x1000 + 16 * t.val = 0x04 := by omega
  have hr : 0x1000 ≤ 0x1000 + 16 * t.val ∧ 0x1000 + 16 * t.val < 0x1800 ∧ (0x1000 + 16 * t.val) % 16 = 0 := by omega
  have hq : (0x1000 + 16 * t.val - 0x1000) / 16 = t.val := by omega
  simp only [Dev.scanWrite, h0, h4, hr, hq, and_self, if_true, if_false]

theorem exec_batTileOrgWrite {s : State} {t : Fin 128} {v : Word} (h : s.takesWrite (0x20041000 + 16 * t.val) v = true) :
    exec (.batTileOrgWrite t v) s = .next (s.hosted fun d => d.tileOrgWrite t.val v) := by
  have ha : 0x20041000 + 16 * t.val = 0x20040000 + (0x1000 + 16 * t.val) := by omega
  refine congrArg Host.Outcome.next ((hostPut_takes h).trans ?_)
  rw [ha, regEffect_scan _ _ (by omega), Dev.scanWrite_tileOrg]
  rfl

/-- Settles O33, by what a LAT, a window's start, its close and an origin's write come to where they are due. -/
theorem latsAndTransferWindows : Obligations.LatsAndTransferWindows := by
  intro s l slot shadow t v
  refine ⟨?notDue, ?fires, ?withheld, exec_transferWindowStart_not_due, ?opens,
    fun rx ok h => exec_transferWindowClose_no_window h rx ok, ?closes, ?origin⟩
  case notDue => exact fun h => congrArg Host.Outcome.next (State.core_same (Dev.lat_not_due h))
  case fires =>
    exact fun h hp => (exec_lat_due h).trans (congrArg Host.Outcome.next (State.any_congr (Dev.lat_fires h hp)))
  case withheld =>
    exact fun h hp => (exec_lat_due h).trans (congrArg Host.Outcome.next (State.any_congr (Dev.lat_held h hp)))
  case opens =>
    intro d x y h hl
    have hst : s.dev.windowStart (s.otp.engSample && s.otp.noCap) = y := Dev.windowStart_due _ h hl
    refine ⟨s.window, exec_transferWindowStart_up (Dev.windowDue_up h), s.window_otp,
      s.window_pending, x.header_length, ?_, fun hy => congrArg State.dev (State.window_shut hst hy), ?_⟩
    · intro hy
      rw [State.window_opens h hst hy]
      exact ⟨rfl, rfl, fun w hw => (y.sendDue_checked w hw).word_le_ceil⟩
    · intro hc
      have hs := Dev.openXfer_plain hc
      have hlane (c : Fin 16) : y.scan.lanes[c] = d.scan.laneStart x.depth x.header c.val := by
        rw [hs]
        exact Vector.getElem_mapFinIdx ..
      have hy : y.scan.window = true := congrArg Scan.window hs
      refine ⟨hy, congrArg Scan.xfer hs, fun h0 => ?_, hlane⟩
      rw [State.window_opens h hst hy]
      refine congrArg Prod.snd (Dev.sendDue_idle fun c => .inr ?_)
      unfold Scan.lane getN
      split
      next hc =>
        rw [show y.scan.lanes[c] = _ from hlane ⟨c, hc⟩, h0]
        exact d.scan.laneStart_zero_todo _ _
      next => rfl
  case closes =>
    intro x rx hup _ hx hw hs hr hu ha hb
    refine ⟨s.closeWindow rx true, exec_transferWindowClose_up hup rx true, rfl, rfl, ?_⟩
    exact Dev.windowClose_quiet hx hw hs hr hu ha hb rx
  case origin =>
    intro a h
    have he := exec_batTileOrgWrite h
    refine ⟨fun hm => ?_, fun hm => ?_⟩
    · exact he.trans (congrArg Host.Outcome.next (State.any_congr (if_pos hm)))
    · exact he.trans (congrArg Host.Outcome.next (State.any_congr (if_neg hm)))

end Sys2Proof.Machine
end

section
/-! PROOF. What reset leaves, and the host port's configuration across resets (02 R36, R41, 15 R441, R457 to R466). -/

namespace Sys2Proof.Machine

open Sys2Proof

/-- Settles O3, a field at a time. -/
theorem resetState : Obligations.ResetState := by
  refine ⟨rfl, rfl, rfl, rfl, ?rings, ?handles, rfl, rfl, rfl, rfl, Dev.reset_memWf, rfl, rfl, rfl, ?passwords, rfl⟩
  case rings => decide
  case handles => decide
  case passwords => decide

/-- An access of a port that answers, when it raises no flag (02 R51, R62). -/
theorem hostAccess_up {d : Dev} {o : Otp} {f : HostAcc → HostAcc} (h : d.coreUp = true)
    (hf : (f { dev := d.answering, otp := o, raised := 0 }).raised = 0) :
    hostAccess d o f = ((f { dev := d.answering, otp := o, raised := 0 }).dev,
      (f { dev := d.answering, otp := o, raised := 0 }).otp) := by
  have hr : (f { dev := d.answering, otp := o, raised := 0 }).raised &&& ~~~d.hp.flags = 0 := by
    rw [hf]
    exact BitVec.zero_and
  unfold hostAccess
  rw [if_pos h]
  exact if_pos hr

/-- PORT RESET is recognised in every protocol (02 R36). -/
theorem HostPort.selects_portReset (p : HostPort) : p.selects 0xFF 0xFF = some .portReset := by
  simp [HostPort.selects, hostCommand]

theorem exec_portReset {s : State} (h : s.dev.coreUp = true) :
    exec .portReset s = .next (s.hosted fun d => { d with hp := { d.hp with proto := 0, dummy := 8 } }) := by
  have hp : s.dev.hostFrame s.otp 0xFF 0xFF {} = s.dev.portReset s.otp := by
    rw [Dev.hostFrame, HostPort.selects_portReset]
    rfl
  change Host.Outcome.next (s.chip fun m => m.1.hostFrame m.2 0xFF 0xFF {}) = _
  rw [State.chip, hp, Dev.portReset, hostAccess_up h rfl]
  rfl

/-- While a cause of reset holds, the core die is not up. -/
theorem Dev.coreUp_of_held {d : Dev} (h : d.sys.hold.clear = false) : d.coreUp = false := by
  simp [Dev.coreUp, h]

theorem Dev.refreshChannels_sys (d : Dev) : d.refreshChannels.sys = d.sys :=
  List.foldlRecOn (motive := fun t : Dev => t.sys = d.sys) _ _ rfl fun _ h _ _ => h

/-- What begins a reset holds from then on (15 R457 to R459). -/
theorem Dev.beginReset_hold (d : Dev) (cause : BitVec 3) (f : ResetHold → ResetHold) :
    (d.beginReset cause f).sys.hold = f d.sys.hold := by
  unfold Dev.beginReset
  rw [Dev.refreshChannels_sys]

/-- RST_N holds the core die in reset, except where STBY_OUT has risen (15 R457). -/
theorem Dev.rstAssert_down {d : Dev} (h : d.sys.stbyOut = false) : d.rstAssert.coreUp = false := by
  unfold Dev.rstAssert
  rw [h]
  refine Dev.coreUp_of_held ?_
  have hh : ((d.beginReset 1 fun h => { h with rstN := true }).sys.hold).clear = false := by
    rw [Dev.beginReset_hold]
    rfl
  exact hh

/-- The wake from STANDBY begins with a power-up, in reset (15 R466). -/
theorem Dev.standbyWake_down {d : Dev} (hm : d.sys.mode = .standby) (ho : d.sys.stbyOut = true)
    (ht : d.sys.stbyAt + 10000 ≤ d.alwaysOn) : d.standbyWake.coreUp = false := by
  unfold Dev.standbyWake
  rw [if_pos ⟨hm, ho, ht⟩]
  exact Dev.coreUp_of_held rfl

/-- No reset keeps the port's configuration (02 R41). -/
theorem Dev.afterReset_hp (d : Dev) (role : BitVec 2) (bootsel : Bool) :
    (d.afterReset role bootsel).hp = Dev.reset.hp := by
  unfold Dev.afterReset
  simp only
  split <;> rfl

theorem Dev.openAttempt_hp (d : Dev) : d.openAttempt.hp = d.hp := by
  unfold Dev.openAttempt
  simp only
  split <;> rfl

theorem Dev.resetEnd_hp {d : Dev} (h : d.mayEnd = true) (role : BitVec 2) (bootsel : Bool) :
    (d.resetEnd role bootsel).hp = Dev.reset.hp := by
  have told : (((d.afterReset role bootsel).interrupt 5).event 0x0101
      (pay 0 (Mode.code .boot) ||| payN 8 2)).hp = Dev.reset.hp :=
    (Dev.event_hp _ _ _).trans (d.afterReset_hp role bootsel)
  unfold Dev.resetEnd
  rw [if_pos h]
  simp only
  split
  · exact told
  · exact (Dev.openAttempt_hp _).trans told

/-- Settles O53: PORT RESET and the end of a reset leave the reset values, and RST_N and the wake begin a reset. -/
theorem hpCfgReset : Obligations.HpCfgReset := by
  intro s role bootsel reset
  refine ⟨fun h => ⟨_, exec_portReset h, rfl, rfl⟩, fun h => ⟨_, rfl, Dev.rstAssert_down h⟩,
    fun hm ho ht => ⟨_, rfl, Dev.standbyWake_down hm ho ht⟩, fun h => ⟨_, rfl, ?_⟩⟩
  have hp : (s.dev.resetEnd role bootsel).hp = Dev.reset.hp := Dev.resetEnd_hp h role bootsel
  exact ⟨congrArg HostPort.proto hp, congrArg HostPort.dummy hp⟩

end Sys2Proof.Machine
end

section
/-! PROOF. A host WRITE to the free Loft (02 R39, R57, R59): its bytes, and the error marks it leaves. -/

namespace Sys2Proof.Machine

open Sys2Proof

/-! ### The write as the port makes it -/

theorem HostAcc.put_nil (n : Nat) (x : HostAcc) (a : Word) : x.put n a [] = x := by
  cases n <;> rfl

/-- Bytes that stay in the free Loft are one write (02 R59). -/
theorem HostAcc.put_loft {x : HostAcc} {a : Word} {data : List Byte} (hlo : 0x40000 ≤ a.toNat)
    (hhi : a.toNat + data.length ≤ loftSize) (hne : data ≠ []) :
    x.put data.length a data = { x with dev := x.dev.loftWrite a.toNat data } := by
  cases data with
  | nil => exact absurd rfl hne
  | cons b bs =>
    have hlen : 0 < (b :: bs).length := List.length_pos_iff.mpr hne
    have h1 : ¬ a.toNat < 0x40000 := by omega
    have h2 : a.toNat < loftSize := by omega
    have run : (b :: bs).take (loftSize - a.toNat) = b :: bs := List.take_of_length_le (by omega)
    refine (if_neg h1).trans ((if_pos h2).trans ?_)
    simp only [run, List.drop_length, HostAcc.put_nil]

theorem HostPort.selects_write (p : HostPort) : p.selects 0x02 0xFD = some .write := by
  simp [HostPort.selects, hostCommand]

theorem exec_write_loft {s : State} {a : Word} {data : List Byte} (hup : s.dev.coreUp = true) (hlo : 0x40000 ≤ a.toNat)
    (hhi : a.toNat + data.length ≤ loftSize) (hne : data ≠ []) :
    exec (.write (some a) data false) s = .next (s.hosted fun d => d.loftWrite a.toNat data) := by
  have hp : s.dev.hostFrame s.otp 0x02 0xFD { addr := some a, data := data, part := false } =
      s.dev.hostWrite s.otp (some a) data false := by
    rw [Dev.hostFrame, HostPort.selects_write]
    rfl
  have put (x : HostAcc) := HostAcc.put_loft (x := x) hlo hhi hne
  change Host.Outcome.next (s.chip fun m => m.1.hostFrame m.2 0x02 0xFD { addr := some a, data := data, part := false }) = _
  rw [State.chip, hp, Dev.hostWrite]
  simp only [put, Bool.false_eq_true, if_false]
  rw [hostAccess_up hup rfl]
  rfl

/-! ### Error marks -/

/-- A single-bit error corrected, with no event due, leaves the uncorrectable words (02 R57). -/
theorem Dev.correctCe_not_due {d : Dev} {t : Nat} (w : Nat) (hl : d.loft.lastCeEvent = some t) (ht : d.now < t + 1000000) :
    d.correctCe w = { d with loft := { d.loft with ce := d.loft.ce.filter (· != w), ceCount := satInc d.loft.ceCount } } := by
  have hn : ¬ t + 1000000 ≤ d.now := Nat.not_le.mpr ht
  simp only [Dev.correctCe, hl]
  exact if_neg hn

theorem Dev.correctCes_not_due {t : Nat} (l : List Nat) : ∀ {d : Dev}, d.loft.lastCeEvent = some t → d.now < t + 1000000 →
    (l.foldl Dev.correctCe d).loft.ue = d.loft.ue := by
  induction l with
  | nil => exact fun _ _ => rfl
  | cons w l ih =>
    intro d hl ht
    rw [List.foldl_cons, Dev.correctCe_not_due w hl ht]
    exact ih hl ht

/-- A word is uncorrectable after a write as it was when the write came to it, but for one that it writes whole (02 R59). -/
theorem Dev.mem_loftPut_ue (d : Dev) (a : Nat) (bs : List Byte) (w : Nat) :
    w ∈ (d.loftPut a bs).loft.ue ↔ w ∈ d.loft.ue ∧ ¬ coversWord a bs.length w = true := by
  simp [Dev.loftPut, List.mem_filter]

/-- The bytes of a Loft write read back. -/
theorem Dev.loftBytes_loftWrite {d : Dev} (h : Memory.wf d.loft.cells = true) (a : Nat) (bs : List Byte) :
    (d.loftWrite a bs).loftBytes a bs.length = bs :=
  readBytes_writeBytes bs _ a (foldl_loft_wf _ (fun d w hd => d.correctCe_wf w hd) _ d h)

theorem coversWord_iff (a n w : Nat) : coversWord a n w = true ↔ a ≤ 8 * w ∧ 8 * w + 8 ≤ a + n := by
  simp [coversWord]

/-- A Loft write that corrects no word in part, or none with an event due, leaves the words it does not write whole. -/
theorem Dev.mem_loftWrite_ue {d : Dev} {a : Nat} {bs : List Byte}
    (h : (∀ x ∈ d.loft.ce, touchesWord a bs.length x = true → coversWord a bs.length x = true) ∨
      ∃ t, d.loft.lastCeEvent = some t ∧ d.now < t + 1000000) (w : Nat) :
    w ∈ (d.loftWrite a bs).loft.ue ↔ w ∈ d.loft.ue ∧ ¬ coversWord a bs.length w = true := by
  have kept : ((d.loft.ce.filter fun x => touchesWord a bs.length x && !coversWord a bs.length x).foldl
      Dev.correctCe d).loft.ue = d.loft.ue := by
    rcases h with h | ⟨t, hl, ht⟩
    · have none_partly : (d.loft.ce.filter fun x => touchesWord a bs.length x && !coversWord a bs.length x) = [] := by
        refine List.filter_eq_nil_iff.mpr fun x hx => ?_
        simpa using h x hx
      rw [none_partly]
      rfl
    · exact Dev.correctCes_not_due _ hl ht
  rw [Dev.loftWrite, Dev.mem_loftPut_ue, kept]

/-- Settles O49: the bytes go in last, and clear the marks of the words they cover whole and of no others. -/
theorem uncorrectableWordMarks : Obligations.UncorrectableWordMarks := by
  intro s a data w hup hwf hlo hhi hne full whole quiet
  have hm : Memory.wf s.dev.answering.loft.cells = true := by
    simp only [Dev.memWf, Bool.and_eq_true] at hwf
    obtain ⟨⟨⟨⟨⟨hloft, -⟩, -⟩, -⟩, -⟩, -⟩ := hwf
    exact hloft
  have hc : full ↔ coversWord a.toNat data.length w = true := (coversWord_iff _ _ _).symm
  refine ⟨_, exec_write_loft hup hlo hhi hne, Dev.loftBytes_loftWrite hm _ _, fun hq hf => ?partly, fun hf => ?wholly⟩
  case partly =>
    refine (Dev.mem_loftWrite_ue (d := s.dev.answering) hq w).trans (and_iff_left ?_)
    rwa [← hc]
  case wholly => exact fun h => ((Dev.mem_loftPut_ue _ _ _ _).mp h).2 (hc.mp hf)

end Sys2Proof.Machine
end

section
/-! PROOF. The video input's packets, link errors and losses (07 R197 to R212), VIN_PHY_CFG (07 R198) and the Loft's scrub
(02 R60): what each comes to by whether the receiver runs and whether the rest of a burst is being discarded. -/

namespace Sys2Proof.Machine

open Sys2Proof

/-- A change of a core die that is up, by what it comes to on the device as it stands. -/
theorem next_core {s : State} {f g : Dev → Dev} (hup : s.dev.coreUp = true) (h : f s.dev = g s.dev) :
    (Host.Outcome.next (s.core f) : Host.Outcome State Fault Refusal) = .next (s.any g) :=
  congrArg Host.Outcome.next ((s.core_up f hup).trans (State.any_congr h))

/-- A change that changes nothing, up or not. -/
theorem next_core_same {s : State} {f : Dev → Dev} (h : f s.dev = s.dev) :
    (Host.Outcome.next (s.core f) : Host.Outcome State Fault Refusal) = .next s :=
  congrArg Host.Outcome.next (State.core_same h)

/-! ### Packets by the state of the receiver (07 R199, R200) -/

/-- The rest of the burst is being discarded after a link error. -/
def Vin.gone (v : Vin) : Bool := v.burst && v.discard

/-- A header looked at, its corrected error counted. -/
def Dev.headed (d : Dev) (corrected : Bool) : Dev :=
  { d with vin := { d.vin.inBurst with eccCe := if corrected then satInc d.vin.eccCe else d.vin.eccCe } }

theorem Dev.packet_off {d : Dev} (h : d.vinRuns = false) (corrected : Bool) (ends : BurstEnd) (work : Dev → Dev) :
    d.packet corrected ends work = d := by
  simp only [Dev.packet, h, Bool.not_false, if_true]

theorem Dev.packet_gone {d : Dev} (h : d.vinRuns = true) (hg : d.vin.gone = true) (corrected : Bool) (ends : BurstEnd)
    (work : Dev → Dev) : d.packet corrected ends work = { d with vin := d.vin.inBurst.after ends } := by
  have hd : d.vin.inBurst.discard = true := hg
  simp only [Dev.packet, h, hd, Bool.not_true, Bool.false_eq_true, if_false, if_true]

theorem Dev.packet_seen {d : Dev} (h : d.vinRuns = true) (hg : d.vin.gone = false) (corrected : Bool) (ends : BurstEnd)
    (work : Dev → Dev) : d.packet corrected ends work =
      { work (d.headed corrected) with vin := (work (d.headed corrected)).vin.after ends } := by
  have hd : d.vin.inBurst.discard = false := hg
  unfold Dev.packet
  rw [h]
  exact congrArg (fun y : Dev => { y with vin := y.vin.after ends }) (if_neg (ne_true_of_eq_false hd))

/-! ### Link errors (07 R200) -/

/-- The frames in progress marked errored, and the rest of the burst to be discarded. -/
def Dev.linkLost (d : Dev) : Dev := { d with vin := ({ d.vin.inBurst with discard := true } : Vin).markErrored }

/-- Event 0x0401, once a second at most. -/
def Dev.linkReported (d : Dev) : Dev := d.eventLimited 0x0401 0 1000000 (pay 0 d.vin.eccUe)

theorem Dev.linkError_off {d : Dev} (h : d.vinRuns = false) (sot : Bool) (ends : BurstEnd) : d.linkError sot ends = d := by
  simp only [Dev.linkError, h, Bool.not_false, if_true]

theorem Dev.linkError_sot {d : Dev} (h : d.vinRuns = true) (ends : BurstEnd) : d.linkError true ends =
    (let y : Dev := { d.linkLost with vin := { d.linkLost.vin with sot := satInc d.vin.sot } }
     { y.linkReported with vin := y.linkReported.vin.after ends }) := by
  simp only [Dev.linkError, h, Bool.not_true, Bool.and_false, Bool.false_eq_true, if_false, if_true]
  rfl

theorem Dev.linkError_header {d : Dev} (h : d.vinRuns = true) (hg : d.vin.gone = false) (ends : BurstEnd) :
    d.linkError false ends =
      (let y : Dev := { d.linkLost with vin := { d.linkLost.vin with eccUe := satInc d.vin.eccUe } }
       { y.linkReported with vin := y.linkReported.vin.after ends }) := by
  have hd : d.vin.inBurst.discard = false := hg
  simp only [Dev.linkError, h, hd, Bool.not_true, Bool.false_and, Bool.false_eq_true, if_false]
  rfl

/-- A header of a burst that is being discarded is not looked at. -/
theorem Dev.linkError_gone {d : Dev} (h : d.vinRuns = true) (hg : d.vin.gone = true) (ends : BurstEnd) :
    d.linkError false ends = { d with vin := d.vin.inBurst.after ends } := by
  have hd : d.vin.inBurst.discard = true := hg
  simp only [Dev.linkError, h, hd, Bool.not_true, Bool.not_false, Bool.and_true, Bool.false_eq_true, if_false, if_true]

theorem Dev.ulpsTo_runs {d : Dev} (h : d.vinRuns = true) (enter : Bool) : d.ulpsTo enter =
    { d with vin := { d.vin with ulps := enter, hs := false, burst := false, discard := false } } := by
  unfold Dev.ulpsTo
  exact if_pos h

/-! ### The stream that a channel names (07 R199) -/

/-- A search finds the first that qualifies. -/
theorem findSome?_finRange_first {α : Type} {m : Nat} {f : Fin m → Option α} {k : Fin m} {x : α} (hk : f k = some x)
    (hf : ∀ j, j < k → f j = none) : (List.finRange m).findSome? f = some x := by
  cases e : (List.finRange m).findSome? f with
  | none => exact absurd (List.findSome?_eq_none_iff.mp e k (List.mem_finRange k)) (by rw [hk]; exact nofun)
  | some y =>
    obtain ⟨l, j, r, hl, hj, hn⟩ := List.findSome?_eq_some_iff.mp e
    have sorted : (l ++ j :: r).Pairwise (· < ·) := hl ▸ List.pairwise_lt_finRange m
    have hjk : j = k := by
      rcases Nat.lt_trichotomy j.val k.val with h | h | h
      · rw [hf j h] at hj; nomatch hj
      · exact Fin.ext h
      · have hm : k ∈ l ++ j :: r := hl ▸ List.mem_finRange k
        rcases List.mem_append.mp hm with h' | h'
        · rw [hn k h'] at hk; nomatch hk
        · rcases List.mem_cons.mp h' with h' | h'
          · exact h'.symm
          · have hjk : j < k := List.rel_of_pairwise_cons (List.pairwise_append.mp sorted).2.1 h'
            exact absurd h (Nat.lt_asymm hjk)
    rw [← hj, hjk, hk]

/-- Whether a stream's descriptor names a channel. -/
def Stream.names (st : Stream) (vc : BitVec 2) : Prop := ∃ x, st.desc = some x ∧ x.vc = vc

theorem Dev.streamOf_none {d : Dev} {vc : BitVec 2} (h : ∀ k : Fin 4, ¬ (d.vin.streams[k]).names vc) :
    d.streamOf vc = none := by
  refine List.findSome?_eq_none_iff.mpr fun k _ => ?_
  split
  next => rfl
  next x hx => exact if_neg fun hv => h k ⟨x, hx, hv⟩

theorem Dev.streamOf_first {d : Dev} {vc : BitVec 2} {n : Fin 4} {x : StreamDesc} (hx : (d.vin.streams[n]).desc = some x)
    (hv : x.vc = vc) (hn : ∀ k : Fin 4, k < n → ¬ (d.vin.streams[k]).names vc) : d.streamOf vc = some (n, x) := by
  have hx' : (d.vin.streams[n.val]).desc = some x := hx
  refine findSome?_finRange_first (k := n) ?_ fun k hk => ?_
  · simp only [hx', hv, if_true]
  · split
    next => rfl
    next y hy => exact if_neg fun hv => hn k hk ⟨y, hy, hv⟩

theorem Dev.payloadOn_none {d : Dev} {vc : BitVec 2} (h : d.streamOf vc = none) (ok : Bool) (bytes : List Byte) :
    d.payloadOn vc ok bytes = { d with vin := { d.vin with unrouted := satInc d.vin.unrouted } } := by
  simp only [Dev.payloadOn, h]

theorem Dev.payloadOn_some {d : Dev} {vc : BitVec 2} {n : Fin 4} {x : StreamDesc} (h : d.streamOf vc = some (n, x)) (ok : Bool)
    (bytes : List Byte) : d.payloadOn vc ok bytes = d.appendPayload n x bytes ok := by
  simp only [Dev.payloadOn, h]

/-! ### A vertical sync start (07 R204, R211) -/

theorem Dev.endShort_effects (d : Dev) (n : Fin 4) : (d.endShort n).effects = d.effects := by
  unfold Dev.endShort
  simp only
  split
  · rfl
  · split
    · rfl
    · exact Dev.event_effects _ _ _

theorem Stream.setBuf_desc (st : Stream) (k : Option (Fin 3)) (b : BufState) : (st.setBuf k b).desc = st.desc := by
  cases k <;> rfl

theorem Dev.onStream_same (d : Dev) (n : Fin 4) (f : Stream → Stream) :
    (d.onStream n f).vin.streams[n] = f d.vin.streams[n] := by
  simp [Dev.onStream, upd]

theorem Dev.endShort_desc (d : Dev) (n : Fin 4) :
    ((d.endShort n).vin.streams[n]).desc = (d.vin.streams[n]).desc := by
  cases h : (d.vin.streams[n.val]).inFrame with
  | none => simp only [Dev.endShort, h]
  | some f =>
    by_cases hc : f.complete = true
    · simp only [Dev.endShort, h, hc, if_true]
    · have hv := congrArg Stream.desc (d.onStream_same n fun st =>
        { st.setBuf f.buf .free with inFrame := none, cShort := satInc st.cShort })
      simp only [Dev.endShort, h, hc, Bool.false_eq_true, if_false, Dev.event_vin]
      exact hv.trans (Stream.setBuf_desc _ _ _)

theorem Dev.applyDisable_none {d : Dev} (h : d.effects = []) (n : Fin 4) : d.applyDisable n = d := by
  simp only [Dev.applyDisable, h, List.any_nil, Bool.false_eq_true, if_false]

/-- Whether an effect is a descriptor that waits for a sync on a channel. -/
def Effect.awaits (vc : BitVec 2) (e : Effect) : Bool :=
  match e.op with
  | .vinDesc _ (some x) => x.vc == vc
  | _ => false

/-- A sync on a channel that no descriptor names, in force or pending, does nothing. -/
theorem Dev.syncOn_none {d : Dev} {vc : BitVec 2} (hs : d.streamOf vc = none)
    (he : d.effects.all (fun e => !e.awaits vc) = true) : d.syncOn vc = d := by
  have none_due : ∀ e ∈ d.effects, e.awaits vc = false := by simpa using he
  unfold Dev.syncOn
  extract_lets due now d1 d2
  have hnow : now = [] := List.filter_eq_nil_iff.mpr fun e h => ne_true_of_eq_false (none_due e h)
  have hrest : d.effects.filter (fun e => !due e) = d.effects :=
    List.filter_eq_self.mpr fun e h => congrArg not (none_due e h)
  have hd : d2 = d := by
    change now.foldl _ { d with effects := d.effects.filter fun e => !due e } = d
    rw [hnow, hrest]
    rfl
  simp only [hd, hs]

theorem Dev.syncOn_some {d : Dev} {vc : BitVec 2} {n : Fin 4} {x : StreamDesc} (hs : d.streamOf vc = some (n, x))
    (hx : (d.vin.streams[n]).desc = some x) (he : d.effects = []) : d.syncOn vc = (d.endShort n).frameStart n x := by
  have hd : ((d.endShort n).vin.streams[n.val]).desc = some x := (d.endShort_desc n).trans hx
  have ha : (d.endShort n).applyDisable n = d.endShort n := Dev.applyDisable_none ((d.endShort_effects n).trans he) n
  have h0 : ({ d with effects := [] } : Dev) = d := he ▸ rfl
  simp only [Dev.syncOn, he, List.filter_nil, List.foldl_nil, h0, hs, ha, hd]

/-! ### The receiver's configuration and its losses (07 R198, R212) -/

theorem exec_vinPhyCfgWrite {s : State} {v : Word} (h : s.takesWrite 0x20030000 v = true) :
    exec (.vinPhyCfgWrite v) s = .next (s.hosted fun d => d.phyWrite v) :=
  congrArg Host.Outcome.next (hostPut_takes h)

theorem Dev.phyWrite_off {d : Dev} (h : d.vin.en = false) (v : Word) : d.phyWrite v = { d with vin := { d.vin with
    en := v.getLsbD 2, lanes := v.extractLsb' 0 2, dpol := v.extractLsb' 8 4, cpol := v.getLsbD 12 } } := by
  simp only [Dev.phyWrite, h, Bool.false_eq_true, if_false]

/-- A value for VIN_PHY_CFG has the lanes and polarities in force, which stay while the receiver is on. -/
def Vin.configured (x : Vin) (v : Word) : Prop :=
  v.extractLsb' 0 2 = x.lanes ∧ v.extractLsb' 8 4 = x.dpol ∧ v.getLsbD 12 = x.cpol

theorem Dev.phyWrite_same {d : Dev} {v : Word} (h : d.vin.en = true) (hv : v.getLsbD 2 = true)
    (hs : d.vin.configured v) : d.phyWrite v = d := by
  obtain ⟨hl, hd, hc⟩ := hs
  simp only [Dev.phyWrite, h, hv, hl, hd, hc, bne_self_eq_false, Bool.or_false, if_true]
  rw [← h]

theorem Dev.phyWrite_differs {d : Dev} {v : Word} (h : d.vin.en = true) (hv : v.getLsbD 2 = true)
    (hs : ¬ d.vin.configured v) : d.phyWrite v = { d with vin := { d.vin with cfgErr := true } } := by
  have hd : (v.extractLsb' 0 2 != d.vin.lanes || v.extractLsb' 8 4 != d.vin.dpol || v.getLsbD 12 != d.vin.cpol) = true := by
    refine Decidable.byContradiction fun hn => ?_
    simp only [Bool.not_eq_true, Bool.or_eq_false_iff, bne_eq_false_iff_eq, and_assoc] at hn
    exact hs hn
  simp only [Dev.phyWrite, h, hv, hd, Bool.or_true, if_true]

theorem Dev.vinLoss_due {d : Dev} {n : Fin 4} {x : StreamDesc} (hx : (d.vin.streams[n]).desc = some x)
    (hr : d.vinRuns = true) (hm : x.lossMs ≠ 0) (hl : (d.vin.streams[n]).lost = false)
    (ht : (d.vin.streams[n]).since + 1000 * x.lossMs.toNat ≤ d.now) :
    d.vinLoss n = (d.onStream n fun z => { z with lost := true }).event 0x0407
      (payN 0 n.val ||| pay 16 (d.vin.streams[n]).lastComplete) := by
  have hx' : (d.vin.streams[n.val]).desc = some x := hx
  have due : (d.vinRuns && x.lossMs != 0 && !(d.vin.streams[n.val]).lost &&
      decide ((d.vin.streams[n.val]).since + 1000 * x.lossMs.toNat ≤ d.now)) = true := by
    have hl' : (d.vin.streams[n.val]).lost = false := hl
    simp only [hr, hl', bne_iff_ne.mpr hm, Bool.not_false, Bool.and_true, Bool.true_and]
    exact decide_eq_true ht
  simp only [Dev.vinLoss, hx', due, if_true]
  rfl

/-! ### The scrub (02 R60) -/

theorem Dev.loftTouch_clean {d : Dev} (hc : d.loft.ce = []) (hu : d.loft.ue = []) (a n : Nat) : d.loftTouch a n = d := by
  simp only [Dev.loftTouch, hc, hu, List.filter_nil, List.foldl_nil]

/-- With no soft error since the scrub before it, a scrub is its read alone. -/
theorem exec_scrubRead_nil (s : State) : exec (.scrubRead []) s = .next (s.core Dev.scrub) := rfl

theorem Dev.scrub_goes_on {d : Dev} (hp : d.pclkRuns = true) (hc : d.loft.ce = []) (hu : d.loft.ue = [])
    (h : d.loft.scrubPos < 49151) :
    d.scrub = { d with loft := { d.loft with scrubPos := d.loft.scrubPos + 1 } } := by
  simp only [Dev.scrub, hp, if_true, Dev.loftTouch_clean hc hu, Nat.not_le.mpr h, decide_false, Bool.false_eq_true, if_false]

/-- After the last granule a pass is counted. -/
theorem Dev.scrub_wraps {d : Dev} (hp : d.pclkRuns = true) (hc : d.loft.ce = []) (hu : d.loft.ue = [])
    (h : d.loft.scrubPos = 49151) :
    d.scrub = { d with loft := { d.loft with scrubPos := 0, scrubPass := d.loft.scrubPass + 1 } } := by
  simp only [Dev.scrub, hp, if_true, Dev.loftTouch_clean hc hu, Nat.le_of_eq h.symm, decide_true]

/-- Settles O34: packets by the state of the receiver and of the burst, then the loss, the scrub and VIN_PHY_CFG. -/
theorem inputsAndScrubber : Obligations.InputsAndScrubber := by
  intro s vc corrected ok bytes ends n v hup named began seen ended lost gone due
  refine ⟨?off, next_core_same rfl, ?runs, ?loss, ?scrub, ?config⟩
  case off =>
    intro h
    exact ⟨next_core_same (Dev.packet_off h _ _ _), next_core_same (Dev.packet_off h _ _ _),
      next_core_same (Dev.packet_off h _ _ _), next_core_same (Dev.linkError_off h _ _),
      next_core_same (Dev.linkError_off h _ _)⟩
  case runs =>
    intro h
    refine ⟨next_core hup (Dev.ulpsTo_runs h ok), next_core hup (Dev.linkError_sot h ends), fun hg => ?_, fun hg => ?_⟩
    · have packet (work : Dev → Dev) := next_core (f := fun d => d.packet corrected ends work)
        (g := fun d => ended (began d)) hup (Dev.packet_gone h hg corrected ends work)
      exact ⟨packet _, packet _, packet _, packet _, next_core hup (Dev.linkError_gone h hg ends)⟩
    · have packet (work f : Dev → Dev) (e : work (s.dev.headed corrected) = f s.dev) :=
        next_core (f := fun d => d.packet corrected ends work) (g := fun d => ended (f d)) hup
          ((Dev.packet_seen h hg corrected ends work).trans (congrArg ended e))
      refine ⟨packet id seen rfl, packet id seen rfl, next_core hup (Dev.linkError_header h hg ends), fun hn => ?_, ?_⟩
      · have unrouted : (s.dev.headed corrected).streamOf vc = none := Dev.streamOf_none fun k ⟨x, hx, hv⟩ => by
          have hk : named (some x) = false := hx ▸ hn k
          exact absurd (beq_iff_eq.mpr hv) (ne_true_of_eq_false hk)
        exact ⟨packet _ (fun d => { seen d with vin := { (seen d).vin with unrouted := satInc d.vin.unrouted } })
            (Dev.payloadOn_none unrouted ok bytes),
          fun he => packet _ seen (Dev.syncOn_none unrouted he)⟩
      · intro x hx hv hn
        have routed : (s.dev.headed corrected).streamOf vc = some (n, x) :=
            Dev.streamOf_first hx hv fun k hk ⟨y, hy, hv⟩ => by
          have hk : named (some y) = false := hy ▸ hn k hk
          exact absurd (beq_iff_eq.mpr hv) (ne_true_of_eq_false hk)
        exact ⟨packet _ (fun d => (seen d).appendPayload n x bytes ok) (Dev.payloadOn_some routed ok bytes),
          fun he => packet _ (fun d => ((seen d).endShort n).frameStart n x) (Dev.syncOn_some routed hx he)⟩
  case loss => exact fun x hx hr hm hl ht => next_core hup (Dev.vinLoss_due hx hr hm hl ht)
  case scrub =>
    intro hp hc hu
    exact ⟨fun h => (exec_scrubRead_nil s).trans (next_core hup (Dev.scrub_goes_on hp hc hu h)),
      fun h => (exec_scrubRead_nil s).trans (next_core hup (Dev.scrub_wraps hp hc hu h))⟩
  case config =>
    intro h
    have written (f : Dev → Dev) (e : s.dev.answering.phyWrite v = f s.dev.answering) :
        exec (.vinPhyCfgWrite v) s = .next (s.hosted f) :=
      (exec_vinPhyCfgWrite h).trans (congrArg Host.Outcome.next (State.any_congr e))
    exact ⟨fun he => written _ (Dev.phyWrite_off (d := s.dev.answering) he v), fun he hv =>
      ⟨fun hs => written _ (Dev.phyWrite_same (d := s.dev.answering) he hv hs),
        fun hs => written _ (Dev.phyWrite_differs (d := s.dev.answering) he hv hs)⟩⟩

end Sys2Proof.Machine
end

section
/-! PROOF. A transfer window that does not stay open past its start (08 R254, 11 R321, 15 R458): the first word leaves within
the window's first microsecond, and where its ceiling-map entry has a parity error and no configuration is in force, its
check resets the device, which ends the transfer. -/

namespace Sys2Proof.Machine

open Sys2Proof

/-- A display of one tile of two emitters in LOAD, with no configuration in force and its first transfer due; a soft error has
changed one bit of the static ceiling-map entry of its first word. -/
def paritySlip : State := State.reset.any fun d =>
  let tiles := updN d.scan.tiles 0 fun t => { t with present := true, desc := 0x0002000100010000 }
  Dev.softError { d with
    sys := { d.sys with mode := .load, htime := 10 }
    scan := { d.scan with lats := true, firstLat := false, enumValid := true, tiles := tiles } } (.ridgeStatic 0 1)

theorem paritySlip_due : paritySlip.dev.windowDue = true ∧ paritySlip.dev.beforeOpen.scan.lats = true ∧
    paritySlip.dev.beforeOpen.gbl.cfg = none := by decide +kernel

/-- The window opens, and the check of its first word resets the device, which closes it. -/
theorem paritySlip_window : (paritySlip.dev.windowStart false).scan.window = true ∧ paritySlip.window.dev.coreUp = false ∧
    paritySlip.window.dev.scan.window = false := by decide +kernel

/-- Refutes O57: of the window of `paritySlip`, which is due with no configuration in force, one word leaves, and its check
begins a reset, so the window is not open in the state that its start leaves. -/
theorem not_pictureCommandsComplete : ¬ Obligations.PictureCommandsComplete := by
  intro h
  obtain ⟨-, -, hclosed⟩ := paritySlip_window
  obtain ⟨hdue, hlats, hcfg⟩ := paritySlip_due
  have hup := Dev.windowDue_up hdue
  obtain ⟨-, -, -, -, -, -, -, -, hstart, -⟩ := h paritySlip 0 0 0 0 0 false false [] .goesOn 0 0 hup
  obtain ⟨u, hu, hopen⟩ := hstart hdue hlats hcfg
  have hw : paritySlip.window = u := Host.Outcome.next.inj ((exec_transferWindowStart_up hup).symm.trans hu)
  have hshut : u.dev.scan.window = false := hw ▸ hclosed
  exact absurd hopen (ne_true_of_eq_false hshut)

end Sys2Proof.Machine
end

section
/-! PROOF. The queue of commands, the model's own. -/

namespace Sys2Proof.Machine

open Sys2Proof

/-- Settles O1: the queue is not empty, so its front is executed. -/
theorem stepRunsFront : Obligations.StepRunsFront := fun _ _ => rfl

end Sys2Proof.Machine
end

section
/-! PROOF. The commands that take effect at their fetch (03 R80, R82, 08 R245, 14 R433, R434, 15 R443): what each one's own
tests come to where they pass. -/

namespace Sys2Proof.Machine

open Sys2Proof

section
variable {m : Chip} {h : CmdHdr} {a : Args}

/-! ### MODE_REQUEST (15 R443) -/

theorem cmdModeRequest_self {t : Mode} (ht : Mode.ofCode (slice a[0] 0 4) = some t) (hp : m.1.sys.pending = none)
    (hf : m.1.modeFault t = none) (hm : t = m.1.sys.mode) : cmdModeRequest m h a =
      .ok (t.code.setWidth 32) 0 fun d => if t = .proof then d.restartProof else d := by
  simp only [cmdModeRequest, ht, hp, hf]
  rw [if_pos hm]

theorem cmdModeRequest_atOnce {t : Mode} (ht : Mode.ofCode (slice a[0] 0 4) = some t) (hp : m.1.sys.pending = none)
    (hf : m.1.modeFault t = none) (hm : t ≠ m.1.sys.mode)
    (hr : modeRow m.1.sys.trimFromArmed m.1.sys.mode t = some false) :
    cmdModeRequest m h a = .ok (t.code.setWidth 32) 0 fun d => d.enterNow t := by
  simp only [cmdModeRequest, ht, hp, hf, hr]
  rw [if_neg hm]

theorem cmdModeRequest_atLat {t : Mode} (ht : Mode.ofCode (slice a[0] 0 4) = some t) (hp : m.1.sys.pending = none)
    (hf : m.1.modeFault t = none) (hm : t ≠ m.1.sys.mode)
    (hr : modeRow m.1.sys.trimFromArmed m.1.sys.mode t = some true) : cmdModeRequest m h a =
      .long fun d => { d with sys := { d.sys with pending := some { target := t, hdr := some h } } } := by
  simp only [cmdModeRequest, ht, hp, hf, hr]
  rw [if_neg hm]

/-! ### Handles and regions (03 R80, R82) -/

theorem cmdImageDrop_unused {k : Fin 64} (hk : m.1.handleArg a[0] = some k)
    (hu : m.1.handleUsed (BitVec.ofNat 7 (k.val + 1)) = false) : cmdImageDrop m h a =
      .ok 0 0 fun d => { d with thatch := { d.thatch with handles := upd d.thatch.handles k fun _ => none } } := by
  simp only [cmdImageDrop, hk, hu, Bool.false_eq_true, if_false]

/-- The region that REGION_SET declares. -/
def regionOf (a : Args) : Region := { kind := (slice a[0] 8 4).toNat, base := a[1].toNat, length := a[2].toNat }

theorem cmdRegionSet_valid (hz : a[2] ≠ 0) (hk : (slice a[0] 8 4).toNat ≤ 4) (hb : a[1].toNat % 64 = 0)
    (hl : a[2].toNat % 64 = 0) (hf : inFreeLoft (a[1].toNat, a[2].toNat) = true)
    (ht : (m.1.takenRanges (regionArg a[0])).any (rangesMeet (a[1].toNat, a[2].toNat)) = false)
    (hu : m.1.regionUsed (regionArg a[0]) = false) : cmdRegionSet m h a =
      .ok 0 0 fun d => { d with regions := upd d.regions (regionArg a[0]) fun _ => some (regionOf a) } := by
  have hr : ¬ (a[1].toNat % 64 ≠ 0 ∨ inFreeLoft (a[1].toNat, a[2].toNat) = false ∨
      (m.1.takenRanges (regionArg a[0])).any (rangesMeet (a[1].toNat, a[2].toNat)) = true) := by simp [hb, hf, ht]
  unfold cmdRegionSet
  simp only
  rw [if_neg hz, if_neg (Nat.not_lt.mpr hk), if_neg hr, if_neg (not_not_intro hl), if_neg (ne_true_of_eq_false hu)]
  rfl

theorem cmdRegionClear_unused (hr : (m.1.regions[(regionArg a[0]).val]).isSome = true)
    (hu : m.1.regionUsed (regionArg a[0]) = false) : cmdRegionClear m h a =
      .ok 0 0 fun d => { d with regions := upd d.regions (regionArg a[0]) fun _ => none } := by
  have hn : ¬ (m.1.regions[(regionArg a[0]).val]).isNone = true := by simp [← Option.not_isSome, hr]
  unfold cmdRegionClear
  simp only
  rw [if_neg hn, if_neg (ne_true_of_eq_false hu)]

/-! ### Timing modes and calibration (08 R245, 14 R433, R434) -/

/-- A command's reads of clean Loft, before its completion, change nothing (02 R57, R58). -/
theorem also_touch_pre {d : Dev} {x n : Nat} {o : CmdOut} (hc : d.clean x n = true) (ho : o.pre d = d) :
    (o.also fun d => d.loftTouch x n).pre d = d := by
  have touched : o.pre (d.loftTouch x n) = d := by rw [clean_touch hc, ho]
  exact touched

theorem cmdTmodeLoad_valid {x : TMode} (hc : m.1.clean a[1].toNat 16 = true)
    (hx : parseTMode (m.1.loftBytes a[1].toNat 16) = some x) (hs : slotArg a[0] ≠ m.1.scan.slot) : cmdTmodeLoad m h a =
      (CmdOut.ok 0 0 fun d => { d with scan := { d.scan with tmode := upd d.scan.tmode (slotArg a[0]) fun _ => x } }).also
        fun d => d.loftTouch a[1].toNat 16 := by
  simp only [cmdTmodeLoad, clean_free hc, reading_eq hc, hx, hs, Bool.true_eq_false, if_false]

theorem cmdCalSnapshot_aligned (hx : a[0].toNat % 8 = 0) (hl : loftFree a[0].toNat 128 = true) :
    cmdCalSnapshot m h a = (CmdOut.ok 0 0 id).also fun d => d.loftWrite a[0].toNat d.snapshot := by
  unfold cmdCalSnapshot
  exact if_neg (by simp [hx, hl])

theorem cmdCalRestore_good (hc : m.1.clean a[0].toNat 128 = true)
    (hg : m.1.restoreCheck (m.1.loftBytes a[0].toNat 128) = 1) (hr : m.1.trim.running = false) (hq : m.1.trim.queued = []) :
    cmdCalRestore m h a = (CmdOut.ok 0 0 fun d => (d.restore (m.1.loftBytes a[0].toNat 128)).2).also
      fun d => d.loftTouch a[0].toNat 128 := by
  simp [cmdCalRestore, clean_free hc, reading_eq hc, hg, hr, hq]

end

/-- A served command whose own tests come to an answer gives it. -/
theorem next_answers {s : State} {h : CmdHdr} {op : Byte} {a : Args} {f : CmdBody} {st r0 r1 e}
    (hs : s.serves h op a = true) (hf : f (s.dev.noteServed h.ring, s.otp) h a = CmdOut.answer st r0 r1 e) :
    (Host.Outcome.next (s.chip fun m => m.command h op a f) : Host.Outcome State Fault Refusal) =
      .next (s.answers h op st r0 r1 e) :=
  congrArg Host.Outcome.next (answers_of hs hf)

/-- The same of a command that has read the Loft for it, and found nothing to correct there. -/
theorem next_answers_read {s : State} {h : CmdHdr} {op : Byte} {a : Args} {f : CmdBody} {x : CmdOut} {st r0 r1}
    {e : Dev → Dev} (hs : s.serves h op a = true) (hx : f (s.dev.noteServed h.ring, s.otp) h a = x)
    (hpre : x.pre (s.dev.noteServed h.ring) = s.dev.noteServed h.ring) (hy : x.ans = some ⟨st, r0, r1⟩)
    (he : x.eff = fun m => (e m.1, m.2)) :
    (Host.Outcome.next (s.chip fun m => m.command h op a f) : Host.Outcome State Fault Refusal) =
      .next (s.answers h op st r0 r1 e) := by
  simp only [State.chip, command_serves f hs, hx, Chip.conclude, hpre, hy, he]
  rfl

theorem exec_calSnapshot_served {s : State} {h : CmdHdr} {a : Args} (hs : s.serves h 0x51 a = true)
    (hx : a[0].toNat % 8 = 0) (hl : loftFree a[0].toNat 128 = true) :
    exec (.calSnapshot h a) s = .next (s.any fun d =>
      ((d.noteServed h.ring).loftWrite a[0].toNat d.snapshot).complete h 0x51 .ok 0 0) := by
  change Host.Outcome.next (s.chip fun m => m.command h 0x51 a cmdCalSnapshot) = _
  simp only [State.chip, command_serves cmdCalSnapshot hs, cmdCalSnapshot_aligned hx hl]
  rfl

/-- Settles O27, by what each command's own tests come to. -/
theorem commandsAnsweredAtOnce : Obligations.CommandsAnsweredAtOnce := by
  intro s h a d
  refine ⟨fun hs => next_answers hs rfl, fun t hs ht hp hf => ⟨fun hm => ?_, fun hm hr => ?_⟩, fun hs => next_answers hs rfl,
    fun k hs hk hi hu => ?_, fun hs hkind hb hl hz hf ht hu => ?_, fun hs hr hu => ?_, fun x hs hc hx hk => ?_,
    fun hs hx hl => exec_calSnapshot_served hs hx hl, fun hs hc hr hrun hq => ?_⟩
  · exact next_answers hs (cmdModeRequest_self ht hp hf hm)
  · exact next_answers hs (cmdModeRequest_atOnce ht hp hf hm hr)
  · exact next_answers hs (cmdImageDrop_unused (handleArg_of hk hi) hu)
  · exact next_answers hs (cmdRegionSet_valid hz hkind hb hl hf ht hu)
  · exact next_answers hs (cmdRegionClear_unused hr hu)
  · exact next_answers_read hs (cmdTmodeLoad_valid hc hx hk) (also_touch_pre hc rfl) rfl rfl
  · exact next_answers_read hs (cmdCalRestore_good hc hr hrun hq) (also_touch_pre hc rfl) rfl rfl

end Sys2Proof.Machine
end

section
/-! PROOF. A completion of a ring in service that signals nothing (03 R70, R71, R74): its entry, the index, and what stays. -/

namespace Sys2Proof.Machine

open Sys2Proof

/-! ### Ring registers -/

theorem updN_same {α : Type} {n : Nat} (v : Vector α n) {i : Nat} (hi : i < n) (f : α → α) : (updN v i f)[i] = f v[i] := by
  simp [updN, hi]

theorem updN_ne {α : Type} {n : Nat} (v : Vector α n) {i j : Nat} (hj : j < n) (f : α → α) (h : i ≠ j) :
    (updN v i f)[j] = v[j] := by
  unfold updN
  split
  · exact Vector.getElem_set_ne _ _ h
  · rfl

theorem getN_of_lt {α : Type} {n : Nat} (v : Vector α n) {i : Nat} (hi : i < n) (x : α) : getN v i x = v[i] := dif_pos hi

/-- The ring whose turn it is can be served (03 R79). -/
theorem Dev.nextRing_serves {d : Dev} {also : Option (Fin 24)} {n : Fin 24} (h : d.nextRing also = some n) :
    d.servesRing n = true := by
  have mem : n ∈ (d.waitingRings also).filter d.servesRing := by
    unfold Dev.nextRing at h
    simp only at h
    split at h
    next k hk => exact Option.some.inj h ▸ List.mem_of_find?_eq_some hk
    next => exact List.mem_of_head? h
  exact (List.mem_filter.mp mem).2

/-- A ring that can be served without a relay is in service (03 R68, R79). -/
theorem Dev.servesRing_enabled {d : Dev} {n : Fin 24} (h : d.servesRing n = true) (hr : d.relayRing n = false) :
    (d.rings[n.val]).enabled = true := by
  simp only [Dev.servesRing, hr, Bool.false_or, Bool.and_eq_true] at h
  obtain ⟨-, ⟨enabled, -⟩, -⟩ := h
  exact enabled

/-! ### A completion that signals nothing -/

/-- The address of the completion slot at CPL_PROD (03 R74). -/
def Ring.cplPlace (r : Ring) : Nat := r.cplBase.toNat + 16 * (r.cplProd.toNat % r.entries)

/-- A ring after a completion that it has not signalled. -/
def Ring.posted (r : Ring) (now : Nat) : Ring :=
  { r with cplProd := r.cplProd + 1, unsignalled := r.unsignalled + 1, oldest := some (r.oldest.getD now) }

/-- The entry written for a completion of `h` (03 R74). -/
def cplOf (h : CmdHdr) (op : Byte) (st : CmdStatus) (r0 r1 : Word) : Completion :=
  { tag := h.tag, status := st, opcode := op, index := h.index, ring := h.ring, result0 := r0, result1 := r1 }

theorem Completion.bytes_length (c : Completion) : c.bytes.length = 16 := by
  simp [Completion.bytes]

theorem Dev.noteWrite_counts {d : Dev} {n : Nat} (hn : n < 32) (h : (d.rings[n]).irqCount = 0) :
    d.noteWrite n = d.ring n fun r =>
      { r with unsignalled := r.unsignalled + 1, oldest := some (r.oldest.getD d.now) } := by
  unfold Dev.noteWrite
  refine if_neg fun hc => hc.1 ?_
  rw [Dev.ringAt, getN_of_lt _ hn, Dev.ring, updN_same _ hn]
  exact h

theorem Dev.ring_ring (d : Dev) (n : Nat) (f g : Ring → Ring) : (d.ring n f).ring n g = d.ring n fun r => g (f r) := by
  unfold Dev.ring updN
  split <;> simp

/-- The device once the completion `c` stands in the area of its ring. -/
def Dev.entered (d : Dev) (c : Completion) : Dev :=
  ({ d with lastCpl := some c } : Dev).loftPut (d.rings[c.ring.val]).cplPlace c.bytes

theorem Dev.loftPut_rings (d : Dev) (a : Nat) (bs : List Byte) : (d.loftPut a bs).rings = d.rings := rfl
theorem Dev.loftPut_now (d : Dev) (a : Nat) (bs : List Byte) : (d.loftPut a bs).now = d.now := rfl
theorem Dev.loftPut_cells (d : Dev) (a : Nat) (bs : List Byte) :
    (d.loftPut a bs).loft.cells = writeBytes d.loft.cells a bs := rfl

theorem Dev.entered_rings (d : Dev) (c : Completion) : (d.entered c).rings = d.rings := Dev.loftPut_rings _ _ _
theorem Dev.entered_now (d : Dev) (c : Completion) : (d.entered c).now = d.now := Dev.loftPut_now _ _ _
theorem Dev.entered_cells (d : Dev) (c : Completion) :
    (d.entered c).loft.cells = writeBytes d.loft.cells (d.rings[c.ring.val]).cplPlace c.bytes := Dev.loftPut_cells _ _ _

/-- The device once the completion `c` is written and counted, and not signalled. -/
def Dev.posted (d : Dev) (c : Completion) : Dev := (d.entered c).ring c.ring.val fun r => r.posted d.now

/-- A completion counted on its ring, which signals nothing by count. -/
theorem Dev.count_completion {d : Dev} {n : Nat} (hn : n < 32) (hc : (d.rings[n]).irqCount = 0) :
    (d.ring n fun r => { r with cplProd := r.cplProd + 1 }).noteWrite n = d.ring n fun r => r.posted d.now := by
  have quiet : ((d.ring n fun r => { r with cplProd := r.cplProd + 1 }).rings[n]).irqCount = 0 := by
    rw [Dev.ring, updN_same _ hn]
    exact hc
  rw [Dev.noteWrite_counts hn quiet, Dev.ring_ring]
  rfl

/-- The completion of a command of a ring in service, which signals nothing by count and asked for no interrupt. -/
theorem Dev.complete_posts {d : Dev} {h : CmdHdr} (op : Byte) (st : CmdStatus) (r0 r1 : Word)
    (hr : d.relayRing h.ring = false) (he : (d.rings[h.ring.val]).enabled = true) (hi : h.irq = false)
    (hc : (d.rings[h.ring.val]).irqCount = 0) : d.complete h op st r0 r1 = d.posted (cplOf h op st r0 r1) := by
  have hn : h.ring.val < 32 := by omega
  have own : ¬ (h.ring = 23 ∧ d.roof.relay = true ∧ d.sys.role = 2) := by
    rintro ⟨h1, h2, h3⟩
    simp [Dev.relayRing, h1, h2, h3] at hr
  have counted := Dev.count_completion (d := d.entered (cplOf h op st r0 r1)) hn
    (by simpa only [Dev.entered_rings] using hc)
  rw [Dev.entered_now] at counted
  exact (if_neg own).trans ((if_pos he).trans ((if_neg (ne_true_of_eq_false hi)).trans counted))

section
variable {d : Dev} {c : Completion}

theorem Dev.posted_cells :
    (d.posted c).loft.cells = writeBytes d.loft.cells (d.rings[c.ring.val]).cplPlace c.bytes := d.entered_cells c

theorem Dev.posted_rings : (d.posted c).rings = updN d.rings c.ring.val fun r => r.posted d.now := by
  rw [Dev.posted, Dev.ring, Dev.entered_rings]

theorem Dev.posted_entry (hd : cellWf d.loft.cells = true) :
    (d.posted c).loftBytes (d.rings[c.ring.val]).cplPlace 16 = c.bytes := by
  have read := readBytes_writeBytes c.bytes d.loft.cells (d.rings[c.ring.val]).cplPlace hd
  rw [c.bytes_length] at read
  rw [Dev.loftBytes, Dev.posted_cells, read]

theorem Dev.posted_byte_ne {b : Nat} (hd : cellWf d.loft.cells = true)
    (hb : b < (d.rings[c.ring.val]).cplPlace ∨ (d.rings[c.ring.val]).cplPlace + 16 ≤ b) :
    cellGet (d.posted c).loft.cells b = cellGet d.loft.cells b := by
  rw [Dev.posted_cells, cellGet_writeBytes_ne _ _ _ _ hd (by rw [c.bytes_length]; exact hb)]

theorem Dev.posted_cplProd : ((d.posted c).rings[c.ring.val]).cplProd = (d.rings[c.ring.val]).cplProd + 1 := by
  simp only [Dev.posted_rings, updN_same, Ring.posted]

theorem Dev.posted_ring_ne {n : Fin 32} (hn : n.val ≠ c.ring.val) : (d.posted c).rings[n] = d.rings[n] := by
  simp only [Dev.posted_rings, Fin.getElem_fin, updN_ne _ _ _ (Ne.symm hn)]

end

/-- The entry of a NOP that completes OK (03 R74, R80). -/
theorem cplOf_nop_bytes (h : CmdHdr) : (cplOf h 0x00 .ok deviceId 0).bytes =
    leBytes h.tag.toNat 2 ++ [Config.statusCode CmdStatus.ok.rank, 0x00] ++ leBytes h.index.toNat 2 ++
      [BitVec.ofNat 8 h.ring.val, 0] ++ [0x01, 0x00, 0x16, 0x1A, 0, 0, 0, 0] :=
  List.append_assoc _ (leBytes deviceId.toNat 4) (leBytes 0 4)

/-- Settles O51: NOP's completion is posted, and its bytes read back. -/
theorem completionsArePosted : Obligations.CompletionsArePosted := by
  intro s h a hs hrelay hirq hcount hwf r p
  obtain ⟨hnext, -⟩ := serves_iff.mp hs
  have he := Dev.servesRing_enabled (Dev.nextRing_serves hnext) hrelay
  have hloft : cellWf s.dev.loft.cells = true := by
    simp only [Dev.memWf, Bool.and_eq_true] at hwf
    obtain ⟨⟨⟨⟨⟨loft, -⟩, -⟩, -⟩, -⟩, -⟩ := hwf
    exact loft
  have posted : (s.answers h 0x00 .ok deviceId 0).dev = (s.dev.noteServed h.ring).posted (cplOf h 0x00 .ok deviceId 0) :=
    Dev.complete_posts 0x00 .ok deviceId 0 hrelay he hirq hcount
  refine ⟨s.answers h 0x00 .ok deviceId 0, next_answers hs rfl, ?_⟩
  rw [posted]
  exact ⟨(Dev.posted_entry hloft).trans (cplOf_nop_bytes h), Dev.posted_cplProd,
    fun b hb => Dev.posted_byte_ne hloft hb, fun n hn => Dev.posted_ring_ne hn⟩

end Sys2Proof.Machine
end

section
/-! PROOF. The ring registers (03 R65 to R71, R88): a host write reaches its register, and what each register then does. -/

namespace Sys2Proof.Machine

open Sys2Proof

/-! ### A host write of a ring register (02 R47, 03 R66) -/

/-- The offsets of the ring registers that the host writes by rows of their own. -/
def ringOffsets : List Nat := [0x00, 0x04, 0x08, 0x0C, 0x10, 0x18]

theorem ringOffsets_lt {off : Nat} (h : off ∈ ringOffsets) : off < 64 ∧ off % 4 = 0 := by
  revert off
  decide

theorem Dev.ringRead_isSome (d : Dev) (n : Fin 32) {off : Nat} (h : off ∈ ringOffsets) :
    (d.ringRead (64 * n.val + off)).isSome = true := by
  have hr : (64 * n.val + off) % 64 = off := by have := ringOffsets_lt h; omega
  unfold Dev.ringRead regAt
  simp only [hr]
  simp only [ringOffsets, List.mem_cons, List.not_mem_nil, or_false] at h
  rcases h with rfl | rfl | rfl | rfl | rfl | rfl <;> rfl

theorem takesWrite_ringReg {s : State} (hup : s.dev.coreUp = true) (n : Fin 32) {off : Nat} (h : off ∈ ringOffsets)
    (v : Word) : s.takesWrite (ringReg n off) v = true := by
  obtain ⟨hlt, h4⟩ := ringOffsets_lt h
  have hpage : ringReg n off / 0x10000 = 0x2001 := by unfold ringReg; omega
  have hoff : ringReg n off % 0x10000 = 64 * n.val + off := by unfold ringReg; omega
  have hsmall : 64 * n.val + off < 0x800 := by omega
  have haligned : ringReg n off % 4 = 0 := by unfold ringReg; omega
  have hloft : loftSize ≤ ringReg n off := by unfold ringReg loftSize; omega
  have hend : ringReg n off < 0x30000000 := by unfold ringReg; omega
  have hwindow : windowRead s.dev.answering (ringReg n off) = none := by
    unfold windowRead
    repeat rw [if_neg (by omega)]
  have hread : (regRead s.dev.answering s.otp (ringReg n off)).isSome = true := by
    simp only [regRead, hpage, hoff, hsmall, if_true]
    exact Dev.ringRead_isSome _ n h
  have hother : (ringReg n off == 0x20000100) = false := by
    rw [beq_eq_false_iff_ne]
    unfold ringReg
    omega
  have hopen : protectedReg s.dev.answering (ringReg n off) = false := by simp [protectedReg, hpage]
  have hword : ringReg n off < 4294967296 := by omega
  simp [State.takesWrite, hup, haligned, hloft, hwindow, hread, hother, hopen, hword]

theorem hostPut_ringReg {s : State} (hup : s.dev.coreUp = true) (n : Fin 32) {off : Nat} (h : off ∈ ringOffsets) (v : Word) :
    s.chip (fun m => m.1.hostPut m.2 (ringReg n off) v) = s.hosted fun d => d.ringWrite (64 * n.val + off) v := by
  have hlt := ringOffsets_lt h
  have hpage : ringReg n off / 0x10000 = 0x2001 := by unfold ringReg; omega
  have hoff : ringReg n off % 0x10000 = 64 * n.val + off := by unfold ringReg; omega
  rw [hostPut_takes (takesWrite_ringReg hup n h v)]
  simp only [regEffect, hpage, hoff]
  rfl

/-- The ring and the register that an offset of the ring window names. -/
theorem ringOffset_names (n : Fin 32) {off : Nat} (h : off < 64) :
    Fin.ofNat 32 ((64 * n.val + off) / 64) = n ∧ (64 * n.val + off) % 64 = off := by
  refine ⟨Fin.ext ?_, by omega⟩
  simp only [Fin.val_ofNat]
  omega

section
variable (d : Dev) (n : Fin 32) (v : Word)

theorem Dev.ringWrite_base : d.ringWrite (64 * n.val + 0x00) v = d.ringBaseWrite n false v := by
  obtain ⟨hn, ho⟩ := ringOffset_names n (off := 0x00) (by decide)
  simp only [Dev.ringWrite, hn, ho]

theorem Dev.ringWrite_cplBase : d.ringWrite (64 * n.val + 0x04) v = d.ringBaseWrite n true v := by
  obtain ⟨hn, ho⟩ := ringOffset_names n (off := 0x04) (by decide)
  simp only [Dev.ringWrite, hn, ho]

theorem Dev.ringWrite_size : d.ringWrite (64 * n.val + 0x08) v = d.sizeWrite n (v.setWidth 4) := by
  obtain ⟨hn, ho⟩ := ringOffset_names n (off := 0x08) (by decide)
  simp only [Dev.ringWrite, hn, ho]

theorem Dev.ringWrite_prod : d.ringWrite (64 * n.val + 0x0C) v = d.doorbell n (v.setWidth 16) := by
  obtain ⟨hn, ho⟩ := ringOffset_names n (off := 0x0C) (by decide)
  simp only [Dev.ringWrite, hn, ho]

theorem Dev.ringWrite_cons : d.ringWrite (64 * n.val + 0x10) v = d.consWrite n (v.setWidth 16) := by
  obtain ⟨hn, ho⟩ := ringOffset_names n (off := 0x10) (by decide)
  simp only [Dev.ringWrite, hn, ho]

theorem Dev.ringWrite_cplCons : d.ringWrite (64 * n.val + 0x18) v = d.cplConsWrite n (v.setWidth 16) := by
  obtain ⟨hn, ho⟩ := ringOffset_names n (off := 0x18) (by decide)
  simp only [Dev.ringWrite, hn, ho]

end

/-! ### The rows of the ring registers, while the core die is up -/

section
variable {s : State} (hup : s.dev.coreUp = true) (n : Fin 32)
include hup

/-- A row that writes a ring register comes to the register's own meaning, by what that does to the device as it stands. -/
theorem next_ringReg {off : Nat} (h : off ∈ ringOffsets) (v : Word) {f : Dev → Dev}
    (hf : s.dev.answering.ringWrite (64 * n.val + off) v = f s.dev.answering) :
    (Host.Outcome.next (s.chip fun m => m.1.hostPut m.2 (ringReg n off) v) : Host.Outcome State Fault Refusal) =
      .next (s.hosted f) :=
  congrArg Host.Outcome.next ((hostPut_ringReg hup n h v).trans (State.any_congr hf))

theorem exec_ringBaseWrite (v : Word) {f : Dev → Dev} (hf : s.dev.answering.ringBaseWrite n false v = f s.dev.answering) :
    exec (.ringBaseWrite n false v) s = .next (s.hosted f) :=
  next_ringReg hup n (by decide) v ((Dev.ringWrite_base _ n v).trans hf)

theorem exec_ringCplBaseWrite (v : Word) {f : Dev → Dev} (hf : s.dev.answering.ringBaseWrite n true v = f s.dev.answering) :
    exec (.ringBaseWrite n true v) s = .next (s.hosted f) :=
  next_ringReg hup n (by decide) v ((Dev.ringWrite_cplBase _ n v).trans hf)

theorem exec_ringEnable {log2 : BitVec 4} (h : log2 ≠ 0) {f : Dev → Dev}
    (hf : s.dev.answering.ringEnable n log2 = f s.dev.answering) : exec (.ringEnable n log2) s = .next (s.hosted f) := by
  refine next_ringReg hup n (by decide) _ ((Dev.ringWrite_size _ n _).trans ?_)
  rw [BitVec.setWidth_setWidth_of_le _ (by decide), BitVec.setWidth_eq, Dev.sizeWrite, if_neg h, hf]

theorem exec_ringStop {f : Dev → Dev} (hf : s.dev.answering.ringStop n = f s.dev.answering) :
    exec (.ringStop n) s = .next (s.hosted f) :=
  next_ringReg hup n (by decide) 0 ((Dev.ringWrite_size _ n 0).trans hf)

theorem exec_ringDoorbell (v : BitVec 16) {f : Dev → Dev} (hf : s.dev.answering.doorbell n v = f s.dev.answering) :
    exec (.ringDoorbell n v) s = .next (s.hosted f) := by
  refine next_ringReg hup n (by decide) _ ((Dev.ringWrite_prod _ n _).trans ?_)
  rw [BitVec.setWidth_setWidth_of_le _ (by decide), BitVec.setWidth_eq, hf]

theorem exec_ringConsWrite (v : BitVec 16) {f : Dev → Dev} (hf : s.dev.answering.consWrite n v = f s.dev.answering) :
    exec (.ringConsWrite n v) s = .next (s.hosted f) := by
  refine next_ringReg hup n (by decide) _ ((Dev.ringWrite_cons _ n _).trans ?_)
  rw [BitVec.setWidth_setWidth_of_le _ (by decide), BitVec.setWidth_eq, hf]

theorem exec_ringCplConsWrite (v : BitVec 16) {f : Dev → Dev} (hf : s.dev.answering.cplConsWrite n v = f s.dev.answering) :
    exec (.ringCplConsWrite n v) s = .next (s.hosted f) := by
  refine next_ringReg hup n (by decide) _ ((Dev.ringWrite_cplCons _ n _).trans ?_)
  rw [BitVec.setWidth_setWidth_of_le _ (by decide), BitVec.setWidth_eq, hf]

end

/-! ### What each register does (03 R66 to R71) -/

/-- Two changes of a ring that agree on it as it stands are one. -/
theorem Dev.ring_congr (d : Dev) {n : Nat} (hn : n < 32) {f g : Ring → Ring} (h : f (d.ringAt n) = g (d.ringAt n)) :
    d.ring n f = d.ring n g := by
  rw [Dev.ringAt, getN_of_lt _ hn] at h
  simp only [Dev.ring, updN, hn, dif_pos, h]

section
variable {d : Dev} {n : Fin 32}

theorem Dev.ringBaseWrite_free {cpl : Bool} {v : Word} (hc : cpl = true → n.val < 24) (he : (d.ringAt n.val).enabled = false)
    (hv : v.toNat % 64 = 0) : d.ringBaseWrite n cpl v =
      d.ring n.val fun r => if cpl then { r with cplBase := v.setWidth 25 } else { r with base := v.setWidth 25 } := by
  have command : ¬ (cpl && decide (24 ≤ n.val)) = true := by
    simp only [Bool.and_eq_true, decide_eq_true_eq, not_and, Nat.not_le]
    exact hc
  unfold Dev.ringBaseWrite
  rw [if_neg command, if_neg (ne_true_of_eq_false he), if_neg (not_not_intro hv)]

theorem Dev.ringBaseWrite_enabled (v : Word) (he : (d.ringAt n.val).enabled = true) :
    d.ringBaseWrite n false v = d.ringCfgErr n.val 4 := if_pos he

theorem Dev.ringBaseWrite_misaligned {v : Word} (he : (d.ringAt n.val).enabled = false) (hv : v.toNat % 64 ≠ 0) :
    d.ringBaseWrite n false v = d.ringCfgErr n.val 5 :=
  (if_neg (ne_true_of_eq_false he)).trans (if_pos hv)

/-- A ring newly in service: empty, at its size, with the host's settings (03 R67). -/
def Ring.enable (r : Ring) (log2 : BitVec 4) : Ring :=
  { r with log2 := log2, prod := 0, cons := 0, cplProd := 0, cplCons := 0, enabled := true, stopping := false,
           stalled := false, unsignalled := 0, oldest := none, lost := 0, inService := none }

theorem Dev.payRecord_none {d : Dev} (h : d.sys.recordOwed = false) (n : Nat) : d.payRecord n = d := by
  simp only [Dev.payRecord, h, Bool.false_and, Bool.false_eq_true, if_false]

theorem Dev.ringEnable_passes {log2 : BitVec 4} (he : (d.ringAt n.val).enabled = false)
    (hc : d.enableCause n.val log2.toNat = 0) (ho : d.sys.recordOwed = false) (hr : n.val = 23 → d.roof.relay = false) :
    d.ringEnable n log2 = d.ring n.val fun r => r.enable log2 := by
  have relay : ¬ (n.val = 23 ∧ d.roof.relay = true ∧ d.sys.role = 2) := fun ⟨h1, h2, _⟩ =>
    Bool.false_ne_true ((hr h1).symm.trans h2)
  unfold Dev.ringEnable
  rw [if_neg (ne_true_of_eq_false he), if_neg relay]
  simp only [hc, if_true]
  exact Dev.payRecord_none (by exact ho) _

theorem Dev.ringStop_enabled (he : (d.ringAt n.val).enabled = true) :
    d.ringStop n = d.ring n.val fun r => { r with stopping := true } := if_pos he

theorem Dev.ringDisableDone_stopped (he : (d.ringAt n.val).enabled = true) (hs : (d.ringAt n.val).stopping = true)
    (hi : (d.ringAt n.val).inService = none) : d.ringDisableDone n =
      d.ring n.val fun r => { r with enabled := false, stopping := false, log2 := 0, stalled := false } :=
  if_pos (by simp [he, hs, hi])

section
variable {v : BitVec 16} (he : (d.ringAt n.val).enabled = true)
include he

theorem Dev.doorbell_taken (hp : hostProduced n.val = true) (h1 : (d.ringAt n.val).held ≤ (v - (d.ringAt n.val).cons).toNat)
    (h2 : (v - (d.ringAt n.val).cons).toNat ≤ (d.ringAt n.val).entries) :
    d.doorbell n v = (d.ring n.val fun r => { r with prod := v }).trussPend 0 :=
  (if_neg (by simp [hp])).trans (if_pos (by simp only [he, h1, h2, decide_true, Bool.and_self]))

theorem Dev.doorbell_refused (hp : hostProduced n.val = true)
    (h : (d.ringAt n.val).entries < (v - (d.ringAt n.val).cons).toNat) : d.doorbell n v = d.badIndex n.val 0x0C v :=
  (if_neg (by simp [hp])).trans (if_neg (by simp only [he, Nat.not_le.mpr h, decide_false, Bool.and_false, Bool.false_eq_true, not_false_eq_true]))

theorem Dev.consWrite_taken (hp : hostProduced n.val = false)
    (h : ((d.ringAt n.val).prod - v).toNat ≤ (d.ringAt n.val).held) :
    d.consWrite n v = d.ring n.val fun r => { r with cons := v } :=
  (if_neg (ne_true_of_eq_false hp)).trans (if_pos (by simp only [he, h, decide_true, Bool.and_self]))

theorem Dev.consWrite_refused (hp : hostProduced n.val = false)
    (h : (d.ringAt n.val).held < ((d.ringAt n.val).prod - v).toNat) : d.consWrite n v = d.badIndex n.val 0x10 v :=
  (if_neg (ne_true_of_eq_false hp)).trans (if_neg (by simp only [he, Nat.not_le.mpr h, decide_false, Bool.and_false, Bool.false_eq_true, not_false_eq_true]))

/-- A freed slot ends STALLED (03 R79). -/
theorem Dev.cplConsWrite_frees (hn : n.val < 24) (h1 : ((d.ringAt n.val).cplProd - v).toNat ≤ (d.ringAt n.val).cplHeld)
    (h2 : ((d.ringAt n.val).cplProd - v).toNat < (d.ringAt n.val).entries) :
    d.cplConsWrite n v = d.ring n.val fun r => { r with cplCons := v, stalled := false } := by
  refine (if_neg (Nat.not_le.mpr hn)).trans ((if_pos (by simp only [he, h1, decide_true, Bool.and_self])).trans ?_)
  have ended : ((d.ringAt n.val).stalled &&
      !decide (((d.ringAt n.val).cplProd - v).toNat < (d.ringAt n.val).entries)) = false := by
    simp only [h2, decide_true, Bool.not_true, Bool.and_false]
  exact Dev.ring_congr d n.isLt (congrArg (fun b : Bool => ({ d.ringAt n.val with cplCons := v, stalled := b } : Ring)) ended)

end

theorem Dev.ringIrqTimer_due {t : Nat} (ho : (d.ringAt n.val).oldest = some t) (hs : signals n.val = true)
    (hi : (d.ringAt n.val).irqTime ≠ 0) (ht : t + (d.ringAt n.val).irqTime.toNat ≤ d.now) :
    d.ringIrqTimer n = d.signalRing n.val := by
  unfold Dev.ringIrqTimer
  simp only [ho]
  exact if_pos (by simp only [hs, bne_iff_ne.mpr hi, ht, decide_true, Bool.and_self])

theorem Dev.ringDropReport_due (hr : reportRings.contains n.val = true) (hd : d.dropDue n.val = true) :
    d.ringDropReport n = d.reportDrops := if_pos (by simp only [hr, hd, Bool.and_self])

end

/-- Settles O26, by what each ring register does with the value that reaches it. -/
theorem ringRegisterCommands : Obligations.RingRegisterCommands := by
  intro s n v w log2 hup r on refused
  refine ⟨fun he hw => ⟨?_, fun hn => ?_⟩, fun he => ?_, fun he hw => ?_, fun he hl hc ho hr => ?_, fun he => ?_,
    fun he hs hi => ?_, fun hp he => ⟨fun h1 h2 => ?_, fun h => ?_⟩, fun hp he => ⟨fun h => ?_, fun h => ?_⟩,
    fun hn he h1 h2 => ?_, fun t ho hs hi ht => ?_, fun hr hd => ?_⟩
  · exact exec_ringBaseWrite hup n w (Dev.ringBaseWrite_free (cpl := false) (by simp) he hw)
  · exact exec_ringCplBaseWrite hup n w (Dev.ringBaseWrite_free (cpl := true) (fun _ => hn) he hw)
  · exact exec_ringBaseWrite hup n w (Dev.ringBaseWrite_enabled w he)
  · exact exec_ringBaseWrite hup n w (Dev.ringBaseWrite_misaligned he hw)
  · exact exec_ringEnable hup n hl (Dev.ringEnable_passes he hc ho hr)
  · exact exec_ringStop hup n (Dev.ringStop_enabled he)
  · exact next_core hup (Dev.ringDisableDone_stopped he hs hi)
  · exact exec_ringDoorbell hup n v (Dev.doorbell_taken he hp h1 h2)
  · exact exec_ringDoorbell hup n v (Dev.doorbell_refused he hp h)
  · exact exec_ringConsWrite hup n v (Dev.consWrite_taken he hp h)
  · exact exec_ringConsWrite hup n v (Dev.consWrite_refused he hp h)
  · exact exec_ringCplConsWrite hup n v (Dev.cplConsWrite_frees he hn h1 h2)
  · exact next_core hup (Dev.ringIrqTimer_due ho hs hi ht)
  · exact next_core hup (Dev.ringDropReport_due hr hd)

end Sys2Proof.Machine
end

section
/-! PROOF. The commands on inputs, sources, timing, frames, calibration, zone sets, the reset window and the twin (03 R77, R81,
R84): what each one's own tests come to where they pass. -/

namespace Sys2Proof.Machine

open Sys2Proof

/-! ### Commit status (08 R253, R258) -/

theorem Dev.schedule_scan (d : Dev) (e : Effect) : (d.schedule e).scan = d.scan :=
  List.foldlRecOn (motive := fun t : Dev => t.scan = d.scan) _ _ rfl fun _ ht _ _ => (Dev.event_scan _ _ _).trans ht

theorem Dev.recordCommit_scan (d : Dev) (ring : Byte) (tag : BitVec 16) (out : Bool) : (d.recordCommit ring tag out).scan =
    { d.scan with pending := true, pbuf := out, commitFrame := d.commitTarget } := Dev.schedule_scan _ _

/-- What a commit's status will be depends on the scan-out unit alone. -/
theorem Dev.recordCommit_status {d t : Dev} (h : t.scan = d.scan) (ring : Byte) (tag : BitVec 16) (out : Bool) :
    (t.recordCommit ring tag out).commitStatus = (d.recordCommit ring tag out).commitStatus := by
  simp only [Dev.commitStatus, Dev.recordCommit_scan, Dev.commitTarget, Dev.nextLat, h]

/-! ### The commands' own tests -/

section
variable {m : Chip} {h : CmdHdr} {a : Args}

/-- The stream of ARG0[1:0], and the source of ARG0[3:0]. -/
def streamArg (x : Word) : Fin 4 := ⟨(slice x 0 2).toNat, (slice x 0 2).isLt⟩
def sourceArg (x : Word) : Fin 16 := ⟨(slice x 0 4).toNat, (slice x 0 4).isLt⟩

theorem cmdVinDesc_takes {x : StreamDesc} (hc : m.1.clean a[1].toNat 64 = true)
    (hx : parseStreamDesc (m.1.loftBytes a[1].toNat 64) = some x) (ho : m.1.streamOk (streamArg a[0]).val x = true)
    (hn : x.nbuf ≠ 0) : cmdVinDesc m h a =
      (m.1.scheduled h 0 (.vinDesc (streamArg a[0]) (some x))).also fun d => d.loftTouch a[1].toNat 64 := by
  unfold streamArg at ho ⊢
  simp only [cmdVinDesc, clean_free hc, reading_eq hc, hx, ho, hn, Bool.true_eq_false, if_false]

/-- The effect of NBUF 0: the stream is disabled at its next sync, or at once where no frame of it is in progress (07 R211). -/
def Dev.streamOff (h : CmdHdr) (n : Fin 4) (d : Dev) : Dev :=
  let x := d.schedule { ring := BitVec.ofNat 8 h.ring.val, tag := h.tag, op := .vinDesc n none }
  if (x.vin.streams[n]).filling then x else x.applyDisable n

theorem cmdVinDesc_off {x : StreamDesc} (hc : m.1.clean a[1].toNat 64 = true)
    (hx : parseStreamDesc (m.1.loftBytes a[1].toNat 64) = some x) (ho : m.1.streamOk (streamArg a[0]).val x = true)
    (hn : x.nbuf = 0) : cmdVinDesc m h a =
      (m.1.deferred 0 (Dev.streamOff h (streamArg a[0]))).also fun d => d.loftTouch a[1].toNat 64 := by
  unfold streamArg at ho ⊢
  simp only [cmdVinDesc, clean_free hc, reading_eq hc, hx, ho, hn, Bool.true_eq_false, if_false, if_true]
  rfl

theorem cmdSrcDesc_withdraws (hc : m.1.clean a[1].toNat 48 = true)
    (hx : parseSourceDesc (m.1.loftBytes a[1].toNat 48) = some none) : cmdSrcDesc m h a =
      (m.1.scheduled h m.1.runResult (.srcDesc (sourceArg a[0]) none)).also fun d => d.loftTouch a[1].toNat 48 := by
  simp only [cmdSrcDesc, clean_free hc, reading_eq hc, hx, Bool.true_eq_false, if_false]
  rfl

theorem cmdSrcDesc_takes {x : SourceDesc} (hc : m.1.clean a[1].toNat 48 = true)
    (hx : parseSourceDesc (m.1.loftBytes a[1].toNat 48) = some (some x)) (ho : m.1.sourceOk x = true) : cmdSrcDesc m h a =
      (m.1.scheduled h m.1.runResult (.srcDesc (sourceArg a[0]) (some x))).also fun d => d.loftTouch a[1].toNat 48 := by
  simp only [cmdSrcDesc, clean_free hc, reading_eq hc, hx, ho, Bool.true_eq_false, if_false, if_true]
  rfl

theorem cmdSrcCommit_described (hm : (slice a[0] 0 16 : BitVec 16) ≠ 0)
    (hd : ∀ i ∈ bitsOf (slice a[0] 0 16 : BitVec 16), m.1.sourceDescs i ≠ []) :
    cmdSrcCommit m h a = m.1.scheduled h m.1.runResult (.srcCommit (slice a[0] 0 16)) := by
  have described : ¬ ((bitsOf (slice a[0] 0 16 : BitVec 16)).any fun i => (m.1.sourceDescs i).isEmpty) = true := by
    rw [List.any_eq_true]
    rintro ⟨i, hi, he⟩
    exact hd i hi (List.isEmpty_iff.mp he)
  unfold cmdSrcCommit
  exact (if_neg hm).trans (if_neg described)

theorem cmdTmodeSelect_fits (hr : m.1.slotRefused (slotArg a[0]) = false) :
    cmdTmodeSelect m h a = m.1.scheduled h m.1.runResult (.tmodeSelect (slotArg a[0])) := if_neg (ne_true_of_eq_false hr)

theorem cmdFrameCommit_frame (hf : a[0] = 0x01400000 ∨ a[0] = 0x01600000) : cmdFrameCommit m h a =
    m.1.deferred (m.1.recordCommit (BitVec.ofNat 8 h.ring.val) h.tag (a[0] == 0x01600000)).commitStatus
      fun d => d.recordCommit (BitVec.ofNat 8 h.ring.val) h.tag (a[0] == 0x01600000) := if_pos hf

/-- A calibration run asked for by a command (14 R424, R425). -/
def calAsk (h : CmdHdr) (a : Args) : CalAsk :=
  { steps := (slice a[1] 0 16 : BitVec 16) ++ a[0], trigger := 2, cmd := some (BitVec.ofNat 8 h.ring.val, h.tag) }

theorem cmdCalRun_steps (hs : (slice a[1] 0 16 : BitVec 16) ++ a[0] ≠ 0) : cmdCalRun m h a =
    m.1.deferred m.1.trim.count fun d => { d with trim := { d.trim with queued := d.trim.queued ++ [calAsk h a] } } :=
  if_neg hs

theorem cmdZonesetSelect_forwards (hl : m.1.gbl.lost = 0) : cmdZonesetSelect m h a =
    (m.1.scheduled h (m.1.nextTickFrame.setWidth 32) (.zonesetSelect (slice a[0] 0 3))).forwarded :=
  if_neg (not_not_intro hl)

theorem cmdZonesetSelect_lost (hl : m.1.gbl.lost ≠ 0) : cmdZonesetSelect m h a = CmdOut.gableLost := if_pos hl

theorem cmdSafeHoldReset_forwards (hl : m.1.gbl.lost = 0) : cmdSafeHoldReset m h a =
    (m.1.deferred (BitVec.ofNat 32 (m.1.now + 10000000)) fun d =>
      { d with gbl := { d.gbl with resetWindow := some (m.1.now + 10000000) } }).forwarded :=
  if_neg (not_not_intro hl)

theorem cmdSafeHoldReset_lost (hl : m.1.gbl.lost ≠ 0) : cmdSafeHoldReset m h a = CmdOut.gableLost := if_pos hl

theorem cmdTwinYield_healthy (hr : m.1.sys.role = 0) (ht : m.1.roof.twin = true) (hp : m.1.roof.peerOk = true)
    (hh : m.1.roof.peerHealth ≠ 0) : cmdTwinYield m h a = m.1.scheduled h (m.1.nextLat.setWidth 32) .twinYield := by
  have manager : ¬ (m.1.sys.role ≠ 0 ∨ m.1.roof.twin = false) := by simp [hr, ht]
  have healthy : ¬ (m.1.roof.peerOk = false ∨ m.1.roof.peerHealth = 0) := by simpa [hp] using hh
  unfold cmdTwinYield
  exact (if_neg manager).trans (if_neg healthy)

end

/-- A command that the Truss forwards triggers the Gable at its fetch, and is answered with TPEND.GABLE (03 R81, 04 R129). -/
theorem next_forwards {s : State} {h : CmdHdr} {op : Byte} {a : Args} {f : CmdBody} {st r0 r1 e}
    (hs : s.serves h op a = true) (hf : f (s.dev.noteServed h.ring, s.otp) h a = (CmdOut.answer st r0 r1 e).forwarded) :
    (Host.Outcome.next (s.chip fun m => m.command h op a f) : Host.Outcome State Fault Refusal) =
      .next (s.any fun d => (e (((d.noteServed h.ring).triggerG 5).complete h op st r0 r1)).trussPend 5) := by
  simp only [State.chip, command_serves f hs, hf]
  rfl

/-- Settles O29, by what each command's own tests come to. -/
theorem pictureCommandsAreDeferred : Obligations.PictureCommandsAreDeferred := by
  intro s h a d answer asked at' eff
  refine ⟨fun x hs hc hx ho => ⟨fun hn => ?_, fun hn => ?_⟩, fun hs hc => ⟨fun hx => ?_, fun x hx ho => ?_⟩,
    fun hs hm hd => ?_, fun hs hr => ?_, fun hs hf => ?_, fun hs hn => ?_, fun hs hl => ?_, fun hs hl => ?_,
    fun hl => ⟨fun hs => ?_, fun hs => ?_⟩, fun hs hr ht hp hh => ?_⟩
  · exact next_answers_read hs (cmdVinDesc_takes hc hx ho hn) (also_touch_pre hc rfl) rfl rfl
  · exact next_answers_read hs (cmdVinDesc_off hc hx ho hn) (also_touch_pre hc rfl) rfl rfl
  · exact next_answers_read hs (cmdSrcDesc_withdraws hc hx) (also_touch_pre hc rfl) rfl rfl
  · exact next_answers_read hs (cmdSrcDesc_takes hc hx ho) (also_touch_pre hc rfl) rfl rfl
  · exact next_answers hs (cmdSrcCommit_described hm hd)
  · exact next_answers hs (cmdTmodeSelect_fits hr)
  · have status := Dev.recordCommit_status (d := s.dev) (t := s.dev.noteServed h.ring) rfl (BitVec.ofNat 8 h.ring.val) h.tag
      (a[0] == 0x01600000)
    have committed := next_answers hs (cmdFrameCommit_frame hf)
    rw [status] at committed
    exact committed
  · exact next_answers hs (cmdCalRun_steps hn)
  · exact next_forwards hs (cmdZonesetSelect_forwards hl)
  · exact next_forwards hs (cmdSafeHoldReset_forwards hl)
  · exact next_answers hs (cmdZonesetSelect_lost hl)
  · exact next_answers hs (cmdSafeHoldReset_lost hl)
  · exact next_answers hs (cmdTwinYield_healthy hr ht hp hh)

end Sys2Proof.Machine
end

section
/-! PROOF. Long commands (03 R78, R83): what starts one at its fetch, and how the end of its work completes it. -/

namespace Sys2Proof.Machine

open Sys2Proof

/-- A served command that goes on after its fetch is in service on its ring. -/
theorem next_startsLong {s : State} {h : CmdHdr} {op : Byte} {a : Args} {f : CmdBody} {e}
    (hs : s.serves h op a = true) (hf : f (s.dev.noteServed h.ring, s.otp) h a = CmdOut.long e) :
    (Host.Outcome.next (s.chip fun m => m.command h op a f) : Host.Outcome State Fault Refusal) =
      .next (s.startsLong h op a e) :=
  congrArg Host.Outcome.next (starts_of hs hf)

/-! ### At the fetch -/

section
variable {m : Chip} {h : CmdHdr} {a : Args}

theorem cmdImageLoad_starts (ha : a[1] ≠ 0) : cmdImageLoad m h a = .long id := if_neg ha

theorem cmdSafetyLoad_starts (ha : a[1] ≠ 0) : cmdSafetyLoad m h a = .long fun d => d.triggerG 5 := if_neg ha

theorem cmdSafetyChange_starts (ha : a[1] ≠ 0) : cmdSafetyChange m h a = .long fun d =>
    let g := d.triggerG 5
    { g with gbl := { g.gbl with logArea := if loftFree a[3].toNat 128 then some a[3].toNat else none } } := if_neg ha

theorem cmdInject_starts (hb : (slice a[0] 0 10).toNat < 55)
    (hi : m.1.injInstances (slice a[0] 0 10).toNat m.1.inj.target ≠ [])
    (hd : a[1].getLsbD 0 = true → dryBit (slice a[0] 0 10).toNat = true) (hbusy : m.1.inj.busy = false) :
    cmdInject m h a = .long fun d => d.injStart (slice a[0] 0 10).toNat (a[1].getLsbD 0) .command (some h) := by
  have applicable : ¬ (55 ≤ (slice a[0] 0 10).toNat ∨
      (m.1.injInstances (slice a[0] 0 10).toNat m.1.inj.target).isEmpty = true ∨
      (a[1].getLsbD 0 = true ∧ dryBit (slice a[0] 0 10).toNat = false)) := by
    rintro (h1 | h1 | ⟨h1, h2⟩)
    · omega
    · exact hi (List.isEmpty_iff.mp h1)
    · exact Bool.false_ne_true (h2.symm.trans (hd h1))
  unfold cmdInject
  exact (if_neg applicable).trans (if_neg (ne_true_of_eq_false hbusy))

theorem cmdRoofReenum_starts (hr : m.1.sys.role ≠ 2) (hk : slice a[0] 0 3 ≠ 0)
    (hl : (m.1.workerAt (slice a[0] 0 3)).lit = false) (hn : m.1.roof.reenum = none) :
    cmdRoofReenum m h a = .long fun d => d.reenumStart h (slice a[0] 0 3) := by
  unfold cmdRoofReenum
  refine (if_neg (not_or.mpr ⟨hr, hk⟩)).trans ((if_neg (ne_true_of_eq_false hl)).trans ?_)
  simp only [hn]

end

/-! ### At the end of the work -/

/-- The end of a long command's work writes its completion, by what the rest of it comes to. -/
theorem exec_longCommandComplete {s : State} {n : Fin 24} {c : LongCommand} {f : CmdBody} {x : CmdOut}
    {st r0 r1} {e : Dev → Dev} (hup : s.dev.coreUp = true) (ht : s.dev.trussServes = true)
    (hc : s.dev.rings[n].inService = some c) (hf : longEnd c.opcode = some f) (hx : f (s.dev, s.otp) c.hdr c.args = x)
    (hpre : x.pre s.dev = s.dev) (hy : x.ans = some ⟨st, r0, r1⟩) (he : x.eff = fun m => (e m.1, m.2)) :
    exec (.longCommandComplete n) s = .next (s.any fun d => e (d.finishLong c.hdr c.opcode st r0 r1)) := by
  change Host.Outcome.next (s.chipUp fun m => m.longComplete n) = _
  rw [State.chipUp_up s _ hup, State.chip, longComplete_of (m := (s.dev, s.otp)) hup ht hc hf hx hy, hpre, he]
  rfl

/-- A P image that passes its checks is loaded under the lowest free handle (03 R80, 04 R131). -/
theorem imageLoadEnd_accepts {m : Chip} {h : CmdHdr} {a : Args} {k : Fin 64} (hp : slice a[2] 0 2 = 1)
    (hc : m.1.clean a[0].toNat a[1].toNat = true) (hr : m.1.inRegion [2] (a[0].toNat, a[1].toNat) = true)
    (hi : imageCheck (m.1.loftBytes a[0].toNat a[1].toNat) a[0].toNat a[1].toNat 1 = none)
    (ha : imageAuth m.2 m.1.gbl.cfg (m.1.loftBytes a[0].toNat a[1].toNat) 1 = 0) (hk : m.1.freeHandle = some k) :
    imageLoadEnd m h a =
      (CmdOut.ok (BitVec.ofNat 32 (k.val + 1)) 0 fun d => (d.noteCheck none 1).imageAccepted
        (m.1.loftBytes a[0].toNat a[1].toNat) a[0].toNat 1 k).also fun d => d.loftTouch a[0].toNat a[1].toNat := by
  have hp' : (slice a[2] 0 2).toNat = 1 := by rw [hp]; rfl
  simp only [imageLoadEnd, hp', clean_free hc, hr, clean_ue hc, reading_eq hc, hi, hk, ha]
  simp

theorem safetyLoadTests_lost {m : Chip} {h : CmdHdr} {a : Args} (hl : m.1.gbl.lost ≠ 0) :
    safetyLoadTests m h a = CmdOut.gableLost := if_pos hl

theorem safetyChangeTests_lost {m : Chip} {h : CmdHdr} {a : Args} (hl : m.1.gbl.lost ≠ 0) :
    safetyChangeTests m h a = CmdOut.gableLost := if_pos hl

theorem safetyLoadTests_passes {m : Chip} {h : CmdHdr} {a : Args} (hl : m.1.gbl.lost = 0)
    (hb : m.1.clean a[0].toNat a[1].toNat = true) (he : m.1.clean a[2].toNat 128 = true)
    (ht : m.1.safetyTests (m.1.loftBytes a[0].toNat a[1].toNat) (m.1.loftBytes a[2].toNat 128) m.2.counter.toNat = .pass) :
    safetyLoadTests m h a =
      ((CmdOut.ok (m.2.counter.setWidth 32) 0 fun d => (d.applyConfig (m.1.loftBytes a[0].toNat a[1].toNat)
          (m.1.loftBytes a[2].toNat 128)).configLoaded m.2.counter.toNat).also
        fun d => d.loftTouch a[2].toNat 128).also fun d => d.loftTouch a[0].toNat a[1].toNat := by
  simp only [safetyLoadTests, hl, clean_free hb, clean_free he, reading_eq hb, reading_eq he, ht]
  simp

/-- The end of a command that the Gable answers (03 R81), by what its own tests come to. -/
theorem exec_longCommandComplete_gable {s : State} {n : Fin 24} {c : LongCommand} {f : CmdBody} {x : CmdOut}
    {st r0 r1} {e : Dev → Dev} (hup : s.dev.coreUp = true) (ht : s.dev.trussServes = true)
    (hc : s.dev.rings[n].inService = some c) (hf : longEnd c.opcode = some (answeredByGable f))
    (hx : f (s.dev, s.otp) c.hdr c.args = x) (hpre : x.pre s.dev = s.dev) (hy : x.ans = some ⟨st, r0, r1⟩)
    (he : x.eff = fun m => (e m.1, m.2)) : exec (.longCommandComplete n) s =
      .next (s.any fun d => (e (d.finishLong c.hdr c.opcode st r0 r1)).safetyAnswered) := by
  subst hx
  refine exec_longCommandComplete (e := fun d => (e d).safetyAnswered) hup ht hc hf rfl hpre hy ?_
  simp only [answeredByGable, he]

/-- Settles O30, by what starts each command and what its end comes to. -/
theorem longCommands : Obligations.LongCommands := by
  intro s h a d
  refine ⟨fun t hs ht hp hf hm hr => next_startsLong hs (cmdModeRequest_atLat ht hp hf hm hr),
    fun hs ha => next_startsLong hs (cmdImageLoad_starts ha), fun hs ha => next_startsLong hs (cmdSafetyLoad_starts ha),
    fun hs ha => next_startsLong hs (cmdSafetyChange_starts ha),
    fun hs hb hi hd hbusy => next_startsLong hs (cmdInject_starts hb hi hd hbusy),
    fun hs hr hk hl hn => next_startsLong hs (cmdRoofReenum_starts hr hk hl hn),
    fun n c k hup ht hin => ⟨fun hop hp hc hr hi ha hk => ?_, fun hop hl => ?_, fun hop hl hb he hpass => ?_⟩⟩
  · have ended := exec_longCommandComplete (e := fun x => (x.noteCheck none 1).imageAccepted _ _ 1 k) hup ht hin
      (by rw [hop]; rfl) (imageLoadEnd_accepts hp hc hr hi ha hk) (also_touch_pre hc rfl) rfl rfl
    rw [hop] at ended
    exact ended
  · rcases hop with hop | hop
    · exact exec_longCommandComplete_gable (e := Dev.gableLostEvent) hup ht hin (by rw [hop]; rfl)
        (safetyLoadTests_lost hl) rfl rfl rfl
    · exact exec_longCommandComplete_gable (e := Dev.gableLostEvent) hup ht hin (by rw [hop]; rfl)
        (safetyChangeTests_lost hl) rfl rfl rfl
  · have ended := exec_longCommandComplete_gable (e := fun x => (x.applyConfig _ _).configLoaded _) hup ht hin
      (by rw [hop]; rfl) (safetyLoadTests_passes hl hb he hpass) (also_touch_pre hb (also_touch_pre he rfl)) rfl rfl
    rw [hop] at ended
    exact ended

end Sys2Proof.Machine
end

section
/-! PROOF. The record of the rings served last (03 R79) plays no part in what contexts and engines do: every operation on them
(06 R161 to R192) commutes with a change of that record alone. -/

namespace Sys2Proof.Machine

open Sys2Proof

/-- The device with another record of the rings served last. -/
def Dev.servedAs (d : Dev) (v : Vector (Fin 24) 4) : Dev := { d with served := v }

namespace Dev

section
variable {v : Vector (Fin 24) 4} {d t u t' u' : Dev}

/-- A choice of two devices, each with the other record. -/
theorem ite_servedAs {p : Prop} [Decidable p] (ht : t' = t.servedAs v) (hu : u' = u.servedAs v) :
    (if p then t' else u') = (if p then t else u).servedAs v := by
  split
  · exact ht
  · exact hu

/-- Steps one after another, each of which commutes with the change of record. -/
theorem foldl_servedAs {α : Type} {f : Dev → α → Dev} (hf : ∀ d x, f (d.servedAs v) x = (f d x).servedAs v) (l : List α)
    (d : Dev) : l.foldl f (d.servedAs v) = (l.foldl f d).servedAs v :=
  List.foldl_hom (fun d : Dev => d.servedAs v) (fun d x => hf d x)

end

section
variable (d : Dev) (v : Vector (Fin 24) 4)

@[simp] theorem servedAs_loft : (d.servedAs v).loft = d.loft := rfl
@[simp] theorem servedAs_effects : (d.servedAs v).effects = d.effects := rfl
@[simp] theorem servedAs_course : (d.servedAs v).course = d.course := rfl
@[simp] theorem servedAs_scan : (d.servedAs v).scan = d.scan := rfl
@[simp] theorem servedAs_ctxAt (c : Fin 64) : (d.servedAs v).ctxAt c = d.ctxAt c := rfl
@[simp] theorem servedAs_engAt (e : Fin 8) : (d.servedAs v).engAt e = d.engAt e := rfl
@[simp] theorem servedAs_maskAt (c : Fin 64) : (d.servedAs v).maskAt c = d.maskAt c := rfl

@[simp] theorem onCtx_servedAs (c : Fin 64) (f : Context → Context) : (d.servedAs v).onCtx c f = (d.onCtx c f).servedAs v := rfl
@[simp] theorem onEng_servedAs (e : Fin 8) (f : Engine → Engine) : (d.servedAs v).onEng e f = (d.onEng e f).servedAs v := rfl

/-! ### Notices (03 R75, R88, 02 R57) -/

theorem noteWrite_servedAs (n : Nat) : (d.servedAs v).noteWrite n = (d.noteWrite n).servedAs v := by
  unfold noteWrite
  exact ite_servedAs rfl rfl

theorem putEntry_servedAs (n : Nat) (e : List Byte) : (d.servedAs v).putEntry n e = (d.putEntry n e).servedAs v := by
  unfold putEntry
  refine ite_servedAs (ite_servedAs ?_ rfl) rfl
  exact noteWrite_servedAs ((d.loftPut _ e).ring n _) v n

theorem routeEntry_servedAs (dest : List Nat) (routed : Bool) (e : List Byte) :
    (d.servedAs v).routeEntry dest routed e = (d.routeEntry dest routed e).servedAs v := by
  have put : dest.foldl (fun d m => d.putEntry m e) (d.servedAs v) = (dest.foldl (fun d m => d.putEntry m e) d).servedAs v :=
    foldl_servedAs (fun d m => putEntry_servedAs d v m e) dest d
  unfold routeEntry
  rw [put]
  generalize dest.foldl (fun d m => d.putEntry m e) d = x
  cases routed
  · exact ite_servedAs rfl rfl
  · exact ite_servedAs rfl rfl

theorem reportDrops_servedAs : (d.servedAs v).reportDrops = d.reportDrops.servedAs v := by
  unfold reportDrops
  refine .trans ?_ (foldl_servedAs (fun d _ => routeEntry_servedAs d v _ _ _) _ _)
  refine congrArg (List.foldl _ · _) (.trans ?_ (foldl_servedAs (fun d _ => putEntry_servedAs d v _ _) _ _))
  exact congrArg (List.foldl _ · _) (foldl_servedAs (fun _ _ => rfl) _ d)

theorem event_servedAs (code : BitVec 16) (p : BitVec 64) : (d.servedAs v).event code p = (d.event code p).servedAs v := by
  unfold event
  rw [reportDrops_servedAs]
  exact routeEntry_servedAs _ v _ _ _

theorem correctCe_servedAs (w : Nat) : (d.servedAs v).correctCe w = (d.correctCe w).servedAs v := by
  have told (l : Loft) (p : BitVec 64) : ({ d.servedAs v with loft := l } : Dev).event 0x0110 p =
      (({ d with loft := l } : Dev).event 0x0110 p).servedAs v := event_servedAs { d with loft := l } v _ p
  unfold correctCe
  simp only [servedAs_loft]
  split
  · exact told _ _
  · exact ite_servedAs (told _ _) rfl

theorem loftWrite_servedAs (a : Nat) (bs : List Byte) : (d.servedAs v).loftWrite a bs = (d.loftWrite a bs).servedAs v := by
  unfold loftWrite
  exact congrArg (Dev.loftPut · a bs) (foldl_servedAs (fun d w => correctCe_servedAs d v w) _ d)

/-! ### What is read of contexts, groups and engines (06 R163 to R168) -/

theorem linkMask_servedAs (cs : List (Fin 64)) (n : Nat) (m : BitVec 256) :
    linkMask (d.servedAs v) cs n m = linkMask d cs n m := by
  induction n generalizing m with
  | zero => rfl
  | succ n ih => exact ih _

theorem linked_servedAs (m : BitVec 256) (c : Fin 64) : (d.servedAs v).linked m c = d.linked m c :=
  congrArg (fun u => (d.placed.filter (· != c)).filter fun x => d.maskAt x &&& u != 0) (linkMask_servedAs d v _ _ _)

theorem groupOf_servedAs (c : Fin 64) : (d.servedAs v).groupOf c = d.groupOf c :=
  congrArg (fun l : List (Fin 64) => ctxIds.filter fun x => x == c || l.contains x) (linked_servedAs d v _ c)

theorem placing_servedAs (m : BitVec 256) (c : Fin 64) : (d.servedAs v).placing m c = d.placing m c := by
  unfold placing
  rw [linked_servedAs]
  rfl

theorem firstFree_servedAs (e : Fin 8) : (d.servedAs v).firstFree e = d.firstFree e := rfl
theorem rankHolder_servedAs (r : BitVec 6) (c : Fin 64) : (d.servedAs v).rankHolder r c = d.rankHolder r c := rfl

theorem placeSplits_servedAs (c : Fin 64) (m : BitVec 256) : (d.servedAs v).placeSplits c m = d.placeSplits c m := by
  unfold placeSplits
  rw [linked_servedAs]
  rfl

theorem noSlot_servedAs (m : BitVec 256) (c : Fin 64) : (d.servedAs v).noSlot m c = d.noSlot m c := by
  unfold noSlot
  rw [placing_servedAs]
  rfl

theorem cannotApply_servedAs (x : EffectOp) : (d.servedAs v).cannotApply x = d.cannotApply x := by
  cases x <;> simp only [cannotApply, servedAs_ctxAt, servedAs_engAt, rankHolder_servedAs, noSlot_servedAs,
    placeSplits_servedAs, groupOf_servedAs]

/-! ### Slots and states of contexts (06 R165 to R169) -/

theorem takeSlot_servedAs (c : Fin 64) (e : Fin 8) : (d.servedAs v).takeSlot c e = (d.takeSlot c e).servedAs v := by
  unfold takeSlot
  rw [firstFree_servedAs]
  split <;> rfl

theorem freeOld_servedAs (c : Fin 64) : (d.servedAs v).freeOld c = (d.freeOld c).servedAs v := by
  unfold freeOld
  rw [servedAs_ctxAt]
  split <;> rfl

theorem storeMem_servedAs (c : Fin 64) : (d.servedAs v).storeMem c = d.storeMem c := rfl

theorem releaseSlot_servedAs (c : Fin 64) (save : Bool) :
    (d.servedAs v).releaseSlot c save = (d.releaseSlot c save).servedAs v := by
  have freed (x : Dev) : ((x.servedAs v).freeOld c).freeSlot (d.ctxAt c).engine (d.ctxAt c).slot =
      ((x.freeOld c).freeSlot (d.ctxAt c).engine (d.ctxAt c).slot).servedAs v :=
    congrArg (Dev.freeSlot · _ _) (freeOld_servedAs x v c)
  unfold releaseSlot
  refine ite_servedAs ?_ rfl
  rw [storeMem_servedAs, servedAs_ctxAt]
  refine congrArg (Dev.onCtx · c _) (.trans ?_ (freed _))
  refine congrArg (fun x => (Dev.freeOld x c).freeSlot _ _) ?_
  split
  · exact ite_servedAs (loftWrite_servedAs d v _ _) rfl
  · rfl

theorem suspendCtx_servedAs (c : Fin 64) (cause : BitVec 4) (frame : BitVec 16) :
    (d.servedAs v).suspendCtx c cause frame = (d.suspendCtx c cause frame).servedAs v := by
  unfold suspendCtx
  rw [releaseSlot_servedAs]
  exact event_servedAs ((d.releaseSlot c true).onCtx c _) v _ _

theorem moveCtx_servedAs (c : Fin 64) (e : Fin 8) (frame : BitVec 16) (moving : Bool) :
    (d.servedAs v).moveCtx c e frame moving = (d.moveCtx c e frame moving).servedAs v := by
  unfold moveCtx
  refine congrArg (Dev.onCtx · c _) (.trans ?_ (takeSlot_servedAs _ v c e))
  exact congrArg (Dev.takeSlot · c e) (ite_servedAs rfl rfl)

/-! ### Runs and invocations (05 R156, 06 R171, R172) -/

theorem onRun_servedAs (frame : BitVec 16) (f : Run → Run) : (d.servedAs v).onRun frame f = (d.onRun frame f).servedAs v :=
  ite_servedAs rfl rfl

theorem invPlace_servedAs (e : Fin 8) (r : Run) (x : RunContext) : (d.servedAs v).invPlace e r x = d.invPlace e r x := rfl

theorem advanceN_servedAs (e : Fin 8) (n : Nat) : (d.servedAs v).advanceN e n = (d.advanceN e n).servedAs v := by
  induction n generalizing d with
  | zero => rfl
  | succ n ih =>
    unfold advanceN
    simp only [servedAs_engAt, servedAs_course]
    split
    next => rfl
    next w _ =>
      refine ite_servedAs rfl ?_
      split
      next => rfl
      next r _ =>
        split
        next x rest _ =>
          refine ite_servedAs (ih (d.onEng e _)) ?_
          rw [invPlace_servedAs]
          split
          · rfl
          · rfl
        next =>
          refine ite_servedAs rfl ?_
          split
          · rfl
          · exact congrArg (Dev.onEng · e _) (onRun_servedAs d v _ _)

theorem advanceAll_servedAs : (d.servedAs v).advanceAll = d.advanceAll.servedAs v :=
  foldl_servedAs (fun d e => advanceN_servedAs d v e 66) _ d

/-! ### Migrations (06 R188 to R192) -/

theorem migrateAbortEvent_servedAs (c : Fin 64) (cause : Nat) (frame : BitVec 16) :
    (d.servedAs v).migrateAbortEvent c cause frame = (d.migrateAbortEvent c cause frame).servedAs v := event_servedAs d v _ _

theorem abortMove_servedAs (c : Fin 64) (cause : Nat) : (d.servedAs v).abortMove c cause = (d.abortMove c cause).servedAs v := by
  unfold abortMove
  refine ite_servedAs rfl ?_
  refine .trans (congrArg (Dev.migrateAbortEvent · c cause _) ?_) (migrateAbortEvent_servedAs _ v c cause _)
  rw [servedAs_ctxAt]
  split
  · exact ite_servedAs rfl rfl
  · rfl

theorem takeBack_servedAs (c : Fin 64) (epoch : Byte) (run : BitVec 16) :
    (d.servedAs v).takeBack c epoch run = (d.takeBack c epoch run).servedAs v := by
  unfold takeBack
  simp only [onCtx_servedAs, servedAs_ctxAt, placing_servedAs]
  refine ite_servedAs ?_ rfl
  split
  · exact ite_servedAs rfl (moveCtx_servedAs _ v _ _ _ _)
  · exact ite_servedAs rfl (suspendCtx_servedAs _ v _ _ _)

theorem dropTarget_servedAs (c : Fin 64) (m : Migration) : (d.servedAs v).dropTarget c m = (d.dropTarget c m).servedAs v := by
  have dropped (x : Dev) : (if m.decided then (x.servedAs v).onRun m.frame fun r => { r with excluded := c :: r.excluded }
      else x.servedAs v) = (if m.decided then x.onRun m.frame fun r => { r with excluded := c :: r.excluded } else x).servedAs v :=
    ite_servedAs (onRun_servedAs x v _ _) rfl
  have freed (x : Context) : (if !m.ls then d.servedAs v else if m.decided then (d.servedAs v).freeSlot x.engine x.slot
      else (d.servedAs v).freeSlot m.engine m.slot) = (if !m.ls then d else if m.decided then d.freeSlot x.engine x.slot
      else d.freeSlot m.engine m.slot).servedAs v := ite_servedAs rfl (ite_servedAs rfl rfl)
  unfold dropTarget
  simp only [servedAs_ctxAt, freed, onCtx_servedAs, dropped, advanceAll_servedAs]

theorem abortMigration_servedAs (c : Fin 64) (cause : Nat) (run : BitVec 16) :
    (d.servedAs v).abortMigration c cause run = (d.abortMigration c cause run).servedAs v := by
  unfold abortMigration
  rw [servedAs_ctxAt]
  split
  next => rfl
  next m _ =>
    refine .trans (congrArg (Dev.migrateAbortEvent · c cause _) ?_) (migrateAbortEvent_servedAs _ v c cause _)
    exact ite_servedAs (dropTarget_servedAs (d.onCtx c _) v c m) (ite_servedAs (takeBack_servedAs (d.onCtx c _) v c _ _) rfl)

/-! ### Engines retired (06 R182 to R185) -/

theorem byRank_servedAs (cs : List (Fin 64)) (high : Bool) : (d.servedAs v).byRank cs high = d.byRank cs high := rfl

theorem groupIn_servedAs (cs : List (Fin 64)) (c : Fin 64) : (d.servedAs v).groupIn cs c = d.groupIn cs c :=
  congrArg (fun u => cs.filter fun x => x == c || d.maskAt x &&& u != 0) (linkMask_servedAs d v cs 63 (d.maskAt c))

theorem groupsOf_servedAs (n : Nat) (cs : List (Fin 64)) : (d.servedAs v).groupsOf n cs = d.groupsOf n cs := by
  induction n generalizing cs with
  | zero => rfl
  | succ n ih => simp only [groupsOf, byRank_servedAs, groupIn_servedAs, ih]

theorem replan_servedAs (free : List (Fin 8 × Nat)) (n : Nat) (cs : List (Fin 64)) :
    (d.servedAs v).replan free n cs = d.replan free n cs := by
  induction n generalizing cs with
  | zero => rfl
  | succ n ih => simp only [replan, groupsOf_servedAs, byRank_servedAs, ih]

theorem requeueOwn_servedAs (e : Fin 8) : (d.servedAs v).requeueOwn e = (d.requeueOwn e).servedAs v :=
  foldl_servedAs (fun d _ => onRun_servedAs d v _ _) _ d

theorem abortWaiting_servedAs (e : Fin 8) : (d.servedAs v).abortWaiting e = (d.abortWaiting e).servedAs v := by
  have dropped (l : List Effect) (x : Dev) : l.foldl (fun d x => match x.op with
      | .ctxMigrate c _ s => d.migrateAbortEvent c 5 s
      | _ => d) (x.servedAs v) = (l.foldl (fun d x => match x.op with
      | .ctxMigrate c _ s => d.migrateAbortEvent c 5 s
      | _ => d) x).servedAs v := by
    refine foldl_servedAs (fun d x => ?_) l x
    split
    · exact migrateAbortEvent_servedAs d v _ _ _
    · rfl
  exact dropped _ { d with effects := _ }

theorem movingOn_servedAs (e : Fin 8) : (d.servedAs v).movingOn e = d.movingOn e := rfl
theorem reservedOn_servedAs (e : Fin 8) : (d.servedAs v).reservedOn e = d.reservedOn e := rfl
theorem homedOn_servedAs (e : Fin 8) : (d.servedAs v).homedOn e = d.homedOn e := rfl

theorem retireEngine_servedAs (e : Fin 8) (svc fcause : BitVec 2) (frame : BitVec 16) :
    (d.servedAs v).retireEngine e svc fcause frame = (d.retireEngine e svc fcause frame).servedAs v := by
  have waited : (if svc = 2 then (d.servedAs v).abortWaiting e else d.servedAs v) =
      (if svc = 2 then d.abortWaiting e else d).servedAs v := ite_servedAs (abortWaiting_servedAs d v e) rfl
  have moves := foldl_servedAs (v := v) (f := fun d c => Dev.abortMove d c 5) fun d c => abortMove_servedAs d v c 5
  have migrations := foldl_servedAs (v := v) (f := fun d c => Dev.abortMigration d c 5 frame) fun d c =>
    abortMigration_servedAs d v c 5 frame
  have suspended := foldl_servedAs (v := v) (f := fun d c =>
    (Dev.onRun d d.course.run.frame fun r => { r with excluded := c :: r.excluded }).suspendCtx c 3 frame) fun d c =>
      .trans (congrArg (Dev.suspendCtx · c 3 frame) (onRun_servedAs d v _ _)) (suspendCtx_servedAs _ v c 3 frame)
  have moved := foldl_servedAs (v := v) (f := fun d (x : Fin 64 × Fin 8) => Dev.moveCtx d x.1 x.2 frame false) fun d x =>
    moveCtx_servedAs d v x.1 x.2 frame false
  unfold retireEngine
  simp only [waited, movingOn_servedAs, moves, reservedOn_servedAs, migrations, onEng_servedAs, homedOn_servedAs,
    servedAs_engAt, replan_servedAs, suspended, moved, requeueOwn_servedAs, event_servedAs]

/-! ### Effects at a patch-run start (03 R84, 06 R178) -/

theorem applyBind_servedAs (c : Fin 64) (handle : BitVec 7) (entry src : Word) (mask : BitVec 256) (params : BitVec 2048)
    (rank : BitVec 6) (ls : Bool) : (d.servedAs v).applyBind c handle entry src mask params rank ls =
      (d.applyBind c handle entry src mask params rank ls).servedAs v := by
  unfold applyBind
  refine ite_servedAs (ite_servedAs ?_ rfl) rfl
  rw [onCtx_servedAs, placing_servedAs]
  split
  · exact takeSlot_servedAs _ v c _
  · rfl

theorem applyPlace_servedAs (c : Fin 64) (mask : BitVec 256) (rank : BitVec 6) (frame : BitVec 16) :
    (d.servedAs v).applyPlace c mask rank frame = (d.applyPlace c mask rank frame).servedAs v := by
  unfold applyPlace
  refine ite_servedAs ?_ rfl
  rw [rankHolder_servedAs]
  simp only
  split
  · rfl
  · exact event_servedAs ((d.onCtx c _).onCtx _ _) v _ _

theorem applySuspend_servedAs (c : Fin 64) (frame : BitVec 16) :
    (d.servedAs v).applySuspend c frame = (d.applySuspend c frame).servedAs v :=
  ite_servedAs (suspendCtx_servedAs d v _ _ _) rfl

theorem applyResume_servedAs (c : Fin 64) (frame : BitVec 16) :
    (d.servedAs v).applyResume c frame = (d.applyResume c frame).servedAs v := by
  unfold applyResume
  refine ite_servedAs (ite_servedAs ?_ rfl) rfl
  rw [placing_servedAs, servedAs_ctxAt]
  split
  · exact moveCtx_servedAs d v _ _ _ _
  · rfl

theorem applyRetire_servedAs (c : Fin 64) : (d.servedAs v).applyRetire c = (d.applyRetire c).servedAs v :=
  ite_servedAs (congrArg (Dev.onCtx · c _) (releaseSlot_servedAs d v c false)) rfl

theorem applyMigrate_servedAs (c : Fin 64) (e : Fin 8) (frame : BitVec 16) :
    (d.servedAs v).applyMigrate c e frame = (d.applyMigrate c e frame).servedAs v := by
  unfold applyMigrate
  rw [groupOf_servedAs]
  exact ite_servedAs (ite_servedAs (foldl_servedAs (fun d x => moveCtx_servedAs d v x e frame true) _ d)
    (migrateAbortEvent_servedAs d v _ _ _)) rfl

theorem applyRetireEng_servedAs (e : Fin 8) (frame : BitVec 16) :
    (d.servedAs v).applyRetireEng e frame = (d.applyRetireEng e frame).servedAs v :=
  ite_servedAs (retireEngine_servedAs d v _ _ _ _) rfl

theorem applyEffect_servedAs (run : BitVec 16) (e : Effect) :
    (d.servedAs v).applyEffect run e = (d.applyEffect run e).servedAs v := by
  unfold applyEffect
  rw [cannotApply_servedAs]
  refine ite_servedAs (event_servedAs d v _ _) ?_
  cases e.op with
  | ctxBind => exact applyBind_servedAs d v _ _ _ _ _ _ _ _
  | ctxSwap => exact ite_servedAs rfl rfl
  | ctxParam => exact ite_servedAs rfl rfl
  | ctxPlace => exact applyPlace_servedAs d v _ _ _ _
  | ctxSuspend => exact applySuspend_servedAs d v _ _
  | ctxResume => exact applyResume_servedAs d v _ _
  | ctxRetire => exact applyRetire_servedAs d v _
  | ctxMigrate => exact applyMigrate_servedAs d v _ _ _
  | finishSet => rfl
  | engRetire => exact applyRetireEng_servedAs d v _ _
  | engReturn => rfl
  | _ => rfl

/-- What the tests of a command are made against does not depend on the ring it came from. -/
theorem projected_servedAs (op : EffectOp) : (d.servedAs v).projected op = (d.projected op).servedAs v :=
  foldl_servedAs (fun d e => applyEffect_servedAs d v _ e) _ d

end
end Dev
end Sys2Proof.Machine
end

section
/-! PROOF. The commands on contexts, the finish program and engines (06 R161 to R191): what each one's own tests come to where
they pass. -/

namespace Sys2Proof.Machine

open Sys2Proof

/-! ### Tests made in the state that the boundary will find (06 R167, R168) -/

section
variable (d : Dev) (n : Fin 24)

theorem Dev.noteServed_projected (op : EffectOp) :
    (d.noteServed n).projected op = (d.projected op).servedAs (d.noteServed n).served := Dev.projected_servedAs d _ op

theorem Dev.noteServed_slotTest (op : EffectOp) (m : BitVec 256) (c : Fin 64) :
    (d.noteServed n).slotTest op m c = d.slotTest op m c := by
  unfold Dev.slotTest
  simp only [Dev.noteServed_projected, Dev.placing_servedAs]
  rfl

theorem Dev.noteServed_rankTaken (op : EffectOp) (r : BitVec 6) (c : Fin 64) :
    (d.noteServed n).rankTaken op r c = d.rankTaken op r c := by
  unfold Dev.rankTaken
  rw [Dev.noteServed_projected]
  rfl

end

/-! ### The commands' own tests -/

section
variable {m : Chip} {h : CmdHdr} {a : Args} {c k : Fin 64}

/-- A mask in clean Loft that is not zero reaches its command (06 R180). -/
theorem Dev.readingMask_clean {d : Dev} {x : Word} {f : Option (BitVec 256) → CmdOut} (hc : d.clean x.toNat 32 = true)
    (hm : maskOf (d.loftBytes x.toNat 32) ≠ 0) :
    d.readingMask x f = (f (some (maskOf (d.loftBytes x.toNat 32)))).also fun d => d.loftTouch x.toNat 32 := by
  simp only [Dev.readingMask, clean_free hc, if_true, reading_eq hc, hm, if_false]

theorem cmdCtxSwap_still (hc : ctxArg a[0] = some c) (hk : m.1.handleArg a[1] = some k) (hm : m.1.moving c = false) :
    cmdCtxSwap m h a = m.1.scheduled h m.1.runResult (.ctxSwap c (handleOfPlace k) a[2]) := by
  simp only [cmdCtxSwap, hc, hk, hm, Bool.false_eq_true, if_false]

theorem cmdCtxParam_clean (hc : ctxArg a[0] = some c) (hl : m.1.clean a[1].toNat 256 = true)
    (hm : m.1.migrating c = false) : cmdCtxParam m h a =
      (m.1.scheduled h m.1.runResult (.ctxParam c (packBytes 2048 (m.1.loftBytes a[1].toNat 256)))).also
        fun d => d.loftTouch a[1].toNat 256 := by
  simp only [cmdCtxParam, hc, clean_free hl, reading_eq hl, hm, Bool.false_eq_true, if_false, if_true]

theorem ctxOnly_idle (op : Fin 64 → EffectOp) (hc : ctxArg a[0] = some c) (hm : m.1.migrating c = false) :
    ctxOnly op m h a = m.1.scheduled h m.1.runResult (op c) := by
  simp only [ctxOnly, hc, hm, Bool.false_eq_true, if_false]

theorem cmdCtxPlace_fits {mask : BitVec 256} (hc : ctxArg a[0] = some c) (hl : m.1.clean a[1].toNat 32 = true)
    (hx : maskOf (m.1.loftBytes a[1].toNat 32) = mask) (hz : mask ≠ 0)
    (hs : (m.1.projected (.ctxPlace c mask (slice a[2] 0 6))).placeSplits c mask = false) (hr : slice a[2] 0 6 ≠ 63)
    (hm : m.1.migrating c = false) (hn : m.1.rankReserved (slice a[2] 0 6) = none) : cmdCtxPlace m h a =
      (m.1.scheduled h m.1.runResult (.ctxPlace c mask (slice a[2] 0 6))).also fun d => d.loftTouch a[1].toNat 32 := by
  subst hx
  unfold cmdCtxPlace
  simp only [Dev.readingMask_clean hl hz, hc, hs, hr, hm, hn, Bool.false_eq_true, if_false]

theorem cmdCtxResume_slot (hc : ctxArg a[0] = some c) (hm : m.1.migrating c = false)
    (hs : (m.1.ctxAt c).state = .suspended → (m.1.ctxAt c).ls = true →
      m.1.slotTest (.ctxResume c) (m.1.ctxAt c).mask c = .free) :
    cmdCtxResume m h a = m.1.scheduled h m.1.runResult (.ctxResume c) := by
  have slot : (if (m.1.ctxAt c).state = .suspended ∧ (m.1.ctxAt c).ls = true then
      m.1.slotTest (.ctxResume c) (m.1.ctxAt c).mask c else .free) = .free := by
    split
    next hp => exact hs hp.1 hp.2
    next => rfl
  simp only [cmdCtxResume, hc, slot, hm, Bool.false_eq_true, if_false]
  rfl

theorem Dev.migrateHere_fits {d : Dev} {e : Fin 8} (hl : (d.ctxAt c).ls = true)
    (hi : ((d.projected (.ctxMigrate c e d.nextRun)).engAt e).inService = true)
    (ho : ((d.projected (.ctxMigrate c e d.nextRun)).ctxAt c).slotValid = true →
      ((d.projected (.ctxMigrate c e d.nextRun)).ctxAt c).engine ≠ e)
    (hg : ((d.projected (.ctxMigrate c e d.nextRun)).groupOf c).length ≤
      ((d.projected (.ctxMigrate c e d.nextRun)).engAt e).freeSlots) (hm : d.moving c = false) :
    d.migrateHere h c e = d.scheduled h d.runResult (.ctxMigrate c e d.nextRun) := by
  have fits : ¬ ((d.ctxAt c).ls = false ∨ ((d.projected (.ctxMigrate c e d.nextRun)).engAt e).inService = false ∨
      (((d.projected (.ctxMigrate c e d.nextRun)).ctxAt c).slotValid = true ∧
        ((d.projected (.ctxMigrate c e d.nextRun)).ctxAt c).engine = e) ∨
      ((d.projected (.ctxMigrate c e d.nextRun)).engAt e).freeSlots <
        ((d.projected (.ctxMigrate c e d.nextRun)).groupOf c).length) := by
    rintro (h1 | h1 | ⟨h1, h2⟩ | h1)
    · exact Bool.false_ne_true (h1.symm.trans hl)
    · exact Bool.false_ne_true (h1.symm.trans hi)
    · exact ho h1 h2
    · exact Nat.not_lt.mpr hg h1
  unfold Dev.migrateHere
  exact (if_neg fits).trans (if_neg (ne_true_of_eq_false hm))

theorem Dev.migrateAway_announces {d : Dev} {pos : BitVec 3} (hr : d.inRoof = true) (hp : pos ≠ d.roof.position)
    (hw : d.inRoofRange pos = true) (hg : ((d.projected (.ctxMigrate c 0 (d.nextRun + 1))).groupOf c).length ≤ 1)
    (hm : d.moving c = false) : d.migrateAway c pos = d.deferred ((d.nextRun + 1).setWidth 32) fun x =>
      if (x.ctxAt c).live then x.beginMigration c pos (d.nextRun + 1) else x := by
  have allowed : ¬ (d.inRoof = false ∨ pos = d.roof.position ∨ d.inRoofRange pos = false ∨
      1 < ((d.projected (.ctxMigrate c 0 (d.nextRun + 1))).groupOf c).length) := by
    rintro (h1 | h1 | h1 | h1)
    · exact Bool.false_ne_true (h1.symm.trans hr)
    · exact hp h1
    · exact Bool.false_ne_true (h1.symm.trans hw)
    · exact Nat.not_lt.mpr hg h1
  unfold Dev.migrateAway
  exact (if_neg allowed).trans (if_neg (ne_true_of_eq_false hm))

theorem cmdCtxMigrate_here (hc : ctxArg a[0] = some c) (hb : a[1].getLsbD 15 = false) :
    cmdCtxMigrate m h a = m.1.migrateHere h c (engArg a[1]) := by
  simp only [cmdCtxMigrate, hc, hb, Bool.false_eq_true, if_false]
  rfl

theorem cmdCtxMigrate_away (hc : ctxArg a[0] = some c) (hb : a[1].getLsbD 15 = true) :
    cmdCtxMigrate m h a = m.1.migrateAway c (slice a[1] 8 3) := by
  simp only [cmdCtxMigrate, hc, hb, if_true]

theorem cmdFinishSet_clean (hk : m.1.handleArg a[0] = some k) (hl : m.1.clean a[2].toNat 256 = true) : cmdFinishSet m h a =
    (m.1.scheduled h m.1.runResult (.finishSet (handleOfPlace k) a[1] (packBytes 2048 (m.1.loftBytes a[2].toNat 256)))).also
      fun d => d.loftTouch a[2].toNat 256 := by
  simp only [cmdFinishSet, hk, clean_free hl, reading_eq hl, if_true]

theorem cmdEngRetire_spare (hs : (m.1.engAt (engArg a[0])).inService = true → m.1.servingBut (engArg a[0]) ≠ [])
    (hm : m.1.engineMoves (engArg a[0]) = false) :
    cmdEngRetire m h a = m.1.scheduled h m.1.runResult (.engRetire (engArg a[0])) := by
  have spare : ¬ ((m.1.engAt (engArg a[0])).inService && (m.1.servingBut (engArg a[0])).isEmpty) = true := by
    rw [Bool.and_eq_true, List.isEmpty_iff]
    exact fun ⟨h1, h2⟩ => hs h1 h2
  unfold cmdEngRetire
  exact (if_neg spare).trans (if_neg (ne_true_of_eq_false hm))

theorem cmdEngReturn_tested (hb : (m.1.engAt (engArg a[0])).bistFail = false) :
    cmdEngReturn m h a = m.1.scheduled h m.1.runResult (.engReturn (engArg a[0])) := if_neg (ne_true_of_eq_false hb)

/-- The effect of CTX_BIND with the parameters that it reads (06 R161, R163). -/
def bindOp (a : Args) (c k : Fin 64) (mask : BitVec 256) (params : BitVec 2048) : EffectOp :=
  .ctxBind c (handleOfPlace k) a[2] a[5] mask params (slice a[6] 0 6) (a[6].getLsbD 8)

theorem cmdCtxBind_idle {mask : BitVec 256} (hc : ctxArg a[0] = some c) (hk : m.1.handleArg a[1] = some k)
    (hl : m.1.clean a[3].toNat 32 = true) (hx : maskOf (m.1.loftBytes a[3].toNat 32) = mask) (hz : mask ≠ 0)
    (hp : m.1.clean a[4].toNat 256 = true) (hb : bindingsOk a[5] = true) (hr : slice a[6] 0 6 ≠ 63)
    (ht : m.1.rankTaken (bindOp a c k mask 0) (slice a[6] 0 6) c = false) (hn : m.1.rankReserved (slice a[6] 0 6) = none)
    (hi : (m.1.ctxAt c).state = .idle) (hm : m.1.migrating c = false)
    (hs : a[6].getLsbD 8 = true → m.1.slotTest (bindOp a c k mask 0) mask c = .free) : cmdCtxBind m h a =
      ((m.1.scheduled h m.1.runResult (bindOp a c k mask (packBytes 2048 (m.1.loftBytes a[4].toNat 256)))).also
        fun d => d.loftTouch a[4].toNat 256).also fun d => d.loftTouch a[3].toNat 32 := by
  subst hx
  have slot : (if a[6].getLsbD 8 = true then m.1.slotTest (bindOp a c k (maskOf (m.1.loftBytes a[3].toNat 32)) 0)
      (maskOf (m.1.loftBytes a[3].toNat 32)) c else .free) = .free := by
    split
    next hls => exact hs hls
    next => rfl
  unfold bindOp at slot ht ⊢
  unfold cmdCtxBind
  simp only [Dev.readingMask_clean hl hz, hc, hk, slot, clean_free hp, hb, hr, ht, reading_eq hp, hi, hm, hn]
  simp

end

/-- Settles O28, by what each command's own tests come to. -/
theorem contextCommandsAreDeferred : Obligations.ContextCommandsAreDeferred := by
  intro s h a c k d args image idle bytes mask answer
  refine ⟨?_, ?_, ?_, ?_, ?_, ?_, ?_, ?_, ?_, ?_, ?_⟩
  · intro rank bind hs ⟨h0, hc, hm⟩ ⟨hk, hl⟩ hmask hz hp hb hr ht hn hi hslot
    exact next_answers_read hs (cmdCtxBind_idle (ctxArg_of h0 hc) (handleArg_of hk hl) hmask rfl hz hp hb hr
      ((Dev.noteServed_rankTaken _ _ _ _ _).trans ht) hn hi hm fun hls => (Dev.noteServed_slotTest _ _ _ _ _).trans (hslot hls))
      (also_touch_pre hmask (also_touch_pre hp rfl)) rfl rfl
  · intro hs ⟨h0, hc, hm⟩ ⟨hk, hl⟩ hmove
    exact next_answers hs (cmdCtxSwap_still (ctxArg_of h0 hc) (handleArg_of hk hl) hmove)
  · intro hs ⟨h0, hc, hm⟩ hl
    exact next_answers_read hs (cmdCtxParam_clean (ctxArg_of h0 hc) hl hm) (also_touch_pre hl rfl) rfl rfl
  · intro rank hs ⟨h0, hc, hm⟩ hl hz hsplit hr hn
    have fits : ((s.dev.noteServed h.ring).projected (.ctxPlace c (mask a[1]) rank)).placeSplits c (mask a[1]) = false := by
      rw [Dev.noteServed_projected, Dev.placeSplits_servedAs]
      exact hsplit
    exact next_answers_read hs (cmdCtxPlace_fits (ctxArg_of h0 hc) hl rfl hz fits hr hm hn) (also_touch_pre hl rfl) rfl rfl
  · intro hs ⟨h0, hc, hm⟩
    exact next_answers hs (ctxOnly_idle .ctxSuspend (ctxArg_of h0 hc) hm)
  · intro hs ⟨h0, hc, hm⟩
    exact next_answers hs (ctxOnly_idle .ctxRetire (ctxArg_of h0 hc) hm)
  · intro hs ⟨h0, hc, hm⟩ hslot
    exact next_answers hs (cmdCtxResume_slot (ctxArg_of h0 hc) hm fun h1 h2 =>
      (Dev.noteServed_slotTest _ _ _ _ _).trans (hslot h1 h2))
  · intro e then' hs ⟨h0, hc, hm⟩ hb hl hi ho hg hmove
    refine next_answers hs ((cmdCtxMigrate_here (ctxArg_of h0 hc) hb).trans (Dev.migrateHere_fits hl ?_ ?_ ?_ hmove))
    · rw [Dev.noteServed_projected]
      exact hi
    · rw [Dev.noteServed_projected]
      exact ho
    · rw [Dev.noteServed_projected, Dev.groupOf_servedAs]
      exact hg
  · intro pos s' hs ⟨h0, hc, hm⟩ hb hr hp hw hg hmove
    refine next_answers hs ((cmdCtxMigrate_away (ctxArg_of h0 hc) hb).trans (Dev.migrateAway_announces hr hp hw ?_ hmove))
    rw [Dev.noteServed_projected, Dev.groupOf_servedAs]
    exact hg
  · intro hs ⟨hk, hl⟩ hc
    exact next_answers_read hs (cmdFinishSet_clean (handleArg_of hk hl) hc) (also_touch_pre hc rfl) rfl rfl
  · exact ⟨fun hs hspare hm => next_answers hs (cmdEngRetire_spare hspare hm),
      fun hs hb => next_answers hs (cmdEngReturn_tested hb)⟩

end Sys2Proof.Machine
end

section
/-! PROOF. What mode changes leave of the access controller (15 R441, R442), what a reset that begins leaves of the device,
and an event while no ring is in service (03 R76). -/

namespace Sys2Proof.Machine

open Sys2Proof

/-! ### The access controller through what a mode change does -/

section
variable (d : Dev)

theorem Dev.foldl_acc {α : Type} {f : Dev → α → Dev} (h : ∀ t x, (f t x).acc = t.acc) (l : List α) : (l.foldl f d).acc = d.acc :=
  List.foldlRecOn (motive := fun t : Dev => t.acc = d.acc) l f rfl fun t ht x _ => (h t x).trans ht

theorem Dev.ite_acc {p : Prop} [Decidable p] {t u : Dev} (ht : t.acc = d.acc) (hu : u.acc = d.acc) :
    (if p then t else u).acc = d.acc := by
  split
  · exact ht
  · exact hu

@[simp] theorem Dev.eventLimited_acc (code : BitVec 16) (i gap : Nat) (p : BitVec 64) :
    (d.eventLimited code i gap p).acc = d.acc := by
  unfold Dev.eventLimited
  exact d.ite_acc (Dev.event_acc _ _ _) rfl

@[simp] theorem Dev.noteLive_acc : d.noteLive.acc = d.acc := by
  unfold Dev.noteLive
  split <;> rfl

@[simp] theorem Dev.refreshChannels_acc : d.refreshChannels.acc = d.acc := d.foldl_acc (f := Dev.refreshChannel) (fun _ _ => rfl) _

@[simp] theorem Dev.strRetry_acc (ch : Fin 8) : (d.strRetry ch).acc = d.acc := by
  unfold Dev.strRetry
  simp only
  split
  · rfl
  · split
    · exact Dev.event_acc _ _ _
    · rfl

@[simp] theorem Dev.refreshInhibits_acc : d.refreshInhibits.acc = d.acc := by
  unfold Dev.refreshInhibits
  simp only [Dev.noteLive_acc]
  exact (Dev.foldl_acc _ (fun t ch => t.strRetry_acc ch) _).trans (Dev.refreshChannels_acc _)

@[simp] theorem Dev.withdrawInj_acc : d.withdrawInj.acc = d.acc := Dev.refreshInhibits_acc _

@[simp] theorem Dev.finishLong_acc (h : CmdHdr) (op : Byte) (st : CmdStatus) (r0 r1 : Word) :
    (d.finishLong h op st r0 r1).acc = d.acc := Dev.complete_acc _ _ _ _ _ _

/-- An INJECT not yet completed is answered, if there is one. -/
theorem Dev.answerInj_acc (c : Option CmdHdr) :
    (match c with
      | none => d
      | some h => d.finishLong h 0x70 .fault 0x0E02 0).acc = d.acc := by
  cases c with
  | none => rfl
  | some h => exact d.finishLong_acc h _ _ _ _

@[simp] theorem Dev.abortTrim_acc (cause : BitVec 2) (last : BitVec 3) (dac : BitVec 6) :
    (d.abortTrim cause last dac).acc = d.acc := Dev.event_acc _ _ _

@[simp] theorem Dev.abortInj_acc (cause : BitVec 2) (m : Mode) : (d.abortInj cause m).acc = d.acc := by
  unfold Dev.abortInj
  refine d.ite_acc rfl (d.ite_acc (d.ite_acc (Dev.refreshInhibits_acc _) rfl) ?_)
  have told (i : Inj) (c : Option CmdHdr) :=
    (Dev.answerInj_acc { d.event 0x0E02 (pay 0 d.inj.bit ||| pay 12 cause ||| pay 16 m.code) with inj := i } c).trans
      (d.event_acc _ _)
  exact d.ite_acc ((Dev.withdrawInj_acc _).trans (told _ _)) ((Dev.refreshInhibits_acc _).trans (told _ _))

@[simp] theorem Dev.trimOnMode_acc (m : Mode) : (d.trimOnMode m).acc = d.acc := by
  unfold Dev.trimOnMode
  have stopped := d.ite_acc (p := (d.trim.running && !m.calibrates) = true)
    (t := { d.abortTrim 2 4 0 with trim := (d.abortTrim 2 4 0).trim.queue d.trim.steps d.trim.trigger })
    (d.abortTrim_acc 2 4 0) rfl
  exact d.ite_acc (d.ite_acc stopped stopped) stopped

@[simp] theorem Dev.injOnMode_acc (m : Mode) : (d.injOnMode m).acc = d.acc := by
  unfold Dev.injOnMode
  have started := d.ite_acc (p := m = .run) (t := { d with inj := { d.inj with schedAt := d.now } }) rfl rfl
  exact d.ite_acc ((Dev.abortInj_acc _ _ _).trans started)
    (d.ite_acc started ((Dev.abortInj_acc _ _ _).trans started))

@[simp] theorem Dev.xferEvents_acc (x : Transfer) : (d.xferEvents x).acc = d.acc := by
  unfold Dev.xferEvents
  have under (p : BitVec 64) := d.ite_acc (p := x.underA + x.underB = 0) rfl (d.event_acc 0x0501 p)
  exact d.ite_acc (under _) ((Dev.eventLimited_acc _ _ _ _ _).trans (under _))

@[simp] theorem Dev.abortXfer_acc : d.abortXfer.acc = d.acc := by
  unfold Dev.abortXfer
  split
  next => rfl
  next x _ =>
    have told := Dev.xferEvents_acc { d with prv := d.prv.storeClasses x.frame } x
    exact d.ite_acc (p := d.scan.window = true) told rfl

@[simp] theorem Dev.startProof_acc : d.startProof.acc = d.acc := Dev.abortXfer_acc d

@[simp] theorem Dev.clearGableHalt_acc : d.clearGableHalt.acc = d.acc := d.ite_acc rfl rfl

@[simp] theorem Dev.soffitRelease_acc : d.soffitRelease.acc = d.acc := d.ite_acc rfl rfl

/-- A detach leaves the lapse of the level as it is (17 R507). -/
theorem Dev.detach_lapse (cause : BitVec 2) : (d.detach cause).acc.lapse = d.acc.lapse := by
  unfold Dev.detach
  split
  · have kept := (Dev.soffitRelease_acc d.clearGableHalt).trans (Dev.clearGableHalt_acc d)
    simp only [Dev.event_acc, kept]
  · rfl

theorem Acc.endDrive_lapse (a : Acc) : a.endDrive.lapse = a.lapse := by
  unfold Acc.endDrive
  split <;> rfl

/-- A mode change leaves the lapse of the level as it is (17 R503). -/
theorem Dev.toMode_lapse (m : Mode) (cause : Nat) (frame : BitVec 16) : (d.toMode m cause frame).acc.lapse = d.acc.lapse := by
  have left : (if m.sendsLats then d else d.abortXfer).acc = d.acc := d.ite_acc rfl d.abortXfer_acc
  have entered (x : Dev) : ((if m = .proof then (x.detach 3).startProof else x).refreshInhibits).acc.lapse = x.acc.lapse := by
    rw [Dev.refreshInhibits_acc]
    split
    · rw [Dev.startProof_acc, Dev.detach_lapse]
    · rfl
  unfold Dev.toMode
  refine (entered _).trans ?_
  simp only [Dev.injOnMode_acc, Dev.trimOnMode_acc, Dev.event_acc, Dev.interrupt, Acc.endDrive_lapse, left]

/-! ### and through the streams started anew (12 R386) -/

@[simp] theorem Dev.gableOutputs_acc (on mask : BitVec 8) : (d.gableOutputs on mask).acc = d.acc := d.ite_acc rfl rfl

@[simp] theorem Dev.douserSafe_acc : d.douserSafe.acc = d.acc := by
  unfold Dev.douserSafe Dev.gableSafe
  split
  · rfl
  · split
    · rfl
    · exact d.gableOutputs_acc _ _

@[simp] theorem Dev.demand_acc (g : BitVec 4) (r : BitVec 3) : (d.demand g r).acc = d.acc := by
  unfold Dev.demand
  refine d.ite_acc rfl (d.ite_acc ?_ ?_) <;> simp

@[simp] theorem Dev.endDemand_acc (g : BitVec 4) (r : BitVec 3) : (d.endDemand g r).acc = d.acc := by
  unfold Dev.endDemand
  exact d.ite_acc (Dev.event_acc _ _ _) rfl

@[simp] theorem Dev.refreshFlash_acc : d.refreshFlash.acc = d.acc := by
  unfold Dev.refreshFlash
  split
  · rfl
  · exact d.ite_acc (d.demand_acc _ _) (d.endDemand_acc _ _)

@[simp] theorem Dev.flashStart_acc (ridge : Bool) : (d.flashStart ridge).acc = d.acc := by
  unfold Dev.flashStart
  split
  · rfl
  · refine (Dev.refreshFlash_acc _).trans (d.foldl_acc ?_ _)
    intro t i
    exact t.ite_acc rfl rfl

end

/-! ### A reset that begins (15 R457 to R459) -/

section
variable (d : Dev) (cause : BitVec 3) (f : ResetHold → ResetHold)

theorem Dev.refreshChannels_loft : d.refreshChannels.loft = d.loft :=
  List.foldlRecOn (motive := fun t : Dev => t.loft = d.loft) _ _ rfl fun _ h _ _ => h

theorem Dev.refreshChannels_soffit : d.refreshChannels.soffit = d.soffit :=
  List.foldlRecOn (motive := fun t : Dev => t.soffit = d.soffit) _ _ rfl fun _ h _ _ => h

theorem Dev.beginReset_loft : (d.beginReset cause f).loft = d.loft := Dev.refreshChannels_loft _

theorem Dev.beginReset_soffit : (d.beginReset cause f).soffit = d.soffit := Dev.refreshChannels_soffit _

theorem Dev.beginReset_level : (d.beginReset cause f).acc.level = 0 := congrArg Acc.level (Dev.refreshChannels_acc _)

theorem Dev.beginReset_rails : (d.beginReset cause f).sys.rails = d.sys.rails := by
  unfold Dev.beginReset
  rw [Dev.refreshChannels_sys]

end

/-! ### An event while no ring is in service (03 R76) -/

/-- No ring of the device is enabled. -/
def Dev.ringless (d : Dev) : Prop := ∀ n, (d.ringAt n).enabled = false

theorem Dev.ringless.enabled {d : Dev} (h : d.ringless) (n : Fin 32) : (d.rings[n]).enabled = false := by
  have hn := h n.val
  rwa [Dev.ringAt, getN_of_lt _ n.isLt] at hn

theorem Dev.ringless.reportDrops {d : Dev} (h : d.ringless) : d.reportDrops = d := by
  have none : reportRings.filter d.dropDue = [] :=
    List.filter_eq_nil_iff.mpr fun n _ => by simp [Dev.dropDue, h n]
  unfold Dev.reportDrops
  simp only [none]
  rfl

theorem Dev.ringless.event {d : Dev} (h : d.ringless) (code : BitVec 16) (p : BitVec 64) :
    d.event code p = d.routeEntry [] false (eventEntry code d.now p) := by
  have none : (eventRings.filter fun m => d.selects m (code.toNat / 256)) = [] :=
    List.filter_eq_nil_iff.mpr fun n _ => by simp [Dev.selects, h n]
  unfold Dev.event
  simp only [h.reportDrops, none]
  rfl

/-- An event that goes to no ring writes none, nor the Loft. -/
theorem Dev.routeEntry_nil (d : Dev) (e : List Byte) :
    (d.routeEntry [] false e).rings = d.rings ∧ (d.routeEntry [] false e).loft = d.loft := by
  simp only [Dev.routeEntry, List.foldl_nil, Bool.false_eq_true, if_false]
  split
  · exact ⟨rfl, rfl⟩
  · exact ⟨rfl, rfl⟩

theorem Dev.ringless.event_rings {d : Dev} (h : d.ringless) (code : BitVec 16) (p : BitVec 64) :
    (d.event code p).rings = d.rings := by
  rw [h.event, (d.routeEntry_nil _).1]

theorem Dev.ringless.event_loft {d : Dev} (h : d.ringless) (code : BitVec 16) (p : BitVec 64) :
    (d.event code p).loft = d.loft := by
  rw [h.event, (d.routeEntry_nil _).2]

end Sys2Proof.Machine
end

section
/-! PROOF. Power, resets and wakes: what holds the core die down, what the end of a reset leaves, and the PROOF timers
(15 R441 to R464, 18 R525, R528). -/

namespace Sys2Proof.Machine

open Sys2Proof

/-! ### Power (15 R447 to R449) -/

section
variable {d : Dev}

/-- What the end of the power-on reset makes of the registers of power and reset. -/
def Sys.risen (y : Sys) (alwaysOn : Nat) (lock : Bool) : Sys :=
  { y with hold := { y.hold with brown := false }, vstby := true, rails := true, lock := lock, lockRetry := false,
           lockDue := if lock then none else some (alwaysOn + 1000) }

theorem Dev.powerOn_powered (h : d.sys.hold.brown = true) (hs : d.soffit.powered = true) (lock : Bool) :
    d.powerOn lock = { d with sys := d.sys.risen d.alwaysOn lock } := by
  unfold Dev.powerOn
  rw [if_pos h, if_pos hs]
  rfl

theorem Dev.powerOn_unpowered (h : d.sys.hold.brown = true) (hs : d.soffit.powered = false) (lock : Bool) :
    d.powerOn lock = { d.soffitPowerUp with sys := d.sys.risen d.alwaysOn lock } := by
  unfold Dev.powerOn
  rw [if_pos h, hs]
  rfl

theorem Dev.powerOn_idle (h : d.sys.hold.brown = false) (lock : Bool) : d.powerOn lock = d := by
  unfold Dev.powerOn
  rw [h]
  rfl

theorem Dev.pllRetry_due {t : Nat} (ht : d.sys.lockDue = some t) (hb : d.sys.hold.brown = false) (hd : t ≤ d.alwaysOn)
    (lock : Bool) : d.pllRetry lock = Dev.startCk { d with sys := { d.sys with
      lockTries := satInc d.sys.lockTries, lock := lock, lockRetry := !lock,
      lockDue := if lock then none else some (t + 10000) } } := by
  have due : (d.sys.hold.brown || decide (d.alwaysOn < t)) = false := by simpa [hb] using hd
  unfold Dev.pllRetry
  simp only [ht, due]
  rfl

theorem Dev.pllRetry_early {t : Nat} (ht : d.sys.lockDue = some t) (hd : d.alwaysOn < t) (lock : Bool) :
    d.pllRetry lock = d := by
  simp [Dev.pllRetry, ht, hd]

/-- VDD_ANA takes the Soffit's supply with it (13 R393). -/
theorem Dev.brownOut_ana : d.brownOut true = d.soffitPowerDown.brownOut false := rfl

/-- A brown-out of the core rails holds the core die in reset in every mode, STANDBY and OFF included, and takes nothing of
the Soffit (15 R449). -/
theorem Dev.brownOut_core : (d.brownOut false).sys.hold.brown = true ∧ (d.brownOut false).sys.rails = false ∧
    (d.brownOut false).soffit = d.soffit := by
  unfold Dev.brownOut
  rw [if_neg Bool.false_ne_true]
  simp only
  split
  · exact ⟨rfl, rfl, rfl⟩
  · simp only [Dev.onSys, Dev.beginReset_hold, Dev.beginReset_rails, Dev.beginReset_soffit, and_self]

theorem Dev.brownOut_holds (ana : Bool) : (d.brownOut ana).sys.hold.brown = true ∧ (d.brownOut ana).sys.rails = false := by
  cases ana with
  | false => exact ⟨Dev.brownOut_core.1, Dev.brownOut_core.2.1⟩
  | true =>
    rw [Dev.brownOut_ana]
    exact ⟨Dev.brownOut_core.1, Dev.brownOut_core.2.1⟩

theorem Dev.brownOut_soffit : (d.brownOut true).soffit = Soffit.reset := by
  rw [Dev.brownOut_ana]
  exact Dev.brownOut_core.2.2

/-- The loss of VSTBY is OFF at once, and the always-on domain forgets (15 R441, R448). -/
theorem Dev.vstbyLoss_leaves (d : Dev) :
    d.vstbyLoss.sys.mode = .off ∧ d.vstbyLoss.soffit = Soffit.reset ∧ d.vstbyLoss.sys.attempts = 0 := by
  unfold Dev.vstbyLoss
  simp only [Dev.soffitPowerDown, and_self]

theorem ResetHold.clear_of_brown {h : ResetHold} (hb : h.brown = true) : h.clear = false := by simp [ResetHold.clear, hb]

/-! ### RST_N and the device's own resets (15 R457, R458) -/

theorem Dev.rstAssert_holds (h : d.sys.stbyOut = false) :
    d.rstAssert.sys.hold.rstN = true ∧ d.rstAssert.acc.level = 0 ∧ d.rstAssert.loft = d.loft := by
  unfold Dev.rstAssert
  rw [if_neg (by rw [h]; exact Bool.false_ne_true)]
  simp only [Dev.onSys, Dev.beginReset_hold, Dev.beginReset_level, Dev.beginReset_loft, and_self]

theorem Dev.rstAssert_standby (h : d.sys.stbyOut = true) : d.rstAssert = d := by
  unfold Dev.rstAssert
  rw [h]
  rfl

theorem Dev.rstRelease_held (h : d.sys.hold.rstN = true) : d.rstRelease = { d with sys := { d.sys with
    hold := { d.sys.hold with rstN := false }, lowTime := min ((d.alwaysOn - d.sys.rstAt) / 10000) 6000 } } := by
  unfold Dev.rstRelease
  rw [if_pos h]
  rfl

theorem Dev.rstRelease_free (h : d.sys.hold.rstN = false) : d.rstRelease = d := by
  unfold Dev.rstRelease
  rw [h]
  rfl

theorem Dev.trussHaltReset_due (hup : d.coreUp = true) (hm : d.thatch.truss.mode = .halted) (ha : d.acc.attached = false)
    (ht : d.sys.haltAt + 2000 ≤ d.alwaysOn) :
    d.trussHaltReset = d.beginReset 3 fun h => { h with truss := true } := by
  unfold Dev.trussHaltReset
  rw [if_pos (by simp [hup, hm, ha, ht])]

/-! ### The end of a reset (15 R450, R459) -/

theorem Ring.resetAll_disabled : ∀ i : Fin 32, (Ring.resetAll[i]).enabled = false := by decide

theorem Dev.reset_ringless : Dev.reset.ringless := by
  intro n
  unfold Dev.ringAt getN
  split
  next hn => exact Ring.resetAll_disabled ⟨n, hn⟩
  next => rfl

theorem Dev.ringless.congr {t : Dev} (h : d.ringless) (ht : t.rings = d.rings) : t.ringless := fun n => by
  rw [Dev.ringAt, ht]
  exact h n

variable (d) (role : BitVec 2) (bootsel : Bool)

/-- A reset as it ends, before the straps are judged: the mode's interrupt and event (15 R459, R470). -/
def Dev.restarted : Dev := ((d.afterReset role bootsel).interrupt 5).event 0x0101 (pay 0 (Mode.code .boot) ||| payN 8 2)

/-- `t` is in BOOT out of a reset of `d`, with the straps as sampled. -/
structure Dev.Rebooted (t : Dev) : Prop where
  mode : t.sys.mode = .boot
  role : t.sys.role = role
  ringless : t.ringless
  soffit : t.soffit = d.soffit
  loft : ∀ c, d.sys.resetCause = some c → c ≠ 0 → c ≠ 4 → c ≠ 5 → t.loft.cells = d.loft.cells
  cfg : t.gbl.cfg = none
  level : t.acc.level = 0

theorem Dev.keptMemories_rebooted : d.Rebooted role (d.keptMemories role bootsel) :=
  ⟨rfl, rfl, Dev.reset_ringless.congr rfl, rfl, fun _ _ _ _ _ => rfl, rfl, rfl⟩

theorem Dev.afterReset_rebooted : d.Rebooted role (d.afterReset role bootsel) := by
  have kept := d.keptMemories_rebooted role bootsel
  unfold Dev.afterReset
  simp only
  split
  next lost =>
    refine ⟨rfl, rfl, Dev.reset_ringless.congr rfl, rfl, fun c hc h0 h4 h5 => ?_, rfl, rfl⟩
    have cause : (d.keptMemories role bootsel).sys.cause = c := congrArg (Option.getD · 0) hc
    rw [cause] at lost
    exact absurd lost (by simp only [h0, h4, h5, or_self, not_false_eq_true])
  next => exact kept

theorem Dev.restarted_rebooted : d.Rebooted role (d.restarted role bootsel) := by
  obtain ⟨mode, role, ringless, soffit, loft, cfg, level⟩ := d.afterReset_rebooted role bootsel
  have quiet : ((d.afterReset _ bootsel).interrupt 5).ringless := ringless
  unfold Dev.restarted
  refine ⟨?_, ?_, quiet.congr (quiet.event_rings _ _), ?_, fun c hc h0 h4 h5 => ?_, ?_, ?_⟩
  · rwa [Dev.event_sys]
  · rwa [Dev.event_sys]
  · rwa [Dev.event_soffit]
  · rw [quiet.event_loft]
    exact loft c hc h0 h4 h5
  · rwa [Dev.event_gbl]
  · rwa [Dev.event_acc]

theorem Dev.Rebooted.openAttempt {d t : Dev} {role : BitVec 2} (h : d.Rebooted role t) : d.Rebooted role t.openAttempt := by
  obtain ⟨mode, role, ringless, soffit, loft, cfg, level⟩ := h
  unfold Dev.openAttempt
  simp only
  split
  · exact ⟨mode, role, ringless, soffit, loft, cfg, level⟩
  · exact ⟨mode, role, ringless, soffit, loft, cfg, level⟩

theorem Dev.Rebooted.refused {d t : Dev} {role : BitVec 2} (h : d.Rebooted role t) :
    d.Rebooted role (t.onSys fun s => { s with refused := true, bootLast := 5, attemptOpen := false }) :=
  ⟨h.mode, h.role, h.ringless, h.soffit, h.loft, h.cfg, h.level⟩

variable {d role}

theorem Dev.resetEnd_rebooted (h : d.mayEnd = true) : d.Rebooted role (d.resetEnd role bootsel) := by
  have restarted := d.restarted_rebooted role bootsel
  unfold Dev.resetEnd
  rw [if_pos h]
  simp only
  split
  · exact restarted.refused
  · exact restarted.openAttempt

/-- The straps of role 3 are refused (15 R450). -/
theorem Dev.resetEnd_refused (h : d.mayEnd = true) : d.resetEnd 3 bootsel =
    (d.restarted 3 bootsel).onSys fun s => { s with refused := true, bootLast := 5, attemptOpen := false } := by
  unfold Dev.resetEnd
  rw [if_pos h]
  exact if_pos (.inl rfl)

theorem Dev.resetEnd_held (h : d.mayEnd = false) : d.resetEnd role bootsel = d := by
  unfold Dev.resetEnd
  rw [h]
  rfl

/-! ### Boot attempts and clock faults (15 R451, R460) -/

theorem Dev.bootWindowExpire_early (h : d.now < d.sys.attemptAt + 1000 * d.sys.attemptMs) : d.bootWindowExpire = d :=
  if_neg (Nat.not_le.mpr h)

theorem Dev.bootWindowExpire_late (h : d.sys.attemptAt + 1000 * d.sys.attemptMs ≤ d.now) (hm : d.sys.mode = .boot)
    (ho : d.sys.attemptOpen = true) (hb : d.sys.bootsel = false) : d.bootWindowExpire = { d with sys := { d.sys with
      bootLast := 1, attempts := satInc d.sys.attempts, attemptOpen := true, attemptAt := d.now,
      window := BitVec.ofNat 16 (100 * 2 ^ min (satInc d.sys.attempts).toNat 6) } } := by
  unfold Dev.bootWindowExpire Dev.failAttempt
  rw [if_pos h, if_pos ⟨hm, ho⟩, hb]
  exact if_neg fun roof => Bool.false_ne_true (hb.symm.trans roof.2)

theorem Dev.clockFault_fault {seen : ClockSeen} (hup : d.coreUp = true) (h : seen.isFault = true) :
    d.clockFault seen = d.ridgeLost 2 := by
  unfold Dev.clockFault
  rw [if_pos (by rw [hup, h]; rfl)]

theorem Dev.clockFault_none {seen : ClockSeen} (h : seen.isFault = false) : d.clockFault seen = d := by
  unfold Dev.clockFault
  rw [h, Bool.and_false]
  rfl

/-! ### RETENTION and STANDBY (15 R463, R466) -/

theorem Dev.retentionWake_wakes (hm : d.sys.mode = .retention) (hc : d.sys.hold.clear = true) (hl : d.acc.lapse = none) :
    d.retentionWake =
      (let ms := min ((d.alwaysOn - d.sys.retStart) / 1000) 0xFFFFFFFF
       let x : Dev := { d with sys := { d.sys with lock := true, retMs := BitVec.ofNat 32 ms } }
       let z := (x.toMode (if d.sys.retFromArmed then .proof else .load) 3 0).event 0x0105 (payN 0 ms)
       let w : Dev := { z with thatch := { z.thatch with gableWait := [] } }
       w.flashStart true) := by
  unfold Dev.retentionWake
  rw [if_pos ⟨hm, hc⟩]
  simp only [Dev.flashStart_acc, Dev.event_acc, Dev.toMode_lapse, Dev.onSys, hl]

theorem Dev.standbyWake_due (hm : d.sys.mode = .standby) (ho : d.sys.stbyOut = true)
    (ht : d.sys.stbyAt + 10000 ≤ d.alwaysOn) : d.standbyWake = { d with sys := { d.sys with
      mode := .off, prev := .standby, stbyOut := false, hold := { ResetHold.none with brown := true },
      resetCause := some 5, lock := false, lockTries := 0, lockRetry := false, lockDue := none } } :=
  if_pos ⟨hm, ho, ht⟩

/-! ### The PROOF timers (15 R445, R446) -/

theorem Dev.proofTimeout_due (ht : d.sys.proofStart + 10000000 ≤ d.now) (hm : d.sys.mode = .proof)
    (hb : d.sys.proofBusy = true) : d.proofTimeout =
      Dev.proofEvent { d with sys := { d.sys with proofBusy := false, proofFail := true, proofStep := 8 } } false := by
  unfold Dev.proofTimeout Dev.proofFails
  rw [if_pos ht, if_pos ⟨hm, hb⟩]

theorem Dev.proofTimeout_early (h : d.now < d.sys.proofStart + 10000000) : d.proofTimeout = d :=
  if_neg (Nat.not_le.mpr h)

theorem Dev.proofAgeTick_counts (h : d.sys.proofAge ≠ 0xFFFF) (h0 : d.sys.proofAge + 1 ≠ 1380)
    (h1 : d.sys.proofAge + 1 ≠ 1440) :
    d.proofAgeTick = { d with sys := { d.sys with proofAge := d.sys.proofAge + 1 } } := by
  unfold Dev.proofAgeTick
  rw [if_neg h]
  exact if_neg fun told => told.elim h0 h1

theorem Dev.proofAgeTick_tells (h : d.sys.proofAge = 1379) :
    d.proofAgeTick = Dev.event { d with sys := { d.sys with proofAge := 1380 } } 0x0E03 1380 := by
  unfold Dev.proofAgeTick
  rw [h]
  rfl

theorem Dev.proofReadback_passes (hm : d.sys.mode = .proof) (hb : d.sys.proofBusy = true) (hs : d.sys.proofStep = 5)
    (hl : 1000 ≤ d.sys.proofLive) : d.proofReadback = (d.proofStepTo 6).proofAdvance := by
  unfold Dev.proofReadback
  rw [if_pos (by simp [hm, hb, hs, hl])]

end

/-! ### The rows -/

/-- A change at any time, by what it comes to on the device as it stands. -/
theorem next_any {s : State} {f g : Dev → Dev} (h : f s.dev = g s.dev) :
    (Host.Outcome.next (s.any f) : Host.Outcome State Fault Refusal) = .next (s.any g) :=
  congrArg Host.Outcome.next (State.any_congr h)

theorem next_any_same {s : State} {f : Dev → Dev} (h : f s.dev = s.dev) :
    (Host.Outcome.next (s.any f) : Host.Outcome State Fault Refusal) = .next s :=
  next_any (g := id) h

section
variable (s : State) (ana : Bool)

theorem exec_rstNAssert (h : s.dev.sys.stbyOut = false) : ∃ u, exec .rstNAssert s = .next u ∧ u.dev.coreUp = false ∧
    u.dev.sys.hold.rstN = true ∧ u.dev.acc.level = 0 ∧ u.dev.loft = s.dev.loft ∧ u.otp = s.otp :=
  have ⟨hold, level, loft⟩ := Dev.rstAssert_holds h
  ⟨s.any Dev.rstAssert, rfl, Dev.rstAssert_down h, hold, level, loft, State.any_otp _ _⟩

theorem exec_brownOut : ∃ u, exec (.brownOut ana) s = .next u ∧ u.dev.coreUp = false ∧ u.dev.sys.hold.brown = true ∧
    u.dev.sys.rails = false ∧ (ana = true → u.dev.soffit = Soffit.reset) ∧ u.otp = s.otp := by
  obtain ⟨hold, rails⟩ := Dev.brownOut_holds (d := s.dev) ana
  refine ⟨s.any fun d => d.brownOut ana, rfl, Dev.coreUp_of_held (ResetHold.clear_of_brown hold), hold, rails, ?_,
    State.any_otp _ _⟩
  rintro rfl
  exact Dev.brownOut_soffit

theorem exec_vstbyLoss : ∃ u, exec .vstbyLoss s = .next u ∧ u.dev.sys.mode = .off ∧ u.dev.coreUp = false ∧
    u.dev.soffit = Soffit.reset ∧ u.dev.sys.attempts = 0 ∧ u.otp = s.otp := by
  obtain ⟨off, soffit, attempts⟩ := s.dev.vstbyLoss_leaves
  exact ⟨s.any Dev.vstbyLoss, rfl, off, by simp [Dev.coreUp, off], soffit, attempts, State.any_otp _ _⟩

theorem exec_trussHaltReset (hup : s.dev.coreUp = true) (hm : s.dev.thatch.truss.mode = .halted)
    (ha : s.dev.acc.attached = false) (ht : s.dev.sys.haltAt + 2000 ≤ s.dev.alwaysOn) : ∃ u,
    exec .trussHaltReset s = .next u ∧ u.dev.coreUp = false ∧ u.dev.sys.hold.truss = true ∧ u.dev.loft = s.dev.loft := by
  have hold := s.dev.beginReset_hold 3 fun h => { h with truss := true }
  refine ⟨s.any fun d => d.beginReset 3 fun h => { h with truss := true },
    next_core hup (Dev.trussHaltReset_due hup hm ha ht), Dev.coreUp_of_held ?_, ?_, ?_⟩
  · simp only [State.any_dev, hold, ResetHold.clear, Bool.or_true, Bool.true_or, Bool.not_true]
  · simp only [State.any_dev, hold]
  · rw [State.any_dev, Dev.beginReset_loft]

theorem exec_resetEnd (role : BitVec 2) (bootsel : Bool) (h : s.dev.mayEnd = true) :
    ∃ u, exec (.resetEnd role bootsel) s = .next u ∧ u.dev.sys.mode = .boot ∧
      (∀ n : Fin 32, (u.dev.rings[n]).enabled = false) ∧ u.dev.soffit = s.dev.soffit ∧
      (∀ c, s.dev.sys.resetCause = some c → c ≠ 0 → c ≠ 4 → c ≠ 5 → u.dev.loft.cells = s.dev.loft.cells) ∧
      u.dev.gbl.cfg = none ∧ u.dev.sys.role = role ∧ u.dev.acc.level = 0 ∧ u.otp = s.otp ∧
      (role = 3 → u.dev.sys.refused = true ∧ u.dev.sys.attemptOpen = false) := by
  obtain ⟨mode, hrole, ringless, soffit, loft, cfg, level⟩ := Dev.resetEnd_rebooted (role := role) bootsel h
  refine ⟨s.any fun d => d.resetEnd role bootsel, rfl, mode, ringless.enabled, soffit, loft, cfg, hrole, level,
    State.any_otp _ _, ?_⟩
  rintro rfl
  rw [State.any_dev, Dev.resetEnd_refused bootsel h]
  exact ⟨rfl, rfl⟩

end

/-- Settles O40, a row at a time. -/
theorem powerResetsAndProof : Obligations.PowerResetsAndProof := by
  intro s lock ana seen role bootsel d y sys risen
  refine ⟨fun hb => ⟨fun hs => ?_, fun hs => ?_⟩, fun hb => ?_, fun t ht hb => ⟨fun hd => ?_, fun hd => ?_⟩,
    fun h => exec_rstNAssert s h, fun h => ?_, fun h => ?_, fun h => ?_, exec_brownOut s ana, exec_vstbyLoss s,
    fun hup hm ha ht => exec_trussHaltReset s hup hm ha ht, fun h => exec_resetEnd s role bootsel h, fun h => ?_,
    fun hup hm ho hb => ⟨fun h => ?_, fun h => ?_⟩, fun hup => ⟨fun h => ?_, fun h => ?_, ?_⟩, fun hm hc hl => ?_,
    fun hm ho ht => ?_, fun hup => ⟨fun hm hb ht => ?_, fun ht => ?_, fun h h0 h1 => ?_, fun h => ?_,
    fun hm hb hs hl => ?_⟩⟩
  · exact next_any (Dev.powerOn_powered hb hs lock)
  · exact next_any (Dev.powerOn_unpowered hb hs lock)
  · exact next_any_same (Dev.powerOn_idle hb lock)
  · exact next_any (Dev.pllRetry_due ht hb hd lock)
  · exact next_any_same (Dev.pllRetry_early ht hd lock)
  · exact next_any_same (Dev.rstAssert_standby h)
  · exact next_any (Dev.rstRelease_held h)
  · exact next_any_same (Dev.rstRelease_free h)
  · exact next_any_same (Dev.resetEnd_held bootsel h)
  · exact next_core_same (Dev.bootWindowExpire_early h)
  · exact next_core hup (Dev.bootWindowExpire_late h hm ho hb)
  · exact next_core hup (Dev.clockFault_fault hup h)
  · exact next_core_same (Dev.clockFault_none h)
  · exact next_core hup (Dev.clockFault_fault hup rfl)
  · exact next_any (Dev.retentionWake_wakes hm hc hl)
  · exact next_any (Dev.standbyWake_due hm ho ht)
  · exact next_core hup (Dev.proofTimeout_due ht hm hb)
  · exact next_core_same (Dev.proofTimeout_early ht)
  · exact next_core hup (Dev.proofAgeTick_counts h h0 h1)
  · exact next_core hup (Dev.proofAgeTick_tells h)
  · exact next_core hup (Dev.proofReadback_passes hm hb hs hl)

end Sys2Proof.Machine
end

section
/-! PROOF. THM_DRT_ADDR (10 R308, R314): its write by whether the table lies in a region of kind 4. -/

namespace Sys2Proof.Machine

open Sys2Proof

/-! ### The derate table's address (10 R308) -/

/-- A write of THM_DRT_ADDR changes the device by the register's own rule, and nothing else. -/
theorem exec_thmDrtAddrWrite {s : State} {v : Word} (h : s.takesWrite 0x20061088 v = true) :
    exec (.thmDrtAddrWrite v) s = .next (s.hosted fun d => d.drtAddrWrite v) :=
  congrArg Host.Outcome.next (hostPut_takes h)

/-- A range lies within one region of the kinds listed. -/
theorem Dev.inRegion_iff {d : Dev} {kinds : List Nat} {r : Nat × Nat} : d.inRegion kinds r = true ↔
    ∃ k : Fin 64, ∃ g, d.regions[k] = some g ∧ g.kind ∈ kinds ∧ g.base ≤ r.1 ∧ r.1 + r.2 ≤ g.base + g.length := by
  unfold Dev.inRegion
  rw [Vector.any_toList, Vector.any_eq_true]
  constructor
  · rintro ⟨k, hk, h⟩
    refine ⟨⟨k, hk⟩, ?_⟩
    cases hg : d.regions[k] with
    | none => simp [hg] at h
    | some g => exact ⟨g, rfl, by simpa [hg, and_assoc] using h⟩
  · rintro ⟨k, g, hg, h⟩
    refine ⟨k.val, k.isLt, ?_⟩
    rw [Fin.getElem_fin] at hg
    simpa [hg, and_assoc] using h

theorem Dev.drtAddrWrite_taken {d : Dev} {v : Word} (h : d.inRegion [4] ((v.toNat % 2 ^ 25) / 4 * 4, 512) = true) :
    d.drtAddrWrite v = { d with thm := { d.thm with drtAddr := BitVec.ofNat 25 ((v.toNat % 2 ^ 25) / 4 * 4) } } :=
  if_pos h

theorem Dev.drtAddrWrite_ignored {d : Dev} {v : Word} (h : ¬ d.inRegion [4] ((v.toNat % 2 ^ 25) / 4 * 4, 512) = true) :
    d.drtAddrWrite v = { d with thm := { d.thm with cfgErr := true } } :=
  if_neg h

/-- Settles O48: the statement's `inside` is the model's test of the table's 512 bytes against the regions of kind 4. -/
theorem derateTableAddress : Obligations.DerateTableAddress := by
  intro s v h a inside
  have region : s.dev.inRegion [4] (a, 512) = true ↔ inside := by
    simp only [Dev.inRegion_iff, List.mem_singleton, inside]
  have write := exec_thmDrtAddrWrite h
  refine ⟨fun outside => write.trans (congrArg Host.Outcome.next (State.any_congr ?_)),
    fun within => write.trans (congrArg Host.Outcome.next (State.any_congr ?_))⟩
  · exact Dev.drtAddrWrite_ignored (d := s.dev.answering) (mt region.mp outside)
  · exact Dev.drtAddrWrite_taken (d := s.dev.answering) (region.mpr within)

end Sys2Proof.Machine
end

section
/-! PROOF. What mode changes, SAFE HOLD and streams started anew leave of the Gable's reset, of the mode and of the PLL's lock
(11 R346, R348, 12 R386, 15 R441). -/

namespace Sys2Proof.Machine

open Sys2Proof

/-- Whether the Gable is held in reset, the mode, and the PLL's lock. -/
def Dev.bearing (d : Dev) : Bool × Mode × Bool := (d.gbl.held, d.sys.mode, d.sys.lock)

theorem Dev.held_of_bearing {d t : Dev} (h : t.bearing = d.bearing) : t.gbl.held = d.gbl.held := congrArg Prod.fst h

theorem Dev.Notices.bearing {d t : Dev} (h : d.Notices t) : t.bearing = d.bearing := by
  rw [h]
  rfl

section
variable (d : Dev)

theorem Dev.foldl_bearing {α : Type} {f : Dev → α → Dev} (h : ∀ t x, (f t x).bearing = t.bearing) (l : List α) :
    (l.foldl f d).bearing = d.bearing :=
  List.foldlRecOn (motive := fun t : Dev => t.bearing = d.bearing) l f rfl fun t ht x _ => (h t x).trans ht

theorem Dev.ite_bearing {p : Prop} [Decidable p] {t u : Dev} (ht : t.bearing = d.bearing) (hu : u.bearing = d.bearing) :
    (if p then t else u).bearing = d.bearing := by
  split
  · exact ht
  · exact hu

/-! ### Notices, channels and inhibits -/

theorem Dev.event_bearing (code : BitVec 16) (p : BitVec 64) : (d.event code p).bearing = d.bearing :=
  (d.event_notices code p).bearing

theorem Dev.eventLimited_bearing (code : BitVec 16) (i gap : Nat) (p : BitVec 64) :
    (d.eventLimited code i gap p).bearing = d.bearing := by
  unfold Dev.eventLimited
  exact d.ite_bearing (Dev.event_bearing _ _ _) rfl

theorem Dev.finishLong_bearing (h : CmdHdr) (op : Byte) (st : CmdStatus) (r0 r1 : Word) :
    (d.finishLong h op st r0 r1).bearing = d.bearing := (Dev.complete_notices _ _ _ _ _ _).bearing

theorem Dev.noteLive_bearing : d.noteLive.bearing = d.bearing := d.ite_bearing rfl rfl

theorem Dev.strRetry_bearing (ch : Fin 8) : (d.strRetry ch).bearing = d.bearing := by
  unfold Dev.strRetry
  simp only
  split
  · rfl
  · exact d.ite_bearing (Dev.event_bearing _ _ _) rfl

theorem Dev.refreshInhibits_bearing : d.refreshInhibits.bearing = d.bearing := by
  unfold Dev.refreshInhibits
  refine (Dev.noteLive_bearing _).trans ((Dev.foldl_bearing _ (fun t ch => t.strRetry_bearing ch) _).trans ?_)
  exact Dev.foldl_bearing (f := Dev.refreshChannel) _ (fun _ _ => rfl) _

/-! ### What a mode change does (15 R441, R442) -/

theorem Dev.trimOnMode_bearing (m : Mode) : (d.trimOnMode m).bearing = d.bearing := by
  unfold Dev.trimOnMode
  have stopped := d.ite_bearing (p := (d.trim.running && !m.calibrates) = true)
    (t := { d.abortTrim 2 4 0 with trim := (d.abortTrim 2 4 0).trim.queue d.trim.steps d.trim.trigger })
    (Dev.event_bearing _ _ _) rfl
  exact d.ite_bearing (d.ite_bearing stopped stopped) stopped

/-- An INJECT not yet completed is answered, if there is one. -/
theorem Dev.answerInj_bearing (c : Option CmdHdr) :
    (match c with
      | none => d
      | some h => d.finishLong h 0x70 .fault 0x0E02 0).bearing = d.bearing := by
  cases c with
  | none => rfl
  | some h => exact d.finishLong_bearing h _ _ _ _

theorem Dev.abortInj_bearing (cause : BitVec 2) (m : Mode) : (d.abortInj cause m).bearing = d.bearing := by
  unfold Dev.abortInj
  refine d.ite_bearing rfl (d.ite_bearing (d.ite_bearing (Dev.refreshInhibits_bearing _) rfl) ?_)
  have told (i : Inj) (c : Option CmdHdr) :=
    (Dev.answerInj_bearing { d.event 0x0E02 (pay 0 d.inj.bit ||| pay 12 cause ||| pay 16 m.code) with inj := i } c).trans
      (d.event_bearing _ _)
  exact d.ite_bearing ((Dev.refreshInhibits_bearing _).trans (told _ _)) ((Dev.refreshInhibits_bearing _).trans (told _ _))

theorem Dev.injOnMode_bearing (m : Mode) : (d.injOnMode m).bearing = d.bearing := by
  unfold Dev.injOnMode
  have started := d.ite_bearing (p := m = .run) (t := { d with inj := { d.inj with schedAt := d.now } }) rfl rfl
  exact d.ite_bearing ((Dev.abortInj_bearing _ _ _).trans started)
    (d.ite_bearing started ((Dev.abortInj_bearing _ _ _).trans started))

theorem Dev.abortXfer_bearing : d.abortXfer.bearing = d.bearing := by
  unfold Dev.abortXfer
  split
  next => rfl
  next x _ =>
    have told : (Dev.xferEvents { d with prv := d.prv.storeClasses x.frame } x).bearing = d.bearing := by
      have under (p : BitVec 64) := Dev.ite_bearing { d with prv := d.prv.storeClasses x.frame }
        (p := x.underA + x.underB = 0) rfl (Dev.event_bearing _ 0x0501 p)
      exact d.ite_bearing (under _) ((Dev.eventLimited_bearing _ _ _ _ _).trans (under _))
    exact d.ite_bearing (p := d.scan.window = true) told rfl

theorem Dev.startProof_bearing : d.startProof.bearing = d.bearing := Dev.abortXfer_bearing d

theorem Dev.soffitRelease_bearing : d.soffitRelease.bearing = d.bearing := d.ite_bearing rfl rfl

theorem Dev.detach_bearing (cause : BitVec 2) : (d.detach cause).bearing = d.bearing := by
  unfold Dev.detach
  have resumed : d.clearGableHalt.bearing = d.bearing := d.ite_bearing rfl rfl
  have released := (Dev.soffitRelease_bearing _).trans resumed
  exact d.ite_bearing ((Dev.event_bearing _ _ _).trans released) rfl

theorem Sys.leaveProof_lock (s : Sys) (m : Mode) : (s.leaveProof m).lock = s.lock := by
  unfold Sys.leaveProof
  split <;> rfl

/-- A mode change sets the mode, and keeps the Gable's reset and the PLL's lock. -/
theorem Dev.toMode_bearing (m : Mode) (cause : Nat) (frame : BitVec 16) :
    (d.toMode m cause frame).bearing = (d.gbl.held, m, d.sys.lock) := by
  have left : (if m.sendsLats then d else d.abortXfer).bearing = d.bearing := d.ite_bearing rfl d.abortXfer_bearing
  have entered (x : Dev) : ((if m = .proof then (x.detach 3).startProof else x).refreshInhibits).bearing = x.bearing :=
    (Dev.refreshInhibits_bearing _).trans
      (x.ite_bearing ((Dev.startProof_bearing _).trans (x.detach_bearing 3)) rfl)
  unfold Dev.toMode
  refine (entered _).trans ((Dev.injOnMode_bearing _ _).trans ((Dev.trimOnMode_bearing _ _).trans
    ((Dev.event_bearing _ _ _).trans ?_)))
  have held : (if m.sendsLats then d else d.abortXfer).gbl.held = d.gbl.held := Dev.held_of_bearing left
  simp only [Dev.bearing, Dev.interrupt, held, Sys.leaveProof_lock]

theorem Dev.toMode_held (m : Mode) (cause : Nat) (frame : BitVec 16) :
    (d.toMode m cause frame).gbl.held = d.gbl.held := congrArg Prod.fst (d.toMode_bearing m cause frame)

/-! ### What SAFE HOLD does besides (11 R348) -/

theorem Dev.failPending_bearing : d.failPending.bearing = d.bearing := by
  unfold Dev.failPending
  split
  next => rfl
  next p _ =>
    cases p.hdr with
    | none => rfl
    | some c => exact Dev.finishLong_bearing _ c _ _ _ _

theorem Dev.gableOutputs_bearing (on mask : BitVec 8) : (d.gableOutputs on mask).bearing = d.bearing :=
  d.ite_bearing rfl rfl

theorem Dev.gableSafe_bearing (ks : List Nat) : (d.gableSafe ks).bearing = d.bearing := by
  unfold Dev.gableSafe
  split
  · rfl
  · exact d.gableOutputs_bearing _ _

theorem Dev.outputsSafe_bearing : d.outputsSafe.bearing = d.bearing := by
  unfold Dev.outputsSafe
  split
  · rfl
  · exact d.gableSafe_bearing _

theorem Dev.cancelForHold_bearing : d.cancelForHold.bearing = d.bearing := by
  unfold Dev.cancelForHold
  exact Dev.foldl_bearing _ (fun t e => t.event_bearing _ _) _

/-! ### Migrations that SAFE HOLD aborts (06 R188 to R192) -/

theorem Dev.onRun_bearing (frame : BitVec 16) (f : Run → Run) : (d.onRun frame f).bearing = d.bearing := by
  unfold Dev.onRun
  exact d.ite_bearing rfl rfl

theorem Dev.advanceN_bearing (e : Fin 8) (n : Nat) : (d.advanceN e n).bearing = d.bearing := by
  induction n generalizing d with
  | zero => rfl
  | succ n ih =>
    unfold Dev.advanceN
    split
    next => rfl
    next w _ =>
      refine d.ite_bearing rfl ?_
      split
      next => rfl
      next r _ =>
        split
        next x rest _ =>
          refine d.ite_bearing (ih _) ?_
          split
          · rfl
          · rfl
        next =>
          refine d.ite_bearing rfl ?_
          split
          · rfl
          · exact d.onRun_bearing _ _

theorem Dev.advanceAll_bearing : d.advanceAll.bearing = d.bearing :=
  d.foldl_bearing (fun t e => t.advanceN_bearing e 66) _

theorem Dev.takeSlot_bearing (c : Fin 64) (e : Fin 8) : (d.takeSlot c e).bearing = d.bearing := by
  unfold Dev.takeSlot
  split
  · rfl
  · rfl

theorem Dev.freeOld_bearing (c : Fin 64) : (d.freeOld c).bearing = d.bearing := by
  unfold Dev.freeOld
  split
  · rfl
  · rfl

theorem Dev.releaseSlot_bearing (c : Fin 64) (save : Bool) : (d.releaseSlot c save).bearing = d.bearing := by
  unfold Dev.releaseSlot
  refine d.ite_bearing ?_ rfl
  simp only
  split
  · have saved := fun a bs =>
      d.ite_bearing (p := (save && (d.ctxAt c).ls) = true) (d.loftWrite_notices a bs).bearing rfl
    exact (Dev.freeOld_bearing _ c).trans (saved _ _)
  · exact d.freeOld_bearing c

theorem Dev.suspendCtx_bearing (c : Fin 64) (cause : BitVec 4) (frame : BitVec 16) :
    (d.suspendCtx c cause frame).bearing = d.bearing := by
  unfold Dev.suspendCtx
  exact (Dev.event_bearing _ _ _).trans (d.releaseSlot_bearing c true)

theorem Dev.moveCtx_bearing (c : Fin 64) (e : Fin 8) (frame : BitVec 16) (moving : Bool) :
    (d.moveCtx c e frame moving).bearing = d.bearing := by
  unfold Dev.moveCtx
  have freed := d.ite_bearing (p := ((d.ctxAt c).copy.isSome && (d.ctxAt c).slotValid) = true)
    (t := d.freeSlot (d.ctxAt c).engine (d.ctxAt c).slot) rfl rfl
  exact (Dev.takeSlot_bearing _ c e).trans freed

theorem Dev.takeBack_bearing (c : Fin 64) (epoch : Byte) (run : BitVec 16) : (d.takeBack c epoch run).bearing = d.bearing := by
  unfold Dev.takeBack
  refine d.ite_bearing ?_ rfl
  split
  · exact d.ite_bearing rfl (Dev.moveCtx_bearing _ c _ run false)
  · exact d.ite_bearing rfl (Dev.suspendCtx_bearing _ c 4 run)

theorem Dev.dropTarget_bearing (c : Fin 64) (m : Migration) : (d.dropTarget c m).bearing = d.bearing := by
  unfold Dev.dropTarget
  have freed := d.ite_bearing (p := (!m.ls) = true) rfl (d.ite_bearing (p := m.decided = true)
    (t := d.freeSlot (d.ctxAt c).engine (d.ctxAt c).slot) (u := d.freeSlot m.engine m.slot) rfl rfl)
  exact (Dev.advanceAll_bearing _).trans (d.ite_bearing ((Dev.onRun_bearing _ _ _).trans freed) freed)

theorem Dev.abortMigration_bearing (c : Fin 64) (cause : Nat) (run : BitVec 16) :
    (d.abortMigration c cause run).bearing = d.bearing := by
  unfold Dev.abortMigration
  split
  next => rfl
  next m _ =>
    exact (Dev.event_bearing _ _ _).trans (d.ite_bearing (Dev.dropTarget_bearing _ c m)
      (d.ite_bearing (Dev.takeBack_bearing _ c m.epoch run) rfl))

theorem Dev.abortMove_bearing (c : Fin 64) (cause : Nat) : (d.abortMove c cause).bearing = d.bearing := by
  unfold Dev.abortMove
  refine d.ite_bearing rfl ?_
  simp only
  split
  · exact (Dev.event_bearing _ _ _).trans (d.ite_bearing rfl rfl)
  · exact Dev.event_bearing _ _ _

theorem Dev.abortMigrations_bearing (cause : Nat) : (d.abortMigrations cause).bearing = d.bearing :=
  d.foldl_bearing (fun _ c => (Dev.abortMove_bearing _ c _).trans (Dev.abortMigration_bearing _ c _ _)) _

theorem Dev.enterHold_bearing : (d.outputsSafe.cancelForHold.abortMigrations 4).bearing = d.bearing :=
  (Dev.abortMigrations_bearing _ _).trans ((Dev.cancelForHold_bearing _).trans d.outputsSafe_bearing)

/-- SAFE HOLD leaves a Gable that is held in reset where it is. -/
theorem Dev.safeHold_held (cause : BitVec 4) : (d.safeHold cause).gbl.held = d.gbl.held := by
  have failed : d.failPending.gbl.held = d.gbl.held := Dev.held_of_bearing d.failPending_bearing
  have after (t : Dev) : (t.outputsSafe.cancelForHold.abortMigrations 4).gbl.held = t.gbl.held :=
    Dev.held_of_bearing t.enterHold_bearing
  unfold Dev.safeHold
  split
  · rfl
  · split
    · rfl
    · rw [Dev.event_gbl]
      exact (after _).trans ((Dev.toMode_held _ _ _ _).trans failed)

/-! ### Streams started anew (12 R386) -/

theorem Dev.douserSafe_bearing : d.douserSafe.bearing = d.bearing := by
  unfold Dev.douserSafe
  split
  · rfl
  · exact d.gableSafe_bearing _

theorem Dev.demand_bearing (g : BitVec 4) (r : BitVec 3) : (d.demand g r).bearing = d.bearing := by
  unfold Dev.demand
  have told (t : Dev) (p : BitVec 64) : ((t.event 0x080E p).noteLive).bearing = t.bearing :=
    (Dev.noteLive_bearing _).trans (t.event_bearing _ _)
  exact d.ite_bearing rfl (d.ite_bearing (told _ _) ((Dev.douserSafe_bearing _).trans (told _ _)))

theorem Dev.endDemand_bearing (g : BitVec 4) (r : BitVec 3) : (d.endDemand g r).bearing = d.bearing := by
  unfold Dev.endDemand
  exact d.ite_bearing (Dev.event_bearing _ _ _) rfl

theorem Dev.refreshFlash_bearing : d.refreshFlash.bearing = d.bearing := by
  unfold Dev.refreshFlash
  split
  · rfl
  · exact d.ite_bearing (d.demand_bearing _ _) (d.endDemand_bearing _ _)

theorem Dev.flashStart_bearing (ridge : Bool) : (d.flashStart ridge).bearing = d.bearing := by
  unfold Dev.flashStart
  split
  · rfl
  · have counted (t : Dev) (f : Flash) : Dev.bearing { t with flash := f } = t.bearing := rfl
    refine (Dev.refreshFlash_bearing _).trans ((counted _ _).trans (d.foldl_bearing (fun t i => ?_) _))
    exact t.ite_bearing rfl rfl

end

end Sys2Proof.Machine
end

section
/-! PROOF. The safety mechanisms (11 R319 to R349, 12 R377 to R382): what each timer, sample and edge comes to, by its own
condition. -/

namespace Sys2Proof.Machine

open Sys2Proof

/-- The entry that an update changes. -/
theorem upd_same {α : Type} {n : Nat} (v : Vector α n) (i : Fin n) (f : α → α) : (upd v i f)[i] = f v[i] :=
  Vector.getElem_set_self _

section
variable {d : Dev}

/-! ### Triggers of the Gable (11 R334) -/

@[simp] theorem Dev.triggerG_gbl (code : Nat) : (d.triggerG code).gbl = d.gbl := by
  unfold Dev.triggerG
  split <;> rfl

@[simp] theorem Dev.triggerG_sys (code : Nat) : (d.triggerG code).sys = d.sys := by
  unfold Dev.triggerG
  split <;> rfl

@[simp] theorem Dev.triggerG_rdg (code : Nat) : (d.triggerG code).rdg = d.rdg := by
  unfold Dev.triggerG
  split <;> rfl

/-! ### Encoders (11 R330) -/

/-- The position that a code of axis `i` gives. -/
def SafetyConfig.encPos (c : SafetyConfig) (i : Nat) (code : Word) : Word :=
  let raw := code.toNat % 2 ^ c.encBits i
  if c.encGray i then grayToBin (BitVec.ofNat 32 raw) else BitVec.ofNat 32 raw

/-- A position taken at time `t` as the last good one of axis `i`; channel G triggers the Gable. -/
def Dev.encGood (d : Dev) (i : Fin 4) (pos : Word) (t : Nat) : Dev :=
  let y : Dev := { d with rdg := { d.rdg with enc := upd d.rdg.enc i fun e =>
    { last := some (pos, t), prev := e.last, bad := 0, fault := false } } }
  if i.val < 2 then y.triggerG 2 else y

theorem Dev.encGood_gbl (i : Fin 4) (pos : Word) (t : Nat) : (d.encGood i pos t).gbl = d.gbl := by
  unfold Dev.encGood
  simp only
  split
  · exact Dev.triggerG_gbl 2
  · rfl

theorem Dev.encGood_axis (i : Fin 4) (pos : Word) (t : Nat) : (d.encGood i pos t).rdg.enc[i] =
    { last := some (pos, t), prev := (d.rdg.enc[i]).last, bad := 0, fault := false } := by
  have same : (d.encGood i pos t).rdg.enc = upd d.rdg.enc i fun e =>
      { last := some (pos, t), prev := e.last, bad := 0, fault := false } := by
    unfold Dev.encGood
    simp only
    split
    · rw [Dev.triggerG_rdg]
    · rfl
  rw [same]
  exact upd_same _ i _

theorem Dev.encTake_good {c : SafetyConfig} {i : Fin 4} {code : Word} {t : Nat}
    (h : ∀ l, (d.rdg.enc[i]).last = some l → c.jumpOk i.val l (c.encPos i.val code) t = true) :
    d.encTake c i true code t = d.encGood i (c.encPos i.val code) t := by
  have near : (match (d.rdg.enc[i]).last with
      | none => true
      | some l => c.jumpOk i.val l (c.encPos i.val code) t) = true := by
    cases hl : (d.rdg.enc[i]).last with
    | none => rfl
    | some l => exact h l hl
  unfold Dev.encTake
  exact if_pos near

/-- A device that has no stream of the axis's kind sends the roof nothing of its samples. -/
theorem Dev.flashEnc_none {c : SafetyConfig} {a : Fin 4} (hc : d.gbl.cfg = some c)
    (hn : c.fcOf (if a.val < 2 then 3 else 4) = none) (valid : Bool) : d.flashEnc a valid = d := by
  unfold Dev.flashEnc
  simp only [hc, hn, ite_self]

theorem Dev.encRead_good {c : SafetyConfig} {i : Fin 4} {code : Word} (hc : d.gbl.cfg = some c) (ha : c.axes = true)
    (hr : d.sys.role ≠ 2) (hn : c.fcOf (if i.val < 2 then 3 else 4) = none)
    (hj : ∀ l, (d.rdg.enc[i]).last = some l → c.jumpOk i.val l (c.encPos i.val code) d.now = true) :
    d.encRead i true true code = d.encGood i (c.encPos i.val code) d.now := by
  have taken : d.encSample i true true code = d.encGood i (c.encPos i.val code) d.now := by
    unfold Dev.encSample
    simp only [hc, ha, bne_iff_ne, ne_eq, hr, not_false_eq_true, Bool.and_self, if_true, Dev.encTake_good hj, Bool.true_and]
  have cfg : (d.encGood i (c.encPos i.val code) d.now).gbl.cfg = some c := (congrArg Gbl.cfg (Dev.encGood_gbl ..)).trans hc
  unfold Dev.encRead
  simp only [taken, cfg, ha, if_true, Dev.flashEnc_none cfg hn]

theorem Dev.encTimeout_late {c : SafetyConfig} {i : Fin 4} {l : Word × Nat} (hc : d.gbl.cfg = some c)
    (hl : (d.rdg.enc[i]).last = some l) (hf : (d.rdg.enc[i]).fault = false) (ha : c.axes = true)
    (ht : l.2 + 4 * c.encPeriod i.val ≤ d.now) : d.encTimeout i = d.encFault i := by
  rw [Fin.getElem_fin] at hl hf
  unfold Dev.encTimeout
  simp only [hc, hl, hf, ha, ht, decide_true, Bool.not_false, Bool.and_self, if_true]

theorem Dev.encTimeout_early {c : SafetyConfig} {i : Fin 4} {l : Word × Nat} (hc : d.gbl.cfg = some c)
    (hl : (d.rdg.enc[i]).last = some l) (ht : d.now < l.2 + 4 * c.encPeriod i.val) : d.encTimeout i = d := by
  rw [Fin.getElem_fin] at hl
  have early : decide (l.2 + 4 * c.encPeriod i.val ≤ d.now) = false := decide_eq_false (Nat.not_le.mpr ht)
  unfold Dev.encTimeout
  simp only [hc, hl, early, Bool.and_false, Bool.false_and, Bool.false_eq_true, if_false]

/-! ### The Gable's reset and restart (11 R346) -/

theorem Dev.gableReset_due (hl : d.gbl.lost = 1 ∨ d.gbl.lost = 3 ∨ d.gbl.lost = 4) (hh : d.gbl.held = false)
    (ht : d.gbl.lostAt + 1000 ≤ d.now) (hr : d.gbl.restarted = false ∨ d.sys.mode ≠ .degraded) : d.gableReset =
      { d with gbl := { d.gbl with held := true, restarted := true },
               thatch := { d.thatch with gable := Core.reset, gableWait := [] } } :=
  if_pos ⟨hl, hh, ht, fun again => hr.elim (fun r => Bool.false_ne_true (r.symm.trans again.2)) fun m => m again.1⟩

theorem Dev.gableReset_idle (h : d.gbl.lost = 0 ∨ d.gbl.held = true ∨ d.now < d.gbl.lostAt + 1000) : d.gableReset = d := by
  refine if_neg fun ⟨hl, hh, ht, _⟩ => ?_
  rcases h with h | h | h
  · rw [h] at hl
    exact absurd hl (by decide)
  · exact Bool.false_ne_true (hh.symm.trans h)
  · exact Nat.not_le.mpr h ht

theorem Dev.gableStart_gbl : d.gableStart.gbl =
    { d.gbl with lost := 0, held := false, hbt := false, hbtHeld := false, hbtMiss := 0, published := false } :=
  Dev.triggerG_gbl 8

theorem Dev.gableReturn_held (h : d.gbl.held = true) : d.gableReturn =
    if d.gableRestart.gbl.held then d.gableRestart else d.gableRestart.flashStart false := by
  unfold Dev.gableReturn
  simp only [h, Bool.true_and]
  cases d.gableRestart.gbl.held <;> rfl

theorem Dev.gableReturn_none (h : d.gbl.held = true) (hc : d.gbl.cfg = none) : d.gableReturn = d.gableStart := by
  have restart : d.gableRestart = d.gableStart := by
    unfold Dev.gableRestart
    simp only [h, hc, if_true]
  rw [Dev.gableReturn_held h, restart]
  simp [Dev.flashStart, Dev.gableStart_gbl, hc]

theorem Dev.gableReturn_same {c : SafetyConfig} (h : d.gbl.held = true) (hc : d.gbl.cfg = some c)
    (hs : c.gableHash = d.gableHashNow) : d.gableReturn =
      Dev.flashStart { d.gableStart with gbl := { d.gableStart.gbl with restarts := satInc d.gableStart.gbl.restarts } }
        false := by
  have restart : d.gableRestart =
      { d.gableStart with gbl := { d.gableStart.gbl with restarts := satInc d.gableStart.gbl.restarts } } := by
    unfold Dev.gableRestart
    simp only [h, hc, hs, if_true]
  have freed : d.gableStart.gbl.held = false := congrArg Gbl.held Dev.gableStart_gbl
  rw [Dev.gableReturn_held h, restart]
  exact if_neg (by rw [freed]; exact Bool.false_ne_true)

theorem Dev.gableReturn_changed {c : SafetyConfig} (h : d.gbl.held = true) (hc : d.gbl.cfg = some c)
    (hs : c.gableHash ≠ d.gableHashNow) : d.gableReturn = d.safeHold 6 := by
  have restart : d.gableRestart = d.safeHold 6 := by
    unfold Dev.gableRestart
    simp only [h, hc, hs, if_true, if_false]
  rw [Dev.gableReturn_held h, restart, Dev.safeHold_held, h]
  rfl

/-! ### The Ridge's memories (11 R321) -/

theorem Dev.ridgeMemoryOk_iff {c : SafetyConfig} : d.ridgeMemoryOk c = true ↔
    d.rdg.parityErr = [] ∧ d.rdg.cellParity = [] ∧ d.rdg.memParity = false ∧ d.ridgeCrcNow c = c.rcrc := by
  simp [Dev.ridgeMemoryOk, Rdg.hasParity, and_assoc]

theorem Dev.ridgeCrc_none (hc : d.gbl.cfg = none) : d.ridgeCrc = d := by
  unfold Dev.ridgeCrc
  rw [hc]

theorem Dev.ridgeCrc_good {c : SafetyConfig} (hc : d.gbl.cfg = some c) (h : d.ridgeMemoryOk c = true) : d.ridgeCrc = d := by
  unfold Dev.ridgeCrc
  simp only [hc, h, if_true]

theorem Dev.ridgeCrc_bad {c : SafetyConfig} (hc : d.gbl.cfg = some c) (h : ¬ d.ridgeMemoryOk c = true) :
    d.ridgeCrc = d.ridgeLost 3 := by
  unfold Dev.ridgeCrc
  simp only [hc, h, Bool.false_eq_true, if_false]

/-! ### Readback of the LIVE outputs (11 R319) -/

/-- The sample that the Gable, or the Ridge, takes of the LIVE balls at the levels `g` and `h`. -/
def Dev.liveSample (d : Dev) (phase g h : Bool) : LiveSample :=
  { run := (d.liveG, d.liveH), level := (g, h), wrong := (g != phase, h != !phase) }

/-- A sample kept as the last one of the Gable, or of the Ridge. -/
def Dev.liveNoted (d : Dev) (ridge : Bool) (x : LiveSample) : Dev :=
  { d with gbl := { d.gbl with live := if ridge then d.gbl.live else some x },
           rdg := { d.rdg with live := if ridge then some x else d.rdg.live } }

/-- The last sample of the Gable, or of the Ridge. -/
def Dev.liveLast (d : Dev) (ridge : Bool) : Option LiveSample := if ridge then d.rdg.live else d.gbl.live

variable {ridge phase g h : Bool}

theorem Dev.liveReadback_eq (hj : d.acc.jtag.drives = false) : d.liveReadback ridge phase g h =
    (let x := d.liveSample phase g h
     let bad := match d.liveLast ridge with | none => 0 | some l => l.faults x
     if bad = 0 ∨ d.gbl.liveFault = true ∨ d.gbl.cfg.isNone then d.liveNoted ridge x
     else (d.liveNoted ridge x).readbackFault bad) := by
  unfold Dev.liveReadback
  rw [hj]
  cases ridge <;> rfl

theorem Dev.liveReadback_noted (hj : d.acc.jtag.drives = false)
    (hn : d.liveLast ridge = none ∨ d.gbl.liveFault = true ∨ d.gbl.cfg = none) :
    d.liveReadback ridge phase g h = d.liveNoted ridge (d.liveSample phase g h) := by
  rw [Dev.liveReadback_eq hj]
  refine if_pos (hn.imp (fun hl => ?_) (Or.imp_right fun hc => ?_))
  · rw [hl]
  · rw [hc]
    rfl

theorem Dev.liveReadback_good {l : LiveSample} (hj : d.acc.jtag.drives = false) (hl : d.liveLast ridge = some l)
    (hg : l.faults (d.liveSample phase g h) = 0) :
    d.liveReadback ridge phase g h = d.liveNoted ridge (d.liveSample phase g h) := by
  rw [Dev.liveReadback_eq hj, hl]
  exact if_pos (.inl hg)

theorem Dev.liveReadback_fault {l : LiveSample} (hj : d.acc.jtag.drives = false) (hl : d.liveLast ridge = some l)
    (hb : l.faults (d.liveSample phase g h) ≠ 0) (hf : d.gbl.liveFault = false) (hc : d.gbl.cfg.isSome = true) :
    d.liveReadback ridge phase g h =
      (d.liveNoted ridge (d.liveSample phase g h)).readbackFault (l.faults (d.liveSample phase g h)) := by
  rw [Dev.liveReadback_eq hj, hl]
  refine if_neg fun none => none.elim hb fun none => none.elim (fun f => Bool.false_ne_true (hf.symm.trans f)) fun n => ?_
  rw [Option.isNone_eq_false_iff.mpr hc] at n
  exact Bool.false_ne_true n

/-- LIVE_G wrong at two samples in a row while its generator runs is a fault. -/
theorem LiveSample.faults_wrongG {a b : LiveSample} (ha : a.run.1 = true) (hb : b.run.1 = true) (hwa : a.wrong.1 = true)
    (hwb : b.wrong.1 = true) : (a.faults b).getLsbD 0 = true := by
  unfold LiveSample.faults
  simp only [ha, hb, hwa, hwb]
  simp

/-- The same of LIVE_H. -/
theorem LiveSample.faults_wrongH {a b : LiveSample} (ha : a.run.2 = true) (hb : b.run.2 = true) (hwa : a.wrong.2 = true)
    (hwb : b.wrong.2 = true) : (a.faults b).getLsbD 1 = true := by
  unfold LiveSample.faults
  simp only [ha, hb, hwa, hwb]
  simp

/-- A level of LIVE_G that changes while its generator is stopped is a fault. -/
theorem LiveSample.faults_movedG {a b : LiveSample} (ha : a.run.1 = false) (hb : b.run.1 = false)
    (hl : a.level.1 ≠ b.level.1) : (a.faults b).getLsbD 0 = true := by
  unfold LiveSample.faults
  simp only [ha, hb]
  simp [hl]

/-! ### The end of T_deg, and SAFE HOLD left or not (11 R345, R349) -/

theorem Dev.tdegExpire_over {t : Nat} (h : d.gbl.tdegEnd = some t) (hm : d.sys.mode = .degraded) (ht : t ≤ d.now) :
    d.tdegExpire = d.safeHold 5 := by
  have ended : d.tdegOver = true := by
    unfold Dev.tdegOver
    simp only [h, ht, decide_true]
  unfold Dev.tdegExpire
  simp only [hm, ended, decide_true, Bool.and_self, if_true]

theorem Dev.tdegExpire_early {t : Nat} (h : d.gbl.tdegEnd = some t) (ht : d.now < t) : d.tdegExpire = d := by
  have early : d.tdegOver = false := by
    unfold Dev.tdegOver
    simp only [h, Nat.not_le.mpr ht, decide_false]
  unfold Dev.tdegExpire
  simp only [early, Bool.and_false, Bool.false_eq_true, if_false]

/-- The window of the reset input is over (11 R349). -/
def Dev.windowClosed (d : Dev) : Dev := { d with gbl := { d.gbl with resetWindow := none } }

/-- SAFE HOLD left for PROOF by the reset input (11 R349). -/
def Dev.holdLeft (d : Dev) : Dev :=
  let y : Dev := { d with
    gbl := { d.gbl with liveFault := false, holdCause := 0, degCause := 0, sf2Latch := false },
    rdg := { d.rdg with fault := 0 } }
  (y.toMode .proof 2 0).event 0x080D 1

variable {t : Nat} {test back : Bool} (hm : d.sys.mode = .safeHold) (hw : d.gbl.resetWindow = some t)
include hm hw

theorem Dev.resetEdge_late (ht : t < d.now) : d.resetEdge test back = d := by
  unfold Dev.resetEdge
  simp only [hm, hw, ht, if_true]

theorem Dev.resetEdge_demand (ht : d.now ≤ t) (hd : d.gbl.demand ≠ 0) :
    d.resetEdge test back = d.windowClosed.event 0x080D 4 := by
  unfold Dev.resetEdge
  simp only [hm, hw, Nat.not_lt.mpr ht, if_true, if_false]
  exact if_pos (.inl hd)

theorem Dev.resetEdge_leaves (ht : d.now ≤ t) (hg : d.gbl.demand = 0) (hr : d.rdg.demand = 0)
    (hk : ∀ c, d.gbl.cfg = some c → d.ridgeMemoryOk c = true) : d.resetEdge true true =
      if d.gbl.sf2Latch then d.windowClosed.holdLeft.event 0x080F 1 else d.windowClosed.holdLeft := by
  have calm : ¬ (d.gbl.demand ≠ 0 ∨ d.rdg.demand ≠ 0) := fun h => h.elim (· hg) (· hr)
  have passed : ¬ (!true || !d.windowClosed.gbl.cfg.all d.windowClosed.ridgeMemoryOk) = true := by
    have all : d.gbl.cfg.all d.ridgeMemoryOk = true := by
      cases hc : d.gbl.cfg with
      | none => rfl
      | some c => exact hk c hc
    have same : d.windowClosed.gbl.cfg.all d.windowClosed.ridgeMemoryOk = d.gbl.cfg.all d.ridgeMemoryOk := rfl
    rw [same, all]
    decide
  unfold Dev.resetEdge
  simp only [hm, hw, Nat.not_lt.mpr ht, if_true, if_false]
  exact (if_neg calm).trans (if_neg passed)

theorem Dev.resetWindowEnd_over (ht : t ≤ d.now) : d.resetWindowEnd = d.windowClosed.event 0x080D 2 := by
  unfold Dev.resetWindowEnd
  simp only [hw, ht, hm, and_self, if_true]
  rfl

omit hm hw

/-! ### The end of SF3's fallback (11 R340) -/

theorem Dev.sf3Timer_early (ht : d.now < d.gbl.sf3Since + 1000000) : d.sf3Timer = d := by
  unfold Dev.sf3Timer
  simp only [Nat.not_le.mpr ht, decide_false, Bool.and_false, Bool.false_and, Bool.false_eq_true, if_false]

theorem Dev.sf3Timer_over (hs : d.gbl.sf3 = true) (ht : d.gbl.sf3Since + 1000000 ≤ d.now) (hr : d.gbl.sf3Reported = []) :
    d.sf3Timer = Dev.sf3Drive { d with gbl := { d.gbl with sf3 := false, sf3Reported := [] } } false := by
  unfold Dev.sf3Timer
  simp only [hs, ht, hr, decide_true, List.all_nil, Bool.and_self, if_true]

/-! ### Flashing (12 R377 to R382) -/

variable {c : SafetyConfig} {k : Fin 8}

theorem Dev.flashTimeout_over (hc : d.gbl.cfg = some c) (he : (d.flash.conns[k]).state = .established)
    (hg : d.gableChecks = true) (ht : (d.flash.conns[k]).since + 1000 * c.fcTexp k.val < d.now) : d.flashTimeout k =
      ((((d.onFlash k fun x => { x.enterReset (c.fcKind k.val) .timeout with timeouts := satInc x.timeouts }).noteLive).event
        0x0901 (payN 0 k.val ||| payN 3 (if c.fcFlag k.val 2 then 1 else 0) ||| pay 16 (d.flash.conns[k]).seq)).flashMiss
          (c.fcKind k.val)).refreshFlash := by
  unfold Dev.flashTimeout
  rw [hc]
  exact if_pos ⟨.inr he, .inr hg, ht⟩

theorem Dev.flashSendEcho_none (hc : d.gbl.cfg = some c)
    (h : c.fcKind k.val ≠ 1 ∨ (d.flash.conns[k]).echoDue (c.fcTexp k.val) d.now = false) : d.flashSendEcho k = d := by
  unfold Dev.flashSendEcho
  rw [hc]
  exact if_neg fun ⟨h1, _, h2⟩ => h.elim (· h1) fun h => Bool.false_ne_true (h.symm.trans h2)

theorem Dev.flashSendEcho_due (hc : d.gbl.cfg = some c) (hk : c.fcKind k.val = 1) (hg : d.gableChecks = true)
    (he : (d.flash.conns[k]).state = .established) (hd : (d.flash.conns[k]).echoDue (c.fcTexp k.val) d.now = true) :
    d.flashSendEcho k = (d.onFlash k fun x => { x with echoOwed := false, sentAt := some d.now }).flashOut c k 5
      (beBytes (d.flash.conns[k]).seq.toNat 2 ++ beBytes (d.flash.conns[k]).ts.toNat 4 ++ [0, 0]) := by
  rw [Fin.getElem_fin] at he hd
  unfold Dev.flashSendEcho
  simp only [hc, hk, hg, hd, he, and_self, if_true]
  rfl

theorem Dev.flashSendStatus_due {otp : BitVec 12} (hc : d.gbl.cfg = some c) (hk : c.fcKind k.val = 2)
    (hg : d.gableChecks = true) (hd : (d.flash.conns[k]).dueAfter d.now (max 1 (c.fcTexp k.val / 4)) = true ∨
      (d.flash.conns[k]).statusSent ≠ d.flashStatus otp) : d.flashSendStatus otp k =
      (d.onFlash k fun x => { x with sentAt := some d.now, statusSent := d.flashStatus otp }).flashOut c k 4
        (d.flashStatus otp) := by
  unfold Dev.flashSendStatus
  rw [hc]
  exact if_pos ⟨hk, hg, hd⟩

theorem Dev.flashSendStatus_none {otp : BitVec 12} (hc : d.gbl.cfg = some c)
    (hd : (d.flash.conns[k]).dueAfter d.now (max 1 (c.fcTexp k.val / 4)) = false)
    (hp : (d.flash.conns[k]).statusSent = d.flashStatus otp) : d.flashSendStatus otp k = d := by
  unfold Dev.flashSendStatus
  rw [hc]
  exact if_neg fun ⟨_, _, h⟩ => h.elim (fun h => Bool.false_ne_true (hd.symm.trans h)) (· hp)

theorem Dev.flashTake_stopped (h : (d.ringAt 28).enabled = false ∨ (d.ringAt 28).stopping = true) : d.flashTake = d := by
  unfold Dev.flashTake
  rcases h with h | h <;> simp [h]

theorem Dev.flashTake_frame {a : Nat}
    (ha : a = (d.ringAt 28).base.toNat + 64 * ((d.ringAt 28).cons.toNat % (d.ringAt 28).entries)) (he : (d.ringAt 28).enabled = true)
    (hs : (d.ringAt 28).stopping = false) (hh : 0 < (d.ringAt 28).held) (hl : d.clean a 64 = true)
    (hc : d.gbl.cfg = none) : d.flashTake =
      ((d.ring 28 fun r => { r with cons := r.cons + 1 }).triggerG 6).flashReceive [1, 2] (d.loftBytes a 64) := by
  have serves : ((d.ringAt 28).enabled && !(d.ringAt 28).stopping && decide (0 < (d.ringAt 28).held)) = true := by
    simp [he, hs, hh]
  have none : (d.ring 28 fun r => { r with cons := r.cons + 1 }).gbl.cfg.isSome = false := congrArg Option.isSome hc
  subst ha
  unfold Dev.flashTake
  simp only [serves, if_true, clean_touch hl, clean_ue hl, Dev.triggerG_gbl, none, Bool.false_and, Bool.or_self,
    Bool.false_eq_true, if_false]

end

/-- A STATUS that is due changes the device alone. -/
theorem exec_flashingStatusSend {s : State} {k : Fin 8} {g : Dev → Dev} (hup : s.dev.coreUp = true)
    (h : s.dev.flashSendStatus s.otp.counter k = g s.dev) : exec (.flashingStatusSend k) s = .next (s.any g) := by
  have sent : s.chipUp (fun m => (m.1.flashSendStatus m.2.counter k, m.2)) = s.any g := by
    rw [State.chipUp_up _ _ hup]
    simp only [State.chip, State.any, h]
  exact congrArg Host.Outcome.next sent

/-- Settles O37, a mechanism at a time. -/
theorem safetyMechanisms : Obligations.SafetyMechanisms := by
  intro s i k code ridge phase g h test hup d
  refine ⟨fun c hc ha hr hn hj => ?_,
    fun c l hc hl hf => ⟨fun ht ha => ?_, fun ht => ?_⟩,
    fun hl hh ht hr => ?_, fun hi => ?_,
    fun hh => ⟨fun hc => ?_, fun c hc hs => ?_, fun c hc hs => ?_⟩,
    fun hc => ?_, fun c hc => ⟨fun hp hq hm hcrc => ?_, fun hbad => ?_⟩,
    fun hj => ⟨fun hn => ?_, fun l hl => ⟨fun hg => ?_, fun hx hr hw hp => ?_, fun hx hr hw hp => ?_, fun hx hr hl => ?_,
      fun hb hf hc => ?_⟩⟩,
    fun t ht => ⟨fun hm hd => ?_, fun hd => ?_⟩,
    fun t hm hw => ⟨fun ht hg hr hk => ?_, fun ht hd => ?_, fun ht => ?_, fun ht => ?_⟩,
    fun hs ht => ?_, fun hs ht hr => ?_,
    fun c hc => ⟨fun he hg ht => ?_, fun hn => ?_, fun hk hg he hd => ?_, fun hk hg => ⟨fun hd => ?_, fun hd hp => ?_⟩⟩,
    fun hn => ?_, fun he hs hh hl hc => ?_⟩
  · exact next_core hup (Dev.encRead_good hc ha hr hn hj)
  · exact next_core hup (Dev.encTimeout_late hc hl hf ha ht)
  · exact next_core_same (Dev.encTimeout_early hc hl ht)
  · exact next_core hup (Dev.gableReset_due hl hh ht hr)
  · exact next_core_same (Dev.gableReset_idle hi)
  · exact next_core hup (Dev.gableReturn_none hh hc)
  · exact next_core hup (Dev.gableReturn_same hh hc hs)
  · exact next_core hup (Dev.gableReturn_changed hh hc hs)
  · exact next_core_same (Dev.ridgeCrc_none hc)
  · exact next_core_same (Dev.ridgeCrc_good hc (Dev.ridgeMemoryOk_iff.mpr ⟨hp, hq, hm, hcrc⟩))
  · refine next_core hup (Dev.ridgeCrc_bad hc fun good => ?_)
    obtain ⟨hp, hq, hm, hcrc⟩ := Dev.ridgeMemoryOk_iff.mp good
    rcases hbad with hb | hb | hb | hb
    · exact hb hp
    · exact hb hq
    · exact Bool.false_ne_true (hm.symm.trans hb)
    · exact hb hcrc
  · exact next_core hup (Dev.liveReadback_noted hj hn)
  · exact next_core hup (Dev.liveReadback_good hj hl hg)
  · exact LiveSample.faults_wrongG hr hx hw (bne_iff_ne.mpr hp)
  · exact LiveSample.faults_wrongH hr hx hw (by rw [hp]; cases phase <;> rfl)
  · exact LiveSample.faults_movedG hr hx hl
  · exact next_core hup (Dev.liveReadback_fault hj hl hb hf hc)
  · exact next_core hup (Dev.tdegExpire_over ht hm hd)
  · exact next_core_same (Dev.tdegExpire_early ht hd)
  · exact next_core hup (Dev.resetEdge_leaves hm hw ht hg hr hk)
  · exact next_core hup (Dev.resetEdge_demand hm hw ht hd)
  · exact next_core hup (Dev.resetWindowEnd_over hm hw ht)
  · exact next_core_same (Dev.resetEdge_late hm hw ht)
  · exact next_core_same (Dev.sf3Timer_early ht)
  · exact next_core hup (Dev.sf3Timer_over hs ht hr)
  · exact next_core hup (Dev.flashTimeout_over hc he hg ht)
  · exact next_core_same (Dev.flashSendEcho_none hc hn)
  · exact next_core hup (Dev.flashSendEcho_due hc hk hg he hd)
  · exact exec_flashingStatusSend hup (Dev.flashSendStatus_due hc hk hg hd)
  · exact exec_flashingStatusSend hup (g := id) (Dev.flashSendStatus_none hc hd hp)
  · exact next_core_same (Dev.flashTake_stopped hn)
  · exact next_core hup (Dev.flashTake_frame rfl he hs hh hl hc)

end Sys2Proof.Machine
end

section
/-! PROOF. The Soffit's field side and the core's side of its link (13 R393 to R420): what each frame, sample, timer and pulse
comes to where its conditions hold. -/

namespace Sys2Proof.Machine

open Sys2Proof

/-! ### Inputs, pairs and the field supply (13 R403 to R406, R414) -/

section
variable {s : Soffit}

theorem FieldIn.filter_raw (i : FieldIn) (raw : InClass) (n : Nat) : (i.filter raw n).raw = i.raw := by
  have settled (j : FieldIn) :
      (if j.count = n then { j with filtered := j.candidate, count := 0 } else j).raw = j.raw := by
    split <;> rfl
  unfold FieldIn.filter
  refine (settled _).trans ?_
  split
  · rfl
  · split <;> rfl

theorem Soffit.evalPair_inputs (p : Nat) : (s.evalPair p).inputs = s.inputs := by
  unfold Soffit.evalPair
  split <;> rfl

/-- A measurement of an input gives it the raw class of its current (13 R403). -/
theorem Soffit.measure_raw (k : Fin 8) (ua : Nat) : ((s.measure k ua).inputs[k]).raw =
    (rawClass (s.inputs[k]).raw (fInMode s.field k.val 1) ua).1 := by
  unfold Soffit.measure
  simp only [Soffit.evalPair_inputs, upd, Fin.getElem_fin, Vector.getElem_set_self, FieldIn.startTest, FieldIn.record]
  split
  · rfl
  · exact FieldIn.filter_raw _ _ _

theorem Soffit.sample_raw {k : Fin 8} (hp : s.powered = true) (hd : (s.inputs[k]).due ≤ s.us) (ua : Nat) :
    ((s.sample k ua false).inputs[k]).raw = (rawClass (s.inputs[k]).raw (fInMode s.field k.val 1) ua).1 := by
  rw [← Soffit.measure_raw k ua]
  rw [Fin.getElem_fin] at hd
  unfold Soffit.sample
  simp only [hp, hd, decide_true, Bool.and_self, if_true, upd, Fin.getElem_fin, Vector.getElem_set_self, Bool.false_eq_true,
    if_false]

theorem Soffit.discTimeout_due {p : Fin 4} {t : Nat} (ht : (s.pairs[p]).since = some t) (hd : (s.pairs[p]).disc = false)
    (hu : t + 1000 * fPairDisc s.field p.val < s.us) : s.discTimeout p =
      { s with pairs := upd s.pairs p fun x => { x with disc := true }, faultKind := 7,
               faultIndex := BitVec.ofNat 3 p.val } := by
  rw [Fin.getElem_fin] at ht hd
  unfold Soffit.discTimeout
  simp only [ht, hd, hu, decide_true, Bool.not_false, Bool.and_self, if_true]

/-- L+ in range keeps its normal state, and no change of it is under way (13 R414). -/
theorem Soffit.lplusSeen_normal {mv : Nat} (hp : s.powered = true) (hl : s.lplus = 0) (hm : 19200 ≤ mv) :
    s.lplusSeen mv = { s with lowTimer := none, missTimer := none } := by
  have notLow : decide (mv < 19200) = false := decide_eq_false (by omega)
  have notMissing : decide (mv < 15000) = false := decide_eq_false (by omega)
  obtain ⟨⟩ := s
  dsimp only at hp hl
  subst hp hl
  simp [Soffit.lplusSeen, notLow, notMissing, timerFor, timerRan, Soffit.lplusTo]

/-! ### Outputs and their tests (13 R409 to R413, R415) -/

theorem Soffit.testStart_due {k : Fin 8} {off : Bool} (hp : s.powered = true) (ht : s.test = none) (hl : s.lplus = 0)
    (hm : s.mayTest k.val off = true) (hd : s.testDue k off = true) : ∃ x, (s.testStart k off).test = some x ∧ x.out = k ∧
      x.off = off ∧ x.start = s.us := by
  unfold Soffit.testStart
  simp only [hp, ht, hl, hm, hd, Option.isNone_none, BEq.rfl, Bool.and_self, if_true]
  exact ⟨_, rfl, rfl, rfl, rfl⟩

/-- A test pulse that ends while L+ is low or missing has no verdict (13 R412, R414). -/
theorem Soffit.testEnd_over {t : OutTest} (ht : s.test = some t) (hu : t.start + t.width ≤ s.us) (hl : s.lplus ≠ 0)
    (mv ua : Vector Nat 8) : (s.testEnd mv ua).test = none := by
  unfold Soffit.testEnd
  simp only [ht, Nat.not_lt.mpr hu, hl, ne_eq, not_false_eq_true, if_true, if_false]
  rfl

theorem Soffit.shortTimer_off {k : Fin 8} (hp : s.powered = true) (ho : (s.outputs[k]).on = false) (ma mv : Nat) :
    s.shortTimer k ma mv = { s with outputs := upd s.outputs k fun o =>
      { o with limitSince := none, readback := readHigh (s.outputs[k]).readback mv } } := by
  rw [Fin.getElem_fin] at ho
  unfold Soffit.shortTimer
  simp only [hp, ho, if_true, Bool.false_and, Bool.and_false, Bool.false_eq_true, if_false, timerFor]
  rfl

theorem Soffit.thermal_hot (hp : s.powered = true) (hl : s.lplus = 0) (k : Fin 8) :
    s.thermal k true = s.fault k.val .thermal 0 := by
  unfold Soffit.thermal
  rw [hp]
  exact if_pos hl

theorem Soffit.silence_due (hp : s.powered = true) (ht : s.rxAt + 1000 * fTsil s.field < s.us) :
    s.silence = Soffit.settle { s with safeState := true, silenced := true, rxAny := true } := by
  unfold Soffit.silence
  simp only [hp, ht, decide_true, Bool.and_self, if_true]

end

/-! ### Frames at the Soffit (13 R396, R397, R401) -/

section
variable {d : Dev}

theorem Dev.triggerF_soffit (code : Nat) : (d.triggerF code).soffit = d.soffit := by
  unfold Dev.triggerF
  split <;> rfl

theorem Dev.triggerF_fld (code : Nat) : (d.triggerF code).fld = d.fld := by
  unfold Dev.triggerF
  split <;> rfl

theorem Dev.onSoffit_soffit (f : Soffit) (test : Bool) : (d.onSoffit f test).soffit = f := by
  unfold Dev.onSoffit
  cases test with
  | false => rfl
  | true => exact Dev.triggerF_soffit 4

variable {gs : List (BitVec 10)} {r : List (List (BitVec 10))} {noise : List (BitVec 10)} {x : CmdFrame}

theorem Dev.cmdFrame_read (hd : d.fld.down = gs :: r) (hx : (barrierWords (withNoise gs noise)).bind cmdOfWords = some x) :
    d.cmdFrame (sentConfig gs) noise = Dev.takeCmd { d with fld := { d.fld with down := r } } x := by
  unfold Dev.cmdFrame
  simp only [hd, hx, ne_eq, not_true_eq_false, if_false]

theorem Dev.takeCmd_config (ha : d.soffit.accepts x = true) (hc : x.config = true) : d.takeCmd x =
    (let z := d.soffit.receive x (d.thatch.soffit.mode == .halted || d.thatch.soffit.dbgHalt)
     d.onSoffit (z.1.configure x) z.2) := by
  unfold Dev.takeCmd
  simp only [ha, hc, if_true]

theorem Dev.takeCmd_data (ha : d.soffit.accepts x = true) (hc : x.config = false) : d.takeCmd x =
    (let z := d.soffit.receive x (d.thatch.soffit.mode == .halted || d.thatch.soffit.dbgHalt)
     (d.onSoffit { z.1 with payload := x.words } z.2).triggerF 1) := by
  unfold Dev.takeCmd
  simp only [ha, hc, if_true, Bool.false_eq_true, if_false]

theorem Dev.sendInputFrame_up (hp : d.soffit.powered = true) :
    d.sendInputFrame.fld.up = d.fld.up ++ [barrierFrame d.soffit.upRd d.inputWords] := by
  unfold Dev.sendInputFrame
  simp only [hp, if_true, Dev.triggerF_fld]

/-! ### The core side (13 R397, R398, R408, R420) -/

theorem Dev.soffitSilent_due (ht : d.fld.rxAt + 2000 ≤ d.now) (ho : d.fld.rxOk = true) : d.soffitSilent =
    (Dev.event { d with fld := { d.fld with rxOk := false } } 0x0A07 1).refreshField := by
  unfold Dev.soffitSilent
  rw [if_neg (Nat.not_lt.mpr ht), if_pos ho]

theorem Dev.inputFrame_accepted {f : InputFrame} (hu : d.fld.up = gs :: r)
    (hx : (barrierWords (withNoise gs noise)).bind inputOfWords = some f)
    (hn : d.fld.rxAny = true ∨ (f.w[0]).extractLsb' 0 4 = d.fld.rxCnt + 1) :
    d.inputFrame noise = Dev.acceptInput { d with fld := { d.fld with up := r } } f := by
  have next : (d.fld.rxAny || (f.w[0]).extractLsb' 0 4 == d.fld.rxCnt + 1) = true := by simpa using hn
  unfold Dev.inputFrame
  simp only [hu, hx, next, if_true]

theorem Dev.douserTimeout_due {c : SafetyConfig} (hc : d.gbl.cfg = some c) (hm : d.sys.mode = .proof)
    (hb : d.sys.proofBusy = true) (hs : d.sys.proofStep = 6) (hd : d.fld.douserStep ≠ 0)
    (ht : d.fld.douserAt + 1000 * fDouserMs c.field < d.now) : d.douserTimeout =
      (let x := d.douserClose.event 0x0A0B (pay 1 d.fld.douserStep)
       Dev.proofFails { x with fld := { x.fld with douserStep := 0 } } 6) := by
  unfold Dev.douserTimeout
  rw [hc]
  exact if_pos ⟨hm, hb, hs, hd, ht⟩

theorem dqCmdWord_bits (on clear : Bool) :
    (bit 0 on ||| bit 1 clear).getLsbD 0 = on ∧ (bit 0 on ||| bit 1 clear).getLsbD 1 = clear := by
  revert on clear
  decide

/-- A host write of FLD_DQ_k_CMD that its register takes (13 R420). -/
theorem exec_fldDqCmdWrite {s : State} {k : Fin 8} {on clear : Bool}
    (h : s.takesWrite (0x20080040 + 4 * k.val) (bit 0 on ||| bit 1 clear) = true) :
    exec (.fldDqCmdWrite k on clear) s = .next (s.hosted fun d => d.dqCmdWrite k.val on clear) := by
  have page : (0x20080040 + 4 * k.val) / 0x10000 = 0x2008 := by omega
  have offset : (0x20080040 + 4 * k.val) % 0x10000 = 0x40 + 4 * k.val := by omega
  have notFirst : ¬ 0x40 + 4 * k.val = 0 := by omega
  have index : (0x40 + 4 * k.val - 0x40) / 4 = k.val := by omega
  obtain ⟨bit0, bit1⟩ := dqCmdWord_bits on clear
  refine congrArg Host.Outcome.next ((hostPut_takes h).trans ?_)
  simp only [regEffect, page, offset, Dev.fldWrite, notFirst, if_false, Nat.le_add_right, if_true, index, bit0, bit1]
  rfl

end

end Sys2Proof.Machine
end

section
/-! PROOF. The rows of safety, of the Soffit's field side, of power and resets, each where its conditions hold: what the next
state holds (11 R319 to R349, 12 R377 to R382, 13 R393 to R420, 15 R441 to R466). -/

namespace Sys2Proof.Machine

open Sys2Proof

/-! ### PROOF's age, the PLL and the wakes (15 R446, R447, R463) -/

section
variable {d : Dev}

theorem Dev.proofAgeTick_age (h : d.sys.proofAge ≠ 0xFFFF) : d.proofAgeTick.sys.proofAge = d.sys.proofAge + 1 := by
  unfold Dev.proofAgeTick
  simp only [h, if_false]
  split
  · rw [Dev.event_sys]
  · rfl

theorem Dev.startCk_sys : d.startCk.sys = d.sys := by
  unfold Dev.startCk
  split <;> rfl

theorem Dev.pllRetry_lock {t : Nat} (ht : d.sys.lockDue = some t) (hb : d.sys.hold.brown = false) (hd : t ≤ d.alwaysOn)
    (lock : Bool) : (d.pllRetry lock).sys.lock = lock ∧ (d.pllRetry lock).sys.lockTries = satInc d.sys.lockTries := by
  rw [Dev.pllRetry_due ht hb hd, Dev.startCk_sys]
  exact ⟨rfl, rfl⟩

/-- A wake from RETENTION leads to PROOF or LOAD with the PLL locked (15 R463). -/
theorem Dev.retentionWake_bearing (hm : d.sys.mode = .retention) (hc : d.sys.hold.clear = true) (hl : d.acc.lapse = none) :
    d.retentionWake.sys.mode = (if d.sys.retFromArmed then .proof else .load) ∧ d.retentionWake.sys.lock = true := by
  have woken : d.retentionWake.bearing = (d.gbl.held, if d.sys.retFromArmed then .proof else .load, true) := by
    have streams (z : Dev) (w : Thatch) : (Dev.flashStart { z with thatch := w } true).bearing = z.bearing :=
      Dev.flashStart_bearing _ true
    rw [Dev.retentionWake_wakes hm hc hl]
    exact (streams _ _).trans ((Dev.event_bearing _ _ _).trans (Dev.toMode_bearing _ _ _ _))
  exact Prod.mk.inj (Prod.mk.inj woken).2

end

/-- A change at any time, by the device that it leaves. -/
theorem next_any_dev {s : State} {f : Dev → Dev} {t : Dev} (h : f s.dev = t) :
    (Host.Outcome.next (s.any f) : Host.Outcome State Fault Refusal) = .next { s with dev := t } :=
  congrArg (fun x => Host.Outcome.next { s with dev := x }) h

/-- A change of a core die that is up, by the device that it leaves. -/
theorem next_core_dev {s : State} {f : Dev → Dev} {t : Dev} (hup : s.dev.coreUp = true) (h : f s.dev = t) :
    (Host.Outcome.next (s.core f) : Host.Outcome State Fault Refusal) = .next { s with dev := t } :=
  (congrArg Host.Outcome.next (s.core_up f hup)).trans (next_any_dev h)

/-- A change of the Soffit alone, by what it comes to on the Soffit as it stands. -/
theorem next_soffit {s : State} {f : Dev → Soffit} {x : Soffit} (h : f s.dev = x) :
    (Host.Outcome.next (s.any fun d => { d with soffit := f d }) : Host.Outcome State Fault Refusal) =
      .next (s.any fun d => { d with soffit := x }) :=
  congrArg (fun x => Host.Outcome.next (s.any fun d => { d with soffit := x })) h

/-- Settles O59, a row at a time. -/
theorem safetyAndPowerCommandsComplete : Obligations.SafetyAndPowerCommandsComplete := by
  intro s i k p code ridge phase g h off ok lock ma mv ua lp volts amps noise role seen d f y goes holds
  refine ⟨fun hup => ⟨fun c hc ha hr hn hl hi => ?sample, fun c l hc hl hf ht ha => ?_, fun hl hh ht hr => ?reset,
      fun hh hc => ?_, fun c hc hb => ?parity, fun hj hl => ?live, fun t ht hm hd => ?_,
      fun t hm hw h2 hg hr hk => ⟨fun ht => ?edge, fun ht => ?_⟩, fun hs ht hr => ?_,
      fun c hc hg => ⟨fun he ht => ?_, fun hk he hd => ?_, fun hk hd => ?_⟩, fun he hs hh hl hc => ?_,
      fun ht ho => ?silent, fun gs r x hu hx hn => ?_, fun c hc hm hb hs hd ht => ?_, fun hw => ?command,
      fun hm ha ht => ?truss, fun hm ho hb ht => ?window, fun hf => ?_, fun hm hb ht => ?_, fun ha => ?age,
      fun hm hb hs hl => ?_⟩,
    fun hp => ?powerUp, fun gs r x hd hx ha => ⟨fun hs hc => ?config, fun hs hc => ?data⟩,
    fun hp => ⟨?send, fun hd hs => ?input, fun ht hl hm hd hr => ?pulse, fun ho => ?short, fun hl => ?_, fun hl hv => ?lplus,
      fun ht => ?_⟩,
    fun t ht hd hu => ?disc, fun t ht hu ho hl => ?pulseEnd, fun hb hp => ?powerOn, fun t ht hb hd => ?pll, ?brown, ?vstby,
    fun ho => ?assert, fun hr => ?release, fun hm => ?resetEnd, fun hm hc hl => ?retention, fun hm ho ht => ?standby⟩
  case sample =>
    have axis := Dev.encGood_axis (d := s.dev) i (c.encPos i.val code) s.dev.now
    refine ⟨_, next_core_dev hup (Dev.encRead_good hc ha hr hn fun l h => ?_), congrArg EncAxis.fault axis,
      congrArg EncAxis.bad axis, _, congrArg EncAxis.last axis⟩
    exact absurd (hl.symm.trans h) nofun
  · exact next_core hup (Dev.encTimeout_late hc hl hf ha ht)
  case reset => exact ⟨_, next_core_dev hup (Dev.gableReset_due (.inl hl) hh ht (.inl hr)), rfl, rfl, rfl⟩
  · exact next_core hup (Dev.gableReturn_none hh hc)
  case parity => exact next_core hup (Dev.ridgeCrc_bad hc fun good => hb (Dev.ridgeMemoryOk_iff.mp good).1)
  case live => exact ⟨_, next_core_dev hup (Dev.liveReadback_noted (ridge := false) hj (.inl hl)), rfl⟩
  · exact next_core hup (Dev.tdegExpire_over ht hm hd)
  case edge =>
    refine next_core hup ((Dev.resetEdge_leaves hm hw ht hg hr hk).trans ?_)
    rw [h2]
    rfl
  · exact next_core hup (Dev.resetWindowEnd_over hm hw ht)
  · exact next_core hup (Dev.sf3Timer_over hs ht hr)
  · exact next_core hup (Dev.flashTimeout_over hc he hg ht)
  · exact next_core hup (Dev.flashSendEcho_due hc hk hg he hd)
  · exact exec_flashingStatusSend hup (Dev.flashSendStatus_due hc hk hg (.inl hd))
  · exact next_core hup (Dev.flashTake_frame rfl he hs hh hl hc)
  case silent => exact next_core hup (congrArg Dev.calCheck (Dev.soffitSilent_due ht ho))
  · exact next_core hup (Dev.inputFrame_accepted hu hx hn)
  · exact next_core hup (Dev.douserTimeout_due hc hm hb hs hd ht)
  case command => exact ⟨_, exec_fldDqCmdWrite hw, rfl, rfl⟩
  case truss =>
    obtain ⟨u, hu, down, hold, -⟩ := exec_trussHaltReset s hup hm ha ht
    exact ⟨u, hu, down, hold⟩
  case window => exact ⟨_, next_core_dev hup (Dev.bootWindowExpire_late ht hm ho hb), rfl, rfl, rfl⟩
  · exact next_core hup (Dev.clockFault_fault hup hf)
  · exact next_core hup (Dev.proofTimeout_due ht hm hb)
  case age => exact ⟨_, next_core_dev hup rfl, Dev.proofAgeTick_age ha⟩
  · exact next_core hup (Dev.proofReadback_passes hm hb hs hl)
  case powerUp => exact ⟨_, next_any_dev (if_neg (ne_true_of_eq_false hp)), rfl⟩
  case config =>
    have read := Dev.cmdFrame_read hd hx
    rw [hs] at read
    exact next_any (read.trans (Dev.takeCmd_config ha hc))
  case data =>
    have read := Dev.cmdFrame_read hd hx
    rw [hs] at read
    exact next_any (read.trans (Dev.takeCmd_data ha hc))
  case send => exact ⟨_, rfl, Dev.sendInputFrame_up hp⟩
  case input =>
    have sampled := congrArg (s.dev.soffit.sample k ua) hs
    exact ⟨_, next_soffit sampled, Soffit.sample_raw hp hd ua⟩
  case pulse =>
    have started := Soffit.testStart_due hp ht hl hm hd
    exact ⟨_, next_any_dev (if_neg (ne_true_of_eq_false hr)), started⟩
  case short =>
    exact ⟨_, next_soffit (Soffit.shortTimer_off hp ho ma mv), congrArg FieldOut.limitSince (upd_same _ k _), rfl⟩
  · exact next_soffit (Soffit.thermal_hot hp hl k)
  case lplus =>
    have normal := Soffit.lplusSeen_normal (mv := min lp lp) hp hl (by rwa [Nat.min_self])
    exact ⟨_, next_soffit normal, hl, rfl, rfl⟩
  · exact next_soffit (Soffit.silence_due hp ht)
  case disc => exact ⟨_, next_soffit (Soffit.discTimeout_due ht hd hu), congrArg FieldPair.disc (upd_same _ p _), rfl⟩
  case pulseEnd =>
    exact ⟨_, rfl, (congrArg Soffit.test (Dev.onSoffit_soffit _ _)).trans (Soffit.testEnd_over ht hu hl volts amps)⟩
  case powerOn => exact ⟨_, next_any_dev (Dev.powerOn_powered hb hp lock), rfl, rfl, rfl, rfl⟩
  case pll => exact ⟨_, rfl, Dev.pllRetry_lock ht hb hd lock⟩
  case brown =>
    obtain ⟨u, hu, down, brown, rails, -⟩ := exec_brownOut s lock
    exact ⟨u, hu, down, brown, rails⟩
  case vstby =>
    obtain ⟨u, hu, mode, down, -⟩ := exec_vstbyLoss s
    exact ⟨u, hu, mode, down⟩
  case assert =>
    obtain ⟨u, hu, down, rstN, -⟩ := exec_rstNAssert s ho
    exact ⟨u, hu, down, rstN⟩
  case release => exact ⟨_, next_any_dev (Dev.rstRelease_held hr), rfl⟩
  case resetEnd =>
    obtain ⟨mode, straps, -⟩ := Dev.resetEnd_rebooted (role := role) off hm
    exact ⟨_, rfl, mode, straps⟩
  case retention => exact ⟨_, rfl, Dev.retentionWake_bearing hm hc hl⟩
  case standby => exact ⟨_, next_any_dev (Dev.standbyWake_due hm ho ht), rfl, rfl, rfl⟩

end Sys2Proof.Machine
end

section
/-! PROOF. The Soffit's defaults (13 R402): the fields of a section written as its bytes, and what power-up leaves. -/

namespace Sys2Proof.Machine

open Sys2Proof

/-! ### A section written as its bytes -/

theorem leNat_div_mod (bs : List Byte) (k : Nat) : leNat bs / 2 ^ (8 * k) % 2 ^ 8 = (bs.getD k 0).toNat := by
  induction bs generalizing k with
  | nil => rw [leNat, Nat.zero_div]; rfl
  | cons b bs ih =>
    have hb : b.toNat < 2 ^ 8 := b.isLt
    cases k with
    | zero => simp only [leNat, List.getD_cons_zero]; omega
    | succ k =>
      have drop : leNat (b :: bs) / 2 ^ 8 = leNat bs := by simp only [leNat]; omega
      rw [Nat.mul_succ, Nat.add_comm, Nat.pow_add, ← Nat.div_div_eq_div_mul, drop, ih, List.getD_cons_succ]

/-- Byte `k` of the packed list is the list's, where the whole byte is inside the vector. -/
theorem byteAt_packBytes {w k : Nat} (bs : List Byte) (h : 8 * k + 8 ≤ w) : byteAt (packBytes w bs) k = bs.getD k 0 := by
  apply BitVec.eq_of_toNat_eq
  have split : 2 ^ w = 2 ^ (8 * k) * 2 ^ (w - 8 * k) := by rw [← Nat.pow_add]; congr 1; omega
  have keep : 2 ^ 8 ∣ 2 ^ (w - 8 * k) := Nat.pow_dvd_pow 2 (by omega)
  rw [byteAt, packBytes, BitVec.extractLsb'_toNat, BitVec.toNat_ofNat, Nat.shiftRight_eq_div_pow, split,
    Nat.mod_mul_right_div_self, Nat.mod_mod_of_dvd _ keep, leNat_div_mod]

/-- A field of 16 bits is its two bytes, the low one first. -/
theorem half16_eq_bytes {w : Nat} (x : BitVec w) (k : Nat) : half16 x k = byteAt x (k + 1) ++ byteAt x k :=
  (BitVec.extractLsb'_append_extractLsb'_eq_extractLsb' (x := x) (Nat.mul_succ 8 k)).symm

/-! ### The bytes of the defaults (13 R399, R402) -/

theorem defaultField_silence : half16 defaultField 0 = 20 := by
  rw [half16_eq_bytes, defaultField, byteAt_packBytes _ (by decide), byteAt_packBytes _ (by decide)]
  decide

theorem defaultField_input (k off : Fin 8) : fIn defaultField k.val off.val = [0, 2, 20, 3, 0xFF, 0, 0, 0].getD off.val 0 := by
  rw [fIn, defaultField, byteAt_packBytes _ (by omega)]
  decide +revert

/-- Past the inputs the defaults are zeros: no pair, and every output unused. -/
theorem defaultField_zero {j : Nat} (h : 80 ≤ j) (hj : j < 160) : byteAt defaultField j = 0 := by
  rw [defaultField, byteAt_packBytes _ (by omega), List.getD_eq_getElem?_getD, List.getElem?_append_right h,
    List.getElem?_replicate]
  split <;> rfl

theorem defaultField_half_zero {j : Nat} (h : 80 ≤ j) (hj : j + 1 < 160) : half16 defaultField j = 0 := by
  rw [half16_eq_bytes, defaultField_zero h (by omega), defaultField_zero (by omega) hj]
  rfl

/-! ### The Soffit without a configuration (13 R402) -/

theorem Soffit.field_default {f : Soffit} (h : f.cfg = none) : f.field = defaultField := by rw [Soffit.field, h]; rfl

theorem fLead_lt (f : BitVec 1280) {k : Nat} (h : k < 8) : fLead f k < 8 := by
  unfold fLead
  dsimp only
  split
  · omega
  · split <;> omega

theorem fOutAssign_default {k : Nat} (h : k < 8) : fOutAssign defaultField k = 0 :=
  congrArg BitVec.toNat (defaultField_zero (by omega) (by omega))

/-- An output assigned to no one is off. -/
theorem Soffit.follows_unused {f : Soffit} {k : Nat} (h : fOutAssign f.field (fLead f.field k) = 0) :
    f.follows k = false := by
  simp only [Soffit.follows, h, beq_self_eq_true, Bool.or_true, Bool.true_or, if_true]

/-- At power-up the Soffit holds no configuration and every output is off (13 R393, R402). -/
theorem Dev.soffitPowerUp_starts (d : Dev) : d.soffitPowerUp.soffit.powered = true ∧ d.soffitPowerUp.soffit.cfg = none ∧
    ∀ k : Fin 8, (d.soffitPowerUp.soffit.outputs[k]).on = false :=
  ⟨rfl, rfl, fun k => congrArg FieldOut.on (Vector.getElem_replicate k.isLt)⟩

/-- Settles O50, by what power-up leaves and by the bytes of the defaults. -/
theorem soffitDefaults : Obligations.SoffitDefaults := by
  refine ⟨fun s h => ⟨_, next_any_dev (if_neg (ne_true_of_eq_false h)), Dev.soffitPowerUp_starts s.dev⟩, fun f h => ?_⟩
  have off (k : Fin 8) : f.follows k.val = false := by
    apply Soffit.follows_unused
    rw [Soffit.field_default h]
    exact fOutAssign_default (fLead_lt _ k.isLt)
  rw [Soffit.field_default h]
  refine ⟨fun k => ⟨defaultField_input k 2, ?cont, defaultField_input k 3, ?wb, fOutAssign_default k.isLt, ?safe, ?offt, ?ont,
    defaultField_input k 4, off k⟩, fun p => ?pair, defaultField_silence⟩
  case cont => exact congrArg (fun b : Byte => b.getLsbD 0) (defaultField_input k 1)
  case wb => exact congrArg (fun b : Byte => b.getLsbD 1) (defaultField_input k 1)
  case safe => exact congrArg BitVec.toNat (defaultField_zero (by omega) (by omega))
  case offt => exact congrArg BitVec.toNat (defaultField_half_zero (by omega) (by omega))
  case ont => exact congrArg BitVec.toNat (defaultField_zero (by omega) (by omega))
  case pair => exact congrArg BitVec.toNat (defaultField_zero (by omega) (by omega))

end Sys2Proof.Machine
end

section
/-! PROOF. Calibration runs and their steps, and the host's writes of codes, of APPLY and of ABORT (14 R422 to R432). -/

namespace Sys2Proof.Machine

open Sys2Proof

section
variable {d : Dev}

/-! ### Runs (14 R424, R425, R430) -/

/-- In a mode that CAL_RUN allows, everything queued starts as one run. -/
theorem Dev.calStart_queued {a : CalAsk} {r : List CalAsk} (hup : d.coreUp = true) (hq : d.trim.queued = a :: r)
    (hm : d.sys.mode.calibrates = true) (hr : d.sys.mode.calRuns = true) (hi : d.trim.running = false) :
    d.calStart =
      (let steps := (a :: r).foldl (fun m x => m ||| x.steps) 0
       let y : Dev := { d with trim := { d.trim with
         running := true, queued := [], shadow := d.trim.applied, pend := steps, steps := steps, trigger := a.trigger,
         startTime := d.now, startTemp := d.thm.dieTemp, deferredRun := 0, active := 0 } }
       y.event 0x0B06 (pay 0 a.trigger ||| payN 8 (popcount steps))) := by
  have starts : (d.sys.mode.calibrates && !d.trim.running && d.coreUp) = true := by rw [hm, hi, hup]; rfl
  have asks : (d.trim.queued.filter fun a => d.sys.mode.calRuns || a.cmd.isNone) = a :: r := by simp [hr, hq]
  have late : (d.trim.queued.filterMap fun a => if d.sys.mode.calRuns then none else a.cmd) = [] := by simp [hr]
  unfold Dev.calStart
  rw [if_pos starts, asks, late]
  rfl

/-- Outside them a CAL_RUN that waits alone is cancelled (03 R85). -/
theorem Dev.calStart_late {a : CalAsk} {ring tag} (hup : d.coreUp = true) (hq : d.trim.queued = [a])
    (ha : a.cmd = some (ring, tag)) (hm : d.sys.mode.calibrates = true) (hr : d.sys.mode.calRuns = false)
    (hi : d.trim.running = false) :
    d.calStart = Dev.cancelled { d with trim := { d.trim with queued := [] } } ring tag := by
  have starts : (d.sys.mode.calibrates && !d.trim.running && d.coreUp) = true := by rw [hm, hi, hup]; rfl
  have asks : (d.trim.queued.filter fun a => d.sys.mode.calRuns || a.cmd.isNone) = [] := by simp [hr, hq, ha]
  have late : (d.trim.queued.filterMap fun a => if d.sys.mode.calRuns then none else a.cmd) = [(ring, tag)] := by
    simp [hr, hq, ha]
  unfold Dev.calStart
  rw [if_pos starts, asks, late]
  rfl

theorem Dev.calStart_none (h : d.trim.queued = [] ∨ d.trim.running = true) : d.calStart = d := by
  unfold Dev.calStart
  split
  next starts =>
    simp only [Bool.and_eq_true, Bool.not_eq_true'] at starts
    obtain ⟨⟨-, idle⟩, -⟩ := starts
    have empty : d.trim.queued = [] := h.resolve_right (ne_true_of_eq_false idle)
    rw [empty]
    simp only [List.filterMap_nil, List.filter_nil, List.foldl_nil]
    rw [← empty]
  next => rfl

/-- A run with nothing pending ends with its whole set (R430). -/
theorem Dev.calEnd_whole (h : d.trim.pend = 0) : d.calEnd =
    (let y : Dev := { d with trim := { d.trim with
       applied := d.trim.shadow, gen := d.trim.gen + 1, running := false, stale := 0, pend := 0, count := d.trim.count + 1,
       lastTime := BitVec.ofNat 64 d.trim.startTime, lastTemp := d.trim.startTemp, lastEnd := 1 } }
     y.event 0x0B01 (pay 0 y.trim.count ||| pay 32 y.trim.gen ||| payN 56 0 ||| payN 57 (popcount (0 : BitVec 48)))) := by
  unfold Dev.calEnd
  rw [h]
  rfl

theorem Dev.calTimeout_due (hr : d.trim.running = true) (ha : d.trim.active = 0) (he : d.calExpired = true) :
    d.calTimeout = d.calEnd :=
  if_pos (by rw [hr, ha, he]; rfl)

theorem Dev.calTimeout_not_due (he : d.calExpired = false) : d.calTimeout = d :=
  if_neg (by simp [he])

/-- A TIMEOUT of 0 never ends a run (R430). -/
theorem Dev.calExpired_never (h : d.trim.timeout = 0) : d.calExpired = false := by
  rw [Dev.calExpired, h]
  rfl

/-! ### Steps that start or wait (14 R422, R426 to R428) -/

/-- A step of the run in progress for which nothing but its own precondition is left to ask (R426). -/
structure Dev.StepNext (d : Dev) (k : Fin 48) : Prop where
  running : d.trim.running = true
  pending : d.trim.pend.getLsbD k.val = true
  idle : d.trim.active.getLsbD k.val = false
  free : d.trim.blocked k.val = false
  inTime : d.calExpired = false

/-- A step in progress, from now on. -/
def Dev.stepBegun (d : Dev) (k : Fin 48) : Dev :=
  { d with trim := { d.trim with active := setBit d.trim.active k.val true, began := upd d.trim.began k fun _ => d.now } }

theorem Dev.calStep_next {k : Fin 48} (h : d.StepNext k) (sense : Nat) :
    d.calStep k sense = if d.stepReason k.val sense true ≠ 0 then d.deferStep k.val (d.stepReason k.val sense true)
      else (if k.val < 24 then d.stepHold (Fin.ofNat 8 k.val) else d).stepBegun k := by
  unfold Dev.calStep
  rw [h.running, h.pending, h.idle, h.free, h.inTime]
  rfl

theorem Dev.calStep_waits {k : Fin 48} (h : d.StepNext k) {sense : Nat} (hw : d.stepReason k.val sense true ≠ 0) :
    d.calStep k sense = d.deferStep k.val (d.stepReason k.val sense true) :=
  (Dev.calStep_next h sense).trans (if_pos hw)

theorem Dev.calStep_starts {k : Fin 48} (h : d.StepNext k) {sense : Nat} (hw : d.stepReason k.val sense true = 0) :
    d.calStep k sense = (if k.val < 24 then d.stepHold (Fin.ofNat 8 k.val) else d).stepBegun k :=
  (Dev.calStep_next h sense).trans (if_neg (not_not_intro hw))

/-- In LOAD and TRIM nothing holds back a channel's step, and GATE is held low for it (R422, R428). -/
theorem Dev.calStep_channel {k : Fin 48} (h : d.StepNext k) (sense : Nat) (hk : k.val < 24)
    (hm : d.sys.mode = .load ∨ d.sys.mode = .trim) :
    d.calStep k sense = (d.onStr (Fin.ofNat 8 k.val) fun c => { c with gate := false }).stepBegun k := by
  have free : d.stepReason k.val sense true = 0 := by rw [Dev.stepReason, if_pos hk, if_pos hm]
  rw [Dev.calStep_starts h free, if_pos hk, Dev.stepHold, if_pos hm]

/-- A step is counted and reported at its first deferral in a run, and not again (R426). -/
theorem Dev.deferStep_first {k : Nat} (h : d.trim.deferredRun.getLsbD k = false) (n : Nat) : d.deferStep k n =
    (let y : Dev := { d with trim := { d.trim with
       deferredRun := setBit d.trim.deferredRun k true, deferred := satInc d.trim.deferred } }
     y.event 0x0B03 (payN 0 k ||| payN 8 n)) :=
  if_neg (ne_true_of_eq_false h)

theorem Dev.deferStep_again {k : Nat} (h : d.trim.deferredRun.getLsbD k = true) (n : Nat) : d.deferStep k n = d :=
  if_pos h

/-- A step given up for the first time in a run is deferred (R426). -/
theorem Dev.dropStep_first {k : Nat} (h : d.trim.deferredRun.getLsbD k = false) (n : Nat) : d.dropStep k n =
    (let y : Dev := { d with trim := { d.trim with
       active := setBit d.trim.active k false, deferredRun := setBit d.trim.deferredRun k true,
       deferred := satInc d.trim.deferred } }
     y.event 0x0B03 (payN 0 k ||| payN 8 n)) :=
  Dev.deferStep_first (d := { d with trim := { d.trim with active := setBit d.trim.active k false } }) h n

/-! ### Steps that end (14 R429) -/

/-- A step in progress that has had its time. -/
structure Dev.StepEnds (d : Dev) (k : Fin 48) : Prop where
  running : d.trim.running = true
  active : d.trim.active.getLsbD k.val = true
  timeUp : d.stepOver k = true

/-- The code of a step that ends, taken into the shadow set. -/
def Dev.codeTaken (d : Dev) (k : Fin 48) (code : BitVec 10) : Dev :=
  { d with trim := { d.trim with
    shadow := upd d.trim.shadow k fun _ => code, pend := setBit d.trim.pend k.val false,
    active := setBit d.trim.active k.val false } }

/-- How far a code is from the factory's (R429). -/
def offFactory (k : Fin 48) (code : BitVec 10) : Nat :=
  ((code.toNat : Int) - ((Config.factoryTrim k).toNat : Int)).natAbs

theorem Dev.calStepDone_cases {k : Fin 48} (h : d.StepEnds k) (found : Bool) (code : BitVec 10) (sense : Nat) :
    d.calStepDone k found code sense =
      if d.stepReason k.val sense false ≠ 0 then d.dropStep k.val (d.stepReason k.val sense false)
      else if (!found || decide (128 < offFactory k code)) = true then d.abortTrim 1 3 (BitVec.ofNat 6 k.val)
      else if setBit d.trim.pend k.val false = 0 then (d.codeTaken k code).calEnd else (d.codeTaken k code).calTimeout := by
  unfold Dev.calStepDone
  rw [h.running, h.active, h.timeUp]
  rfl

theorem Dev.calStepDone_not_over {k : Fin 48}
    (h : d.trim.running = false ∨ d.trim.active.getLsbD k.val = false ∨ d.stepOver k = false) (found : Bool)
    (code : BitVec 10) (sense : Nat) : d.calStepDone k found code sense = d := by
  have early : (!(d.trim.running && d.trim.active.getLsbD k.val && d.stepOver k)) = true := by
    rcases h with h | h | h <;> rw [h] <;> simp only [Bool.false_and, Bool.and_false, Bool.not_false]
  exact if_pos early

section
variable {k : Fin 48} (h : d.StepEnds k) {code : BitVec 10} {sense : Nat}
include h

theorem Dev.calStepDone_spoilt (found : Bool) (hs : d.stepReason k.val sense false ≠ 0) :
    d.calStepDone k found code sense = d.dropStep k.val (d.stepReason k.val sense false) :=
  (Dev.calStepDone_cases h ..).trans (if_pos hs)

theorem Dev.calStepDone_fails {found : Bool} (hs : d.stepReason k.val sense false = 0)
    (hf : 128 < offFactory k code ∨ found = false) :
    d.calStepDone k found code sense = d.abortTrim 1 3 (BitVec.ofNat 6 k.val) := by
  have fails : (!found || decide (128 < offFactory k code)) = true := by
    rcases hf with hf | hf <;> simp [hf]
  rw [Dev.calStepDone_cases h, if_neg (not_not_intro hs), if_pos fails]

theorem Dev.calStepDone_found (hs : d.stepReason k.val sense false = 0) (hf : offFactory k code ≤ 128) :
    d.calStepDone k true code sense =
      if setBit d.trim.pend k.val false = 0 then (d.codeTaken k code).calEnd else (d.codeTaken k code).calTimeout := by
  have near : ¬ (!true || decide (128 < offFactory k code)) = true := by simpa using hf
  rw [Dev.calStepDone_cases h, if_neg (not_not_intro hs), if_neg near]

theorem Dev.calStepDone_last (hs : d.stepReason k.val sense false = 0) (hf : offFactory k code ≤ 128)
    (hl : setBit d.trim.pend k.val false = 0) : d.calStepDone k true code sense = (d.codeTaken k code).calEnd :=
  (Dev.calStepDone_found h hs hf).trans (if_pos hl)

theorem Dev.calStepDone_not_last (hs : d.stepReason k.val sense false = 0) (hf : offFactory k code ≤ 128)
    (hl : setBit d.trim.pend k.val false ≠ 0) (ht : d.trim.timeout = 0) :
    d.calStepDone k true code sense = d.codeTaken k code := by
  rw [Dev.calStepDone_found h hs hf, if_neg hl]
  exact Dev.calTimeout_not_due (Dev.calExpired_never ht)

end

/-! ### The host's writes (14 R431, R432) -/

/-- A write of a trim register. -/
theorem regEffect_trim (d : Dev) (o : Otp) {off : Nat} (h : off < 0x10000) (v : Word) :
    regEffect d o (0x20070000 + off) v = (d.trimWrite off v, o) := by
  have page : (0x20070000 + off) / 0x10000 = 0x2007 := by omega
  have offset : (0x20070000 + off) % 0x10000 = off := by omega
  simp only [regEffect, page, offset]

theorem Dev.trimWrite_dac (d : Dev) (k : Fin 48) (code : BitVec 10) :
    d.trimWrite (4 * k.val) (code.setWidth 32) = d.dacWrite k code := by
  have codes : 4 * k.val < 0xC0 := by omega
  have index : Fin.ofNat 48 (4 * k.val / 4) = k := Fin.ext (by simp only [Fin.val_ofNat]; omega)
  unfold Dev.trimWrite
  rw [if_pos codes, index, BitVec.setWidth_setWidth_of_le _ (by decide), BitVec.setWidth_eq]

end

section
variable {s : State}

/-- A row that writes a trim register changes the device by the register's own rule, and nothing else. -/
theorem next_trimReg {off : Nat} {v : Word} {f : Dev → Dev} (h : s.takesWrite (0x20070000 + off) v = true)
    (ho : off < 0x10000) (hf : s.dev.answering.trimWrite off v = f s.dev.answering) :
    (Host.Outcome.next (s.chip fun m => m.1.hostPut m.2 (0x20070000 + off) v) : Host.Outcome State Fault Refusal) =
      .next (s.hosted f) := by
  refine congrArg Host.Outcome.next ((hostPut_takes h).trans ?_)
  rw [regEffect_trim _ _ ho, hf]
  rfl

theorem exec_trmDacWrite {k : Fin 48} {code : BitVec 10} {f : Dev → Dev}
    (h : s.takesWrite (0x20070000 + 4 * k.val) (code.setWidth 32) = true)
    (hf : s.dev.answering.dacWrite k code = f s.dev.answering) : exec (.trmDacWrite k code) s = .next (s.hosted f) :=
  next_trimReg h (by omega) ((Dev.trimWrite_dac _ k code).trans hf)

theorem exec_trimApply {f : Dev → Dev} (h : s.takesWrite 0x20070100 1 = true)
    (hf : s.dev.answering.trimApply = f s.dev.answering) : exec .trimApply s = .next (s.hosted f) :=
  next_trimReg (off := 0x100) h (by decide) hf

theorem exec_trimAbort {f : Dev → Dev} (h : s.takesWrite 0x20070100 2 = true)
    (hf : s.dev.answering.trimAbort = f s.dev.answering) : exec .trimAbort s = .next (s.hosted f) :=
  next_trimReg (off := 0x100) h (by decide) hf

end

/-- Settles O39, by what each operation of a run comes to on the device as it stands. -/
theorem calibrationRunsAndCodes : Obligations.CalibrationRunsAndCodes := by
  intro s k code sense ok hup t far why begun deferred
  refine ⟨?starts, ?late, ?noStart, ?step, ?ends, ?notOver, ?timeout, ?inTime, ?dac, ?apply, ?abort⟩
  case starts => exact fun a r hq hm hr hi => next_core hup (Dev.calStart_queued hup hq hm hr hi)
  case late => exact fun a ring tag hq ha hm hr hi => next_core hup (Dev.calStart_late hup hq ha hm hr hi)
  case noStart => exact fun h => next_core_same (Dev.calStart_none h)
  case step =>
    intro hr hp hi hb he
    have next : s.dev.StepNext k := ⟨hr, hp, hi, hb, he⟩
    refine ⟨fun hk hw => next_core hup ?_, fun hk hm => next_core hup (Dev.calStep_channel next sense hk hm),
      fun hw hf => next_core hup ?_, fun hw hf => next_core_same ?_⟩
    · rw [Dev.calStep_starts next hw, if_neg (Nat.not_lt.mpr hk)]
      rfl
    · exact (Dev.calStep_waits next hw).trans (Dev.deferStep_first hf _)
    · exact (Dev.calStep_waits next hw).trans (Dev.deferStep_again hf _)
  case ends =>
    intro hr ha ho taken
    have ends : s.dev.StepEnds k := ⟨hr, ha, ho⟩
    refine ⟨fun hw hf hl => next_core hup ?_, fun hw hf hl ht => next_core hup ?_, fun hw hf => next_core hup ?_,
      fun hw hf => next_core hup ?_⟩
    · exact (Dev.calStepDone_last ends hw hf hl).trans (Dev.calEnd_whole hl)
    · exact Dev.calStepDone_not_last ends hw hf hl ht
    · exact Dev.calStepDone_fails ends hw hf
    · exact (Dev.calStepDone_spoilt ends ok hw).trans (Dev.dropStep_first hf _)
  case notOver => exact fun h => next_core_same (Dev.calStepDone_not_over h ok code sense)
  case timeout => exact fun hr ha he => next_core hup (Dev.calTimeout_due hr ha he)
  case inTime => exact fun he => next_core_same (Dev.calTimeout_not_due he)
  case dac =>
    exact fun hw => ⟨fun h => exec_trmDacWrite hw (if_pos h), fun h => exec_trmDacWrite hw (if_neg (ne_true_of_eq_false h))⟩
  case apply =>
    exact fun hw => ⟨fun h => exec_trimApply hw (if_pos h), fun h => exec_trimApply hw (if_neg (ne_true_of_eq_false h))⟩
  case abort =>
    exact fun hw => ⟨fun h => exec_trimAbort hw (if_pos h), fun h => exec_trimAbort hw (if_neg (ne_true_of_eq_false h))⟩

end Sys2Proof.Machine
end

section
/-! PROOF. Purlin (16 R472 to R486): what training, cells, status, retries, relays and boot requests each come to, by their own
conditions. -/

namespace Sys2Proof.Machine

open Sys2Proof

section
variable {d : Dev}

/-! ### Training (16 R472) -/

theorem Dev.train_due (hm : d.manager = true) (ht : d.roof.trainAt ≤ d.now) : d.train none =
    Dev.sendCell { d with roof := { d.roof with trainAt := d.now + 1000 } } 1 0xFF [1] :=
  if_pos (by simp [hm, ht])

theorem Dev.train_early (ht : d.now < d.roof.trainAt) : d.train none = d := if_neg (by simp [ht])

/-- The ring with `n` workers, as a TRAIN cell that came back tells it. -/
def Dev.ringTold (d : Dev) (n : Nat) : Dev :=
  { d with roof := { d.roof with
    ringUp := d.roof.ringUp || decide (d.roof.returnRun < 2), formed := d.roof.formed || decide (d.roof.returnRun < 2),
    workers := BitVec.ofNat 3 n,
    worker := d.roof.worker.mapFinIdx fun i (x : WorkerView) _ =>
      let here := decide (0 < i ∧ i ≤ n)
      { x with present := here, seenAt := if here && !x.present then d.now else x.seenAt } } }

section
variable {hop : Byte}

theorem Dev.train_returns (hm : d.manager = true) (h1 : 1 ≤ hop.toNat) (h8 : hop.toNat ≤ 8) :
    d.train (some hop) = d.ringTold (hop.toNat - 1) := by
  simp only [Dev.train, hm, if_true, Nat.not_lt.mpr h8, if_false, Nat.ne_of_gt h1]
  rfl

theorem Dev.train_tooFar (hm : d.manager = true) (h8 : 8 < hop.toNat) : d.train (some hop) = d.event 0x0C0B (pay 0 hop) := by
  simp only [Dev.train, hm, if_true, h8]

/-- A worker takes the hop for its position and passes the cell on with one hop more. -/
theorem Dev.train_passes (hm : d.manager = false) (hr : d.sys.role = 2) (h0 : hop ≠ 0) (h7 : hop.toNat ≤ 7) :
    d.train (some hop) = { d with roof := { d.roof with
      position := hop.setWidth 3, posValid := true,
      fwd := d.roof.fwd ++ [{ kind := 1, dst := 0xFF, src := 0, seq := 0, payload := [hop + 1] }] } } := by
  simp only [Dev.train, hm, hr, Nat.not_lt.mpr h7, h0, or_self, if_false, if_true, Bool.false_eq_true]

end

/-! ### Cells on both lanes (16 R474) -/

section
variable {x : Lanes}

theorem Dev.cellReceive_crcError (h : cellOfLanes x = .crcError) : d.cellReceive x =
    { d with roof := { d.roof with linkCrc := satInc d.roof.linkCrc } } := by
  simp only [Dev.cellReceive, h]

theorem Dev.cellReceive_codeError (h : cellOfLanes x = .codeError) : d.cellReceive x =
    { d with roof := { d.roof with linkCode := satInc d.roof.linkCode } } := by
  simp only [Dev.cellReceive, h]

variable {c : PCell} (h : cellOfLanes x = .cell c)
include h

theorem Dev.cellReceive_unknown (hk : cellKnown c.kind = false) : d.cellReceive x =
    { d with roof := { d.roof with linkCode := satInc d.roof.linkCode } } := by
  simp only [Dev.cellReceive, h, hk, Bool.not_false, if_true]

theorem Dev.cellReceive_stops (hk : cellKnown c.kind = true)
    (hs : c.dst = d.roof.position.setWidth 8 ∨ c.src = d.roof.position.setWidth 8 ∨ c.kind = 1) : d.cellReceive x = d := by
  simp only [Dev.cellReceive, h, hk, Bool.not_true, Bool.false_eq_true, if_false, hs, if_true]

theorem Dev.cellReceive_forwards (hk : cellKnown c.kind = true) (hd : c.dst ≠ d.roof.position.setWidth 8)
    (hs : c.src ≠ d.roof.position.setWidth 8) (h1 : c.kind ≠ 1) : d.cellReceive x =
    { d with roof := { d.roof with fwd := d.roof.fwd ++ [c] } } := by
  simp only [Dev.cellReceive, h, hk, Bool.not_true, Bool.false_eq_true, if_false, hd, hs, h1, or_self]

end

/-! ### Worker status (16 R482) -/

theorem Dev.status_due (hw : d.worker = true) (ht : d.roof.statusAt ≤ d.now) : d.status none =
    Dev.sendCell { d with roof := { d.roof with statusAt := d.now + 10000 } } 2 0 (Config.cellPayload 2 d.statusContent) :=
  if_pos (by simp [hw, ht])

theorem Dev.status_early (ht : d.now < d.roof.statusAt) : d.status none = d := if_neg (by simp [ht])

/-- A worker's view after its STATUS cell. -/
def WorkerView.seen (w : WorkerView) (c : StatusCell) (now : Nat) : WorkerView :=
  { w with ok := true, lost := false, seenAt := now, mode := c.mode, live := c.live, cfg := c.cfg, degCause := c.degCause,
           holdCause := c.holdCause, frame := c.frame, attempts := c.attempts, proofDone := c.proofDone }

/-- The device with a STATUS cell shown. -/
def Dev.shown (d : Dev) (c : StatusCell) : Dev :=
  let y := d.onWorker c.position fun w => w.seen c d.now
  { y with roof := { y.roof with restartStream := y.roof.restartStream ||| c.reset } }

theorem Dev.status_shows {c : StatusCell} (hm : d.manager = true) (hp : c.position ≠ 0)
    (hl : (d.workerAt c.position).lost = false) (hr : d.roof.reenum = none) : d.status (some c) = d.shown c := by
  have taken : (d.manager && c.position != 0) = true := by rw [hm, bne_iff_ne.mpr hp]; rfl
  simp only [Dev.status, taken, if_true, hl, Bool.false_eq_true, if_false]
  split
  next => rfl
  next r h => exact absurd (hr.symm.trans h) nofun

theorem Dev.onWorker_workerAt (k : BitVec 3) (f : WorkerView → WorkerView) :
    (d.onWorker k f).workerAt k = f (d.workerAt k) := by
  rw [Dev.workerAt, Dev.workerAt, getN_of_lt _ k.isLt, getN_of_lt _ k.isLt]
  exact updN_same _ k.isLt f

theorem Dev.shown_workerAt (c : StatusCell) : (d.shown c).workerAt c.position = (d.workerAt c.position).seen c d.now :=
  Dev.onWorker_workerAt _ _

theorem Dev.statusMissing_due {k : BitVec 3} (hm : d.manager = true) (hp : (d.workerAt k).present = true)
    (hl : (d.workerAt k).lost = false) (ht : (d.workerAt k).seenAt + 30000 < d.now) : d.statusMissing k =
    (d.onWorker k fun w => { w with ok := false, lost := true }).event 0x0C05 (pay 0 k ||| payN 3 1) :=
  if_pos (by simp [hm, hp, hl, ht])

theorem Dev.statusMissing_not_due {k : BitVec 3} (h : (d.workerAt k).lost = true ∨ d.now ≤ (d.workerAt k).seenAt + 30000) :
    d.statusMissing k = d := by
  refine if_neg ?_
  obtain h | h := h
  · simp [h]
  · simp [h]

/-! ### Encoder frames, boot data and requests from the manager, at a worker (12 R385, 16 R484 to R486) -/

theorem Dev.encFrame_gable (hw : d.worker = true) (hup : d.coreUp = true) (h : d.gbl.cfg = none ∨ d.gableChecks = true)
    (frame : BitVec 512) : d.encFrame 3 frame = d.flashReceive [3] (bytes64 frame) := by
  have checked : ¬ (3 = 3 ∧ d.gbl.cfg.isSome = true ∧ d.gableChecks = false) := by
    rintro ⟨-, hc, hg⟩
    obtain h | h := h
    · simp [h] at hc
    · simp [h] at hg
  exact (if_pos (by simp [hw, hup])).trans (if_neg checked)

theorem Dev.encFrame_ridge (hw : d.worker = true) (hup : d.coreUp = true) (frame : BitVec 512) :
    d.encFrame 4 frame = d.flashReceive [4] (bytes64 frame) := by
  simp [Dev.encFrame, hw, hup]

theorem Dev.encFrame_other (hw : d.worker = false) (kind : Nat) (frame : BitVec 512) : d.encFrame kind frame = d :=
  if_neg (by simp [hw])

theorem Dev.bootData_acks (hw : d.worker = true) (hup : d.coreUp = true) (hb : d.sys.mode ≠ .boot) (o : Otp) (src : Byte)
    (seq : BitVec 16) (off : Word) (bytes : List Byte) : d.bootData o src seq off bytes = d.ack src 6 seq := by
  have late : (d.ack src 6 seq).sys.mode ≠ .boot := hb
  simp only [Dev.bootData, hw, hup, Bool.and_self, if_true, late, false_and, if_false]

theorem Dev.reenum_takes (hw : d.worker = true) (hup : d.coreUp = true) (src : Byte) (seq : BitVec 16) :
    d.reenum src seq = ((d.ack src 0x0B seq).trussPend 4).reenumProof :=
  if_pos (by simp [hw, hup])

theorem Dev.reenum_other (hw : d.worker = false) (src : Byte) (seq : BitVec 16) : d.reenum src seq = d :=
  if_neg (by simp [hw])

theorem Chip.relayDown_takes {m : Chip} (hw : m.1.worker = true) (hup : m.1.coreUp = true) (src : Byte) (seq : BitVec 16)
    (entry : BitVec 512) :
    m.relayDown src seq entry = Chip.relayEntry ((m.1.ack src 9 seq).trussPend 4, m.2) (bytes64 entry) :=
  if_pos (by simp [hw, hup])

theorem Chip.relayDown_other {m : Chip} (hw : m.1.worker = false) (src : Byte) (seq : BitVec 16) (entry : BitVec 512) :
    m.relayDown src seq entry = m :=
  if_neg (by simp [hw])

/-! ### Retries (16 R475) -/

theorem Dev.purlinRetry_none (h : d.roof.unacked = []) : d.purlinRetry = d := by simp only [Dev.purlinRetry, h]

section
variable {c : PCell} {n t : Nat} {rest : List (PCell × Nat × Nat)} (h : d.roof.unacked = (c, n, t) :: rest)
include h

theorem Dev.purlinRetry_early (ht : d.now < t + 100) : d.purlinRetry = d := by simp only [Dev.purlinRetry, h, ht, if_true]

theorem Dev.purlinRetry_repeats (ht : t + 100 ≤ d.now) (hn : n < 3) : d.purlinRetry = { d with roof := { d.roof with
    unacked := rest ++ [(c, n + 1, d.now)], out := insertCell c d.roof.out } } := by
  simp only [Dev.purlinRetry, h, Nat.not_lt.mpr ht, if_false, hn, if_true]

theorem Dev.purlinRetry_loses (ht : t + 100 ≤ d.now) (hn : 3 ≤ n) (hk : c.kind ≠ 9) : d.purlinRetry =
    { d with roof := { d.roof with unacked := rest, retryFail := satInc d.roof.retryFail } } := by
  simp only [Dev.purlinRetry, h, Nat.not_lt.mpr ht, Nat.not_lt.mpr hn, if_false, hk]

end

/-! ### Boot requests, relays and migrations (16 R483 to R485, 06 R189, 03 R89) -/

theorem Dev.bootReq_sends (hm : d.manager = true) (hup : d.coreUp = true) (hs : d.sys.mode.served = true)
    (ha : 0x40000 ≤ d.roof.bootAddr.toNat) (hn : d.roof.bootLen ≠ 0)
    (he : d.roof.bootAddr.toNat + d.roof.bootLen.toNat ≤ 0x1800000) (k : BitVec 3) (attempts : Byte) :
    d.bootReq k attempts =
      let n := d.roof.bootLen.toNat
      let a := d.roof.bootAddr.toNat
      ((d.loftTouch a n).bootCells (k.setWidth 8) a n 0 (n / 252 + 1)).event 0x0C04 (pay 0 k ||| pay 8 attempts) :=
  if_pos (by rw [hm, hup, hs, bne_iff_ne.mpr hn, decide_eq_true ha, decide_eq_true he]; rfl)

theorem Dev.relayUp_takes (hm : d.manager = true) (hup : d.coreUp = true) (src : Byte) (seq : BitVec 16) (entry : BitVec 512) :
    d.relayUp src seq entry = (d.ack src 0x0A seq).putEntry 31 (bytes64 entry) :=
  if_pos (by simp [hm, hup])

theorem Dev.takeMigrate_inRoof (h : d.inRoof = true) (src : BitVec 3) (seq : BitVec 16) (p : MigratePhase) :
    d.takeMigrate src seq p = ((d.ack (src.setWidth 8) 8 seq).trussPend 4).migrateCell src p :=
  if_pos h

theorem Dev.ring30_stopped (h : (d.ringAt 30).enabled = false ∨ (d.ringAt 30).stopping = true) : d.ring30 = d := by
  refine if_neg ?_
  obtain h | h := h
  · simp [h]
  · simp [h]

/-- The entry of ring 30 is dropped and counted where this device is no manager. -/
theorem Dev.ring30_drops (hup : d.coreUp = true) (he : (d.ringAt 30).enabled = true) (hs : (d.ringAt 30).stopping = false)
    (hh : 0 < (d.ringAt 30).held) (hm : d.manager = false) (hc : d.loft.ce = []) (hu : d.loft.ue = []) : d.ring30 =
    (d.ring 30 fun r => { r with cons := r.cons + 1 }).ring 30 fun r => { r with drop := satInc r.drop } := by
  have next : ((d.ringAt 30).enabled && !(d.ringAt 30).stopping && decide (0 < (d.ringAt 30).held) && d.coreUp) = true := by
    simp [he, hs, hh, hup]
  have other : (d.ring 30 fun r => { r with cons := r.cons + 1 }).manager = false := hm
  simp only [Dev.ring30, next, if_true, Dev.loftTouch_clean hc hu, other, Bool.not_false, Bool.true_or]

end

/-! ### The rows -/

section
variable {s : State} (hup : s.dev.coreUp = true)
include hup

/-- A cell that this device takes sets TPEND.PURLIN (04 R115). -/
theorem next_taken {f g : Dev → Dev} {b : Dev → Bool} (hb : b s.dev = true) (h : f s.dev = g s.dev) :
    (Host.Outcome.next (s.core fun d => (f d).purlinTakenIf (b d)) : Host.Outcome State Fault Refusal) =
      .next (s.any fun d => (g d).trussPend 4) :=
  next_core hup (by rw [hb, h]; rfl)

/-- A change of the chip while the core die is up, by what it comes to on the chip as it stands. -/
theorem next_chipUp {f g : Chip → Chip} (h : f (s.dev, s.otp) = g (s.dev, s.otp)) :
    (Host.Outcome.next (s.chipUp f) : Host.Outcome State Fault Refusal) = .next (s.chip g) := by
  rw [State.chipUp_up s f hup, State.chip, State.chip, h]

theorem exec_status_shows {c : StatusCell} (hm : s.dev.manager = true) (hp : c.position ≠ 0)
    (hl : (s.dev.workerAt c.position).lost = false) (hr : s.dev.roof.reenum = none) :
    exec (.status (some c)) s = .next (s.any fun d => (d.shown c).trussPend 4) :=
  next_taken hup hm (Dev.status_shows hm hp hl hr)

theorem exec_relayDown {src : Byte} {seq : BitVec 16} {frame : BitVec 512} (hw : s.dev.worker = true) :
    exec (.relayDown src seq frame) s = .next (s.chip fun m =>
      Chip.relayEntry ((m.1.ack src 9 seq).trussPend 4, m.2) (bytes64 frame)) :=
  next_chipUp hup (Chip.relayDown_takes (m := (s.dev, s.otp)) hw hup src seq frame)

theorem exec_bootdata {src : Byte} {seq : BitVec 16} {off : Word} {bytes : List Byte} (hw : s.dev.worker = true)
    (hb : s.dev.sys.mode ≠ .boot) : exec (.bootdata src seq off bytes) s = .next (s.any fun d => (d.trussPend 4).ack src 6 seq) := by
  have taken : s.dev.purlinTakenIf s.dev.worker = s.dev.trussPend 4 := if_pos hw
  have acked := Dev.bootData_acks (d := s.dev.trussPend 4) hw hup hb s.otp src seq off bytes
  refine (next_chipUp (g := fun m => ((m.1.trussPend 4).ack src 6 seq, m.2)) hup ?_).trans rfl
  exact congrArg (·, s.otp) ((congrArg (·.bootData s.otp src seq off bytes) taken).trans acked)

theorem exec_gframe {frame : BitVec 512} (hw : s.dev.worker = true) (h : s.dev.gbl.cfg = none ∨ s.dev.gableChecks = true) :
    exec (.gframe frame) s = .next (s.any fun d => (d.flashReceive [3] (bytes64 frame)).trussPend 4) :=
  next_taken hup hw (Dev.encFrame_gable hw hup h frame)

end

section
variable {s : State} (hw : s.dev.worker = false)
include hw

theorem exec_gframe_other (frame : BitVec 512) : exec (.gframe frame) s = .next s :=
  next_core_same ((if_neg (ne_true_of_eq_false hw)).trans (Dev.encFrame_other hw 3 frame))

theorem exec_relayDown_other (src : Byte) (seq : BitVec 16) (frame : BitVec 512) :
    exec (.relayDown src seq frame) s = .next s := by
  have same : s.chipUp (fun m => m.relayDown src seq frame) = s := by
    have same := Chip.relayDown_other (m := (s.dev, s.otp)) hw src seq frame
    simp only [State.chipUp, State.chip, same, ite_self]
  exact congrArg Host.Outcome.next same

end

/-- Settles O41, a kind of cell at a time. -/
theorem roofCells : Obligations.RoofCells := by
  intro s src kind hop seq frame x hup d roof taken
  refine ⟨fun hm => ⟨fun ht => ?_, fun ht => ?_⟩, fun hm h1 h8 => ?_, fun hm h8 => ?_, fun hm hr h0 h7 => ?_,
    ⟨fun h => ?_, fun h => ?_, fun c h => ⟨fun hk => ?_, fun hk => ⟨fun hs => ?_, fun hd hs h1 => ?_⟩⟩⟩, ?worker,
    fun hw => ⟨next_core_same (Dev.encFrame_other hw 4 frame), exec_gframe_other hw frame,
      next_core_same (Dev.reenum_other hw src seq), exec_relayDown_other hw src seq frame⟩, fun c hm hp hl hr => ?_,
    fun k hm hp => ⟨fun hl ht => ?_, fun h => ?_⟩, next_core hup rfl, fun h => ?_,
    fun c n t rest h => ⟨fun ht => ?_, fun ht hn => ?_, fun ht hn hk => ?_⟩, fun hm => ⟨fun hs ha hn he k => ?_, ?_⟩,
    fun p hr => ?_, fun h => ?_, fun he hs hh hm hc hu => ?_⟩
  · exact next_core hup (Dev.train_due hm ht)
  · exact next_core_same (Dev.train_early ht)
  · exact next_taken hup rfl (Dev.train_returns hm h1 h8)
  · exact next_taken hup rfl (Dev.train_tooFar hm h8)
  · exact next_taken hup rfl (Dev.train_passes hm hr h0 h7)
  · exact next_core hup (Dev.cellReceive_crcError h)
  · exact next_core hup (Dev.cellReceive_codeError h)
  · exact next_core hup (Dev.cellReceive_unknown h hk)
  · exact next_core_same (Dev.cellReceive_stops h hk hs)
  · exact next_core hup (Dev.cellReceive_forwards h hk hd hs h1)
  case worker =>
    intro hw
    exact ⟨fun ht => next_core hup (Dev.status_due hw ht), fun ht => next_core_same (Dev.status_early ht), exec_gframe hup hw,
      next_core hup (Dev.encFrame_ridge hw hup frame), exec_relayDown hup hw, next_core hup (Dev.reenum_takes hw hup src seq),
      fun _ _ hb => exec_bootdata hup hw hb⟩
  · exact exec_status_shows hup hm hp hl hr
  · exact next_core hup (Dev.statusMissing_due hm hp hl ht)
  · exact next_core_same (Dev.statusMissing_not_due h)
  · exact next_core_same (Dev.purlinRetry_none h)
  · exact next_core_same (Dev.purlinRetry_early h ht)
  · exact next_core hup (Dev.purlinRetry_repeats h ht hn)
  · exact next_core hup (Dev.purlinRetry_loses h ht hn hk)
  · exact next_taken hup hm (Dev.bootReq_sends hm hup hs ha hn he k hop)
  · exact next_taken hup hm (Dev.relayUp_takes hm hup src seq frame)
  · exact next_core hup (Dev.takeMigrate_inRoof hr _ seq p)
  · exact next_core_same (Dev.ring30_stopped h)
  · exact next_core hup (Dev.ring30_drops hup he hs hh hm hc hu)

end Sys2Proof.Machine
end

section
/-! PROOF. Latch marks and sync words (16 R476 to R480, R487, R488): what is sent, taken and missed, where each goes its ordinary
way. -/

namespace Sys2Proof.Machine

open Sys2Proof

section
variable {d : Dev}

/-! ### Latch marks (16 R476 to R480) -/

theorem Dev.markSend_marksOut (hm : d.manager = true) (hup : d.coreUp = true) (hb : d.sys.mode ≠ .boot) :
    d.markSend.roof.marksOut = (d.roof.marksOut ++ [d.now]).take 2 := by
  have sends : (d.manager && d.coreUp && d.sys.mode != .boot) = true := by rw [hm, hup, bne_iff_ne.mpr hb]; rfl
  rw [Dev.markSend, if_pos sends]
  rfl

/-- A mark that returns while the ring is up measures RTT and sets CABLE, with no event. -/
theorem Dev.markReturn_up (hm : d.manager = true) (hup : d.coreUp = true) (hr : d.roof.ringUp = true) (rtt : BitVec 16) :
    d.markReturn rtt = { d with roof := { d.roof with
      rtt := rtt, cable := cableOf rtt.toNat d.roof.workers.toNat, returnRun := 0, marksOut := [], ringUp := true,
      formed := true } } := by
  simp only [Dev.markReturn, hm, hup, hr, Bool.and_self, if_true]

theorem Dev.ringBroken_due (hm : d.manager = true) (hup : d.coreUp = true) (hr : d.roof.ringUp = true)
    (hl : 2 ≤ (d.roof.marksOut.filter d.markLate).length) : d.ringBroken =
    Dev.event { d with roof := { d.roof with ringUp := false, returnRun := 2 } } 0x0C02 (payN 3 1) :=
  if_pos (by rw [hm, hup, hr, decide_eq_true hl]; rfl)

theorem Dev.markReceive_valid {x : Lanes} {m : List Byte} (hr : d.sys.role = 2) (hw : d.worker = true)
    (hm : markOfLanes x = some m) (hc : crc8 (m.take 11) = m.getD 11 0) :
    d.markReceive x = (d.putMark m).markTake (BitVec.ofNat 96 (leNat m)) := by
  have takes : ((d.putMark m).worker && crc8 (m.take 11) == m.getD 11 0) = true := by
    rw [show (d.putMark m).worker = true from hw, beq_iff_eq.mpr hc]
    rfl
  simp only [Dev.markReceive, hr, if_true, hm, takes]

/-- The worker's LAT one period on without a mark. -/
def Dev.flown (d : Dev) : Dev :=
  { d with roof := { d.roof with
    markRun := d.roof.markRun + 1, markMiss := satInc d.roof.markMiss, marks := false, flywheel := true,
    markAt := d.roof.markAt + d.roof.markPeriod.toNat, markLat := d.roof.markLat + d.roof.markPeriod.toNat,
    nextMark := some (d.nextLat, d.scan.slot, d.scan.shadow, false) } }

/-- A missing mark, not the second in a row, starts the flywheel with no event. -/
theorem Dev.markMissing_flies (hw : d.worker = true) (hup : d.coreUp = true) (hk : d.roof.marks = true)
    (ho : d.markOverdue = true) (ht : d.roof.markTwin = false) (hn : d.roof.markRun ≠ 1) : d.markMissing = d.flown := by
  have due : (d.worker && d.coreUp && (d.roof.marks || d.roof.flywheel || d.roof.holding) && d.markOverdue) = true := by
    rw [hw, hup, hk, ho]
    rfl
  have first : d.roof.markRun + 1 ≠ 2 := fun h => hn (Nat.succ.inj h)
  rw [Dev.markMissing, if_pos due]
  exact (if_neg first).trans (if_neg (ne_true_of_eq_false ht))

/-! ### Sync words (16 R487, R488) -/

/-- The bytes of a word with a byte put above them. -/
theorem byteAt_append (c : Byte) (w : BitVec 24) :
    byteAt (c ++ w : Word) 3 = c ∧ ∀ k < 3, byteAt (c ++ w : Word) k = byteAt w k :=
  ⟨BitVec.extractLsb'_append_eq_left, fun k hk => BitVec.extractLsb'_append_eq_of_add_le (by omega)⟩

/-- The sync word of a side that may drive carries its own CRC. -/
theorem Dev.syncSend_sends (ht : d.twinHere = true) (hup : d.coreUp = true) (hd : d.sys.mode.mayDrive = true)
    (hb : d.sys.mode ≠ .boot) :
    ∃ w, d.syncSend.roof.sync = syncLine w ∧ crc8 [byteAt w 0, byteAt w 1, byteAt w 2] = byteAt w 3 := by
  have sends : (d.twinHere && d.coreUp && d.sys.mode != .boot) = true := by rw [ht, hup, bne_iff_ne.mpr hb]; rfl
  rw [Dev.syncSend, if_pos sends]
  simp only [hd, if_true]
  refine ⟨_, rfl, ?_⟩
  obtain ⟨crc, bytes⟩ := byteAt_append _ _
  rw [crc, bytes 0 (by decide), bytes 1 (by decide), bytes 2 (by decide)]

/-- A valid word at a side that drives, its peer not lost, is shown and genlocks nothing. -/
theorem Dev.syncReceive_driving {line : List Bool} {w : Word} (ht : d.twinHere = true) (hup : d.coreUp = true)
    (hw : syncOfLine line = some w) (hc : crc8 [byteAt w 0, byteAt w 1, byteAt w 2] = byteAt w 3) (hm : d.roof.missRun < 2)
    (hd : d.roof.driving = true) (interval : BitVec 24) :
    d.syncReceive line interval = { d with roof := { d.roof with
      syncAt := 400 * d.now - 1400, peerFrame := half16 w 0, peerSlot := slice w 16 3, peerDriving := w.getLsbD 19,
      peerHealth := slice w 20 2, peerOk := true, missRun := 0, genlocked := false } } := by
  have here : ¬ 2 ≤ d.roof.missRun := Nat.not_le.mpr hm
  simp only [Dev.syncReceive, ht, hup, Bool.and_self, if_true, hw, Dev.syncTake, hc, ne_eq, not_true_eq_false, if_false, here,
    decide_false, Bool.false_eq_true, hd]

theorem Dev.syncMissing_first (ht : d.twinHere = true) (hup : d.coreUp = true) (ho : d.syncOverdue = true)
    (hm : d.roof.missRun ≠ 1) : d.syncMissing = { d with roof := { d.roof with
      missRun := d.roof.missRun + 1, misses := satInc d.roof.misses, syncAt := d.roof.syncAt + d.periodNow } } := by
  have first : d.roof.missRun + 1 ≠ 2 := fun h => hm (Nat.succ.inj h)
  simp only [Dev.syncMissing, ht, hup, ho, Bool.and_self, if_true, first, if_false]

end

end Sys2Proof.Machine
end

section
/-! PROOF. Access, OTP, the TAP and the debugger (17 R497 to R512): the host's writes of ACC_ registers, and what each
instruction of the TAP and each request of an attached debugger comes to. -/

namespace Sys2Proof.Machine

open Sys2Proof

section
variable {d : Dev}

/-! ### The host's writes of ACC_ registers (17 R497 to R503, R512) -/

theorem regEffect_acc (d : Dev) (o : Otp) {off : Nat} (h : off < 0x10000) (v : Word) :
    regEffect d o (0x200A0000 + off) v = d.accWrite o off v := by
  have page : (0x200A0000 + off) / 0x10000 = 0x200A := by omega
  have offset : (0x200A0000 + off) % 0x10000 = off := by omega
  simp only [regEffect, page, offset]

/-- A row that writes an ACC_ register, by what the register's own rule leaves. -/
theorem next_accReg {s : State} {off : Nat} {v : Word} {t : Chip} (h : s.takesWrite (0x200A0000 + off) v = true)
    (ho : off < 0x10000) (ht : s.dev.answering.accWrite s.otp off v = t) :
    (Host.Outcome.next (s.chip fun m => m.1.hostPut m.2 (0x200A0000 + off) v) : Host.Outcome State Fault Refusal) =
      .next { s with dev := t.1, otp := t.2 } := by
  refine congrArg Host.Outcome.next ((hostPut_takes h).trans ?_)
  rw [regEffect_acc _ _ ho, ht]

/-- The level falls to L0 where no debugger is attached and no instruction drives the balls. -/
theorem Dev.lapse_unattached (ha : d.acc.attached = false) (hj : d.acc.jtag.drives = false) (cause : BitVec 2) :
    d.lapse cause = Dev.event { d with acc := { d.acc with level := 0, lapse := none, attachPending := false } } 0x0D03
      (pay 0 d.acc.level ||| pay 2 cause) := by
  have keeps : d.acc.endDrive = d.acc := if_neg (ne_true_of_eq_false hj)
  simp only [Dev.lapse, Dev.onAcc, keeps, Dev.event_acc, ha, Bool.false_eq_true, if_false]

theorem Dev.unlockTimeout_due {t : Nat} (hup : d.coreUp = true) (hl : d.acc.lapse = some t) (ht : t ≤ d.alwaysOn) :
    d.unlockTimeout = d.lapse 2 := by
  simp only [Dev.unlockTimeout, hl]
  exact if_pos ⟨hup, ht⟩

theorem Dev.nonceExpire_void (h : d.nonceValid = false) : d.nonceExpire = d.onAcc fun a => { a with nonceAt := none } :=
  if_neg (ne_true_of_eq_false h)

theorem Dev.accUnlock_password (o : Otp) (level : BitVec 2) :
    d.accUnlock o (level.setWidth 32) = d.unlockPassword o :=
  if_neg (by decide +revert)

theorem Dev.accUnlock_challenge (o : Otp) (level : BitVec 2) : d.accUnlock o (16 + level.setWidth 32) =
    (d.unlockChallenge o.fuses d.acc.resp (level.setWidth 8) false, o) := by
  have named : ((16 + level.setWidth 32 : Word) &&& 3).setWidth 8 = level.setWidth 8 := by decide +revert
  rw [Dev.accUnlock, if_pos (by decide +revert), named]

theorem Dev.unlockPassword_disabled {o : Otp} (h : 64 ≤ o.fuses.toNat) :
    d.unlockPassword o = (d.onAcc fun a => { a with pw := 0, lastPath := false, result := 4 }, o) := if_pos h

theorem Dev.unlockChallenge_noNonce {level : Byte} (hl : level = 2 ∨ level = 3) (hu : d.acc.crUntil ≤ d.alwaysOn)
    (hn : d.nonceValid = false) (fuses : BitVec 7) (resp : BitVec 128) (jtag : Bool) :
    d.unlockChallenge fuses resp level jtag =
      d.onAcc fun a => { a with lastPath := true, nonceAt := none, pw := 0, result := 5 } := by
  have named : ¬ (level ≠ 2 ∧ level ≠ 3) := fun ⟨h2, h3⟩ => hl.elim h2 h3
  have allowed : ¬ (d.onAcc fun a => { a with lastPath := true, nonceAt := none, pw := 0 }).alwaysOn <
    (d.onAcc fun a => { a with lastPath := true, nonceAt := none, pw := 0 }).acc.crUntil := Nat.not_lt.mpr hu
  simp only [Dev.unlockChallenge, named, if_false, allowed, hn, Bool.not_false, if_true]
  rfl

/-- The fields of the word that programs a slot, REVOKE at 0. -/
theorem otpProgramWord_fields (target : BitVec 3) (level : BitVec 2) (mask : BitVec 4) :
    (fld 0 target ||| fld 4 level ||| fld 8 mask).getLsbD 3 = false ∧
      (fld 0 target ||| fld 4 level ||| fld 8 mask).extractLsb' 0 3 = target ∧
      (fld 0 target ||| fld 4 level ||| fld 8 mask).extractLsb' 4 2 = level ∧
      (fld 0 target ||| fld 4 level ||| fld 8 mask).extractLsb' 8 4 = mask := by decide +revert

/-- The fields of the word that revokes a slot. -/
theorem otpRevokeWord_fields (target : BitVec 3) (mask : BitVec 4) :
    (fld 0 target ||| bit 3 true ||| fld 8 mask).getLsbD 3 = true ∧
      (fld 0 target ||| bit 3 true ||| fld 8 mask).extractLsb' 0 3 = target ∧
      (fld 0 target ||| bit 3 true ||| fld 8 mask).extractLsb' 8 4 = mask := by decide +revert

theorem accProg_otpProgram (d : Dev) (o : Otp) (target : BitVec 3) (level : BitVec 2) (mask : BitVec 4) :
    d.accProg o (fld 0 target ||| fld 4 level ||| fld 8 mask) = d.otpProgram o target level mask := by
  obtain ⟨revoke, ht, hl, hm⟩ := otpProgramWord_fields target level mask
  rw [Dev.accProg, revoke, ht, hl, hm]
  rfl

theorem accProg_otpRevoke (d : Dev) (o : Otp) (target : BitVec 3) (mask : BitVec 4) :
    d.accProg o (fld 0 target ||| bit 3 true ||| fld 8 mask) = d.otpRevoke o target mask := by
  obtain ⟨revoke, ht, hm⟩ := otpRevokeWord_fields target mask
  rw [Dev.accProg, revoke, ht, hm]
  rfl

theorem Dev.otpDone_result (target : BitVec 3) (revoke : Bool) (mask : BitVec 4) :
    (d.otpDone target revoke mask).acc.result = 8 := congrArg Acc.result (Dev.event_acc _ _ _)

section
variable {o : Otp} {target : BitVec 3} (mask : BitVec 4) (hm : d.sys.mode = .load) (ha : 2 ≤ d.acc.level) (ht : target < 4)
include hm ha ht

theorem Dev.otpProgram_password {level : BitVec 2} (hp : (o.pws[targetSlot target]).programmed = false) (h0 : level ≠ 0)
    (h3 : level ≠ 3) : (d.otpProgram o target level mask).1.acc.result = 8 ∧
    ((d.otpProgram o target level mask).2.pws[targetSlot target]).programmed = true ∧
    ((d.otpProgram o target level mask).2.pws[targetSlot target]).level = level := by
  have allowed : ¬ (d.sys.mode ≠ .load ∨ d.acc.level < 2) := not_or.mpr ⟨fun h => h hm, BitVec.not_lt.mpr ha⟩
  have free : ¬ ((o.pws[targetSlot target]).programmed = true ∨ level = 0 ∨ level = 3) :=
    not_or.mpr ⟨ne_true_of_eq_false hp, not_or.mpr ⟨h0, h3⟩⟩
  rw [Dev.otpProgram, if_neg allowed, if_pos ht, if_neg free]
  exact ⟨Dev.otpDone_result _ _ _, congrArg PwSlot.programmed (Vector.getElem_set_self _),
    congrArg PwSlot.level (Vector.getElem_set_self _)⟩

theorem Dev.otpRevoke_password (hr : (o.pws[targetSlot target]).revoked = false) :
    (d.otpRevoke o target mask).1.acc.result = 8 ∧ ((d.otpRevoke o target mask).2.pws[targetSlot target]).revoked = true := by
  have allowed : ¬ (d.sys.mode ≠ .load ∨ d.acc.level < 2) := not_or.mpr ⟨fun h => h hm, BitVec.not_lt.mpr ha⟩
  rw [Dev.otpRevoke, if_neg allowed, if_pos ht, if_neg (ne_true_of_eq_false hr)]
  exact ⟨Dev.otpDone_result _ _ _, congrArg PwSlot.revoked (Vector.getElem_set_self _)⟩

end

/-! ### The TAP (17 R509, R510) -/

/-- A permitted instruction is selected, with what it captures. -/
theorem Dev.jtagScan_selects {j : Jtag} (hr : d.tapRuns = true) (hj : d.jtagOk j = true) (f : Acc → Acc) :
    d.jtagScan j f = d.onAcc fun a => f { a with tir := 1, jtag := j } := by
  simp only [Dev.jtagScan, hr, if_true, Dev.jtagSelect, hj, Dev.onAcc]

/-- An opcode of no listed instruction selects BYPASS. -/
theorem jtagOf_unlisted {op : Byte} (h : op ∉ ([0x00, 0x01, 0x02, 0x04, 0x05, 0x10, 0x11] : List Byte)) :
    jtagOf op = .bypass := by
  have other : ([.extest, .idcode, .sample, .highz, .clamp, .accChal, .dbg] : List Jtag).find? (fun j => j.opcode == op) =
      none := List.find?_eq_none.mpr fun j hj hop =>
    h (beq_iff_eq.mp hop ▸ List.mem_map_of_mem (f := Jtag.opcode) hj)
  rw [jtagOf, other]
  rfl

theorem Dev.mode_of_coreUp (h : d.coreUp = true) : d.sys.mode ≠ .retention := by
  intro hm
  simp [Dev.coreUp, hm] at h

theorem Dev.jtagOk_drives (hup : d.coreUp = true) (hl : d.acc.level = 3) (hm : d.sys.mode = .load) :
    d.jtagOk .extest = true ∧ d.jtagOk .highz = true ∧ d.jtagOk .clamp = true := by
  simp [Dev.jtagOk, hup, hl, hm]

/-- Capture-DR of ACC_CHAL draws a nonce. -/
theorem Dev.accChal_draws (hr : d.tapRuns = true) (hup : d.coreUp = true) (fuses : BitVec 7) (x : BitVec 136) :
    (d.accChal fuses false x).acc.nonce = Config.random d.acc.draws ∧ (d.accChal fuses false x).acc.jtag = .accChal := by
  have permitted : d.jtagOk .accChal = true := bne_iff_ne.mpr (Dev.mode_of_coreUp hup)
  have up (f : Acc → Acc) : (d.onAcc f).coreUp = true := hup
  simp only [Dev.accChal, Dev.jtagScan_selects hr permitted, hr, permitted, up, Bool.and_self, if_true, Bool.false_eq_true,
    if_false]
  exact ⟨rfl, rfl⟩

/-! ### The debugger (17 R504 to R507) -/

theorem Acc.endDrive_attached (a : Acc) : a.endDrive.attached = a.attached := by
  unfold Acc.endDrive
  split <;> rfl

theorem Acc.endDrive_level (a : Acc) : a.endDrive.level = a.level := by
  unfold Acc.endDrive
  split <;> rfl

theorem Dev.dbgReaches_of_up (hr : d.tapRuns = true) (hup : d.coreUp = true) : d.dbgReaches = true := by
  rw [Dev.dbgReaches, hr, hup]
  rfl

theorem Dev.debugAttach_load (hr : d.dbgReaches = true) (ha : d.acc.attached = false) (hl : 2 ≤ d.acc.level)
    (hm : d.sys.mode = .load) : d.debugAttach.acc.attached = true := by
  have free : d.selectDbg.acc.attached = false := (Acc.endDrive_attached d.acc).trans ha
  have level : d.selectDbg.acc.level = d.acc.level := Acc.endDrive_level d.acc
  have enough : ¬ d.acc.level < 2 := BitVec.not_lt.mpr hl
  have load : d.selectDbg.sys.mode = .load := hm
  have permitted : ¬ d.acc.level.toNat < attachLevel .load := enough
  simp only [Dev.debugAttach, hr, Bool.not_true, Bool.false_eq_true, if_false, free, level, enough, load, permitted]
  exact congrArg Acc.attached (Dev.event_acc _ _ _)

/-- A detach leaves the access controller but for ATTACHED. -/
theorem Dev.detach_acc (cause : BitVec 2) : (d.detach cause).acc = { d.acc with attached := false } := by
  unfold Dev.detach
  split
  · have kept := (Dev.soffitRelease_acc d.clearGableHalt).trans (Dev.clearGableHalt_acc d)
    simp only [Dev.event_acc, kept]
  next h => rw [← eq_false_of_ne_true h]

theorem Dev.debugDetach_acc (hr : d.dbgReaches = true) : d.debugDetach.acc.attached = false ∧
    d.debugDetach.acc.attachPending = false := by
  have detaches : d.debugDetach = (d.selectDbg.onAcc fun a => { a with attachPending := false }).detach 1 :=
    if_neg (by simp [hr])
  rw [detaches, Dev.detach_acc]
  exact ⟨rfl, rfl⟩

/-- A request of an attached debugger is made of the device with DBG selected. -/
theorem Dev.dbgAsk_attached (hr : d.dbgReaches = true) (ha : d.acc.attached = true) (hb : d.sys.mode ≠ .boot)
    (u : Option CoreId) (f : Dev → Dev) : d.dbgAsk u f = f d.selectDbg := by
  have asks : (d.selectDbg.acc.attached && (d.selectDbg.sys.mode != .boot || u == some .truss)) = true := by
    rw [show d.selectDbg.acc.attached = true from (Acc.endDrive_attached d.acc).trans ha,
      show (d.selectDbg.sys.mode != .boot) = true from bne_iff_ne.mpr hb]
    rfl
  simp only [Dev.dbgAsk, hr, if_true, asks]

section
variable (hr : d.dbgReaches = true) (ha : d.acc.attached = true) (hb : d.sys.mode ≠ .boot)
include hr ha hb

theorem Dev.debugHalt_truss (hh : d.thatch.truss.dbgHalt = false) :
    d.debugHalt (some .truss) = d.selectDbg.onCore .truss fun x => { x with dbgHalt := true } :=
  (Dev.dbgAsk_attached hr ha hb _ _).trans (if_neg (ne_true_of_eq_false hh))

theorem Dev.debugStep_truss (hh : d.thatch.truss.dbgHalt = true) :
    d.debugStep (some .truss) = d.selectDbg.onCore .truss fun x => { x with dbgStep := true } :=
  (Dev.dbgAsk_attached hr ha hb _ _).trans (if_pos hh)

theorem Dev.debugResume_truss : d.debugResume (some .truss) = d.selectDbg.onCore .truss Core.release :=
  Dev.dbgAsk_attached hr ha hb _ _

theorem Dev.debugRead_trussPc (o : Otp) : d.debugRead o (some .truss) .pc =
    d.selectDbg.onAcc fun a => { a with dbgData := d.thatch.truss.pc } :=
  Dev.dbgAsk_attached hr ha hb _ _

theorem Dev.debugWrite_trussPc (v : Word) : d.debugWrite (some .truss) .pc v =
    d.selectDbg.onCore .truss fun x => { x with pc := v } :=
  Dev.dbgAsk_attached hr ha hb _ _

end

end

end Sys2Proof.Machine
end

section
/-! PROOF. Injections (18 R518 to R526): the schedule while one runs, and a dry injection detected, missed or restored. -/

namespace Sys2Proof.Machine

open Sys2Proof

section
variable {d : Dev}

/-- A step of an injection, by what it comes to on the device as it stands. -/
theorem Dev.injThen_congr {f g : Dev → Dev} (h : f d = g d) : d.injThen f = d.injThen g := by
  simp only [Dev.injThen, h]

/-- A scheduled injection that falls due waits for the one that runs. -/
theorem Dev.injInterval_waits (ht : d.inj.schedAt + 1000000 * d.inj.interval.toNat ≤ d.now) (he : d.inj.schedEn = true)
    (hm : d.sys.mode = .run) (hb : d.inj.busy = true) :
    d.injInterval = { d with inj := { d.inj with schedAt := d.now, schedDue := true } } := by
  simp only [Dev.injInterval, decide_eq_true ht, if_true, Dev.injSchedule, he, hm, beq_self_eq_true, Bool.and_self, hb]

/-- The newest log entry with a result and the time to it. -/
def Dev.injLogged (d : Dev) (result : BitVec 3) (t : BitVec 24) : Dev :=
  let i := d.inj.onHead fun e => { e with result := result, detect := t }
  { d with inj := { i with detect := t } }

theorem Dev.injComplete_none (h : d.inj.hdr = none) (t : BitVec 24) (found : Bool) : d.injComplete t found = d := by
  simp only [Dev.injComplete, h]

section
variable (hb : d.inj.busy = true) (hr : d.inj.restoring = false) (hh : d.inj.hdr = none) (hd : d.inj.dry = true)
include hb hr hh hd

theorem Dev.injDetected_dry (ht : d.now ≤ d.inj.start + d.injTime d.inj.bit.toNat d.inj.inst) :
    d.injDetected = (d.injLogged 1 (satAdd 0 (d.now - d.inj.start))).injEnd true := by
  have due : (d.inj.busy && !d.inj.restoring &&
      decide (d.now ≤ d.inj.start + d.injTime d.inj.bit.toNat d.inj.inst)) = true := by
    rw [hb, hr, decide_eq_true ht]
    rfl
  have quiet := Dev.injComplete_none (d := d.injLogged 1 (satAdd 0 (d.now - d.inj.start))) hh
    (satAdd 0 (d.now - d.inj.start)) true
  rw [Dev.injDetected, if_pos due]
  exact (congrArg (fun x : Dev => if x.inj.dry then x.injEnd true else _) quiet).trans (if_pos hd)

theorem Dev.injDeadline_dry (ht : d.inj.start + d.injTime d.inj.bit.toNat d.inj.inst + 1000 ≤ d.now) :
    d.injDeadline = (d.injLogged 2 (satAdd 0 (d.injTime d.inj.bit.toNat d.inj.inst))).injEnd false := by
  have due : (d.inj.busy && !d.inj.restoring &&
      decide (d.inj.start + d.injTime d.inj.bit.toNat d.inj.inst + 1000 ≤ d.now)) = true := by
    rw [hb, hr, decide_eq_true ht]
    rfl
  have quiet := Dev.injComplete_none (d := d.injLogged 2 (satAdd 0 (d.injTime d.inj.bit.toNat d.inj.inst))) hh
    (satAdd 0 (d.injTime d.inj.bit.toNat d.inj.inst)) false
  rw [Dev.injDeadline, if_pos due]
  exact (congrArg (fun x : Dev => if x.inj.dry then x.injEnd false else _) quiet).trans (if_pos hd)

end

/-- Restoration within its bound, with something not yet back: the fault is withdrawn, once. -/
theorem Dev.injRestored_waits (hb : d.inj.busy = true) (hr : d.inj.restoring = true)
    (ht : d.now ≤ d.inj.start + d.inj.detect.toNat + (if (d.inj.log[d.inj.head]).result = 2 then 1000 else 0) +
      d.injRestore d.inj.bit.toNat d.inj.inst)
    (hn : (if d.inj.held then d.withdrawInj else d).injBack = false) :
    d.injRestored = if d.inj.held then d.withdrawInj else d := by
  have runs : (d.inj.busy && d.inj.restoring) = true := by rw [hb, hr]; rfl
  have inTime : ¬ d.inj.start + d.inj.detect.toNat + (if (d.inj.log[d.inj.head.val]).result = 2 then 1000 else 0) +
    d.injRestore d.inj.bit.toNat d.inj.inst < d.now := Nat.not_lt.mpr ht
  have waits : (!decide (d.inj.start + d.inj.detect.toNat + (if (d.inj.log[d.inj.head.val]).result = 2 then 1000 else 0) +
      d.injRestore d.inj.bit.toNat d.inj.inst < d.now) && !(if d.inj.held then d.withdrawInj else d).injBack) = true := by
    rw [decide_eq_false inTime, hn]
    rfl
  rw [Dev.injRestored, if_pos runs]
  exact if_pos waits

end

end Sys2Proof.Machine
end

section
/-! PROOF. The rows of roofs, twins, access, the TAP, the debugger and injections, each where its conditions hold: what the next
state holds. -/

namespace Sys2Proof.Machine

open Sys2Proof

section
variable {s : State}

/-! ### The host's writes (17 R498 to R503, R512) -/

theorem exec_accNonce (h : s.takesWrite 0x200A0008 2 = true) :
    exec .accNonce s = .next { s with dev := s.dev.answering.drawNonce } :=
  next_accReg (off := 8) h (by decide) rfl

theorem exec_accLock (h : s.takesWrite 0x200A0008 1 = true) (ha : s.dev.acc.attached = false)
    (hj : s.dev.acc.jtag.drives = false) : exec .accLock s = .next (s.any fun d => Dev.event { d.answering with
      acc := { d.acc with nonceAt := none, level := 0, lapse := none, attachPending := false } } 0x0D03
        (pay 0 s.dev.acc.level ||| pay 2 (1 : BitVec 2))) := by
  have locked := Dev.lapse_unattached (d := s.dev.answering.onAcc fun a => { a with nonceAt := none }) ha hj 1
  exact next_accReg (t := (_, s.otp)) (off := 8) h (by decide) (congrArg (·, s.otp) locked)

theorem exec_unlockPassword {level : BitVec 2} (h : s.takesWrite 0x200A000C (level.setWidth 32) = true)
    (hf : 64 ≤ s.otp.fuses.toNat) : exec (.unlockPassword level) s = .next { s with
      dev := s.dev.answering.onAcc fun a => { a with pw := 0, lastPath := false, result := 4 } } :=
  next_accReg (off := 12) h (by decide) ((Dev.accUnlock_password _ level).trans (Dev.unlockPassword_disabled hf))

theorem exec_unlockChallenge {level : BitVec 2} (h : s.takesWrite 0x200A000C (16 + level.setWidth 32) = true)
    (hl : level = 2 ∨ level = 3) (hu : s.dev.acc.crUntil ≤ s.dev.alwaysOn) (hn : s.dev.nonceValid = false) :
    exec (.unlockChallenge level) s = .next { s with
      dev := s.dev.answering.onAcc fun a => { a with lastPath := true, nonceAt := none, pw := 0, result := 5 } } := by
  have named : level.setWidth 8 = (2 : Byte) ∨ level.setWidth 8 = (3 : Byte) :=
    hl.imp (congrArg (BitVec.setWidth 8)) (congrArg (BitVec.setWidth 8))
  have void := Dev.unlockChallenge_noNonce (d := s.dev.answering) named hu hn s.otp.fuses s.dev.acc.resp false
  exact next_accReg (off := 12) h (by decide) ((Dev.accUnlock_challenge _ level).trans (congrArg (·, s.otp) void))

theorem exec_otpProgram {target : BitVec 3} {level : BitVec 2} {mask : BitVec 4}
    (h : s.takesWrite 0x200A0050 (fld 0 target ||| fld 4 level ||| fld 8 mask) = true) :
    exec (.otpProgram target level mask) s = .next { s with
      dev := (s.dev.answering.otpProgram s.otp target level mask).1,
      otp := (s.dev.answering.otpProgram s.otp target level mask).2 } :=
  next_accReg (off := 0x50) h (by decide) (accProg_otpProgram _ _ target level mask)

theorem exec_otpRevoke {target : BitVec 3} {mask : BitVec 4}
    (h : s.takesWrite 0x200A0050 (fld 0 target ||| bit 3 true ||| fld 8 mask) = true) :
    exec (.otpRevoke target mask) s = .next { s with
      dev := (s.dev.answering.otpRevoke s.otp target mask).1, otp := (s.dev.answering.otpRevoke s.otp target mask).2 } :=
  next_accReg (off := 0x50) h (by decide) (accProg_otpRevoke _ _ target mask)

/-! ### The TAP (17 R509, R510) -/

/-- A row that scans a permitted instruction. -/
theorem next_jtagScan {j : Jtag} (hr : s.dev.tapRuns = true) (hj : s.dev.jtagOk j = true) (f : Acc → Acc) :
    (Host.Outcome.next (s.any fun d => d.jtagScan j f) : Host.Outcome State Fault Refusal) =
      .next (s.any fun d => d.onAcc fun a => f { a with tir := 1, jtag := j }) :=
  next_any (Dev.jtagScan_selects hr hj f)

theorem exec_bypass {op : Byte} (hr : s.dev.tapRuns = true)
    (ho : op ∉ ([0x00, 0x01, 0x02, 0x04, 0x05, 0x10, 0x11] : List Byte)) :
    exec (.bypass op) s = .next (s.any fun d => d.onAcc fun a => { a with tir := 1, jtag := .bypass, tdr := 0 }) :=
  next_any ((if_pos (jtagOf_unlisted ho)).trans (Dev.jtagScan_selects hr rfl _))

end

/-- Settles O60, a row at a time. -/
theorem roofAndAccessCommandsComplete : Obligations.RoofAndAccessCommandsComplete := by
  intro s src kind hop op seq frame x k line interval rtt off bytes pins cells mask v item cell hup d r a goes holds
  refine ⟨?manager, ?worker, fun c h hk hd hs h1 => ⟨_, next_core_dev hup (Dev.cellReceive_forwards h hk hd hs h1), rfl⟩,
    next_core hup rfl, fun c n t rest h ht hn => ⟨_, next_core_dev hup (Dev.purlinRetry_repeats h ht hn), rfl, rfl⟩,
    fun p hr => next_core hup (Dev.takeMigrate_inRoof hr k seq p),
    fun he hs hh hm hc hu => next_core hup (Dev.ring30_drops hup he hs hh hm hc hu), ?twin,
    fun h => ⟨_, exec_accNonce h, rfl, rfl⟩, fun h => ⟨_, next_core_dev hup (Dev.nonceExpire_void h), rfl⟩,
    fun h ha hj => exec_accLock h ha hj, fun t hl ht => next_any (Dev.unlockTimeout_due hup hl ht),
    fun level h hf => ⟨_, exec_unlockPassword h hf, rfl, rfl⟩,
    fun level h hl hu hn => ⟨_, exec_unlockChallenge h hl hu hn, rfl, rfl, rfl⟩,
    fun target level h hm ha ht hp h0 h3 =>
      ⟨_, exec_otpProgram h, Dev.otpProgram_password (d := s.dev.answering) mask hm ha ht hp h0 h3⟩,
    fun target h hm ha ht hr => ⟨_, exec_otpRevoke h, Dev.otpRevoke_password (d := s.dev.answering) mask hm ha ht hr⟩,
    ?tap, ?injection⟩
  case manager =>
    intro hm
    refine ⟨fun ht => next_core hup (Dev.train_due hm ht), fun hp hl hr => ?_,
      fun hp hl ht => next_core hup (Dev.statusMissing_due hm hp hl ht),
      fun hs ha hn he => next_taken hup hm (Dev.bootReq_sends hm hup hs ha hn he k hop),
      next_taken hup hm (Dev.relayUp_takes hm hup src seq frame),
      fun hb => ⟨_, next_core_dev hup rfl, Dev.markSend_marksOut hm hup hb⟩,
      fun hr => ⟨_, next_core_dev hup (Dev.markReturn_up hm hup hr rtt), rfl, rfl, rfl⟩,
      fun hr hl => next_core hup (Dev.ringBroken_due hm hup hr hl)⟩
    have seen := Dev.shown_workerAt (d := s.dev) cell
    exact ⟨_, exec_status_shows hup hm hp hl hr, congrArg WorkerView.ok seen, congrArg WorkerView.mode seen,
      congrArg WorkerView.frame seen⟩
  case worker =>
    intro hw
    exact ⟨fun ht => next_core hup (Dev.status_due hw ht), fun hc => exec_gframe hup hw (.inl hc),
      next_core hup (Dev.encFrame_ridge hw hup frame), exec_relayDown hup hw, next_core hup (Dev.reenum_takes hw hup src seq),
      fun hb => exec_bootdata hup hw hb, fun m hr hm hc => next_core hup (Dev.markReceive_valid hr hw hm hc),
      fun ho hk ht hn => ⟨_, next_core_dev hup (Dev.markMissing_flies hw hup hk ho ht hn), rfl, rfl, rfl⟩⟩
  case twin =>
    intro ht
    exact ⟨fun hd hb => ⟨_, next_core_dev hup rfl, Dev.syncSend_sends ht hup hd hb⟩,
      fun w hw hc hm hd => ⟨_, next_core_dev hup (Dev.syncReceive_driving ht hup hw hc hm hd interval), rfl, rfl, rfl, rfl⟩,
      fun ho hm => ⟨_, next_core_dev hup (Dev.syncMissing_first ht hup ho hm), rfl, rfl⟩⟩
  case tap =>
    intro hr
    have reaches := Dev.dbgReaches_of_up hr hup
    refine ⟨⟨_, next_jtagScan hr rfl _, rfl⟩, fun ho => ⟨_, exec_bypass hr ho, rfl⟩,
      fun hm => ⟨_, next_jtagScan (j := .sample) hr (bne_iff_ne.mpr hm) _, rfl, rfl⟩, fun hl hm => ?drives,
      ⟨_, rfl, Dev.accChal_draws hr hup s.otp.fuses item⟩,
      fun ha hl hm => ⟨_, rfl, Dev.debugAttach_load reaches ha hl hm⟩, ⟨_, rfl, Dev.debugDetach_acc reaches⟩,
      fun ha hb => ⟨fun hh => ⟨_, next_any_dev (Dev.debugHalt_truss reaches ha hb hh), rfl⟩,
        fun hh => ⟨_, next_any_dev (Dev.debugStep_truss reaches ha hb hh), rfl⟩,
        ⟨_, next_any_dev (Dev.debugResume_truss reaches ha hb), rfl⟩, ?read,
        ⟨_, next_any_dev (Dev.debugWrite_trussPc reaches ha hb v), rfl⟩⟩⟩
    case drives =>
      obtain ⟨extest, highz, clamp⟩ := Dev.jtagOk_drives hup hl hm
      exact ⟨⟨_, next_jtagScan hr extest _, rfl, rfl⟩, ⟨_, next_jtagScan hr highz _, rfl⟩, ⟨_, next_jtagScan hr clamp _, rfl⟩⟩
    case read =>
      exact ⟨_, rfl, congrArg (fun t : Dev => t.acc.dbgData) (Dev.debugRead_trussPc reaches ha hb s.otp)⟩
  case injection =>
    intro i
    exact ⟨fun ht he hm hb => ⟨_, next_core_dev hup (Dev.injInterval_waits ht he hm hb), rfl, rfl⟩,
      fun hb hr hh hd => ⟨fun ht => next_core hup (Dev.injThen_congr (Dev.injDetected_dry hb hr hh hd ht)),
        fun ht => next_core hup (Dev.injThen_congr (Dev.injDeadline_dry hb hr hh hd ht))⟩,
      fun hb hr ht hn => next_core hup (Dev.injThen_congr (Dev.injRestored_waits hb hr ht hn))⟩

end Sys2Proof.Machine
end

section
/-! PROOF. Fault injections (18 R516 to R527): the schedule by what is due, an injection in full form detected or missed, and
the ends of restoration. -/

namespace Sys2Proof.Machine

open Sys2Proof

section
variable {d : Dev}

/-! ### The schedule (18 R526) -/

theorem Dev.injInterval_early (ht : ¬ d.inj.schedAt + 1000000 * d.inj.interval.toNat ≤ d.now) : d.injInterval = d := by
  simp only [Dev.injInterval, decide_eq_false ht, Bool.false_eq_true, if_false]

theorem Dev.injInterval_due (ht : d.inj.schedAt + 1000000 * d.inj.interval.toNat ≤ d.now) :
    d.injInterval = Dev.injSchedule { d with inj := { d.inj with schedAt := d.now } } := if_pos (decide_eq_true ht)

theorem Dev.injInterval_idle (ht : d.inj.schedAt + 1000000 * d.inj.interval.toNat ≤ d.now)
    (hoff : d.inj.schedEn = false ∨ d.sys.mode ≠ .run) :
    d.injInterval = { d with inj := { d.inj with schedAt := d.now } } := by
  have off : (d.inj.schedEn && d.sys.mode == .run) = false := by
    rcases hoff with he | hm
    · rw [he, Bool.false_and]
    · rw [beq_eq_false_iff_ne.mpr hm, Bool.and_false]
  exact (Dev.injInterval_due ht).trans (if_neg (ne_true_of_eq_false off))

/-- The next dry bit that applies anywhere starts, and the one after it is next (18 R526). -/
theorem Dev.injSchedule_starts (he : d.inj.schedEn = true) (hm : d.sys.mode = .run) (hb : d.inj.busy = false) {k : Nat}
    (hk : (dryOrder d.inj.nextSched).find? (fun b => !(d.injInstances b 0xFF).isEmpty) = some k) :
    d.injSchedule = Dev.injStart
      { d with inj := { d.inj with nextSched := (k + 1) % 55, schedDue := false } } k true .schedule none := by
  have on : (d.inj.schedEn && d.sys.mode == .run) = true := by rw [he, hm]; rfl
  rw [Dev.injSchedule, if_pos on, if_neg (ne_true_of_eq_false hb), hk]

theorem Dev.injInterval_starts (ht : d.inj.schedAt + 1000000 * d.inj.interval.toNat ≤ d.now) (he : d.inj.schedEn = true)
    (hm : d.sys.mode = .run) (hb : d.inj.busy = false) {k : Nat}
    (hk : (dryOrder d.inj.nextSched).find? (fun b => !(d.injInstances b 0xFF).isEmpty) = some k) :
    d.injInterval = Dev.injStart
      { d with inj := { d.inj with schedAt := d.now, nextSched := (k + 1) % 55, schedDue := false } } k true .schedule none :=
  (Dev.injInterval_due ht).trans
    (Dev.injSchedule_starts (d := { d with inj := { d.inj with schedAt := d.now } }) he hm hb hk)

/-! ### Detection and miss in full form (18 R518, R519) -/

/-- Restoration begins: the fault is held until it is withdrawn. -/
def Dev.injHeld (d : Dev) : Dev := { d with inj := { d.inj with restoring := true, held := true } }

/-- The output stages of an injection in full form act, and restoration begins. -/
def Dev.injActs (d : Dev) (z : Stages) : Dev :=
  Dev.refreshInhibits { d.injHeld with inj := { d.injHeld.inj with stopG := z.g, stopH := z.h, gates := z.gates } }

section
variable (hb : d.inj.busy = true) (hr : d.inj.restoring = false)
include hb hr

/-- What detection and miss ask for: an injection that runs and does not restore, at an instant of theirs. -/
theorem Dev.injMeets {p : Prop} [Decidable p] (ht : p) : (d.inj.busy && !d.inj.restoring && decide p) = true := by
  rw [hb, hr, decide_eq_true ht]
  rfl

variable (hh : d.inj.hdr = none) (hd : d.inj.dry = false)
include hh hd

theorem Dev.injDetected_full (ht : d.now ≤ d.inj.start + d.injTime d.inj.bit.toNat d.inj.inst) :
    d.injDetected =
      let y := d.injLogged 1 (satAdd 0 (d.now - d.inj.start))
      y.injActs (y.injAllStages d.inj.bit.toNat d.inj.inst) := by
  have quiet := Dev.injComplete_none (d := d.injLogged 1 (satAdd 0 (d.now - d.inj.start))) hh
    (satAdd 0 (d.now - d.inj.start)) true
  rw [Dev.injDetected, if_pos (Dev.injMeets hb hr ht)]
  exact (congrArg (fun x : Dev => if x.inj.dry then x.injEnd true else
    x.injActs (x.injAllStages d.inj.bit.toNat x.inj.inst)) quiet).trans (if_neg (ne_true_of_eq_false hd))

theorem Dev.injDeadline_full (ht : d.inj.start + d.injTime d.inj.bit.toNat d.inj.inst + 1000 ≤ d.now) :
    d.injDeadline = (d.injLogged 2 (satAdd 0 (d.injTime d.inj.bit.toNat d.inj.inst))).injHeld := by
  have quiet := Dev.injComplete_none (d := d.injLogged 2 (satAdd 0 (d.injTime d.inj.bit.toNat d.inj.inst))) hh
    (satAdd 0 (d.injTime d.inj.bit.toNat d.inj.inst)) false
  rw [Dev.injDeadline, if_pos (Dev.injMeets hb hr ht)]
  exact (congrArg (fun x : Dev => if x.inj.dry then x.injEnd false else x.injHeld) quiet).trans
    (if_neg (ne_true_of_eq_false hd))

end

/-! ### Restoration (18 R521) -/

/-- The fault withdrawn, where it is still held. -/
def Dev.injDropped (d : Dev) : Dev := if d.inj.held then d.withdrawInj else d

/-- The last instant at which restoration is in time. -/
def Dev.injRestoreBy (d : Dev) : Nat :=
  d.inj.start + d.inj.detect.toNat + (if (d.inj.log[d.inj.head]).result = 2 then 1000 else 0) +
    d.injRestore d.inj.bit.toNat d.inj.inst

section
variable (hb : d.inj.busy = true) (hr : d.inj.restoring = true)
include hb hr

theorem Dev.injRestored_back (ht : d.now ≤ d.injRestoreBy) (hback : d.injDropped.injBack = true) :
    d.injRestored =
      if (d.inj.log[d.inj.head]).result = 4 then Dev.injEvent { d.injDropped with inj := d.injDropped.inj.idle }
      else d.injDropped.injEnd ((d.inj.log[d.inj.head]).result == 1) := by
  have runs : (d.inj.busy && d.inj.restoring) = true := by rw [hb, hr]; rfl
  have inTime : ¬ decide (d.injRestoreBy < d.now) = true := by rw [decide_eq_true_iff]; exact Nat.not_lt.mpr ht
  have ends : ¬ (!decide (d.injRestoreBy < d.now) && !d.injDropped.injBack) = true := by
    rw [hback, Bool.not_true, Bool.and_false]
    nofun
  rw [Dev.injRestored, if_pos runs]
  exact (if_neg ends).trans (if_neg inTime)

/-- Past its bound, restoration has failed: a detected injection has told of itself before. -/
theorem Dev.injRestored_late (ht : d.injRestoreBy < d.now) :
    d.injRestored =
      let y := if (d.inj.log[d.inj.head]).result = 1 then d.injDropped.injEvent else d.injDropped
      Dev.injEnd { y with inj := y.inj.onHead fun e => { e with result := 3 } } false := by
  have runs : (d.inj.busy && d.inj.restoring) = true := by rw [hb, hr]; rfl
  have late : decide (d.injRestoreBy < d.now) = true := decide_eq_true ht
  have ends : ¬ (!decide (d.injRestoreBy < d.now) && !d.injDropped.injBack) = true := by rw [late]; nofun
  rw [Dev.injRestored, if_pos runs]
  exact (if_neg ends).trans (if_pos late)

end

end

/-! ### An injection that does not run -/

section
variable {d : Dev} (hb : d.inj.busy = false)
include hb

/-- A step that leaves an injection that does not run is nothing more than itself. -/
theorem Dev.injThen_off {f : Dev → Dev} (hf : f d = d) : d.injThen f = d := by
  simp only [Dev.injThen, hb, hf, Bool.false_and, Bool.false_eq_true, if_false]

theorem Dev.injDetected_off : d.injDetected = d := by
  simp only [Dev.injDetected, hb, Bool.false_and, Bool.false_eq_true, if_false]

theorem Dev.injDeadline_off : d.injDeadline = d := by
  simp only [Dev.injDeadline, hb, Bool.false_and, Bool.false_eq_true, if_false]

theorem Dev.injRestored_off : d.injRestored = d := by
  simp only [Dev.injRestored, hb, Bool.false_and, Bool.false_eq_true, if_false]

end

/-- Settles O45: each row by what its step comes to on the device as it stands. -/
theorem faultInjections : Obligations.FaultInjections := by
  intro s hup d i b bound ended logged gone
  have then_ {c f g} (hc : exec c s = .next (s.core fun d => d.injThen f)) (h : f d = g d) : exec c s = .next (ended g) :=
    hc.trans (next_core hup (Dev.injThen_congr h))
  refine ⟨fun ht he hm hb k hk => next_core hup (Dev.injInterval_starts ht he hm hb hk),
    fun ht => next_core_same (Dev.injInterval_early ht), fun ht hoff => next_core hup (Dev.injInterval_idle ht hoff),
    fun ht he hm hb => next_core hup (Dev.injInterval_waits ht he hm hb),
    fun hb hr hh => ⟨fun ht => ⟨fun hd => then_ rfl (Dev.injDetected_dry hb hr hh hd ht),
        fun hd => then_ rfl (Dev.injDetected_full hb hr hh hd ht)⟩,
      fun ht => ⟨fun hd => then_ rfl (Dev.injDeadline_dry hb hr hh hd ht),
        fun hd => then_ rfl (Dev.injDeadline_full hb hr hh hd ht)⟩⟩, ?restoration,
    fun hb => ⟨next_core_same (Dev.injThen_off hb (Dev.injDetected_off hb)),
      next_core_same (Dev.injThen_off hb (Dev.injDeadline_off hb)),
      next_core_same (Dev.injThen_off hb (Dev.injRestored_off hb))⟩⟩
  intro hb hr e from' drop
  exact ⟨fun ht hback => then_ rfl (Dev.injRestored_back hb hr ht hback),
    fun ht hback => then_ rfl (Dev.injRestored_waits hb hr ht hback), fun ht => then_ rfl (Dev.injRestored_late hb hr ht)⟩

end Sys2Proof.Machine
end

section
/-! PROOF. OTP only grows (17 R511): slots are programmed and revoked (17 R512), unlock fuses burn (17 R502) and the
change-log counter advances (11 R357), none of which erases anything; what of access and of the host's writes comes to that. -/

namespace Sys2Proof.Machine

open Sys2Proof

/-! ### Growth of the OTP and of its slots -/

theorem KeySlot.grows_refl (x : KeySlot) : x.grows x := ⟨fun h => ⟨h, rfl, rfl⟩, id⟩

theorem PwSlot.grows_refl (x : PwSlot) : x.grows x := ⟨fun h => ⟨h, rfl, rfl, rfl⟩, id⟩

theorem KeySlot.grows.trans {x y z : KeySlot} (h : x.grows y) (h' : y.grows z) : x.grows z := by
  refine ⟨fun hp => ?_, fun hr => h'.2 (h.2 hr)⟩
  obtain ⟨hy, hash, mask⟩ := h.1 hp
  obtain ⟨hz, hash', mask'⟩ := h'.1 hy
  exact ⟨hz, hash'.trans hash, mask'.trans mask⟩

theorem PwSlot.grows.trans {x y z : PwSlot} (h : x.grows y) (h' : y.grows z) : x.grows z := by
  refine ⟨fun hp => ?_, fun hr => h'.2 (h.2 hr)⟩
  obtain ⟨hy, level, salt, tag⟩ := h.1 hp
  obtain ⟨hz, level', salt', tag'⟩ := h'.1 hy
  exact ⟨hz, level'.trans level, salt'.trans salt, tag'.trans tag⟩

theorem Otp.grows.trans {o p q : Otp} (h : o.grows p) (h' : p.grows q) : o.grows q := by
  obtain ⟨keys, pws, fuses, counter, eng, cap⟩ := h
  obtain ⟨keys', pws', fuses', counter', eng', cap'⟩ := h'
  exact ⟨fun k => (keys k).trans (keys' k), fun k => (pws k).trans (pws' k), BitVec.le_trans fuses fuses',
    BitVec.le_trans counter counter', eng'.trans eng, cap'.trans cap⟩

section
variable (o : Otp) {k : Fin 4}

/-- A slot that has grown, among slots that stay. -/
theorem grows_set {α : Type} {R : α → α → Prop} {v : Vector α 4} (refl : ∀ x, R x x) {x : α} (h : R v[k] x)
    (j : Fin 4) : R v[j] (v.set k x)[j] := by
  by_cases hj : k.val = j.val
  · obtain rfl := Fin.ext hj
    rw [Fin.getElem_fin, Fin.getElem_fin, Vector.getElem_set_self]
    exact h
  · rw [Fin.getElem_fin, Fin.getElem_fin, Vector.getElem_set_ne _ _ hj]
    exact refl _

theorem Otp.grows_setKey {x : KeySlot} (h : (o.keys[k]).grows x) : o.grows { o with keys := o.keys.set k x } :=
  ⟨grows_set KeySlot.grows_refl h, fun _ => PwSlot.grows_refl _, BitVec.le_refl _, BitVec.le_refl _, rfl, rfl⟩

theorem Otp.grows_setPw {x : PwSlot} (h : (o.pws[k]).grows x) : o.grows { o with pws := o.pws.set k x } :=
  ⟨fun _ => KeySlot.grows_refl _, grows_set PwSlot.grows_refl h, BitVec.le_refl _, BitVec.le_refl _, rfl, rfl⟩

theorem Otp.grows_fuse (h : o.fuses < 64) : o.grows { o with fuses := o.fuses + 1 } :=
  ⟨fun _ => KeySlot.grows_refl _, fun _ => PwSlot.grows_refl _, by show o.fuses ≤ o.fuses + 1; bv_omega, BitVec.le_refl _,
    rfl, rfl⟩

/-- The counter stops at 4095 (11 R357), so that it never comes round. -/
theorem Otp.grows_counter (h : o.counter.toNat ≠ 4095) :
    o.grows { o with counter := BitVec.ofNat 12 (o.counter.toNat + 1) } :=
  ⟨fun _ => KeySlot.grows_refl _, fun _ => PwSlot.grows_refl _, BitVec.le_refl _,
    by show o.counter ≤ BitVec.ofNat 12 (o.counter.toNat + 1); bv_omega, rfl, rfl⟩

end

/-- Whether a chip may become another, as far as its OTP tells. -/
def Chip.grows (m t : Chip) : Prop := m.2.grows t.2

/-- A chip by a test, grown either way. -/
theorem grows_ite {o : Otp} {p : Prop} [Decidable p] {m n : Chip} (h : o.grows m.2) (h' : o.grows n.2) :
    o.grows (if p then m else n).2 := by
  split
  · exact h
  · exact h'

/-! ### Access (17 R500 to R502, R511, R512) -/

section
variable (d : Dev) (o : Otp)

theorem Dev.passwordWrong_grows : o.grows (d.passwordWrong o).2 := by
  by_cases burn : (satInc d.acc.pwFail).toNat % 8 = 0 ∧ o.fuses < 64
  · simp only [Dev.passwordWrong, burn, and_self, if_true]
    exact o.grows_fuse burn.2
  · simp only [Dev.passwordWrong, burn, if_false]
    exact o.grows_refl

theorem Dev.unlockPassword_grows : o.grows (d.unlockPassword o).2 :=
  grows_ite o.grows_refl (grows_ite o.grows_refl (grows_ite (Dev.passwordWrong_grows _ o) o.grows_refl))

theorem Dev.otpProgram_grows (target : BitVec 3) (level : BitVec 2) (mask : BitVec 4) :
    o.grows (d.otpProgram o target level mask).2 := by
  rw [Dev.otpProgram]
  refine grows_ite o.grows_refl (grows_ite ?password ?key)
  case password =>
    split
    · exact o.grows_refl
    · rename_i free
      exact o.grows_setPw ⟨fun h => absurd (.inl h) free, id⟩
  case key =>
    dsimp only
    split
    · exact o.grows_refl
    · rename_i free
      exact o.grows_setKey ⟨fun h => absurd (.inl h) free, id⟩

theorem Dev.otpRevoke_grows (target : BitVec 3) (mask : BitVec 4) : o.grows (d.otpRevoke o target mask).2 :=
  grows_ite o.grows_refl (grows_ite
    (grows_ite o.grows_refl (o.grows_setPw ⟨fun h => ⟨h, rfl, rfl, rfl⟩, fun _ => rfl⟩))
    (grows_ite o.grows_refl (o.grows_setKey ⟨fun h => ⟨h, rfl, rfl⟩, fun _ => rfl⟩)))

theorem Dev.accProg_grows (v : Word) : o.grows (d.accProg o v).2 :=
  grows_ite (d.otpRevoke_grows o _ _) (d.otpProgram_grows o _ _ _)

theorem Dev.accUnlock_grows (v : Word) : o.grows (d.accUnlock o v).2 := grows_ite o.grows_refl (d.unlockPassword_grows o)

/-- Of the ACC_ registers, ACC_UNLOCK and ACC_PROG reach the OTP. -/
theorem Dev.accWrite_grows (off : Nat) (v : Word) : o.grows (d.accWrite o off v).2 := by
  unfold Dev.accWrite
  split
  · exact o.grows_refl
  · exact o.grows_refl
  · exact d.accUnlock_grows o v
  · exact o.grows_refl
  · exact d.accProg_grows o v
  · exact o.grows_refl
  · exact grows_ite o.grows_refl (grows_ite o.grows_refl o.grows_refl)

/-- Of the registers, those of access reach the OTP. -/
theorem regEffect_grows (a : Nat) (v : Word) : o.grows (regEffect d o a v).2 := by
  unfold regEffect
  split
  case h_11 => exact d.accWrite_grows o _ v
  all_goals exact o.grows_refl

theorem regWrite_grows (a : Nat) (v : Word) : o.grows (regWrite d o a v).2.2 := by
  unfold regWrite
  split
  · exact o.grows_refl
  · exact o.grows_refl
  · exact regEffect_grows d o a v
  · exact regEffect_grows d o a v

end

/-! ### Host accesses (02 R34 to R53, 16 R484) -/

section
variable (x : HostAcc)

theorem HostAcc.close_otp (before : BitVec 7) : (x.close before).2 = x.otp := by
  unfold HostAcc.close
  split <;> rfl

theorem HostAcc.putReg_grows (a v : Word) : x.otp.grows (x.putReg a v).otp := by
  refine Otp.grows.trans (regWrite_grows x.dev x.otp a.toNat v) ?_
  unfold HostAcc.putReg
  generalize regWrite x.dev x.otp a.toNat v = w
  obtain ⟨out, d, o⟩ := w
  cases out <;> exact o.grows_refl

/-- A byte that is no part of a whole aligned word reaches no register. -/
theorem HostAcc.putPart_otp (a : Word) (cut : Bool) : (x.putPart a cut).otp = x.otp := by
  unfold HostAcc.putPart
  cases cut
  all_goals
    dsimp only
    split
    · rfl
    · split <;> rfl

theorem HostAcc.put_grows (n : Nat) (a : Word) (bs : List Byte) : x.otp.grows (x.put n a bs).otp := by
  induction n generalizing x a bs with
  | zero => exact x.otp.grows_refl
  | succ n ih =>
    cases bs with
    | nil => exact x.otp.grows_refl
    | cons b bs =>
      unfold HostAcc.put
      split
      · exact ih (x.flag 1 a) _ _
      split
      · exact ih { x with dev := x.dev.loftWrite a.toNat ((b :: bs).take (loftSize - a.toNat)) } _ _
      split
      · exact (x.putReg_grows _ _).trans (ih _ _ _)
      · exact x.putPart_otp a _ ▸ ih _ _ _

theorem HostAcc.getLoft_otp (a n : Nat) : (x.getLoft a n).2.otp = x.otp := by
  unfold HostAcc.getLoft
  dsimp only
  split <;> rfl

theorem HostAcc.getByte_otp (a : Word) (run : Nat) : (x.getByte a run).2.otp = x.otp := by
  unfold HostAcc.getByte
  dsimp only
  split
  · split <;> rfl
  · split <;> split <;> rfl

theorem HostAcc.get_otp (fuel : Nat) (a : Word) (n run : Nat) : (x.get fuel a n run).2.otp = x.otp := by
  induction fuel generalizing x a n run with
  | zero => rfl
  | succ fuel ih =>
    rw [HostAcc.get]
    split
    · rfl
    split
    · exact (ih _ _ _ _).trans (x.getLoft_otp _ _)
    · exact (ih _ _ _ _).trans (x.getByte_otp _ _)

end

section
variable {d : Dev} {o : Otp}

/-- An access of the port that grows the OTP, where the port answers. -/
theorem hostAccess_grows {f : HostAcc → HostAcc} (h : ∀ x, x.otp = o → o.grows (f x).otp) :
    o.grows (hostAccess d o f).2 := by
  unfold hostAccess
  split
  · rw [HostAcc.close_otp]
    exact h _ rfl
  · exact o.grows_refl

theorem Dev.hostWrite_grows (addr : Option Word) (data : List Byte) (part : Bool) :
    o.grows (d.hostWrite o addr data part).2 := by
  refine hostAccess_grows fun x hx => ?_
  subst hx
  cases addr with
  | none => exact x.otp.grows_refl
  | some a => cases part <;> exact x.put_grows _ _ _

theorem Dev.hostRead_grows (addr : Option Word) (n period : Nat) (ready : Bool) :
    o.grows (d.hostRead o addr n period ready).2 := by
  refine hostAccess_grows fun x hx => ?_
  subst hx
  cases addr with
  | none => exact x.otp.grows_refl
  | some a =>
    dsimp only
    split
    · exact x.otp.grows_refl
    · exact (x.get_otp n a n 0).symm ▸ x.otp.grows_refl

theorem Dev.hostCommandRun_grows (f : HostFrame) (c : HostCommand) : o.grows (d.hostCommandRun o f c).2 := by
  cases c with
  | write => exact Dev.hostWrite_grows _ _ _
  | read => exact Dev.hostRead_grows _ _ _ _
  | readStatus => exact hostAccess_grows fun x hx => hx ▸ x.otp.grows_refl
  | readId => exact hostAccess_grows fun x hx => hx ▸ x.otp.grows_refl
  | portReset => exact hostAccess_grows fun x hx => hx ▸ x.otp.grows_refl

theorem Dev.hostFrame_grows (rise fall : Byte) (f : HostFrame) : o.grows (d.hostFrame o rise fall f).2 := by
  unfold Dev.hostFrame
  split
  · exact Dev.hostCommandRun_grows f _
  · exact hostAccess_grows fun x hx => hx ▸ x.otp.grows_refl

theorem Dev.hostUnknown_grows (rise fall : Byte) : o.grows (d.hostUnknown o rise fall).2 :=
  grows_ite o.grows_refl (Dev.hostFrame_grows rise fall {})

end

/-- A relayed WRITE is a host's. -/
theorem Chip.relayWrite_grows (m : Chip) (e : List Byte) : m.grows (m.relayWrite e) := by
  unfold Chip.relayWrite
  dsimp only
  rw [HostAcc.close_otp]
  exact HostAcc.put_grows { dev := m.1, otp := m.2, raised := 0 } _ _ _

theorem Chip.relayRead_grows (m : Chip) (e : List Byte) : m.grows (m.relayRead e) := by
  unfold Chip.relayRead
  dsimp only
  rw [HostAcc.close_otp, HostAcc.get_otp]
  exact m.2.grows_refl

theorem Chip.relayEntry_grows (m : Chip) (e : List Byte) : m.grows (m.relayEntry e) := by
  unfold Chip.relayEntry
  exact grows_ite (grows_ite m.2.grows_refl m.2.grows_refl) (grows_ite m.2.grows_refl
    (grows_ite (m.relayWrite_grows e) (grows_ite (m.relayRead_grows e) m.2.grows_refl)))

theorem Chip.relayDown_grows (m : Chip) (src : Byte) (seq : BitVec 16) (entry : BitVec 512) :
    m.grows (m.relayDown src seq entry) :=
  grows_ite (Chip.relayEntry_grows ((m.1.ack src 9 seq).purlinTaken, m.2) (bytes64 entry)) m.2.grows_refl

end Sys2Proof.Machine
end

section
/-! PROOF. Instructions and the OTP (04 R100 to R120, 05 R133 to R157): a store of the Truss reaches registers as a host's
write does (04 R109), and no other instruction reaches the OTP. -/

namespace Sys2Proof.Machine

open Sys2Proof

/-! ### Stores (04 R109) -/

/-- A store of the Truss can write a register (04 R109). -/
theorem trussStore_grows {m y : Chip} {a : Nat} {bs : List Byte} (h : trussStore m a bs = .ok y) : m.2.grows y.2 := by
  unfold trussStore at h
  dsimp only at h
  split at h
  · cases h
    exact m.2.grows_refl
  split at h
  · cases h
    exact m.2.grows_refl
  split at h
  · split at h
    · cases h
      exact regEffect_grows m.1 m.2 a _
    · cases h
  · cases h
  · cases h

/-- A change of the device alone, whether it succeeds or not. -/
theorem otp_of_map {r : Access Dev} {o : Otp} {y : Chip} (h : r.map (·, o) = .ok y) : y.2 = o := by
  cases r with
  | error e => cases h
  | ok d => cases h; rfl

theorem memStore_grows {m y : Chip} {c : CoreId} {addr : Word} {bs : List Byte} (h : memStore m c addr bs = .ok y) :
    m.2.grows y.2 := by
  unfold memStore at h
  dsimp only at h
  split at h
  · cases h
  · cases c with
    | truss => exact trussStore_grows h
    | engine e => exact otp_of_map h ▸ y.2.grows_refl
    | gable => exact otp_of_map h ▸ y.2.grows_refl
    | soffit => exact otp_of_map h ▸ y.2.grows_refl

/-! ### An instruction by its work (04 R118) -/

/-- What an instruction's work leaves of an OTP has grown from it. -/
def IOut.Grows (x : IOut) (o : Otp) : Prop :=
  match x with
  | .next m => o.grows m.2
  | .jump m _ => o.grows m.2
  | .stop m _ => o.grows m.2
  | .trap .. => True

theorem IOut.Grows.ite {o : Otp} {p : Prop} [Decidable p] {x y : IOut} (h : x.Grows o) (h' : y.Grows o) :
    (if p then x else y).Grows o := by
  split
  · exact h
  · exact h'

section
variable {m : Chip} {c : CoreId} {e : Fin 8} {w : Word} {n tail : Nat} {op : Byte} {dst a b : BitVec 5} {mod : BitVec 9}
  {imm off : BitVec 14}

theorem IOut.finish_grows {x : IOut} (h : x.Grows m.2) : m.grows (x.finish m c n tail) := by
  unfold IOut.finish
  dsimp only
  split
  · exact m.2.grows_refl
  · cases x with
    | next | jump | stop => exact h
    | trap => exact m.2.grows_refl

theorem issue_grows {work : Chip → IOut} (h : ∀ d, (work (d, m.2)).Grows m.2) : m.grows (issue m c w n tail work) := by
  unfold issue
  split
  · split
    · next d _ => exact IOut.finish_grows (m := (d, m.2)) (x := .trap ..) trivial
    · next d _ =>
      split
      · exact IOut.finish_grows (m := (d, m.2)) (x := .trap ..) trivial
      · exact IOut.finish_grows (m := (d, m.2)) (h d)
  · exact m.2.grows_refl

/-! An instruction that changes its core or its engine alone. -/

theorem issueCore_grows {f : Core → Core} : m.grows (issueCore m c w n f) := issue_grows fun _ => m.2.grows_refl

theorem aluR_grows {f : Flg → Word → Word → AluOut} : m.grows (aluR m c op dst a b mod f) := issueCore_grows

theorem aluI_grows {f : Flg → Word → BitVec 14 → AluOut} : m.grows (aluI m c op dst a imm f) := issueCore_grows

theorem aluL_grows {imm : BitVec 19} {f : BitVec 19 → Word} : m.grows (aluL m c op dst imm f) := issueCore_grows

theorem selOp_grows : m.grows (selOp m c dst a b mod) := issueCore_grows

theorem sigOp_grows : m.grows (sigOp m dst a imm) := issueCore_grows

theorem issueEng_grows {f : Engine → Engine} : m.grows (issueEng m e w n f) := issue_grows fun _ => m.2.grows_refl

theorem vec3_grows {f : Word → Word → Word → Word × Bool} : m.grows (vec3 m e op dst a b mod f) := issueEng_grows

theorem vec2_grows {f : Word → Word → Word} : m.grows (vec2 m e op dst a b mod f) := vec3_grows

theorem vecI_grows {f : Word → Nat → Word} : m.grows (vecI m e op dst a imm f) := issueEng_grows

theorem vcmp_grows {f : Word → Word → Bool} : m.grows (vcmp m e op dst a b mod f) := issueEng_grows

theorem pred2_grows {f : BitVec 16 → BitVec 16 → BitVec 16} : m.grows (pred2 m e op dst a b mod f) := issueEng_grows

theorem vaccrOp_grows {imm : BitVec 19} : m.grows (vaccrOp m e dst imm) := issueEng_grows

/-! One whose work can trap, or take a branch. -/

theorem divOp_grows {f : Flg → Word → Word → AluOut} : m.grows (divOp m c op dst a b mod f) :=
  issue_grows fun _ => .ite trivial m.2.grows_refl

theorem branchOp_grows {taken : Word → Word → Bool} : m.grows (branchOp m c op a b off taken) :=
  issue_grows fun _ => .ite m.2.grows_refl m.2.grows_refl

theorem callTo_grows (target : Word) : (callTo m c target).Grows m.2 := .ite trivial m.2.grows_refl

theorem retOp_grows : m.grows (retOp m c w) :=
  issue_grows fun _ => by
    split
    · trivial
    · exact m.2.grows_refl

theorem jrOp_grows : m.grows (jrOp m c w a) := issue_grows fun _ => .ite m.2.grows_refl trivial

theorem callrOp_grows : m.grows (callrOp m c w a) := issue_grows fun d => .ite (callTo_grows (m := (d, m.2)) _) trivial

theorem loopOp_grows {count : Core → Word} {k : BitVec 9} : m.grows (loopOp m c op w count k) :=
  issue_grows fun _ => .ite m.2.grows_refl (.ite m.2.grows_refl (.ite trivial m.2.grows_refl))

theorem brkOp_grows : m.grows (brkOp m c w) := issue_grows fun _ => .ite m.2.grows_refl trivial

theorem unassignedOp_grows : m.grows (unassignedOp m c w) := by
  unfold unassignedOp
  split
  · exact m.2.grows_refl
  · exact issue_grows fun _ => m.2.grows_refl

/-! ### Loads and stores (04 R108, R110, 05 R139) -/

theorem loadOp_grows {f : Word → Word} : m.grows (loadOp m c op n dst a imm f) := by
  unfold loadOp
  refine issue_grows fun _ => ?_
  split
  · trivial
  · exact m.2.grows_refl

theorem storeOp_grows {src : BitVec 5} : m.grows (storeOp m c op n src a imm) := by
  unfold storeOp
  refine issue_grows fun d => ?_
  split
  · trivial
  · next h => exact memStore_grows (m := (d, m.2)) h

theorem amoOp_grows {f : Word → Word → Word} : m.grows (amoOp m op dst a b mod f) :=
  issue_grows fun d => .ite trivial <| .ite trivial <| by
    split
    · trivial
    · next y _ =>
      dsimp only
      split
      · trivial
      · next z h => exact trussStore_grows (m := (y.2, m.2)) (y := z) h

theorem vldOp_grows : m.grows (vldOp m e dst a imm) := by
  unfold vldOp
  refine issue_grows fun _ => ?_
  split
  · trivial
  · exact m.2.grows_refl

theorem vstOp_grows {src : BitVec 5} : m.grows (vstOp m e src a imm) := by
  unfold vstOp
  refine issue_grows fun d => ?_
  split
  · trivial
  · next h => exact memStore_grows (m := (d, m.2)) h

theorem vmldOp_grows : m.grows (vmldOp m e dst a imm) := by
  unfold vmldOp
  refine issue_grows fun _ => ?_
  split
  · trivial
  · exact m.2.grows_refl

theorem Dev.gather_grows {d : Dev} {rs : List (Nat × Nat)} {k : Dev → IOut} {o : Otp} (h : ∀ d, (k d).Grows o) :
    (d.gather rs k).Grows o := by
  unfold Dev.gather
  dsimp only
  split
  · trivial
  · exact h _

theorem vgathOp_grows : m.grows (vgathOp m e dst a b mod) :=
  issue_grows fun _ => by
    dsimp only
    split
    · trivial
    · exact Dev.gather_grows fun _ => m.2.grows_refl

theorem vldsOp_grows : m.grows (vldsOp m e dst a b mod) :=
  issue_grows fun _ => by
    dsimp only
    split
    · trivial
    · exact m.2.grows_refl

/-! ### The instructions of one profile (04 R113 to R116, 05 R150 to R155) -/

theorem zrowOp_grows : m.grows (zrowOp m dst a b mod) :=
  issue_grows fun _ => .ite trivial (.ite trivial (.ite trivial m.2.grows_refl))

theorem tendOp_grows : m.grows (tendOp m w) := issue_grows fun _ => .ite m.2.grows_refl trivial

theorem sofxOp_grows : m.grows (sofxOp m dst a imm) := issue_grows fun _ => .ite m.2.grows_refl m.2.grows_refl

theorem wfiOp_grows : m.grows (wfiOp m dst a imm) := issue_grows fun _ => .ite m.2.grows_refl m.2.grows_refl

theorem vblendOp_grows : m.grows (vblendOp m e dst a b mod) := by
  unfold vblendOp
  exact issue_grows fun _ => .ite trivial m.2.grows_refl

theorem vuniOp_grows : m.grows (vuniOp m e dst a b mod) := by
  unfold vuniOp
  exact issue_grows fun _ => .ite trivial (.ite trivial (Dev.gather_grows fun _ => m.2.grows_refl))

theorem vlutOp_grows : m.grows (vlutOp m e dst a b mod) :=
  issue_grows fun _ => .ite trivial (Dev.gather_grows fun _ => m.2.grows_refl)

theorem vqntOp_grows : m.grows (vqntOp m e dst a b mod) := by
  unfold vqntOp
  exact issue_grows fun _ => .ite trivial m.2.grows_refl

theorem voutOp_grows : m.grows (voutOp m e dst a b mod) := by
  unfold voutOp
  exact issue_grows fun _ => .ite trivial m.2.grows_refl

end

end Sys2Proof.Machine
end

section
/-! PROOF. Ring commands and the OTP (03 R77 to R86): the end of a SAFETY_CHANGE advances the change-log counter (11 R357), and
no other command reaches the OTP. -/

namespace Sys2Proof.Machine

open Sys2Proof

/-! ### Commands at their fetch (03 R77, R80) -/

/-- What a command does to the chip at its end leaves of an OTP has grown from it. -/
def CmdOut.Grows (x : CmdOut) (o : Otp) : Prop := ∀ d, o.grows (x.eff (d, o)).2

namespace CmdOut

section
variable {o : Otp} {x y : CmdOut}

@[simp] theorem grows_fail (st : CmdStatus) (r0 r1 : Word) : (fail st r0 r1).Grows o := fun _ => o.grows_refl
@[simp] theorem grows_badArg (i : Nat) : (badArg i).Grows o := grows_fail _ _ _
@[simp] theorem grows_busy (id : Nat) : (busy id).Grows o := grows_fail _ _ _
@[simp] theorem grows_zero : zero.Grows o := grows_fail _ _ _
@[simp] theorem grows_fault (code : Word) : (fault code).Grows o := grows_fail _ _ _
@[simp] theorem grows_answer (st : CmdStatus) (r0 r1 : Word) (f : Dev → Dev) : (answer st r0 r1 f).Grows o :=
  fun _ => o.grows_refl
@[simp] theorem grows_ok (r0 r1 : Word) (f : Dev → Dev) : (ok r0 r1 f).Grows o := grows_answer _ _ _ _
@[simp] theorem grows_gableLost : gableLost.Grows o := grows_answer _ _ _ _
@[simp] theorem grows_long (f : Dev → Dev) : (long f).Grows o := fun _ => o.grows_refl
@[simp] theorem grows_deferred (d : Dev) (r0 : Word) (f : Dev → Dev) : (d.deferred r0 f).Grows o := grows_answer _ _ _ _
@[simp] theorem grows_scheduled (d : Dev) (h : CmdHdr) (r0 : Word) (op : EffectOp) : (d.scheduled h r0 op).Grows o :=
  grows_deferred _ _ _

@[simp] theorem grows_ite {p : Prop} [Decidable p] :
    (if p then x else y).Grows o ↔ (p → x.Grows o) ∧ (¬p → y.Grows o) := by
  by_cases hp : p <;> simp [hp]

@[simp] theorem grows_also (f : Dev → Dev) : (x.also f).Grows o ↔ x.Grows o := Iff.rfl

@[simp] theorem grows_forwarded : x.forwarded.Grows o ↔ x.Grows o := Iff.rfl

@[simp] theorem grows_endsLoad (op : Byte) (a : Args) : (x.endsLoad op a).Grows o ↔ x.Grows o := by
  unfold endsLoad
  split <;> rfl

theorem Grows.reading {d : Dev} {a n : Nat} {k : List Byte → CmdOut} (h : ∀ f, (k f).Grows o) :
    (d.reading a n k).Grows o := by
  simp [Dev.reading, h]

/-- A read that a test makes or leaves out. -/
theorem Grows.readingIf {p : Prop} [Decidable p] {d : Dev} {a n : Nat} {k : List Byte → CmdOut} (h : ∀ f, (k f).Grows o) :
    (if p then d.reading a n k else k []).Grows o := by
  simp [Grows.reading, h]

theorem Grows.readingMask {d : Dev} {a : Word} {k : Option (BitVec 256) → CmdOut} (h : ∀ f, (k f).Grows o) :
    (d.readingMask a k).Grows o := by
  simp [Dev.readingMask, h, Grows.reading]

end

end CmdOut

section
variable {m : Chip} {h : CmdHdr} {a : Args} {o : Otp}

/-! Each command's own tests, split as they stand. -/

@[simp] theorem cmdModeRequest_grows : (cmdModeRequest m h a).Grows o := by
  unfold cmdModeRequest
  dsimp only
  split
  · simp
  · simp
  split
  · simp
  split
  · simp
  · split <;> simp

@[simp] theorem cmdImageDrop_grows : (cmdImageDrop m h a).Grows o := by unfold cmdImageDrop; split <;> simp

@[simp] theorem cmdCtxBind_grows : (cmdCtxBind m h a).Grows o := by
  unfold cmdCtxBind
  refine .readingMask fun mask? => ?_
  split
  · simp
  · simp
  · simp
  simp only [CmdOut.grows_ite, CmdOut.grows_badArg, implies_true, true_and]
  intro _ _ _ _
  refine .reading fun f => ?_
  split
  · simp
  · split <;> simp

@[simp] theorem cmdCtxSwap_grows : (cmdCtxSwap m h a).Grows o := by unfold cmdCtxSwap; dsimp only; split <;> simp

@[simp] theorem cmdCtxParam_grows : (cmdCtxParam m h a).Grows o := by
  unfold cmdCtxParam
  dsimp only
  split
  · simp
  · simp [CmdOut.Grows.reading]

@[simp] theorem cmdCtxPlace_grows : (cmdCtxPlace m h a).Grows o := by
  unfold cmdCtxPlace
  refine .readingMask fun mask? => ?_
  split
  · simp
  · simp
  split
  · simp
  split
  · simp
  split
  · simp
  · split <;> simp

@[simp] theorem ctxOnly_grows (op : Fin 64 → EffectOp) : (ctxOnly op m h a).Grows o := by
  unfold ctxOnly; split <;> simp

@[simp] theorem cmdCtxResume_grows : (cmdCtxResume m h a).Grows o := by
  unfold cmdCtxResume
  dsimp only
  split
  · simp
  · next c _ =>
    generalize (if (m.1.ctxAt c).state = .suspended ∧ (m.1.ctxAt c).ls = true then
      m.1.slotTest (.ctxResume c) (m.1.ctxAt c).mask c else .free) = slot
    cases slot <;> simp

@[simp] theorem cmdCtxMigrate_grows : (cmdCtxMigrate m h a).Grows o := by
  unfold cmdCtxMigrate
  split
  · simp
  · simp [Dev.migrateAway, Dev.migrateHere]

@[simp] theorem cmdFinishSet_grows : (cmdFinishSet m h a).Grows o := by
  unfold cmdFinishSet
  dsimp only
  split
  · simp
  · simp [CmdOut.Grows.reading]

@[simp] theorem cmdVinDesc_grows : (cmdVinDesc m h a).Grows o := by
  unfold cmdVinDesc
  dsimp only
  split
  · simp
  · refine .reading fun f => ?_
    split <;> simp

@[simp] theorem cmdSrcDesc_grows : (cmdSrcDesc m h a).Grows o := by
  unfold cmdSrcDesc
  dsimp only
  split
  · simp
  · refine .reading fun f => ?_
    split <;> simp

@[simp] theorem cmdTmodeLoad_grows : (cmdTmodeLoad m h a).Grows o := by
  unfold cmdTmodeLoad
  dsimp only
  split
  · simp
  · refine .reading fun f => ?_
    split <;> simp

@[simp] theorem cmdRoofReenum_grows : (cmdRoofReenum m h a).Grows o := by
  unfold cmdRoofReenum
  dsimp only
  split
  · simp
  split
  · simp
  · split <;> simp

/-- No command of the table reaches the OTP at its fetch: the lemmas above, and plain tests of the others. -/
theorem commandOf_grows {op : Byte} {f : CmdBody} (hf : commandOf op = some f) : (f m h a).Grows o := by
  unfold commandOf at hf
  split at hf <;> cases hf <;> simp [cmdNop, cmdHouseEpoch, cmdSafeHoldReset, cmdImageLoad, cmdRegionSet, cmdRegionClear,
    cmdCtxSuspend, cmdCtxRetire, cmdEngRetire, cmdEngReturn, cmdSrcCommit, cmdTmodeSelect, cmdFrameCommit, cmdCalRun,
    cmdCalSnapshot, cmdCalRestore, cmdSafetyLoad, cmdSafetyChange, cmdZonesetSelect, cmdInject, cmdTwinYield,
    CmdOut.Grows.reading]

/-! ### Long commands at their ends (03 R78, 11 R354, R357) -/

@[simp] theorem imageLoadEnd_grows : (imageLoadEnd m h a).Grows o := by
  unfold imageLoadEnd
  dsimp only
  split
  · simp
  split
  · simp [CmdOut.Grows.reading]
  · refine .reading fun f => ?_
    split <;> simp

@[simp] theorem safetyRefused_grows (v : SafetyVerdict) : (safetyRefused v).Grows o := by cases v <;> simp [safetyRefused]

theorem CmdOut.Grows.answeredByGable {f : CmdBody} (hf : (f m h a).Grows o) : (answeredByGable f m h a).Grows o := hf

theorem safetyLoadTests_grows : (safetyLoadTests m h a).Grows o := by
  unfold safetyLoadTests
  dsimp only
  split
  · simp
  split
  · simp
  split
  · simp
  · refine .reading fun f => .reading fun head => ?_
    split <;> simp

/-- A change accepted advances the counter by one, which a counter at its end refuses (11 R357). -/
theorem changeAccepted_grows {f entry : List Byte} {genesis gap : Bool} {operator : Word}
    (hc : o.counter.toNat ≠ 4095) (d : Dev) :
    o.grows (changeAccepted f entry (o.counter.toNat + 1) genesis gap operator (d, o)).2 := o.grows_counter hc

theorem safetyChangeTests_grows : (safetyChangeTests m h a).Grows m.2 := by
  unfold safetyChangeTests
  dsimp only
  split
  · simp
  split
  · simp
  split
  · simp
  refine .reading fun f => .readingIf fun old => ?_
  split
  · split
    · simp
    · next hc => exact changeAccepted_grows hc
  · simp
  · simp

theorem longEnd_grows {op : Byte} {f : CmdBody} (hf : longEnd op = some f) : (f m h a).Grows m.2 := by
  unfold longEnd at hf
  split at hf
  · cases hf
    exact imageLoadEnd_grows
  · cases hf
    exact .answeredByGable safetyLoadTests_grows
  · cases hf
    exact .answeredByGable safetyChangeTests_grows
  · cases hf

/-! ### Fetch and completion (03 R79, R83, R86) -/

variable {op : Byte} {f : CmdBody} {x : CmdOut}

theorem Chip.tests_grows (hf : (f m h a).Grows m.2) : (m.tests h op a f).Grows m.2 := by
  simp [Chip.tests, hf]

theorem Chip.conclude_grows (hx : x.Grows m.2) : m.grows (m.conclude h op a x) := by
  unfold Chip.conclude
  dsimp only
  split
  · exact hx _
  · exact hx _

theorem Chip.command_grows (hf : ∀ m : Chip, (f m h a).Grows m.2) : m.grows (m.command h op a f) :=
  grows_ite (Chip.conclude_grows (m := (m.1.noteServed h.ring, m.2)) (Chip.tests_grows (hf _))) m.2.grows_refl

theorem Chip.runEntry_grows (e : List Byte) (ue : Bool) : m.grows (m.runEntry h e ue) := by
  refine Chip.conclude_grows ?_
  split
  · simp
  split
  · simp
  · next hf => exact Chip.tests_grows (commandOf_grows hf)

theorem Chip.fetchFrom_grows (n : Fin 24) : m.grows (m.fetchFrom n) := by
  unfold Chip.fetchFrom
  dsimp only
  generalize Dev.noteServed _ n = d
  exact Chip.runEntry_grows (m := (d, m.2)) _ _

theorem Chip.fetch_grows : m.grows m.fetch := by
  unfold Chip.fetch
  refine grows_ite ?_ m.2.grows_refl
  dsimp only
  split
  · exact m.2.grows_refl
  · exact Chip.fetchFrom_grows (m := (m.1.noteStalls, m.2)) _

theorem Chip.longComplete_grows (n : Fin 24) : m.grows (m.longComplete n) := by
  unfold Chip.longComplete
  split
  · exact m.2.grows_refl
  refine grows_ite ?_ m.2.grows_refl
  split
  · exact grows_ite m.2.grows_refl m.2.grows_refl
  · next hf =>
    dsimp only
    split
    · exact m.2.grows_refl
    · exact longEnd_grows hf _

end

end Sys2Proof.Machine
end

section
/-! PROOF. A step and the OTP (17 R511): every row by the kind of operation it is, and with them every step. -/

namespace Sys2Proof.Machine

open Sys2Proof

section
variable (s : State)

/-- A change of the device alone. -/
theorem grows_any (f : Dev → Dev) :
    ∃ t, Host.Outcome.next (s.any f) = (.next t : Host.Outcome State Fault Refusal) ∧ s.otp.grows t.otp :=
  ⟨_, rfl, s.otp.grows_refl⟩

theorem grows_core (f : Dev → Dev) :
    ∃ t, Host.Outcome.next (s.core f) = (.next t : Host.Outcome State Fault Refusal) ∧ s.otp.grows t.otp :=
  ⟨_, rfl, (s.core_otp f).symm ▸ s.otp.grows_refl⟩

variable {s}

theorem grows_chip {f : Chip → Chip} (h : Chip.grows (s.dev, s.otp) (f (s.dev, s.otp))) :
    ∃ t, Host.Outcome.next (s.chip f) = (.next t : Host.Outcome State Fault Refusal) ∧ s.otp.grows t.otp :=
  ⟨_, rfl, h⟩

theorem grows_chipUp {f : Chip → Chip} (h : Chip.grows (s.dev, s.otp) (f (s.dev, s.otp))) :
    ∃ t, Host.Outcome.next (s.chipUp f) = (.next t : Host.Outcome State Fault Refusal) ∧ s.otp.grows t.otp := by
  refine ⟨_, rfl, ?_⟩
  unfold State.chipUp
  split
  · exact h
  · exact s.otp.grows_refl

/-- An access of the host. -/
theorem grows_hostPut {a : Nat} {v : Word} :
    ∃ t, Host.Outcome.next (s.chip fun m => m.1.hostPut m.2 a v) = (.next t : Host.Outcome State Fault Refusal) ∧
      s.otp.grows t.otp :=
  grows_chip (Dev.hostWrite_grows _ _ _)

/-- An instruction whose work changes the device alone. -/
theorem grows_issue {c : CoreId} {w : Word} {n tail : Nat} {work : Chip → IOut} (h : ∀ d, (work (d, s.otp)).Grows s.otp) :
    ∃ t, Host.Outcome.next (s.chip fun m => issue m c w n tail work) = (.next t : Host.Outcome State Fault Refusal) ∧
      s.otp.grows t.otp :=
  grows_chip (issue_grows h)

/-- A command of the table. -/
theorem grows_command {h : CmdHdr} {op : Byte} {a : Args} {f : CmdBody} (hf : commandOf op = some f) :
    ∃ t, Host.Outcome.next (s.chip fun m => m.command h op a f) = (.next t : Host.Outcome State Fault Refusal) ∧
      s.otp.grows t.otp :=
  grows_chip (Chip.command_grows fun _ => commandOf_grows hf)

end

/-- Every command goes on, with an OTP grown from the one it found. -/
theorem exec_grows (c : Instr) (s : State) : ∃ t, exec c s = .next t ∧ s.otp.grows t.otp := by
  have same := s.otp.grows_refl
  cases c with
  | transferWindowStart =>
    refine ⟨_, exec_transferWindowStart s, ?_⟩
    split
    · exact s.window_otp.symm ▸ same
    · exact same
  | transferWindowClose rx ok =>
    refine ⟨_, exec_transferWindowClose s rx ok, ?_⟩
    split <;> exact same
  | scrubRead soft => exact grows_core (s.any fun d => soft.foldl Dev.softError d) Dev.scrub
  | strRestart ch byGable =>
    cases byGable
    · exact grows_hostPut
    · exact grows_core s _
  | watchdog | taskStart | thermalShutdown | thermalShutdownEnd | soffitPowerUp | soffitDataFrame | soffitConfigFrame
  | soffitInputFrameSend | inputSample | pairDiscTimeout | testPulseStart | testPulseEnd | outputShortTimer
  | outputThermal | lplusChange | logicSilence | powerOn | pllLockRetry | brownOut | vstbyLoss | rstNAssert | rstNRelease
  | resetEnd | retentionWake | standbyWake | unlockTimeout | extest | idcode | samplePreload | highz | clamp | bypass
  | debugAttach | debugDetach | debugHalt | debugStep | debugResume | debugWrite => exact grows_any s _
  | sysHpCfgWrite | ringBaseWrite | ringEnable | ringStop | ringDoorbell | ringConsWrite | ringCplConsWrite
  | vinPhyCfgWrite | batTileOrgWrite | thmDrtAddrWrite | fldDqCmdWrite | trmDacWrite | trimApply | trimAbort | accNonce
  | accLock | unlockPassword | unlockChallenge | otpProgram | otpRevoke => exact grows_hostPut
  | write | readStatus | read | readId | portReset => exact grows_chip (Dev.hostFrame_grows _ _ _)
  | hpUnknownCommand => exact grows_chip (Dev.hostUnknown_grows _ _)
  | registerWrite => exact grows_chip (Dev.hostWrite_grows _ _ _)
  | rcRegisterRead | sysHtimeLoRead => exact grows_chip (Dev.hostRead_grows _ _ _ _)
  | relayDown => exact grows_chipUp (Chip.relayDown_grows _ _ _ _)
  | commandFetch => exact grows_chipUp Chip.fetch_grows
  | longCommandComplete => exact grows_chipUp (Chip.longComplete_grows _)
  | flashingStatusSend | bootdata => exact grows_chipUp same
  | accChal | debugRead => exact grows_chip same
  | nop | modeRequest | houseEpoch | safeHoldReset | imageLoad | imageDrop | regionSet | regionClear | ctxBind | ctxSwap
  | ctxParam | ctxPlace | ctxSuspend | ctxResume | ctxRetire | ctxMigrate | finishSet | engRetire | engReturn | vinDesc
  | srcDesc | srcCommit | tmodeLoad | tmodeSelect | frameCommit | calRun | calSnapshot | calRestore | safetyLoad
  | safetyChange | zonesetSelect | inject | roofReenum | twinYield => exact grows_command rfl
  | add | sub | addc | subb | and | or | xor | shl | shr | sar | clz | mul | mulh | mulhu | fxmul
  | fxmulu | sadd | ssub | uadds | usubs | min | max | minu | maxu | slt | sltu | seq | fxsat | fxsatu =>
    exact grows_chip aluR_grows
  | addi | andi | ori | xori | shli | shri | sari | slti | sltiu => exact grows_chip aluI_grows
  | lui | li => exact grows_chip aluL_grows
  | sel => exact grows_chip selOp_grows
  | sig => exact grows_chip sigOp_grows
  | vadd | vsub | vmin | vmax | vminu | vmaxu | vand | vor | vxor => exact grows_chip vec2_grows
  | vadds | vaddus | vsubus | vfmul | vfmulu | vfmac | vclu => exact grows_chip vec3_grows
  | vshli | vshri | vsari => exact grows_chip vecI_grows
  | vcmpeq | vcmplt | vcmpltu | vcmple => exact grows_chip vcmp_grows
  | pand | por | pxor | pnot => exact grows_chip pred2_grows
  | vaccr => exact grows_chip vaccrOp_grows
  | vli | vsplat | vget | vset | vsel | pmov | pget | vstep | vsetidx => exact grows_chip issueEng_grows
  | div | divu | rem | remu => exact grows_chip divOp_grows
  | beq | bne | blt | bge | bltu | bgeu => exact grows_chip branchOp_grows
  | call => exact grows_issue fun d => callTo_grows (m := (d, s.otp)) _
  | ret => exact grows_chip retOp_grows
  | jr => exact grows_chip jrOp_grows
  | callr => exact grows_chip callrOp_grows
  | loopi | loop => exact grows_chip loopOp_grows
  | trap => exact grows_issue fun _ => trivial
  | brk => exact grows_chip brkOp_grows
  | unassignedInstruction => exact grows_chip unassignedOp_grows
  | ld | ldh | ldhu | ldb | ldbu => exact grows_chip loadOp_grows
  | st | sth | stb => exact grows_chip storeOp_grows
  | zrow => exact grows_chip zrowOp_grows
  | tend => exact grows_chip tendOp_grows
  | sofx => exact grows_chip sofxOp_grows
  | amoadd | amoswp => exact grows_chip amoOp_grows
  | wfi => exact grows_chip wfiOp_grows
  | vld => exact grows_chip vldOp_grows
  | vst => exact grows_chip vstOp_grows
  | vlds => exact grows_chip vldsOp_grows
  | vgath => exact grows_chip vgathOp_grows
  | vmld => exact grows_chip vmldOp_grows
  | vblend => exact grows_chip vblendOp_grows
  | vuni => exact grows_chip vuniOp_grows
  | vlut => exact grows_chip vlutOp_grows
  | vqnt => exact grows_chip vqntOp_grows
  | vout => exact grows_chip voutOp_grows
  | thatchNop | jmp | csrr | csrw | fence | encg | publ | hbt | evpost | tret | dird | dqwr | tpls
  | bfrx | bftx | fend | vpos | vcmx | pend =>
    exact grows_issue fun _ => same
  | _ => exact grows_core s _

/-- An OTP that a step leaves has grown from the one it found (17 R511). -/
theorem step_grows {s t : State} (h : step s = .next t) : s.otp.grows t.otp := by
  unfold step at h
  split at h
  · next c rest _ =>
    obtain ⟨u, he, hu⟩ := exec_grows c { s with pending := rest }
    rw [he, Host.Outcome.next.injEq] at h
    exact h ▸ hu
  · rw [Host.Outcome.next.injEq] at h
    exact h ▸ s.microsecond_otp.symm ▸ s.otp.grows_refl

/-- Settles O6: a step grows the OTP, and growth follows on growth. -/
theorem otpIsNeverErased : Obligations.OtpIsNeverErased := fun _ _ _ ho h => ho.trans (step_grows h)

end Sys2Proof.Machine
end

section
/-! PROOF. What the fetch of a word leaves of the device (04 R118, 05 R140), and the flow past an instruction (04 R105, R111). -/

namespace Sys2Proof.Machine

open Sys2Proof

/-! ### What a fetch leaves -/

section
variable (d : Dev) (c c' : CoreId)

@[simp] theorem fetched_flg : ((d.fetched c).coreAt c').flg = (d.coreAt c').flg := by
  obtain ⟨k, h⟩ := fetched_coreAt d c c'; rw [h]
@[simp] theorem fetched_pc : ((d.fetched c).coreAt c').pc = (d.coreAt c').pc := by
  obtain ⟨k, h⟩ := fetched_coreAt d c c'; rw [h]
@[simp] theorem fetched_rstack : ((d.fetched c).coreAt c').rstack = (d.coreAt c').rstack := by
  obtain ⟨k, h⟩ := fetched_coreAt d c c'; rw [h]
@[simp] theorem fetched_lstack : ((d.fetched c).coreAt c').lstack = (d.coreAt c').lstack := by
  obtain ⟨k, h⟩ := fetched_coreAt d c c'; rw [h]

/-- A fetch changes nothing of the device but what a correction in the Loft notifies, the draw of a core's cycles and the
engine that fetches. -/
theorem fetched_rest : ∃ t n v, d.Notices t ∧ d.fetched c =
    { t with thatch := { d.thatch with draws := n }, course := { d.course with eng := v } } := by
  rcases fetched_cases d c with h | ⟨e, t, rfl, hn, h | ⟨l, h⟩⟩
  · exact ⟨d, d.thatch.draws, d.course.eng, .refl d, h⟩
  all_goals
    have h1 : t.thatch = d.thatch := by rw [hn]
    have h2 : t.course = d.course := by rw [hn]
    refine ⟨t, (d.fetched (.engine e)).thatch.draws, (d.fetched (.engine e)).course.eng, hn, ?_⟩
    rw [h, ← h1, ← h2]
    rfl

@[simp] theorem fetched_acc : (d.fetched c).acc = d.acc := by
  obtain ⟨t, n, v, hn, h⟩ := fetched_rest d c; rw [h, hn]
@[simp] theorem fetched_imageOf (h : BitVec 7) : (d.fetched c).imageOf h = d.imageOf h := by
  obtain ⟨t, n, v, hn, h⟩ := fetched_rest d c; rw [h]; rfl

/-- An invocation but for its count of cycles. -/
def Invocation.uncounted (i : Invocation) : Invocation := { i with cycles := 0 }

/-- A fetch leaves every invocation but its count of cycles. -/
theorem fetched_invAt (e : Fin 8) : ((d.fetched c).invAt e).map Invocation.uncounted = (d.invAt e).map Invocation.uncounted := by
  obtain ⟨k, w, l, h, hw⟩ := fetched_engAt d c e
  have hb (x : Option Work) : (x.bind (·.inv)).map Invocation.uncounted = (x.map Work.uncounted).bind (·.inv) := by
    cases x <;> rfl
  simp only [Dev.invAt, h, hb, hw]

@[simp] theorem fetched_imageAt : (d.fetched c).imageAt c' = d.imageAt c' := by
  cases c' with
  | engine e =>
    have h := congrArg (·.bind fun i : Invocation => d.imageOf i.handle) (fetched_invAt d c e)
    simp only [Option.bind_map, Function.comp_def, Invocation.uncounted] at h
    simpa only [Dev.imageAt, fetched_imageOf] using h
  | truss | gable | soffit => obtain ⟨t, n, v, hn, h⟩ := fetched_rest d c; rw [h]; rfl

@[simp] theorem fetched_executable (pc : Word) : (d.fetched c).executable c' pc = d.executable c' pc := by
  unfold Dev.executable
  cases c' with
  | truss => rfl
  | engine e => simp only [fetched_imageAt]
  | gable => simp only [fetched_imageAt]
  | soffit => simp only [fetched_imageAt]

end

/-! ### Ways to end -/

section
variable {s : State} {c : CoreId} {n : Nat}

/-- Two effects on a core that agree on it as it stands are one. -/
theorem flows_congr {f g : Core → Core} (h : f ((s.fetched c).dev.coreAt c) = g ((s.fetched c).dev.coreAt c)) :
    s.flows c n (fun d => d.onCore c f) = s.flows c n (fun d => d.onCore c g) := by
  simp only [State.flows, State.any, onCore_congr _ _ _ _ h]

/-- A count of cycles comes before or after a change of the loop stack and the program counter. -/
theorem count_flow (d : Dev) (l : List LoopEntry) (p : Word) :
    (d.onCore c fun k => { k with lstack := l, pc := p }).count c n =
      (d.count c n).onCore c fun k => { k with lstack := l, pc := p } := by
  cases c with
  | engine e => simp [Dev.count, Dev.drawn, Dev.onCore, Dev.onEng, upd]
  | truss | gable | soffit => rfl

/-- A count of cycles leaves all of its core but that count. -/
theorem count_core (d : Dev) : ∃ k, (d.count c n).coreAt c = { d.coreAt c with cycle := k } := by
  cases c with
  | engine e => exact count_coreAt d e n (.engine e)
  | truss | gable | soffit => exact ⟨_, rfl⟩

/-- What the end of an instruction that did not transfer control leaves, by the loops that end here (R105). -/
theorem Core.fall_of {x : Core} {l : List LoopEntry} {o : Option Word}
    (h : loopEnd x.pc x.rstack.length x.lstack = (l, o)) : x.fall = { x with lstack := l, pc := o.getD (x.pc + 4) } := by
  rw [Core.fall, h]
  cases o <;> rfl

/-- Falling through without an effect, by the loops that end here. -/
theorem falls_flows {l : List LoopEntry} {o : Option Word} 
    (h : loopEnd (s.dev.coreAt c).pc (s.dev.coreAt c).rstack.length (s.dev.coreAt c).lstack = (l, o)) :
    s.falls c n id = s.flows c n fun d => d.onCore c fun k =>
      { k with lstack := l, pc := o.getD ((s.dev.coreAt c).pc + 4) } := by
  refine State.any_congr (congrArg (Dev.endStep · c) ?_)
  obtain ⟨i, hi⟩ := count_core (c := c) (n := (s.fetched c).dev.cyclesOf c n) (s.fetched c).dev
  obtain ⟨j, hj⟩ := fetched_coreAt s.dev c c
  rw [count_flow]
  refine onCore_congr _ _ _ _ ?_
  have hk : ((s.fetched c).dev.coreAt c) = { s.dev.coreAt c with cycle := j } := hj
  rw [Core.fall_of (l := l) (o := o) (by rw [id_eq, hi, hk]; exact h), id_eq, hi, hk]

end

end Sys2Proof.Machine
end

section
/-! PROOF. Scalar instructions (04 R100 to R102): what each operation of the table comes to on the core that executes it. -/

namespace Sys2Proof.Machine

open Sys2Proof

section
variable {s : State} {c : CoreId} {op : Byte} {dst a b : BitVec 5} {mod : BitVec 9} {imm : BitVec 14} {n : Nat} {v : Word} {h : Flg}

/-- An executed R-format operation writes the result and the flags that it gives of the registers. -/
theorem aluR_falls {f : Flg → Word → Word → AluOut} (hx : s.executes c (encR op dst a b mod) n = true)
    (hn : rowCycles op = n) (hf : f (s.dev.coreAt c).flg ((s.dev.coreAt c).get a) ((s.dev.coreAt c).get b) = (v, h)) :
    Host.Outcome.next (s.chip fun m => aluR m c op dst a b mod f) =
      (.next (s.falls c n fun d => d.onCore c fun k => k.putF dst v h) : Host.Outcome State Fault Refusal) := by
  subst hn
  refine congrArg _ (exec_core s c _ _ _ _ hx ?_)
  simp only [State.fetched, State.any_dev, fetched_flg, fetched_get, hf, Core.result, Core.putF]

/-- One of the I format. -/
theorem aluI_falls {f : Flg → Word → BitVec 14 → AluOut} (hx : s.executes c (encI op dst a imm) n = true)
    (hn : rowCycles op = n) (hf : f (s.dev.coreAt c).flg ((s.dev.coreAt c).get a) imm = (v, h)) :
    Host.Outcome.next (s.chip fun m => aluI m c op dst a imm f) =
      (.next (s.falls c n fun d => d.onCore c fun k => k.putF dst v h) : Host.Outcome State Fault Refusal) := by
  subst hn
  refine congrArg _ (exec_core s c _ _ _ _ hx ?_)
  simp only [State.fetched, State.any_dev, fetched_flg, fetched_get, hf, Core.result, Core.putF]

/-- An R-format operation that sets no flag. -/
theorem aluR_keeps {f : Flg → Word → Word → AluOut} (hx : s.executes c (encR op dst a b mod) n = true) (hn : rowCycles op = n)
    (hf : ∀ g, f g ((s.dev.coreAt c).get a) ((s.dev.coreAt c).get b) = (v, g)) :
    Host.Outcome.next (s.chip fun m => aluR m c op dst a b mod f) =
      (.next (s.falls c n fun d => d.onCore c fun k => k.put dst v) : Host.Outcome State Fault Refusal) := by
  subst hn
  refine congrArg _ (exec_core s c _ _ _ _ hx ?_)
  simp only [State.fetched, State.any_dev, fetched_get, hf, result_none]

/-- One of the I format. -/
theorem aluI_keeps {f : Flg → Word → BitVec 14 → AluOut} (hx : s.executes c (encI op dst a imm) n = true)
    (hn : rowCycles op = n) (hf : ∀ g, f g ((s.dev.coreAt c).get a) imm = (v, g)) :
    Host.Outcome.next (s.chip fun m => aluI m c op dst a imm f) =
      (.next (s.falls c n fun d => d.onCore c fun k => k.put dst v) : Host.Outcome State Fault Refusal) := by
  subst hn
  refine congrArg _ (exec_core s c _ _ _ _ hx ?_)
  simp only [State.fetched, State.any_dev, fetched_get, hf, result_none]

/-- A division by a divisor other than 0. -/
theorem divOp_falls {f : Flg → Word → Word → AluOut} (hx : s.executes c (encR op dst a b mod) n = true)
    (hn : rowCycles op = n) (hb : (s.dev.coreAt c).get b ≠ 0)
    (hf : f (s.dev.coreAt c).flg ((s.dev.coreAt c).get a) ((s.dev.coreAt c).get b) = (v, h)) :
    Host.Outcome.next (s.chip fun m => divOp m c op dst a b mod f) =
      (.next (s.falls c n fun d => d.onCore c fun k => k.putF dst v h) : Host.Outcome State Fault Refusal) := by
  subst hn
  refine congrArg _ (issue_next s c _ _ 0 _ _ hx ?_)
  simp only [State.fetched, State.any_dev, fetched_get, if_neg hb]
  refine congrArg (fun d => IOut.next (d, s.otp)) (onCore_congr _ _ _ _ ?_)
  simp only [fetched_flg, fetched_get, hf, Core.result, Core.putF]

/-- A division by 0. -/
theorem divOp_traps {f : Flg → Word → Word → AluOut} (hx : s.executes c (encR op dst a b mod) n = true)
    (hn : rowCycles op = n) (hb : (s.dev.coreAt c).get b = 0) :
    Host.Outcome.next (s.chip fun m => divOp m c op dst a b mod f) =
      (.next (s.traps c n tDivzero 0) : Host.Outcome State Fault Refusal) := by
  subst hn
  refine congrArg _ (issue_trap s c _ _ 0 _ _ _ hx ?_)
  simp only [State.fetched, State.any_dev, fetched_get, if_pos hb]

end

/-- A sum with no carry in. -/
theorem aluAdd_plain (g : Flg) (x y : Word) : aluAdd g x y false =
    (x + y, g.zncv (x + y) (decide (2 ^ 32 ≤ x.toNat + y.toNat)) (!fitsSigned (x.toInt + y.toInt))) := by
  simp [aluAdd, Flg.zncv]

/-- A difference with no borrow in. -/
theorem aluSub_plain (g : Flg) (x y : Word) : aluSub g x y false =
    (x - y, g.zncv (x - y) (decide (y.toNat ≤ x.toNat)) (!fitsSigned (x.toInt - y.toInt))) := by
  simp [aluSub, Flg.zncv]

/-- A difference with the borrow that the carry flag shows. -/
theorem aluSub_carry (g : Flg) (x y : Word) : aluSub g x y (!g.c) =
    (let k : Nat := if g.c then 0 else 1
     (x - y - BitVec.ofNat 32 k, g.zncv (x - y - BitVec.ofNat 32 k) (decide (y.toNat + k ≤ x.toNat))
       (!fitsSigned (x.toInt - y.toInt - k)))) := by
  unfold aluSub
  cases g.c <;> rfl

/-- Settles O10, an operation at a time. -/
theorem scalarSumsAndFlags : Obligations.ScalarSumsAndFlags := by
  intro s c dst a b imm x y g done sat satU
  refine ⟨fun hx => ?add, fun hx => ?sub, fun hx => ?addi, fun hx => ?addc, fun hx => ?subb, fun hx => ?sadd, fun hx => ?ssub,
    fun hx => ?uadds, fun hx => ?usubs⟩
  case add => exact aluR_falls hx rfl (aluAdd_plain g x y)
  case sub => exact aluR_falls hx rfl (aluSub_plain g x y)
  case addi => exact aluI_falls hx rfl (aluAdd_plain g x (sx imm))
  case addc => exact aluR_falls hx rfl rfl
  case subb => exact aluR_falls hx rfl (aluSub_carry g x y)
  case sadd => exact aluR_falls hx rfl rfl
  case ssub => exact aluR_falls hx rfl rfl
  case uadds => exact aluR_falls hx rfl rfl
  case usubs => exact aluR_falls hx rfl rfl

/-! ### Shifts and leading zeros -/

/-- The low five bits of a register or of an immediate are its value modulo 32. -/
theorem low5_toNat {w : Nat} (x : BitVec w) : (x.extractLsb' 0 5).toNat = x.toNat % 32 := by
  simp [BitVec.extractLsb'_toNat]

/-- CLZ counts at most 32. -/
theorem clz_le (x : Word) : clz x ≤ 32 := Nat.sub_le ..

/-- The place of a word's highest bit. -/
theorem clz_of_ne {x : Word} (h : x ≠ 0) : clz x + (Nat.log2 x.toNat + 1) = 32 := by
  have h0 : x.toNat ≠ 0 := fun e => h (BitVec.eq_of_toNat_eq e)
  have h1 : Nat.log2 x.toNat < 32 := (Nat.log2_lt h0).2 x.isLt
  rw [clz, if_neg h]
  omega

/-- The bits that CLZ counts are 0. -/
theorem clz_above (x : Word) (k : Nat) (hk : 32 - clz x ≤ k) : x.getLsbD k = false := by
  by_cases h : x = 0
  · rw [h, BitVec.ofNat_eq_ofNat, BitVec.getLsbD_zero]
  · have h1 := clz_of_ne h
    exact Nat.testBit_lt_two_pow (Nat.lt_of_lt_of_le Nat.lt_log2_self (Nat.pow_le_pow_right (by decide) (by omega)))

/-- The bit below them is 1. -/
theorem clz_top (x : Word) (hk : clz x < 32) : x.getLsbD (31 - clz x) = true := by
  have h : x ≠ 0 := fun e => absurd hk (by rw [e]; decide)
  have h1 := clz_of_ne h
  rw [show 31 - clz x = Nat.log2 x.toNat by omega]
  exact Nat.testBit_log2 fun e => h (BitVec.eq_of_toNat_eq e)

/-- Settles O11, an operation at a time. -/
theorem scalarBitsAndShifts : Obligations.ScalarBitsAndShifts := by
  intro s c dst a b imm x y g done
  have shift (f : Nat → Word) {w : Nat} (z : BitVec w) :
      aluZN g (f (z.extractLsb' 0 5).toNat) = (f (z.toNat % 32), g.setZN (f (z.toNat % 32))) := by rw [low5_toNat]; rfl
  refine ⟨fun hx => ?and, fun hx => ?or, fun hx => ?xor, fun hx => ?andi, fun hx => ?ori, fun hx => ?xori, fun hx => ?shl,
    fun hx => ?shr, fun hx => ?sar, fun hx => ?shli, fun hx => ?shri, fun hx => ?sari, fun hx => ?clz⟩
  case and => exact aluR_falls hx rfl rfl
  case or => exact aluR_falls hx rfl rfl
  case xor => exact aluR_falls hx rfl rfl
  case andi => exact aluI_falls hx rfl rfl
  case ori => exact aluI_falls hx rfl rfl
  case xori => exact aluI_falls hx rfl rfl
  case shl => exact aluR_falls hx rfl (shift (x <<< ·) y)
  case shr => exact aluR_falls hx rfl (shift (x >>> ·) y)
  case sar => exact aluR_falls hx rfl (shift x.sshiftRight y)
  case shli => exact aluI_falls hx rfl (shift (x <<< ·) imm)
  case shri => exact aluI_falls hx rfl (shift (x >>> ·) imm)
  case sari => exact aluI_falls hx rfl (shift x.sshiftRight imm)
  case clz => exact ⟨Machine.clz x, clz_le x, clz_above x, clz_top x, aluR_falls hx rfl rfl⟩

/-! ### Products and clamps -/

/-- A product shifted as R102 says. -/
theorem fxShift_eq (p : Int) (mod : BitVec 9) : fxShift p (mod.extractLsb' 0 5).toNat (mod.getLsbD 5) =
    Int.fdiv (p + (if mod.getLsbD 5 = true ∧ 0 < mod.toNat % 32 then 2 ^ (mod.toNat % 32 - 1) else 0)) (2 ^ (mod.toNat % 32)) := by
  rw [low5_toNat]
  unfold fxShift
  congr 1
  by_cases h : mod.getLsbD 5 = true ∧ 0 < mod.toNat % 32
  · simp [h]
  · rw [if_neg h, if_neg (by simpa using h), Int.add_zero]

/-- What does not fit a signed word saturates by its sign. -/
theorem satSigned_unfit {q : Int} (h : fitsSigned q = false) : (satSigned q).1 = if q < 0 then 0x80000000 else 0x7FFFFFFF := by
  simp only [fitsSigned, Bool.and_eq_false_iff, decide_eq_false_iff_not] at h
  unfold satSigned
  by_cases neg : q < 0
  · rw [if_pos (by omega), if_pos neg]
  · rw [if_neg (by omega), if_pos (by omega), if_neg neg]

/-- What does not fit an unsigned word from above saturates to its greatest value. -/
theorem satUnsigned_unfit {q : Int} (h : decide (q ≤ 0xFFFFFFFF) = false) : (satUnsigned q).1 = 0xFFFFFFFF := by
  simp only [decide_eq_false_iff_not] at h
  unfold satUnsigned
  rw [if_neg (by omega), if_pos (by omega)]

/-- Settles O12, an operation at a time. -/
theorem scalarProductsAndQuotients : Obligations.ScalarProductsAndQuotients := by
  intro s c dst a b mod x y g done n shifted fixed clamped
  have ends (q p : Int) (hq : q = shifted p) (fits fits' : Bool) (sat sat' : Word) (hf : fits = fits')
      (hs : fits = false → sat = sat') :
      done 3 (fxEnd g q fits (mod.getLsbD 6) sat).1 (fxEnd g q fits (mod.getLsbD 6) sat).2 = fixed (shifted p) fits' sat' := by
    subst hq hf
    simp only [fxEnd, fixed]
    cases fits
    · cases mod.getLsbD 6 <;> simp [hs rfl, Flg.sticky]
    · rfl
  have clamps (lo hi : Int) : done 1 (aluClamp g x lo hi).1 (aluClamp g x lo hi).2 = clamped lo hi := by
    simp only [aluClamp, clamped, Flg.sticky, Bool.or_true]
    split_ifs <;> rfl
  refine ⟨fun hx => ?mul, fun hx => ?mulh, fun hx => ?mulhu, fun hx => ?fxmul, fun hx => ?fxmulu, fun hx hy => ?div,
    fun hx hy => ?divu, fun hx hy => ?rem, fun hx hy => ?remu, fun hx hy => ?div0, fun hx hy => ?divu0, fun hx hy => ?rem0,
    fun hx hy => ?remu0, fun hx => ?fxsat, fun hx => ?fxsatu⟩
  case mul => exact aluR_falls hx rfl rfl
  case mulh => exact aluR_falls hx rfl rfl
  case mulhu => exact aluR_falls hx rfl rfl
  case fxmul =>
    exact (aluR_falls hx rfl rfl).trans (congrArg _ (ends _ _ (fxShift_eq _ mod) _ _ _ _ (by rw [fxShift_eq]) fun h =>
      (satSigned_unfit h).trans (by rw [fxShift_eq])))
  case fxmulu =>
    exact (aluR_falls hx rfl rfl).trans (congrArg _ (ends _ _ (fxShift_eq _ mod) _ _ _ _ (by rw [fxShift_eq]) fun h =>
      satUnsigned_unfit h))
  case div => exact divOp_falls hx rfl hy rfl
  case divu => exact divOp_falls hx rfl hy rfl
  case rem => exact divOp_falls hx rfl hy rfl
  case remu => exact divOp_falls hx rfl hy rfl
  case div0 => exact divOp_traps hx rfl hy
  case divu0 => exact divOp_traps hx rfl hy
  case rem0 => exact divOp_traps hx rfl hy
  case remu0 => exact divOp_traps hx rfl hy
  case fxsat =>
    refine (aluR_falls hx rfl rfl).trans (congrArg _ ?_)
    rw [low5_toNat]
    exact clamps _ _
  case fxsatu =>
    refine (aluR_falls hx rfl rfl).trans (congrArg _ ?_)
    rw [low5_toNat]
    exact clamps _ _

/-- Not less than is at least, signed and unsigned. -/
theorem not_sLt (x y : Word) : (!sLt x y) = decide (y.toInt ≤ x.toInt) := by
  rw [sLt, ← decide_not, decide_eq_decide, Int.not_lt]
theorem not_uLt (x y : Word) : (!uLt x y) = decide (y.toNat ≤ x.toNat) := by
  rw [uLt, ← decide_not, decide_eq_decide, Nat.not_lt]

/-- Settles O13, an operation at a time. -/
theorem scalarChoicesAndConstants : Obligations.ScalarChoicesAndConstants := by
  intro s c dst a b imm mod big x y done flag
  refine ⟨fun hx => ?min, fun hx => ?max, fun hx => ?minu, fun hx => ?maxu, fun hx => ?slt, fun hx => ?sltu, fun hx => ?seq,
    fun hx => ?slti, fun hx => ?sltiu, fun hx => ?sel, fun hx => ?lui, fun hx => ?li⟩
  case min => exact aluR_keeps hx rfl fun g => by simp [aluNone, sMin, sLt, x, y]
  case max => exact aluR_keeps hx rfl fun g => by simp [aluNone, sMax, sLt, x, y]
  case minu => exact aluR_keeps hx rfl fun g => by simp [aluNone, uMin, uLt, x, y]
  case maxu => exact aluR_keeps hx rfl fun g => by simp [aluNone, uMax, uLt, x, y]
  case slt => exact aluR_keeps hx rfl fun g => rfl
  case sltu => exact aluR_keeps hx rfl fun g => rfl
  case seq => exact aluR_keeps hx rfl fun g => rfl
  case slti =>
    refine aluI_keeps hx rfl fun g => ?_
    simp only [aluNone, boolWord, sLt, sx, BitVec.toInt_signExtend_of_le (x := imm) (w := 14) (v := 32) (by decide), x]
  case sltiu =>
    refine aluI_keeps hx rfl fun g => ?_
    simp only [aluNone, boolWord, uLt, zx, BitVec.toNat_setWidth_of_le (w' := 32) (b := imm) (by decide), x]
  case sel =>
    refine congrArg _ (exec_core s c _ _ _ _ hx ?_)
    simp only [State.fetched, State.any_dev, fetched_get, x, y]
  case lui => exact congrArg _ (issueCore_next s c _ _ _ hx)
  case li => exact congrArg _ (issueCore_next s c _ _ _ hx)

end Sys2Proof.Machine
end

section
/-! PROOF. Control flow (04 R104 to R107, R115) and system instructions (04 R104, R111 to R120): what each comes to on the core
that executes it. -/

namespace Sys2Proof.Machine

open Sys2Proof

/-! ### Loops that end (R105) -/

/-- With no entry that ends here at this depth, the loop stack stays. -/
theorem loopEnd_none {pc : Word} {n : Nat} {l : List LoopEntry} (h : ∀ e ∈ l, ¬ (e.last = pc ∧ e.depth = n)) :
    loopEnd pc n l = (l, none) := by
  induction l with
  | nil => rfl
  | cons e r ih =>
    rw [loopEnd, if_neg (h e List.mem_cons_self), ih fun x hx => h x (List.mem_cons_of_mem e hx)]

/-- An innermost entry with passes left goes on at its start with one less. -/
theorem loopEnd_again {pc : Word} {n : Nat} {e : LoopEntry} {r : List LoopEntry} (h : e.last = pc ∧ e.depth = n)
    (hl : 1 < e.left.toNat) : loopEnd pc n (e :: r) = ({ e with left := e.left - 1 } :: r, some e.start) := by
  rw [loopEnd, if_pos h, if_pos hl]

/-- An innermost entry whose last pass is done is popped, and the next is looked at. -/
theorem loopEnd_pop {pc : Word} {n : Nat} {e : LoopEntry} {r : List LoopEntry} (h : e.last = pc ∧ e.depth = n)
    (hl : e.left.toNat ≤ 1) : loopEnd pc n (e :: r) = loopEnd pc n r := by
  rw [loopEnd, if_pos h, if_neg (by omega)]

/-- NOP falls through. -/
theorem exec_thatchNop {s : State} {c : CoreId} (h : s.executes c (encL 0x40 0 0) 1 = true) :
    exec (.thatchNop c) s = .next (s.falls c 1 id) :=
  congrArg _ (issue_next s c _ 1 0 _ id h rfl)

/-- Settles O46, by what is left of the entries that end here. -/
theorem loopEndsCountDown : Obligations.LoopEndsCountDown := by
  intro s c h k here after
  have goesOn (l : List LoopEntry) (o : Option Word) (hf : loopEnd k.pc k.rstack.length k.lstack = (l, o)) :
      exec (.thatchNop c) s = .next (after l (o.getD (k.pc + 4))) := (exec_thatchNop h).trans (congrArg _ (falls_flows hf))
  refine ⟨fun hn => goesOn k.lstack none (loopEnd_none hn), fun e r hl he => ⟨fun h1 => ?again, fun h1 hn => ?popped, ?outer⟩⟩
  case again => exact goesOn _ (some e.start) (by rw [hl, loopEnd_again he h1])
  case popped => exact goesOn r none (by rw [hl, loopEnd_pop he h1, loopEnd_none hn])
  case outer =>
    intro x r' h1 hr hx h2
    exact goesOn _ (some x.start) (by rw [hl, loopEnd_pop he h1, hr, loopEnd_again hx h2])

/-! ### Transfers of control -/

section
variable {s : State} {c : CoreId} {w : Word} {n m : Nat} {work : Chip → IOut}

/-- An instruction that sets the flow by a change of its core. -/
theorem jumps_flows {f : Core → Core} (hx : s.executes c w m = true)
    (hw : work ((s.fetched c).dev, s.otp) = .jump ((s.fetched c).dev.onCore c f, s.otp) m) :
    Host.Outcome.next (s.chip fun x => issue x c w n 0 work) =
      (.next (s.flows c m fun d => d.onCore c f) : Host.Outcome State Fault Refusal) :=
  congrArg _ (issue_jump s c w n m 0 work _ hx hw)

/-- A call with room on the return stack pushes the next word's address. -/
theorem callTo_room (hx : s.executes c w 2 = true) {t : Word} (h : (s.dev.coreAt c).rstack.length < c.rmax)
    (hw : work ((s.fetched c).dev, s.otp) = callTo ((s.fetched c).dev, s.otp) c t) :
    Host.Outcome.next (s.chip fun x => issue x c w n 0 work) = (.next (s.flows c 2 fun d => d.onCore c fun k =>
      { k with rstack := (k.pc + 4) :: k.rstack, pc := t }) : Host.Outcome State Fault Refusal) := by
  refine jumps_flows hx (hw.trans ?_)
  simp only [callTo, State.fetched, State.any_dev, fetched_rstack, if_neg (Nat.not_le.2 h)]

/-- A call onto a full return stack traps STACK (R107). -/
theorem callTo_full (hx : s.executes c w n = true) {t : Word} (h : c.rmax ≤ (s.dev.coreAt c).rstack.length)
    (hw : work ((s.fetched c).dev, s.otp) = callTo ((s.fetched c).dev, s.otp) c t) :
    Host.Outcome.next (s.chip fun x => issue x c w n 0 work) =
      (.next (s.traps c n tStack (BitVec.ofNat 32 (s.dev.coreAt c).rstack.length)) : Host.Outcome State Fault Refusal) := by
  refine congrArg _ (issue_trap s c w n 0 work _ _ hx (hw.trans ?_))
  simp only [callTo, State.fetched, State.any_dev, fetched_rstack, if_pos h]

end

section
variable {s : State} {c : CoreId} {a b : BitVec 5}

/-- A branch whose comparison holds. -/
theorem branchOp_taken {op : Byte} {off : BitVec 14} {f : Word → Word → Bool} (hx : s.executes c (encB op a b off) 2 = true)
    (hp : f ((s.dev.coreAt c).get a) ((s.dev.coreAt c).get b) = true) :
    Host.Outcome.next (s.chip fun m => branchOp m c op a b off f) = (.next (s.flows c 2 fun d => d.onCore c fun k =>
      k.jump ((s.dev.coreAt c).pc + (sx off <<< 2))) : Host.Outcome State Fault Refusal) := by
  refine (jumps_flows hx (f := fun x => x.jump (branchTarget x.pc off)) ?_).trans (congrArg _ (flows_congr ?_))
  · simp only [State.fetched, State.any_dev, fetched_get, hp, if_true]
  · simp only [State.fetched, State.any_dev, fetched_pc, branchTarget]

/-- A branch whose comparison does not hold. -/
theorem branchOp_not_taken {op : Byte} {off : BitVec 14} {f : Word → Word → Bool}
    (hx : s.executes c (encB op a b off) 1 = true) (hn : rowCycles op = 1)
    (hp : f ((s.dev.coreAt c).get a) ((s.dev.coreAt c).get b) = false) :
    Host.Outcome.next (s.chip fun m => branchOp m c op a b off f) =
      (.next (s.falls c 1 id) : Host.Outcome State Fault Refusal) := by
  unfold branchOp
  rw [hn]
  refine congrArg _ (issue_next s c _ 1 0 _ id hx ?_)
  simp only [State.fetched, State.any_dev, fetched_get, hp, Bool.false_eq_true, if_false, id]

/-- JR and CALLR to an executable address go on. -/
theorem jumps_executable {k l : IOut} (he : s.dev.executable c ((s.dev.coreAt c).get a) = true) :
    (if (s.fetched c).dev.executable c (((s.fetched c).dev.coreAt c).get a) then k else l) = k := by
  simp only [State.fetched, State.any_dev, fetched_get, fetched_executable, he, if_true]

/-- JR and CALLR to an address that is not executable trap FETCH with it. -/
theorem jumps_unexecutable {w : Word} {n : Nat} {work : Chip → IOut} {k : IOut} (hx : s.executes c w n = true)
    (he : s.dev.executable c ((s.dev.coreAt c).get a) = false)
    (hw : work ((s.fetched c).dev, s.otp) = if (s.fetched c).dev.executable c (((s.fetched c).dev.coreAt c).get a) then k
      else .trap (s.fetched c).dev tFetch (((s.fetched c).dev.coreAt c).get a)) :
    Host.Outcome.next (s.chip fun m => issue m c w n 0 work) =
      (.next (s.traps c n tFetch ((s.dev.coreAt c).get a)) : Host.Outcome State Fault Refusal) := by
  refine congrArg _ (issue_trap s c w n 0 work _ _ hx (hw.trans ?_))
  simp only [State.fetched, State.any_dev, fetched_get, fetched_executable, he, Bool.false_eq_true, if_false]

end

/-! ### Loops that start (R105) -/

section
variable {s : State} {c : CoreId} {op : Byte} {w : Word} {f : Core → Word} {n : BitVec 9}
  (hx : s.executes c w 1 = true)
include hx

/-- A loop of no words. -/
theorem loopOp_empty (hop : rowCycles op = 1) (hn : n = 0) : Host.Outcome.next (s.chip fun m => loopOp m c op w f n) =
    (.next (s.falls c 1 id) : Host.Outcome State Fault Refusal) := by
  unfold loopOp
  rw [hop]
  exact congrArg _ (issue_next s c _ 1 0 _ id hx (by simp only [if_pos hn, id]))

variable (hn : n ≠ 0) {count : Word} (hf : f ((s.fetched c).dev.coreAt c) = count)
include hn hf

/-- A loop run no times passes over its words. -/
theorem loopOp_zero (h0 : count = 0) : Host.Outcome.next (s.chip fun m => loopOp m c op w f n) =
    (.next (s.flows c 1 fun d => d.onCore c fun k => { k with pc := k.pc + (4 : Word) + (zx n <<< 2) }) :
      Host.Outcome State Fault Refusal) := by
  refine jumps_flows hx ?_
  simp only [if_neg hn, hf, if_pos h0]

variable (h0 : count ≠ 0)
include h0

/-- A loop with room on the loop stack. -/
theorem loopOp_room (hl : (s.dev.coreAt c).lstack.length < c.lmax) : Host.Outcome.next (s.chip fun m => loopOp m c op w f n) =
    (.next (s.flows c 1 fun d => d.onCore c fun k =>
      { k with pc := k.pc + 4,
               lstack := { start := k.pc + 4, last := k.pc + (zx n <<< 2), left := count,
                           depth := k.rstack.length } :: k.lstack }) : Host.Outcome State Fault Refusal) := by
  have hl' : ¬ c.lmax ≤ ((s.fetched c).dev.coreAt c).lstack.length := by
    rw [State.fetched, State.any_dev, fetched_lstack]; exact Nat.not_le.2 hl
  refine jumps_flows hx ?_
  simp only [if_neg hn, hf, if_neg h0, if_neg hl']
  exact congrArg (fun d => IOut.jump (d, s.otp) 1) (onCore_congr _ _ _ _ rfl)

/-- A loop onto a full loop stack traps LOOP. -/
theorem loopOp_full (hop : rowCycles op = 1) (hl : c.lmax ≤ (s.dev.coreAt c).lstack.length) :
    Host.Outcome.next (s.chip fun m => loopOp m c op w f n) =
    (.next (s.traps c 1 tLoop (BitVec.ofNat 32 (s.dev.coreAt c).lstack.length)) : Host.Outcome State Fault Refusal) := by
  have hl' : ((s.fetched c).dev.coreAt c).lstack = (s.dev.coreAt c).lstack := fetched_lstack ..
  unfold loopOp
  rw [hop]
  refine congrArg _ (issue_trap s c _ 1 0 _ _ _ hx ?_)
  simp only [if_neg hn, hf, if_neg h0, hl', if_pos hl]

end

/-- The length that LOOP's immediate holds. -/
theorem loopLength (len : BitVec 9) : (len.setWidth 14).extractLsb' 0 9 = len := by
  apply BitVec.eq_of_getLsbD_eq
  intro i hi
  simp [hi, show i < 14 by omega]

/-- Settles O14, an instruction at a time. -/
theorem controlFlowTargets : Obligations.ControlFlowTargets := by
  intro s c a b off big len k x y go call words branch loop
  refine ⟨?beq, ?bne, ?blt, ?bge, ?bltu, ?bgeu, fun hx => ?jmp, fun hx => ⟨fun h => ?call, fun h => ?callFull⟩,
    fun hx => ⟨fun t r h => ?ret, fun h => ?retEmpty⟩, fun hx => ⟨fun h => ?jr, fun h => ?jrFetch⟩,
    fun hx => ⟨fun he h => ?callr, fun h => ?callrFetch⟩, ?loopi, ?loop, fun hx => ?tret⟩
  case beq => exact ⟨fun hp hx => branchOp_taken hx hp, fun hp hx => branchOp_not_taken hx rfl hp⟩
  case bne => exact ⟨fun hp hx => branchOp_taken hx hp, fun hp hx => branchOp_not_taken hx rfl hp⟩
  case blt => exact ⟨fun hp hx => branchOp_taken hx hp, fun hp hx => branchOp_not_taken hx rfl hp⟩
  case bge =>
    exact ⟨fun hp hx => branchOp_taken hx ((not_sLt x y).trans hp),
      fun hp hx => branchOp_not_taken hx rfl ((not_sLt x y).trans hp)⟩
  case bltu => exact ⟨fun hp hx => branchOp_taken hx hp, fun hp hx => branchOp_not_taken hx rfl hp⟩
  case bgeu =>
    exact ⟨fun hp hx => branchOp_taken hx ((not_uLt x y).trans hp),
      fun hp hx => branchOp_not_taken hx rfl ((not_uLt x y).trans hp)⟩
  case jmp =>
    refine (jumps_flows hx (f := fun x => x.jump (branchTarget x.pc big)) rfl).trans (congrArg _ (flows_congr ?_))
    simp only [State.fetched, State.any_dev, fetched_pc, branchTarget, k]
  case call =>
    refine callTo_room hx h ?_
    simp only [State.fetched, State.any_dev, fetched_pc, branchTarget, k]
  case callFull => exact callTo_full hx h rfl
  case ret =>
    refine jumps_flows hx ?_
    simp only [State.fetched, State.any_dev, fetched_rstack, show (s.dev.coreAt c).rstack = t :: r from h]
    rfl
  case retEmpty =>
    refine congrArg _ (issue_trap s c _ 2 0 _ _ _ hx ?_)
    simp only [State.fetched, State.any_dev, fetched_rstack, show (s.dev.coreAt c).rstack = [] from h]
    rfl
  case jr =>
    refine jumps_flows hx (f := fun k => k.jump x) ((jumps_executable h).trans ?_)
    simp only [State.fetched, State.any_dev, fetched_get, k, x]
  case jrFetch => exact jumps_unexecutable hx h rfl
  case callr =>
    refine callTo_room hx h ((jumps_executable he).trans ?_)
    simp only [State.fetched, State.any_dev, fetched_get, k, x]
  case callrFetch => exact jumps_unexecutable hx h rfl
  case loopi =>
    exact fun hx => ⟨loopOp_empty hx rfl, fun hn => loopOp_zero hx hn rfl, fun hn => loopOp_room hx hn rfl,
      fun hn h0 => loopOp_full hx hn rfl h0 rfl⟩
  case loop =>
    have hf : ((s.fetched c).dev.coreAt c).get a = x := fetched_get ..
    intro hx
    have he : exec (.loop c a len) s =
        .next (s.chip fun m => loopOp m c 0x4D (encI 0x4D 0 a (len.setWidth 14)) (fun x => x.get a) len) :=
      congrArg _ (congrArg _ (funext fun m => congrArg _ (loopLength len)))
    rw [he]
    exact ⟨loopOp_empty hx rfl, fun hn => loopOp_zero hx hn hf, fun hn => loopOp_room hx hn hf,
      fun hn h0 => loopOp_full hx hn hf h0 rfl⟩
  case tret => exact jumps_flows hx rfl

/-- Settles O47, by the calls and the returns of O14. -/
theorem returnStackTraps : Obligations.ReturnStackTraps := by
  intro s c off a k stack
  refine ⟨fun h => ⟨fun hx => ⟨_, callTo_full hx h rfl⟩, fun hx he => ⟨_, callTo_full hx h (jumps_executable he)⟩⟩,
    fun h hx => ⟨0, ?_⟩⟩
  obtain ⟨-, -, -, -, -, -, -, -, hret, -⟩ := controlFlowTargets s c a a 0 off 0
  exact (hret hx).2 h

/-! ### Words and addresses that do not execute, and system instructions -/

section
variable {s : State} {c : CoreId} {w : Word} {n : Nat} {work : Chip → IOut}

/-- A word that is none of the core's profile traps with its cause. -/
theorem issue_word {code : Byte} (hc : wordCause c.profile w = some code) (hr : s.dev.coreRuns c = true)
    (hf : s.dev.fetches c = true) (ho : (s.dev.fetched c).overrun c ((s.dev.fetched c).cyclesOf c n) 0 = none) :
    s.chip (fun m => issue m c w n 0 work) = s.traps c n code w := by
  simp only [State.chip, issue, hr, if_true, fetches_ok hf, hc, IOut.finish, IOut.cycles, ho, State.traps, State.fetched,
    State.any]

/-- An address that is not executable is not fetched. -/
theorem fetch_unexecutable {d : Dev} (h : d.executable c (d.coreAt c).pc = false) : d.fetch c = .error (tFetch, d) := by
  simp only [Dev.fetch, h, Bool.not_false, if_true]

/-- A core at an address that is not executable traps FETCH with it. -/
theorem issue_unexecutable (he : s.dev.executable c (s.dev.coreAt c).pc = false) (hr : s.dev.coreRuns c = true)
    (ho : s.dev.overrun c (s.dev.cyclesOf c n) 0 = none) :
    s.chip (fun m => issue m c w n 0 work) = s.traps c n tFetch (s.dev.coreAt c).pc := by
  have hd : s.dev.fetched c = s.dev := by rw [Dev.fetched, fetch_unexecutable he]
  simp only [State.chip, issue, hr, if_true, fetch_unexecutable he, IOut.finish, IOut.cycles, ho, State.traps, State.fetched,
    State.any, hd]

end

/-- CSRW leaves in the destination what the CSR held, and in the CSR the register. -/
theorem exec_csrw {s : State} {c : CoreId} {dst a : BitVec 5} {imm : BitVec 14}
    (hx : s.executes c (encI 0x4F dst a imm) 1 = true) :
    exec (.csrw c dst a imm) s = .next (s.falls c 1 fun d => d.onCore c fun k =>
      (k.csrPut imm.toNat (k.get a)).put dst ((s.fetched c).dev.csr c imm.toNat)) :=
  congrArg _ (issue_next s c _ 1 0 _ _ hx rfl)

/-- Settles O15, an instruction at a time. -/
theorem systemInstructionsAndWordTraps : Obligations.SystemInstructionsAndWordTraps := by
  intro s c dst a imm w k x old
  refine ⟨exec_thatchNop, fun hx => ?fence, fun hx => ?csrr, fun hx => ?csrw, fun hx => ?trap, fun hx ha => ?brk,
    fun hx ha => ?brkTrap, fun code hc hr hf ho => ?word, fun hr he ho => ?address⟩
  case fence => exact congrArg _ (issue_next s c _ 1 0 _ id hx rfl)
  case csrr => exact congrArg _ (issue_next s c _ 1 0 _ (fun d => d.onCore c fun k => k.put dst old) hx rfl)
  case csrw =>
    refine ⟨fun k => k.csrPut imm.toNat (k.get a), exec_csrw hx, ?_⟩
    refine ⟨?_, ?_, ?_, ?_, ?_⟩ <;> rintro rfl <;> rfl
  case trap => exact congrArg _ (issue_trap s c _ 1 0 _ _ _ hx rfl)
  case brk =>
    refine congrArg Host.Outcome.next (issue_stop s c _ 1 0 _ (fun d => d.breakCore c) hx ?_)
    simp only [State.fetched, State.any_dev, fetched_acc, ha, if_true]
  case brkTrap =>
    refine congrArg _ (issue_trap s c _ 1 0 _ _ _ hx ?_)
    simp only [State.fetched, State.any_dev, fetched_acc, ha, Bool.false_eq_true, if_false]
    rfl
  case word =>
    refine congrArg Host.Outcome.next (?_ : (s.chip fun m => unassignedOp m c w) = _)
    simp only [unassignedOp, hc]
    exact issue_word hc hr hf ho
  case address => exact congrArg _ (issue_unexecutable he hr ho)

end Sys2Proof.Machine
end

section
/-! PROOF. What stands after an instruction (04 R105, R111, R122): of its core and its engine, and of the rest of the device;
and what a core with a memory of its own fetches. -/

namespace Sys2Proof.Machine

open Sys2Proof

/-! ### One core and the others -/

/-- A change of a core that changes nothing. -/
theorem onCore_id (d : Dev) (c : CoreId) : d.onCore c id = d := by
  cases c with
  | engine e =>
    refine Eq.trans (b := { d with course := { d.course with eng := d.course.eng.set e d.course.eng[e] } }) rfl ?_
    rw [Fin.getElem_fin, Vector.set_getElem_self]
  | truss | gable | soffit => rfl

/-- Two changes of one core are one. -/
theorem onCore_onCore (d : Dev) (c : CoreId) (f g : Core → Core) : (d.onCore c f).onCore c g = d.onCore c fun x => g (f x) := by
  cases c <;> simp [Dev.onCore, Dev.onEng, upd]

@[simp] theorem onCore_coreAt (d : Dev) (c : CoreId) (f : Core → Core) : (d.onCore c f).coreAt c = f (d.coreAt c) := by
  cases c <;> simp [Dev.onCore, Dev.coreAt, Dev.onEng, Dev.engAt, upd]

/-- An engine after a change of it, and the others. -/
theorem onEng_engAt (d : Dev) (e e' : Fin 8) (f : Engine → Engine) :
    (d.onEng e f).engAt e' = if e = e' then f (d.engAt e') else d.engAt e' := by
  by_cases h : e = e'
  · subst h; simp [Dev.onEng, Dev.engAt, upd]
  · have hv : e.val ≠ e'.val := fun x => h (Fin.ext x)
    simp [Dev.onEng, Dev.engAt, upd, h, hv]

@[simp] theorem onEng_engAt_same (d : Dev) (e : Fin 8) (f : Engine → Engine) : (d.onEng e f).engAt e = f (d.engAt e) := by
  rw [onEng_engAt, if_pos rfl]

/-- The core of an engine changed. -/
theorem onCore_engAt (d : Dev) (c : CoreId) (e : Fin 8) (f : Core → Core) :
    ∃ k, (d.onCore c f).engAt e = { d.engAt e with core := k } := by
  cases c with
  | engine e' =>
    by_cases h : e' = e
    · subst h; exact ⟨_, onEng_engAt_same ..⟩
    · exact ⟨(d.engAt e).core, by rw [Dev.onCore, onEng_engAt, if_neg h]⟩
  | truss | gable | soffit => exact ⟨(d.engAt e).core, rfl⟩

/-- A register after a write of it: s0 stays 0 (R91, R92). -/
theorem Core.get_put (x : Core) (r : BitVec 5) (v : Word) : (x.put r v).get r = if r = 0 then 0 else v := by
  unfold Core.get Core.put
  by_cases h : r = 0
  · rw [if_pos h, if_pos h]
  · simp only [if_neg h]
    exact Vector.getElem_set_self _

@[simp] theorem Core.put_flg (x : Core) (r : BitVec 5) (v : Word) : (x.put r v).flg = x.flg := by
  unfold Core.put; split <;> rfl
@[simp] theorem Core.put_tpc (x : Core) (r : BitVec 5) (v : Word) : (x.put r v).tpc = x.tpc := by
  unfold Core.put; split <;> rfl

/-! ### After the work of an instruction -/

/-- What ends an instruction: its cycles, the flow past it, and a debugger's step. -/
def Dev.ended (d : Dev) (c : CoreId) (n : Nat) (g : Core → Core) : Dev := ((d.count c n).onCore c g).endStep c

theorem State.falls_dev (s : State) (c : CoreId) (n : Nat) (f : Dev → Dev) :
    (s.falls c n f).dev = (f (s.fetched c).dev).ended c ((s.fetched c).dev.cyclesOf c n) Core.fall := rfl

theorem State.flows_dev (s : State) (c : CoreId) (n : Nat) (f : Dev → Dev) :
    (s.flows c n f).dev = (f (s.fetched c).dev).ended c ((s.fetched c).dev.cyclesOf c n) id := by
  rw [Dev.ended, onCore_id]
  rfl

section
variable (d : Dev) (c : CoreId) (n : Nat) (g : Core → Core)

/-- It changes nothing but the cores, the engines and the draw of a count of cycles. -/
theorem ended_rest : ∃ a b f k v, d.ended c n g =
    { d with thatch := { d.thatch with truss := a, gable := b, soffit := f, draws := k },
             course := { d.course with eng := v } } := by
  refine ⟨(d.ended c n g).thatch.truss, (d.ended c n g).thatch.gable, (d.ended c n g).thatch.soffit,
    (d.ended c n g).thatch.draws, (d.ended c n g).course.eng, ?_⟩
  unfold Dev.ended Dev.endStep
  cases c <;> split <;> rfl

@[simp] theorem ended_gbl : (d.ended c n g).gbl = d.gbl := by
  obtain ⟨a, b, f, k, v, h⟩ := ended_rest d c n g; rw [h]
@[simp] theorem ended_rdg : (d.ended c n g).rdg = d.rdg := by
  obtain ⟨a, b, f, k, v, h⟩ := ended_rest d c n g; rw [h]
@[simp] theorem ended_fld : (d.ended c n g).fld = d.fld := by
  obtain ⟨a, b, f, k, v, h⟩ := ended_rest d c n g; rw [h]
@[simp] theorem ended_soffit : (d.ended c n g).soffit = d.soffit := by
  obtain ⟨a, b, f, k, v, h⟩ := ended_rest d c n g; rw [h]
@[simp] theorem ended_trussMem : (d.ended c n g).thatch.trussMem = d.thatch.trussMem := by
  obtain ⟨a, b, f, k, v, h⟩ := ended_rest d c n g; rw [h]
@[simp] theorem ended_gableMem : (d.ended c n g).thatch.gableMem = d.thatch.gableMem := by
  obtain ⟨a, b, f, k, v, h⟩ := ended_rest d c n g; rw [h]
@[simp] theorem ended_soffitMem : (d.ended c n g).thatch.soffitMem = d.thatch.soffitMem := by
  obtain ⟨a, b, f, k, v, h⟩ := ended_rest d c n g; rw [h]

/-- Of its core it changes no more than the flow, the cycles and the step, where `g` does. -/
theorem ended_coreAt (hg : ∀ x : Core, ∃ p l, g x = { x with pc := p, lstack := l }) :
    ∃ p l y b, (d.ended c n g).coreAt c = { d.coreAt c with pc := p, lstack := l, cycle := y, dbgStep := b } := by
  obtain ⟨y, hy⟩ := count_core (c := c) (n := n) d
  obtain ⟨p, l, hp⟩ := hg ((d.count c n).coreAt c)
  unfold Dev.ended Dev.endStep
  split
  · exact ⟨p, l, y, false, by rw [onCore_coreAt, onCore_coreAt, hp, hy]⟩
  · exact ⟨p, l, y, (d.coreAt c).dbgStep, by rw [onCore_coreAt, hp, hy]⟩

/-- Of an engine it changes no more than the core and a count of cycles. -/
theorem ended_engAt (e : Fin 8) : ∃ k w, (d.ended c n g).engAt e = { d.engAt e with core := k, work := w } ∧
    w.map Work.uncounted = (d.engAt e).work.map Work.uncounted := by
  have hc : ∃ k w, (d.count c n).engAt e = { d.engAt e with core := k, work := w } ∧
      w.map Work.uncounted = (d.engAt e).work.map Work.uncounted := by
    cases c with
    | engine e' =>
      obtain ⟨k, w, h, hw⟩ := count_engAt d e' e n
      exact ⟨_, w, h, hw⟩
    | truss | gable | soffit => exact ⟨(d.engAt e).core, (d.engAt e).work, rfl, rfl⟩
  obtain ⟨k, w, h, hw⟩ := hc
  obtain ⟨k1, h1⟩ := onCore_engAt (d.count c n) c e g
  unfold Dev.ended Dev.endStep
  split
  · obtain ⟨k2, h2⟩ := onCore_engAt ((d.count c n).onCore c g) c e fun x => { x with dbgStep := false }
    exact ⟨k2, w, by rw [h2, h1, h], hw⟩
  · exact ⟨k1, w, by rw [h1, h], hw⟩

end

/-- Falling through sets the flow alone. -/
theorem Core.fall_sets (x : Core) : ∃ p l, x.fall = { x with pc := p, lstack := l } := by
  unfold Core.fall
  split <;> exact ⟨_, _, rfl⟩

/-- Two effects that agree on the fetched device are one. -/
theorem falls_any {s : State} {c : CoreId} {n : Nat} {f g : Dev → Dev} (h : f (s.fetched c).dev = g (s.fetched c).dev) :
    s.falls c n f = s.falls c n g := by
  simp only [State.falls, State.any, h]

section
variable (s : State) (c : CoreId) (n : Nat) (f : Dev → Dev)

/-- Of its core, an instruction that falls through changes besides its work the flow, the cycles and the step. -/
theorem falls_coreAt : ∃ p l y b, (s.falls c n f).dev.coreAt c =
    { (f (s.fetched c).dev).coreAt c with pc := p, lstack := l, cycle := y, dbgStep := b } := by
  rw [State.falls_dev]
  exact ended_coreAt _ c _ _ Core.fall_sets

/-- One that sets the flow itself changes besides its work no more. -/
theorem flows_coreAt : ∃ p l y b, (s.flows c n f).dev.coreAt c =
    { (f (s.fetched c).dev).coreAt c with pc := p, lstack := l, cycle := y, dbgStep := b } := by
  rw [State.flows_dev]
  exact ended_coreAt _ c _ _ fun x => ⟨x.pc, x.lstack, rfl⟩

/-- The registers after an instruction that falls through are those its work leaves. -/
theorem falls_get (r : BitVec 5) : ((s.falls c n f).dev.coreAt c).get r = ((f (s.fetched c).dev).coreAt c).get r := by
  obtain ⟨p, l, y, b, h⟩ := falls_coreAt s c n f; rw [h]; rfl
theorem falls_s : ((s.falls c n f).dev.coreAt c).s = ((f (s.fetched c).dev).coreAt c).s := by
  obtain ⟨p, l, y, b, h⟩ := falls_coreAt s c n f; rw [h]
theorem falls_mode : ((s.falls c n f).dev.coreAt c).mode = ((f (s.fetched c).dev).coreAt c).mode := by
  obtain ⟨p, l, y, b, h⟩ := falls_coreAt s c n f; rw [h]

end

/-- The destination after an instruction that writes it and falls through. -/
theorem falls_put (s : State) (c : CoreId) (n : Nat) (r : BitVec 5) (v : Word) :
    ((s.falls c n fun d => d.onCore c fun k => k.put r v).dev.coreAt c).get r = if r = 0 then 0 else v := by
  rw [falls_get, onCore_coreAt, Core.get_put]

/-! ### Cores with a memory of their own -/

@[simp] theorem State.fetched_truss (s : State) : s.fetched .truss = s := by
  rw [State.fetched, State.any, fetched_own (c := .truss) fun e => nofun]
@[simp] theorem State.fetched_gable (s : State) : s.fetched .gable = s := by
  rw [State.fetched, State.any, fetched_own (c := .gable) fun e => nofun]
@[simp] theorem State.fetched_soffit (s : State) : s.fetched .soffit = s := by
  rw [State.fetched, State.any, fetched_own (c := .soffit) fun e => nofun]

end Sys2Proof.Machine
end

section
/-! PROOF. The instructions of one profile (04 R113 to R116), task starts, and the bounds on cycles (04 R123, R124, 05 R158). -/

namespace Sys2Proof.Machine

open Sys2Proof

/-! ### Soffit sequencer (13 R416, R417) -/

section
variable {s : State} {dst a : BitVec 5}

theorem exec_dird (hx : s.executes .soffit (encI 0xD0 dst 0 0) 1 = true) : exec (.dird dst) s =
    .next (s.falls .soffit 1 fun d => d.onCore .soffit fun k => k.put dst s.dev.soffit.w1) :=
  congrArg _ (issue_next s _ _ 1 0 _ (fun d => d.onCore .soffit fun k => k.put dst s.dev.soffit.w1) hx
    (by rw [State.fetched_soffit]))

/-- A word that holds another code than that of commands changes nothing. -/
theorem Dev.dqwr_other {d : Dev} {x : Word} (h : x.extractLsb' 24 8 ≠ 0) : d.dqwr x = d := if_pos h

/-- A word of commands sets and clears the program's outputs. -/
theorem Dev.dqwr_commands {d : Dev} {x : Word} (h : x.extractLsb' 24 8 = 0) :
    d.dqwr x = (let y := d.soffit.commands 1 (x.extractLsb' 0 8) (x.extractLsb' 8 8) (x.extractLsb' 16 8)
      d.onSoffit y.1 y.2) := if_neg (not_not.2 h)

theorem exec_dqwr (hx : s.executes .soffit (encI 0xD1 0 a 0) 1 = true) : exec (.dqwr a) s =
    .next (s.falls .soffit 1 fun d => d.dqwr (s.dev.thatch.soffit.get a)) :=
  congrArg _ (issue_next s _ _ 1 0 _ (fun d => d.dqwr (s.dev.thatch.soffit.get a)) hx (by rw [State.fetched_soffit]))

theorem exec_tpls (hx : s.executes .soffit (encI 0xD2 0 a 0) 1 = true) : exec (.tpls a) s =
    .next (s.falls .soffit 1 fun d => { d with soffit := d.soffit.requests (s.dev.thatch.soffit.get a) }) :=
  congrArg _ (issue_next s _ _ 1 0 _ (fun d => { d with soffit := d.soffit.requests (s.dev.thatch.soffit.get a) }) hx
    (by rw [State.fetched_soffit]))

theorem exec_bfrx (hx : s.executes .soffit (encI 0xD3 dst 0 0) 2 = true) : exec (.bfrx dst) s =
    .next (s.falls .soffit 2 fun d =>
      ({ d with soffit := { d.soffit with payload := s.dev.soffit.payload.drop 1 } } : Dev).onCore .soffit fun k =>
        k.put dst (s.dev.soffit.payload.headD 0)) :=
  congrArg _ (issue_next s _ _ 2 0 _ (fun d =>
      ({ d with soffit := { d.soffit with payload := s.dev.soffit.payload.drop 1 } } : Dev).onCore .soffit fun k =>
        k.put dst (s.dev.soffit.payload.headD 0)) hx (by rw [State.fetched_soffit]))

/-- Nothing taken from an empty list of received words. -/
theorem exec_bfrx_empty (hx : s.executes .soffit (encI 0xD3 dst 0 0) 2 = true) (hp : s.dev.soffit.payload = []) :
    exec (.bfrx dst) s = .next (s.falls .soffit 2 fun d => d.onCore .soffit fun k => k.put dst 0) := by
  refine (exec_bfrx hx).trans (congrArg _ (State.any_congr ?_))
  simp only [State.fetched_soffit, hp, List.drop_nil, List.headD_nil]
  rw [← hp]

theorem exec_bftx (hx : s.executes .soffit (encI 0xD4 0 a 0) 1 = true) (hl : s.dev.soffit.appended.length < 8) :
    exec (.bftx a) s = .next (s.falls .soffit 1 fun d =>
      { d with soffit := { d.soffit with appended := d.soffit.appended ++ [s.dev.thatch.soffit.get a] } }) := by
  refine congrArg Host.Outcome.next (issue_next s _ _ 1 0 _ (fun d => 
      { d with soffit := { d.soffit with appended := d.soffit.appended ++ [s.dev.thatch.soffit.get a] } }) hx ?_)
  have h8 : (s.dev.soffit.appended ++ [s.dev.thatch.soffit.get a]).length ≤ 8 := by
    rw [List.length_append]; exact hl
  simp only [State.fetched_soffit, Soffit.append, if_pos h8]

theorem exec_fend (hx : s.executes .soffit (encI 0xD5 0 0 0) 1 = true) : exec .fend s =
    .next (s.flows .soffit 1 fun d => d.onCore .soffit fun k => { k with mode := .stopped }) :=
  congrArg _ (issue_stop s _ _ 1 0 _ (fun d => d.onCore .soffit fun k => { k with mode := .stopped }) hx rfl)

end

/-! ### Tasks (04 R123, R124) -/

/-- A waiting task starts on a stopped core that no debugger holds. -/
theorem Dev.taskStart_starts {d : Dev} {f : Bool} {n : Nat} {r : List Nat} {i : Image} {t : Task}
    (hw : (if f then d.thatch.soffitWait else d.thatch.gableWait) = n :: r)
    (hi : (if f then d.thatch.soffitImage else d.thatch.gableImage) = some i) (ht : i.tasks[n]? = some t)
    (hm : (if f then d.thatch.soffit else d.thatch.gable).mode = .stopped)
    (hb : (if f then d.thatch.soffit else d.thatch.gable).dbgHalt = false) : d.taskStart f =
      if f then { d with thatch := { d.thatch with soffit := d.thatch.soffit.startTask n t, soffitWait := r } }
      else { d with thatch := { d.thatch with gable := d.thatch.gable.startTask n t, gableWait := r } } := by
  unfold Dev.taskStart
  simp only [hw, hi, ht, hm, hb]
  cases f <;> rfl

/-- A task that passes its bound traps one cycle past it. -/
theorem exec_watchdog {s : State} {f : Bool} {i : Image} {t : Task} (hi : s.dev.imageAt (if f then .soffit else .gable) = some i)
    (ht : i.tasks[(s.dev.coreAt (if f then .soffit else .gable)).taskId.toNat]? = some t)
    (hr : s.dev.coreRuns (if f then .soffit else .gable) = true) :
    exec (.watchdog f) s = .next (s.any fun d =>
      let c : CoreId := if f then .soffit else .gable
      (d.countTo c (t.wcet.toNat + 1)).trapAt c 0x0E (d.coreAt c).pc (BitVec.ofNat 32 (t.wcet.toNat + 1))) := by
  refine congrArg Host.Outcome.next (State.any_congr (f := fun d => d.watchdog f) ?_)
  simp only [Dev.watchdog, hi, Option.bind_some, ht, hr, if_true]
  rfl

/-- An invocation that passes its run's limit traps one cycle past it. -/
theorem exec_patchOverrun {s : State} {e : Fin 8} {w : Work} {r : Run} (hw : (s.dev.engAt e).work = some w)
    (hr : s.dev.course.runOf w.frame = some r) (hc : s.dev.coreRuns (.engine e) = true) :
    exec (.patchOverrun e) s = .next (s.any fun d =>
      (d.countTo (.engine e) (r.limit.toNat + 1)).trapAt (.engine e) 0x23 (d.engAt e).core.pc
        (BitVec.ofNat 32 (r.limit.toNat + 1))) := by
  have hup : s.dev.coreUp = true := by
    simp only [Dev.coreRuns, Dev.coreOn, Bool.and_eq_true] at hc
    exact hc.1.1.1
  refine congrArg Host.Outcome.next ((s.core_up _ hup).trans (State.any_congr ?_))
  simp only [Dev.patchOverrun, hw, hr, hc, if_true]
  rfl

/-- Settles O20, an instruction at a time. -/
theorem soffitInstructionsAndTaskBounds : Obligations.SoffitInstructionsAndTaskBounds := by
  intro s dst a e k x put
  refine ⟨exec_dird, fun hx => ⟨fun h => ?dqwrOther, fun h => ?dqwr⟩, exec_tpls, fun hx => ⟨exec_bfrx_empty hx, fun w r h => ?bfrx⟩,
    exec_bftx, exec_fend, fun n r i t hup hw hi ht hm hb => ?gable, fun n r i t hup hw hi ht hm hb => ?soffit,
    fun f i t => exec_watchdog, fun w r => exec_patchOverrun⟩
  case dqwrOther =>
    exact (exec_dqwr hx).trans (congrArg _ (falls_any (Dev.dqwr_other h)))
  case dqwr =>
    exact (exec_dqwr hx).trans (congrArg _ (falls_any (Dev.dqwr_commands h)))
  case bfrx =>
    refine (exec_bfrx hx).trans ?_
    rw [h]
    rfl
  case gable =>
    refine congrArg Host.Outcome.next (State.any_congr ?_)
    simp only [Dev.startTaskOf, Bool.false_eq_true, if_false, hup, if_true]
    exact Dev.taskStart_starts (f := false) hw hi ht hm hb
  case soffit =>
    refine congrArg Host.Outcome.next (State.any_congr ?_)
    simp only [Dev.startTaskOf, if_true, hup]
    exact Dev.taskStart_starts (f := true) hw hi ht hm hb

end Sys2Proof.Machine
end

section
/-! PROOF. An atomic swap on a memory that is not in canonical form (04 R115): a byte listed twice reads as its second
entry once the first is written 0. -/

namespace Sys2Proof.Machine

open Sys2Proof

/-- A Truss at the start of its memory, byte 0 of which is listed twice; s1 holds that address, and s2 holds 0. -/
def doubleByte : State := State.reset.any fun d => { d with thatch := { d.thatch with
  truss := { d.thatch.truss with pc := 0x40000000, s := d.thatch.truss.s.set 1 0x40000000, mode := .running }
  trussMem := { cells := [(0, 1), (0, 2)], ue := [] } } }

theorem doubleByte_executes : doubleByte.executes .truss (encR 0xE1 0 1 2 0) 20 = true := by decide +kernel

/-- The swap writes four bytes 0, and the first of them then reads 2. -/
theorem doubleByte_swapped : readBytes (doubleByte.chip fun m => amoOp m 0xE1 0 1 2 0 fun _ x => x).dev.thatch.trussMem.cells 0 4 =
    [2, 0, 0, 0] := by decide +kernel

/-- Refutes O55: nothing in it asks for a Truss memory in canonical form, and on that of `doubleByte` AMOSWP of a register
that holds 0 does not leave the register's bytes. -/
theorem not_profileInstructionsComplete : ¬ Obligations.ProfileInstructionsComplete := by
  intro h
  obtain ⟨-, -, -, -, -, -, -, hamo, -⟩ := h doubleByte 0 1 2 false 0 0 0
  obtain ⟨-, hswap⟩ := hamo (by decide +kernel) (by decide +kernel) (by decide +kernel) rfl
  obtain ⟨t, ht, -, hnow⟩ := hswap doubleByte_executes
  have hu : (doubleByte.chip fun m => amoOp m 0xE1 0 1 2 0 fun _ x => x) = t := Host.Outcome.next.inj ht
  have hb : readBytes t.dev.thatch.trussMem.cells 0 4 = [2, 0, 0, 0] := hu ▸ doubleByte_swapped
  exact absurd (hb.symm.trans hnow) (by decide +kernel)

end Sys2Proof.Machine
end

section
/-! PROOF. Loads and stores of a core's own memory (04 R108, R109, 05 R139), and the CSRs, traps and breaks that leave their
core in a known place (04 R111, R118 to R120). -/

namespace Sys2Proof.Machine

open Sys2Proof

/-! ### Ways to end -/

/-- The work of a load and of a store at an address. -/
def loadWork (c : CoreId) (addr : Word) (n : Nat) (dst : BitVec 5) (f : Word → Word) (m : Chip) : IOut :=
  match memLoad m c addr n with
  | .error e => .trap e.2 e.1 addr
  | .ok x => .next (x.2.onCore c fun y => y.put dst (f (BitVec.ofNat 32 (leNat x.1))), m.2)
def storeWork (c : CoreId) (addr : Word) (n : Nat) (src : BitVec 5) (m : Chip) : IOut :=
  match memStore m c addr (leBytes ((m.1.coreAt c).get src).toNat n) with
  | .error e => .trap e.2 e.1 addr
  | .ok y => .next y

section
variable {s : State} {c : CoreId} {dst a : BitVec 5} {imm : BitVec 14} {op : Byte} {n : Nat}

/-- A load that memory answers leaves the bytes in the destination as the row extends them. -/
theorem loadOp_gets {f : Word → Word} {bs : List Byte} {d : Dev}
    (hx : s.executes c (encI op dst a imm) (memCycles c ((s.dev.coreAt c).get a + sx imm) false) = true)
    (hm : memLoad ((s.fetched c).dev, s.otp) c ((s.dev.coreAt c).get a + sx imm) n = .ok (bs, d)) :
    ∃ t, (Host.Outcome.next (s.chip fun m => loadOp m c op n dst a imm f) : Host.Outcome State Fault Refusal) = .next t ∧
      (t.dev.coreAt c).get dst = if dst = 0 then 0 else f (BitVec.ofNat 32 (leNat bs)) := by
  have hl : s.chip (fun m => loadOp m c op n dst a imm f) = s.falls c (memCycles c ((s.dev.coreAt c).get a + sx imm) false)
      fun _ => d.onCore c fun y => y.put dst (f (BitVec.ofNat 32 (leNat bs))) := by
    refine (chip_congr s _ (fun m => issue m c (encI op dst a imm) _ 0 (loadWork c ((s.dev.coreAt c).get a + sx imm) n dst f))
      rfl).trans (issue_next s c _ _ 0 _ _ hx ?_)
    simp only [loadWork, hm]
  exact ⟨_, congrArg _ hl, by rw [falls_get, onCore_coreAt, Core.get_put]⟩

/-- A store that memory takes leaves what it leaves of the device, and the registers. -/
theorem storeOp_stores {d : Dev}
    (hx : s.executes c (encI op dst a imm) (memCycles c ((s.dev.coreAt c).get a + sx imm) true) = true)
    (hm : memStore ((s.fetched c).dev, s.otp) c ((s.dev.coreAt c).get a + sx imm)
      (leBytes ((s.dev.coreAt c).get dst).toNat n) = .ok (d, s.otp))
    (hs : (d.coreAt c).s = ((s.fetched c).dev.coreAt c).s) :
    ∃ t k, (Host.Outcome.next (s.chip fun m => storeOp m c op n dst a imm) : Host.Outcome State Fault Refusal) = .next t ∧
      t.dev = d.ended c k Core.fall ∧ (t.dev.coreAt c).s = (s.dev.coreAt c).s := by
  have hg : ((s.fetched c).dev.coreAt c).get dst = (s.dev.coreAt c).get dst := fetched_get ..
  have hw : s.chip (fun m => storeOp m c op n dst a imm) =
      s.falls c (memCycles c ((s.dev.coreAt c).get a + sx imm) true) fun _ => d := by
    refine (chip_congr s _ (fun m => issue m c (encI op dst a imm) _ 0 (storeWork c ((s.dev.coreAt c).get a + sx imm) n dst))
      rfl).trans (issue_next s c _ _ 0 _ _ hx ?_)
    simp only [storeWork, hg, hm]
  obtain ⟨k, hk⟩ := fetched_coreAt s.dev c c
  exact ⟨_, _, congrArg _ hw, State.falls_dev .., by rw [falls_s, hs, State.fetched, State.any_dev, hk]⟩

end

/-! ### Own memories -/

/-- A store to a byte memory puts its bytes there and leaves every other. -/
theorem writeBytes_puts {m : Mem} (h : Memory.wf m = true) (a : Nat) (bs : List Byte) :
    readBytes (writeBytes m a bs) a bs.length = bs ∧
      ∀ y, y < a ∨ a + bs.length ≤ y → cellGet (writeBytes m a bs) y = cellGet m y :=
  ⟨readBytes_writeBytes bs m a h, fun y hy => cellGet_writeBytes_ne bs m a y h hy⟩

/-- A core memory without an erroneous word gives its bytes. -/
theorem coreLoad_clean {d : Dev} {m : CoreMem} (h : m.ue = []) (a n : Nat) : coreLoad d m a n = .ok (readBytes m.cells a n, d) := by
  simp [coreLoad, CoreMem.bad, h]

/-- An invocation stays through a fetch but for its count of cycles. -/
theorem fetched_inv {d : Dev} {e : Fin 8} {i : Invocation} (c : CoreId) (h : d.invAt e = some i) :
    ∃ k, (d.fetched c).invAt e = some { i with cycles := k } := by
  have hu := fetched_invAt d c e
  rw [h] at hu
  cases hj : (d.fetched c).invAt e with
  | none => rw [hj] at hu; cases hu
  | some j =>
    rw [hj] at hu
    have he : j.uncounted = i.uncounted := Option.some.inj hu
    refine ⟨j.cycles, congrArg some ?_⟩
    calc j = { j.uncounted with cycles := j.cycles } := rfl
      _ = { i with cycles := j.cycles } := by rw [he]; rfl

/-- The slots' contents stay through a fetch. -/
theorem fetched_slotMem (d : Dev) (c : CoreId) (e : Fin 8) : ((d.fetched c).engAt e).slotMem = (d.engAt e).slotMem := by
  obtain ⟨k, w, l, h, -⟩ := fetched_engAt d c e
  rw [h]

/-- An engine's load of its slot. -/
theorem engineLoad_slot {d : Dev} {e : Fin 8} {i : Invocation} (hi : d.invAt e = some i) (hl : i.ls = true) {a n : Nat}
    (ha : a + n ≤ 0x1000) : engineLoad d e a n = .ok (readBytes (d.engAt i.home).slotMem[i.slot.val] a n, d) := by
  simp only [engineLoad, hi, if_pos ha, hl, if_true]

/-- An engine's store to its slot. -/
theorem engineStore_slot {d : Dev} {e : Fin 8} {i : Invocation} (hi : d.invAt e = some i) (hl : i.ls = true) {a : Nat}
    {bs : List Byte} (ha : a + bs.length ≤ 0x1000) : engineStore d e a bs =
      .ok (d.onEng i.home fun g => { g with slotMem := upd g.slotMem i.slot fun t => writeBytes t a bs }) := by
  simp only [engineStore, hi, if_pos (And.intro ha hl)]

/-- Each memory of a device in canonical form is. -/
theorem Dev.memWf_iff (d : Dev) : d.memWf = true ↔ Memory.wf d.loft.cells = true ∧ Memory.wf d.thatch.trussMem.cells = true ∧
    Memory.wf d.thatch.gableMem.cells = true ∧ Memory.wf d.thatch.soffitMem.cells = true ∧
    (∀ g ∈ d.course.eng.toList, ∀ m ∈ g.slotMem.toList, Memory.wf m = true) ∧
    ∀ m ∈ d.rdg.buffers.toList, Memory.wf m = true := by
  simp only [Dev.memWf, Bool.and_eq_true, List.all_eq_true, and_assoc]

theorem Dev.memWf_slot {d : Dev} (h : d.memWf = true) (e k : Fin 8) : Memory.wf (d.engAt e).slotMem[k] = true := by
  obtain ⟨-, -, -, -, hs, -⟩ := d.memWf_iff.1 h
  exact hs _ (Vector.mem_toList_iff.2 (Vector.getElem_mem _)) _ (Vector.mem_toList_iff.2 (Vector.getElem_mem _))

/-! ### Aligned accesses -/

section
variable {m : Chip} {addr : Word} {n : Nat} (ha : addr.toNat % n = 0)
include ha

theorem memLoad_truss (h1 : 0x40000000 ≤ addr.toNat) (h2 : addr.toNat + n ≤ 0x40020000) (hu : m.1.thatch.trussMem.ue = []) :
    memLoad m .truss addr n = .ok (readBytes m.1.thatch.trussMem.cells (addr.toNat - 0x40000000) n, m.1) := by
  simp only [memLoad, ha, ne_eq, not_true_eq_false, if_false, trussLoad, loftSize,
    if_neg (show ¬ addr.toNat + n ≤ 0x1800000 by omega), if_pos (And.intro h1 h2), coreLoad_clean hu]

theorem memLoad_gable (h : addr.toNat + n ≤ 0x20000) (hu : m.1.thatch.gableMem.ue = []) :
    memLoad m .gable addr n = .ok (readBytes m.1.thatch.gableMem.cells addr.toNat n, m.1) := by
  simp only [memLoad, ha, ne_eq, not_true_eq_false, if_false, gableLoad, if_pos h, coreLoad_clean hu]

theorem memLoad_soffit (h : addr.toNat + n ≤ 0x2000) (hu : m.1.thatch.soffitMem.ue = []) :
    memLoad m .soffit addr n = .ok (readBytes m.1.thatch.soffitMem.cells addr.toNat n, m.1) := by
  simp only [memLoad, ha, ne_eq, not_true_eq_false, if_false, if_pos h, coreLoad_clean hu]

theorem memLoad_engine {e : Fin 8} {i : Invocation} (hi : m.1.invAt e = some i) (hl : i.ls = true)
    (h : addr.toNat + n ≤ 0x1000) :
    memLoad m (.engine e) addr n = .ok (readBytes (m.1.engAt i.home).slotMem[i.slot.val] addr.toNat n, m.1) := by
  simp only [memLoad, ha, ne_eq, not_true_eq_false, if_false, engineLoad_slot hi hl h]

end

section
variable {m : Chip} {addr : Word} {bs : List Byte} (ha : addr.toNat % bs.length = 0)
include ha

theorem memStore_truss (h1 : 0x40000000 ≤ addr.toNat) (h2 : addr.toNat + bs.length ≤ 0x40020000) : memStore m .truss addr bs =
    .ok ({ m.1 with thatch := { m.1.thatch with
      trussMem := m.1.thatch.trussMem.write (addr.toNat - 0x40000000) bs } }, m.2) := by
  simp only [memStore, ha, ne_eq, not_true_eq_false, if_false, trussStore, loftSize,
    if_neg (show ¬ addr.toNat + bs.length ≤ 0x1800000 by omega), if_pos (And.intro h1 h2)]

theorem memStore_gable (h : addr.toNat + bs.length ≤ 0x20000) (h1 : addr.toNat < 0x1F000)
    (hc : ∀ y, m.1.thatch.gableImage = some y → y.inSection [1] addr.toNat = false) : memStore m .gable addr bs =
    .ok ({ m.1 with thatch := { m.1.thatch with gableMem := m.1.thatch.gableMem.write addr.toNat bs } }, m.2) := by
  have h1' : ¬ 0x1F000 ≤ addr.toNat := by omega
  simp only [memStore, ha, ne_eq, not_true_eq_false, if_false, gableStore, if_pos h]
  cases hi : m.1.thatch.gableImage with
  | none => simp [h1', Except.map]
  | some y => simp [hc y hi, h1', Except.map]

theorem memStore_soffit (h : addr.toNat + bs.length ≤ 0x2000)
    (hc : ∀ y, m.1.thatch.soffitImage = some y → y.inSection [1] addr.toNat = false) : memStore m .soffit addr bs =
    .ok ({ m.1 with thatch := { m.1.thatch with soffitMem := m.1.thatch.soffitMem.write addr.toNat bs } }, m.2) := by
  simp only [memStore, ha, ne_eq, not_true_eq_false, if_false, soffitStore]
  cases hi : m.1.thatch.soffitImage with
  | none => simp [h, Except.map]
  | some y => simp [hc y hi, h, Except.map]

theorem memStore_engine {e : Fin 8} {i : Invocation} (hi : m.1.invAt e = some i) (hl : i.ls = true)
    (h : addr.toNat + bs.length ≤ 0x1000) : memStore m (.engine e) addr bs = .ok (m.1.onEng i.home fun g =>
      { g with slotMem := upd g.slotMem i.slot fun t => writeBytes t addr.toNat bs }, m.2) := by
  simp only [memStore, ha, ne_eq, not_true_eq_false, if_false, engineStore_slot hi hl h, Except.map]

end

/-- A change of a slot is none of a core. -/
theorem onSlots_coreAt (d : Dev) (e : Fin 8) (f : Vector Mem 8 → Vector Mem 8) (c : CoreId) :
    (d.onEng e fun g => { g with slotMem := f g.slotMem }).coreAt c = d.coreAt c := by
  cases c with
  | engine e' =>
    simp only [Dev.coreAt, onEng_engAt]
    split <;> rfl
  | truss | gable | soffit => rfl

section
variable {s : State} {c : CoreId} {dst a : BitVec 5} {imm : BitVec 14} {op : Byte} {n : Nat}

/-- A load of a core's own memory answers with its bytes there in the destination. -/
theorem loadOp_own {f : Word → Word} {ext : Nat → Word} (hf : ∀ v, f (BitVec.ofNat 32 v) = ext v) (i : Instr)
    {addr : Word} (haddr : addr = (s.dev.coreAt c).get a + sx imm)
    (he : exec i s = .next (s.chip fun m => loadOp m c op n dst a imm f))
    (hx : s.executes c (encI op dst a imm) (memCycles c addr false) = true) (ha : addr.toNat % n = 0) :
    let got (m : Mem) (b : Nat) : Prop := ∃ t, exec i s = .next t ∧
      (t.dev.coreAt c).get dst = if dst = 0 then 0 else ext (leNat (readBytes m (addr.toNat - b) n))
    (c = .truss → 0x40000000 ≤ addr.toNat → addr.toNat + n ≤ 0x40020000 → s.dev.thatch.trussMem.ue = [] →
      got s.dev.thatch.trussMem.cells 0x40000000) ∧
    (c = .gable → addr.toNat + n ≤ 0x20000 → s.dev.thatch.gableMem.ue = [] → got s.dev.thatch.gableMem.cells 0) ∧
    (c = .soffit → addr.toNat + n ≤ 0x2000 → s.dev.thatch.soffitMem.ue = [] → got s.dev.thatch.soffitMem.cells 0) ∧
    (∀ e i, c = .engine e → s.dev.invAt e = some i → i.ls = true → addr.toNat + n ≤ 0x1000 →
      got (s.dev.engAt i.home).slotMem[i.slot.val] 0) := by
  subst haddr
  intro got
  have gets {bs : List Byte} {d : Dev} 
      (hm : memLoad ((s.fetched c).dev, s.otp) c ((s.dev.coreAt c).get a + sx imm) n = .ok (bs, d)) :
      ∃ t, exec i s = .next t ∧ (t.dev.coreAt c).get dst = if dst = 0 then 0 else ext (leNat bs) := by
    obtain ⟨t, ht, hg⟩ := loadOp_gets (f := f) hx hm
    exact ⟨t, he.trans ht, hf _ ▸ hg⟩
  refine ⟨?truss, ?gable, ?soffit, ?engine⟩
  case truss =>
    rintro rfl h1 h2 hu
    exact gets (by rw [State.fetched_truss]; exact memLoad_truss ha h1 h2 hu)
  case gable =>
    rintro rfl h hu
    exact gets (by rw [State.fetched_gable]; exact memLoad_gable ha h hu)
  case soffit =>
    rintro rfl h hu
    exact gets (by rw [State.fetched_soffit]; exact memLoad_soffit ha h hu)
  case engine =>
    rintro e j rfl hj hl h
    obtain ⟨k, hk⟩ := fetched_inv (.engine e) hj
    have hb := memLoad_engine (m := ((s.fetched (.engine e)).dev, s.otp)) (i := { j with cycles := k }) ha hk hl h
    have hm : ((s.fetched (.engine e)).dev.engAt j.home).slotMem = (s.dev.engAt j.home).slotMem := fetched_slotMem ..
    simp only [hm] at hb
    exact gets hb

/-- A store to a core's own memory puts its bytes there and leaves every other, and the registers. -/
theorem storeOp_own (i : Instr)
    {addr : Word} (haddr : addr = (s.dev.coreAt c).get a + sx imm)
    (he : exec i s = .next (s.chip fun m => storeOp m c op n dst a imm)) (hn : 0 < n)
    (hx : s.executes c (encI op dst a imm) (memCycles c addr true) = true) (ha : addr.toNat % n = 0) (hwf : s.dev.memWf = true) :
    let put (m : Dev → Mem) (b : Nat) : Prop := ∃ t, exec i s = .next t ∧
      readBytes (m t.dev) (addr.toNat - b) n = leBytes ((s.dev.coreAt c).get dst).toNat n ∧
      (t.dev.coreAt c).s = (s.dev.coreAt c).s ∧
      ∀ y, y < addr.toNat - b ∨ addr.toNat - b + n ≤ y → cellGet (m t.dev) y = cellGet (m s.dev) y
    let free (i : Option Image) : Prop := ∀ y, i = some y → y.inSection [1] addr.toNat = false
    (c = .truss → 0x40000000 ≤ addr.toNat → addr.toNat + n ≤ 0x40020000 →
      put (fun d => d.thatch.trussMem.cells) 0x40000000) ∧
    (c = .gable → addr.toNat + n ≤ 0x1F000 → free s.dev.thatch.gableImage → put (fun d => d.thatch.gableMem.cells) 0) ∧
    (c = .soffit → addr.toNat + n ≤ 0x2000 → free s.dev.thatch.soffitImage → put (fun d => d.thatch.soffitMem.cells) 0) ∧
    (∀ e i, c = .engine e → s.dev.invAt e = some i → i.ls = true → addr.toNat + n ≤ 0x1000 →
      put (fun d => (d.engAt i.home).slotMem[i.slot.val]) 0) := by
  subst haddr
  intro put free
  obtain ⟨-, ht, hg, hf, -, -⟩ := s.dev.memWf_iff.1 hwf
  generalize hbs : leBytes ((s.dev.coreAt c).get dst).toNat n = bs at put
  have hlen : bs.length = n := by rw [← hbs, leBytes_length]
  have puts {m : Dev → Mem} {b : Nat} {d : Dev}
      (hm : memStore ((s.fetched c).dev, s.otp) c ((s.dev.coreAt c).get a + sx imm) bs = .ok (d, s.otp))
      (hs : (d.coreAt c).s = ((s.fetched c).dev.coreAt c).s) (hw : Memory.wf (m s.dev) = true)
      (hd : ∀ k, m (d.ended c k Core.fall) = writeBytes (m s.dev) (((s.dev.coreAt c).get a + sx imm).toNat - b) bs) :
      put m b := by
    subst hbs
    obtain ⟨t, k, hx', hk, hs'⟩ := storeOp_stores hx hm hs
    have hp := writeBytes_puts hw (((s.dev.coreAt c).get a + sx imm).toNat - b) (leBytes ((s.dev.coreAt c).get dst).toNat n)
    rw [← hd k, ← hk, hlen] at hp
    exact ⟨t, he.trans hx', hp.1, hs', hp.2⟩
  subst hlen
  refine ⟨?truss, ?gable, ?soffit, ?engine⟩
  case truss =>
    rintro rfl h1 h2
    refine puts (m := fun d => d.thatch.trussMem.cells) (by rw [State.fetched_truss]; exact memStore_truss ha h1 h2) ?_ ht ?_
    · rw [State.fetched_truss]; rfl
    · intro k; simp only [ended_trussMem]; rfl
  case gable =>
    rintro rfl h hc
    refine puts (m := fun d => d.thatch.gableMem.cells)
      (by rw [State.fetched_gable]; exact memStore_gable ha (by omega) (by omega) hc) ?_ hg ?_
    · rw [State.fetched_gable]; rfl
    · intro k; simp only [ended_gableMem]; rfl
  case soffit =>
    rintro rfl h hc
    refine puts (m := fun d => d.thatch.soffitMem.cells)
      (by rw [State.fetched_soffit]; exact memStore_soffit ha h hc) ?_ hf ?_
    · rw [State.fetched_soffit]; rfl
    · intro k; simp only [ended_soffitMem]; rfl
  case engine =>
    rintro e j rfl hj hl h
    obtain ⟨k, hk⟩ := fetched_inv (.engine e) hj
    refine puts (m := fun d => (d.engAt j.home).slotMem[j.slot.val])
      (memStore_engine (i := { j with cycles := k }) ha hk hl h) ?_ (s.dev.memWf_slot hwf ..) ?_
    · exact congrArg Core.s (onSlots_coreAt _ _ (fun v => upd v j.slot fun t => writeBytes t _ bs) _)
    · intro n
      obtain ⟨x, w, hx, -⟩ := ended_engAt (((s.fetched (.engine e)).dev.onEng j.home fun g =>
        { g with slotMem := upd g.slotMem j.slot fun t => writeBytes t ((s.dev.coreAt (.engine e)).get a + sx imm).toNat bs }))
        (.engine e) n Core.fall j.home
      have hm : ((s.fetched (.engine e)).dev.engAt j.home).slotMem = (s.dev.engAt j.home).slotMem := fetched_slotMem ..
      simp only [hx, onEng_engAt_same, hm, Nat.sub_zero]
      exact upd_same ..

end

/-! ### Traps and breaks of the Truss -/

/-- A Truss outside its handler enters it with what the trap records. -/
theorem traps_truss {s : State} {n : Nat} {code : Byte} {v : Word} {i : Image} (hh : s.dev.thatch.truss.inHandler = false)
    (hi : s.dev.thatch.trussImage = some i) (he : i.trapEntry ≠ 0) : ∃ y b, (s.traps .truss n code v).dev.thatch.truss =
      { s.dev.thatch.truss with tcause := code, tpc := s.dev.thatch.truss.pc, tval := v, pc := i.trapEntry, inHandler := true,
                                cycle := y, dbgStep := b } := by
  have ht (d : Dev) (h1 : d.thatch.truss.inHandler = false) (h2 : d.thatch.trussImage = some i) (pc : Word) :
      d.trapAt .truss code pc v = d.onCore .truss fun x =>
        { x with tcause := code, tpc := pc, tval := v, pc := i.trapEntry, inHandler := true } := by
    simp only [Dev.trapAt, h1, h2, Bool.false_eq_true, he, or_self, if_false]
  simp only [State.traps, State.fetched_truss, State.any_dev]
  rw [ht (s.dev.count .truss (s.dev.cyclesOf .truss n)) hh hi]
  unfold Dev.endStep
  split
  · exact ⟨_, _, rfl⟩
  · exact ⟨_, _, rfl⟩

/-- The flow past an instruction leaves the registers. -/
theorem Core.fall_s (x : Core) : x.fall.s = x.s := by
  obtain ⟨p, l, h⟩ := x.fall_sets; rw [h]

/-- A break with a debugger attached holds the Truss. -/
theorem breakCore_truss (d : Dev) : ((d.breakCore .truss).endStep .truss).thatch.truss.dbgHalt = true ∧
    ((d.breakCore .truss).endStep .truss).thatch.truss.s = d.thatch.truss.s := by
  have hb : (d.breakCore .truss).thatch.truss.dbgHalt = true ∧ (d.breakCore .truss).thatch.truss.s = d.thatch.truss.s := by
    refine ⟨rfl, ?_⟩
    simp only [Dev.breakCore, Dev.onCore]
    split
    · exact Core.fall_s _
    · rfl
  unfold Dev.endStep
  split <;> exact hb

/-- Settles O54, a row at a time. -/
theorem systemAndMemoryInstructionsComplete : Obligations.SystemAndMemoryInstructionsComplete := by
  intro s c dst a imm w k x addr n dst' loads stores
  obtain ⟨-, hfence, hcsrr, -⟩ := systemInstructionsAndWordTraps s c dst a imm w
  have hhalf (v : Nat) : sx ((BitVec.ofNat 32 v).setWidth 16) = (BitVec.ofNat 16 v).signExtend 32 := by
    rw [BitVec.setWidth_ofNat_of_le (by decide)]; rfl
  have hbyte (v : Nat) : sx ((BitVec.ofNat 32 v).setWidth 8) = (BitVec.ofNat 8 v).signExtend 32 := by
    rw [BitVec.setWidth_ofNat_of_le (by decide)]; rfl
  have load (i : Instr) (op : Byte) (size : Nat) (ext : Nat → Word) (f : Word → Word)
      (hf : ∀ v, f (BitVec.ofNat 32 v) = ext v) (he : exec i s = .next (s.chip fun m => loadOp m c op size dst a imm f)) :
      loads i op size ext := fun hx ha => loadOp_own hf i rfl he hx ha
  have store (i : Instr) (op : Byte) (size : Nat) (h0 : 0 < size)
      (he : exec i s = .next (s.chip fun m => storeOp m c op size dst a imm)) : stores i op size :=
    fun hx ha hwf => storeOp_own i rfl he h0 hx ha hwf
  refine ⟨load _ _ _ _ id (fun _ => rfl) rfl, load _ _ _ _ (fun x => sx (x.setWidth 16)) hhalf rfl,
    load _ _ _ _ id (fun _ => rfl) rfl, load _ _ _ _ (fun x => sx (x.setWidth 8)) hbyte rfl,
    load _ _ _ _ id (fun _ => rfl) rfl, store _ _ _ (by decide) rfl, store _ _ _ (by decide) rfl,
    store _ _ _ (by decide) rfl, fun hx => ⟨_, hfence hx, ?fence⟩,
    fun hx => ⟨_, hcsrr hx, falls_put ..⟩, fun hx => ⟨_, exec_csrw hx, ?flg, ?old⟩, fun hx => ⟨_, exec_csrw hx, ?tpc, ?oldTpc⟩,
    fun hx hh i hi he => ?trap, fun hx ha => ?brk, fun code i hc hr hf hh hi he => ?word⟩
  case fence =>
    obtain ⟨j, hj⟩ := fetched_coreAt s.dev c c
    rw [falls_s, id_eq, State.fetched, State.any_dev, hj]
  case flg =>
    obtain ⟨p, l, y, b, h⟩ := falls_coreAt s c 1 fun d => d.onCore c fun k =>
      (k.csrPut 0 (k.get a)).put dst ((s.fetched c).dev.csr c 0)
    refine (congrArg Core.flg h).trans ?_
    simp only [onCore_coreAt, Core.put_flg, State.fetched, State.any_dev]
    exact congrArg Flg.ofWord (fetched_get ..)
  case old =>
    have hf : ((s.fetched c).dev.coreAt c).flg = k.flg := fetched_flg ..
    rw [falls_get, onCore_coreAt, Core.get_put]
    exact congrArg dst' (congrArg Flg.word hf)
  case tpc =>
    obtain ⟨p, l, y, b, h⟩ := falls_coreAt s .truss 1 fun d => d.onCore .truss fun k =>
      (k.csrPut 2 (k.get a)).put dst ((s.fetched .truss).dev.csr .truss 2)
    refine (congrArg Core.tpc h).trans ?_
    simp only [onCore_coreAt, Core.put_tpc, State.fetched_truss]
    rfl
  case oldTpc =>
    refine (falls_get s .truss 1 _ dst).trans ?_
    rw [onCore_coreAt, Core.get_put, State.fetched_truss]
    rfl
  case trap =>
    obtain ⟨-, -, -, -, htrap, -⟩ := systemInstructionsAndWordTraps s .truss dst a imm w
    obtain ⟨y, b, ht⟩ := traps_truss (n := 1) (code := 0x0D) (v := zx imm) hh hi he
    exact ⟨_, htrap hx, congrArg Core.tcause ht, congrArg Core.tpc ht, congrArg Core.tval ht, congrArg Core.pc ht⟩
  case brk =>
    obtain ⟨-, -, -, -, -, hbrk, -⟩ := systemInstructionsAndWordTraps s .truss dst a imm w
    refine ⟨_, hbrk hx ha, ?_⟩
    rw [State.fetched_truss]
    exact breakCore_truss _
  case word =>
    obtain ⟨-, -, -, -, -, -, -, hword, -⟩ := systemInstructionsAndWordTraps s .truss dst a imm w
    obtain ⟨y, b, ht⟩ := traps_truss (n := 1) (code := code) (v := w) hh hi he
    exact ⟨_, hword code hc hr hf rfl, congrArg Core.tcause ht, congrArg Core.tval ht, congrArg Core.pc ht⟩

end Sys2Proof.Machine
end

section
/-! PROOF. What a fetch leaves an engine's instruction to read (05 R133, R137, R138, R140), and the vector and predicate
registers after a write (R135, R136). -/

namespace Sys2Proof.Machine

open Sys2Proof

/-! ### The engine that executes -/

/-- An engine but for its counts of cycles and its cache. -/
def Engine.uncounted (g : Engine) : Engine :=
  { g with core := { g.core with cycle := 0 }, work := g.work.map Work.uncounted, icache := [] }

section
variable (d : Dev) (c : CoreId) (e : Fin 8)

/-- A fetch leaves every engine but its counts of cycles and its cache. -/
theorem fetched_uncounted : ((d.fetched c).engAt e).uncounted = (d.engAt e).uncounted := by
  obtain ⟨k, w, l, h, hw⟩ := fetched_engAt d c e
  rw [h]
  simp only [Engine.uncounted, hw]

/-- So what does not depend on them is the same of it. -/
theorem fetched_eng {α : Type} (f : Engine → α) (h : ∀ g : Engine, f g.uncounted = f g) :
    f ((d.fetched c).engAt e) = f (d.engAt e) := by
  rw [← h, fetched_uncounted, h]

@[simp] theorem fetched_vget (r : BitVec 5) : ((d.fetched c).engAt e).vget r = (d.engAt e).vget r :=
  fetched_eng d c e (·.vget r) fun _ => rfl
@[simp] theorem fetched_pget (r : Nat) : ((d.fetched c).engAt e).pget r = (d.engAt e).pget r :=
  fetched_eng d c e (·.pget r) fun _ => rfl
@[simp] theorem fetched_lanes (m : BitVec 9) : ((d.fetched c).engAt e).lanes m = (d.engAt e).lanes m :=
  fetched_eng d c e (·.lanes m) fun _ => rfl
@[simp] theorem fetched_vidx : ((d.fetched c).engAt e).vidx = (d.engAt e).vidx :=
  fetched_eng d c e (·.vidx) fun _ => rfl
@[simp] theorem fetched_matrix : ((d.fetched c).engAt e).m = (d.engAt e).m :=
  fetched_eng d c e (·.m) fun _ => rfl
@[simp] theorem fetched_engGet (r : BitVec 5) : ((d.fetched c).engAt e).core.get r = (d.engAt e).core.get r :=
  fetched_eng d c e (·.core.get r) fun _ => rfl
@[simp] theorem fetched_accAt (k : Nat) : ((d.fetched c).engAt e).accAt k = (d.engAt e).accAt k :=
  fetched_eng d c e (·.accAt k) fun g => by unfold Engine.accAt Engine.uncounted; cases g.work <;> rfl
/-- The work of an engine after a fetch. -/
theorem fetched_work : (((d.fetched c).engAt e).work).map Work.uncounted = (d.engAt e).work.map Work.uncounted :=
  congrArg Engine.work (fetched_uncounted d c e)

/-! ### The device around it -/

@[simp] theorem fetched_scan : (d.fetched c).scan = d.scan := by
  obtain ⟨t, n, v, hn, h⟩ := fetched_rest d c; rw [h, hn]
@[simp] theorem fetched_regions : (d.fetched c).regions = d.regions := by
  obtain ⟨t, n, v, hn, h⟩ := fetched_rest d c; rw [h, hn]
@[simp] theorem fetched_runOf (n : BitVec 16) : (d.fetched c).course.runOf n = d.course.runOf n := by
  obtain ⟨t, n, v, hn, h⟩ := fetched_rest d c; rw [h]; rfl
@[simp] theorem fetched_inRegion (l : List Nat) (r : Nat × Nat) : (d.fetched c).inRegion l r = d.inRegion l r := by
  unfold Dev.inRegion; rw [fetched_regions]

/-- Work that a fetch counts cycles of is the work there was. -/
theorem fetched_work_cases : (((d.fetched c).engAt e).work = none ∧ (d.engAt e).work = none) ∨
    ∃ v w, ((d.fetched c).engAt e).work = some v ∧ (d.engAt e).work = some w ∧ v.uncounted = w.uncounted := by
  have h := fetched_work d c e
  cases hx : ((d.fetched c).engAt e).work <;> cases hy : (d.engAt e).work <;>
    simp only [hx, hy, Option.map, reduceCtorEq, Option.some.injEq] at h
  · exact .inl ⟨rfl, rfl⟩
  · exact .inr ⟨_, _, rfl, rfl, h⟩

@[simp] theorem fetched_lanePlace (k : Nat) : (d.fetched c).lanePlace e k = d.lanePlace e k := by
  unfold Dev.lanePlace
  simp only [fetched_scan, fetched_vidx]
  rcases fetched_work_cases d c e with ⟨hx, hy⟩ | ⟨v, w, hx, hy, h⟩
  · rw [hx, hy]
  · have hp : v.patch = w.patch := (congrArg Work.patch h :)
    simp only [hx, hy, hp]
@[simp] theorem fetched_laneWord (k : Nat) : (d.fetched c).laneWord e k = d.laneWord e k := by
  unfold Dev.laneWord; simp only [fetched_lanePlace, fetched_scan]
@[simp] theorem fetched_laneE (k : Nat) : (d.fetched c).laneE e k = d.laneE e k := by
  unfold Dev.laneE; simp only [fetched_lanePlace, fetched_scan]
@[simp] theorem fetched_inFinish : (d.fetched c).inFinish e = d.inFinish e := by
  have h := fetched_invAt d c e
  unfold Dev.inFinish
  cases hx : (d.fetched c).invAt e <;> cases hy : d.invAt e <;> simp only [hx, hy, Option.map, reduceCtorEq] at h ⊢
  exact congrArg (fun x : Option Invocation => match x with | none => false | some i => i.ctx == 0) h
@[simp] theorem fetched_depthOf : (d.fetched c).depthOf e = d.depthOf e := by
  unfold Dev.depthOf Dev.patchCsr
  simp only [fetched_runOf]
  rcases fetched_work_cases d c e with ⟨hx, hy⟩ | ⟨v, w, hx, hy, h⟩
  · rw [hx, hy]
  · have hf : v.frame = w.frame := (congrArg Work.frame h :)
    simp only [hx, hy, hf]
@[simp] theorem fetched_boundSource (n : Nat) : (d.fetched c).boundSource e n = d.boundSource e n := by
  unfold Dev.boundSource
  simp only [fetched_runOf]
  rcases fetched_work_cases d c e with ⟨hx, hy⟩ | ⟨v, w, hx, hy, h⟩
  · rw [hx, hy]
  · have hf : v.frame = w.frame := (congrArg Work.frame h :)
    have hi : v.inv.map Invocation.uncounted = w.inv.map Invocation.uncounted := (congrArg Work.inv h :)
    simp only [hx, hy, hf]
    cases hv : v.inv <;> cases hw : w.inv <;>
      simp only [hv, hw, Option.map, reduceCtorEq, Option.some.injEq] at hi ⊢
    next i j =>
      have hc : i.ctx = j.ctx := (congrArg Invocation.ctx hi :)
      have hs : i.src = j.src := (congrArg Invocation.src hi :)
      cases d.course.runOf w.frame <;> simp only [hc, hs]

end

/-! ### A Loft without errors (02 R57, R58) -/

/-- No word of the Loft has an error. -/
def Dev.loftClean (d : Dev) : Prop := d.loft.ce = [] ∧ d.loft.ue = []

section
variable {d : Dev}

theorem loftTouch_clean (h : d.loftClean) (a n : Nat) : d.loftTouch a n = d := by
  simp [Dev.loftTouch, h.1, h.2]
theorem touchAll_clean (h : d.loftClean) (rs : List (Nat × Nat)) : d.touchAll rs = d := by
  simp [Dev.touchAll, h.1, h.2]
theorem loftUe_clean (h : d.loftClean) (a n : Nat) : d.loftUe a n = false := by
  simp [Dev.loftUe, h.2]
/-- What lanes read there is read. -/
theorem gather_clean (h : d.loftClean) (rs : List (Nat × Nat)) (k : Dev → IOut) : d.gather rs k = k d := by
  have hn : (rs.find? fun r => d.loftUe r.1 r.2) = none := by
    simp [loftUe_clean h]
  simp only [Dev.gather, touchAll_clean h, hn]

/-- A fetch changes nothing of it. -/
theorem fetched_loft (h : d.loftClean) (c : CoreId) : (d.fetched c).loft = d.loft := by
  cases c with
  | engine e =>
    unfold Dev.fetched Dev.fetch Dev.cacheFetch
    by_cases hx : d.executable (.engine e) (d.coreAt (.engine e)).pc = true
    · by_cases hl : (d.engAt e).icache.contains ((d.coreAt (.engine e)).pc.toNat / 32) = true
      · simp only [hx, hl, Bool.not_true, Bool.false_eq_true, if_true, if_false]
      · simp only [hx, hl, loftUe_clean h, loftTouch_clean h]
        rfl
    · simp [hx]
  | truss => rw [fetched_own (by simp)]
  | gable => rw [fetched_own (by simp)]
  | soffit => rw [fetched_own (by simp)]

theorem fetched_clean (h : d.loftClean) (c : CoreId) : (d.fetched c).loftClean := by
  unfold Dev.loftClean
  rw [fetched_loft h]
  exact h

end

/-! ### Vector and predicate registers after a write -/

section
variable (g : Engine)

/-- A vector register after a write of it; numbers from 16 up name none (R134). -/
theorem vget_vput_same {r : BitVec 5} (h : r.toNat < 16) (x : Vec) : (g.vput r x).vget r = x := by
  unfold Engine.vget Engine.vput
  rw [getN_of_lt _ h, updN_same _ h]
theorem vget_vput_ne {r r' : BitVec 5} (h : r' ≠ r) (x : Vec) : (g.vput r x).vget r' = g.vget r' := by
  unfold Engine.vget Engine.vput
  by_cases h' : r'.toNat < 16
  · rw [getN_of_lt _ h', getN_of_lt _ h', updN_ne _ h' _ fun x => h (BitVec.eq_of_toNat_eq x.symm)]
  · rw [getN, getN, dif_neg h', dif_neg h']
@[simp] theorem vget_clamped (r : BitVec 5) (q : Bool) : (g.clamped q).vget r = g.vget r := rfl
theorem pget_pput {r : Nat} (h : r < 8) (x : BitVec 16) : (g.pput r x).pget r = x := by
  unfold Engine.pget Engine.pput
  rw [getN_of_lt _ h, updN_same _ h]

/-- Lanes after a write under a mask. -/
theorem vget_write_same {dst : BitVec 5} (h : dst.toNat < 16) (m : BitVec 16) (f : Fin 16 → Word × Bool) (k : Fin 16) :
    ((g.write dst m f).vget dst)[k] = if m.getLsbD k.val then (f k).1 else (g.vget dst)[k] := by
  simp only [Engine.write, vget_clamped, vget_vput_same _ h, Fin.getElem_fin, Vector.getElem_ofFn]
theorem vget_write_ne {dst r : BitVec 5} (h : r ≠ dst) (m : BitVec 16) (f : Fin 16 → Word × Bool) :
    (g.write dst m f).vget r = g.vget r := by
  simp only [Engine.write, vget_clamped, vget_vput_ne _ h]
/-- Q records a clamp of a lane written (R136). -/
theorem q_write (dst : BitVec 5) (m : BitVec 16) (f : Fin 16 → Word × Bool) : (g.write dst m f).core.flg.q = true ↔
    g.core.flg.q = true ∨ ∃ k : Fin 16, m.getLsbD k.val = true ∧ (f k).2 = true := by
  simp [Engine.write, Engine.clamped, Flg.sticky, Engine.vput]

end

/-- A bit of a vector with a bit set. -/
theorem getLsbD_setBit {w : Nat} (x : BitVec w) (i j : Nat) (b : Bool) (h : j < w) :
    (setBit x i b).getLsbD j = if j = i then b else x.getLsbD j := by
  have h1 : ((1 : BitVec w) <<< i).getLsbD j = decide (j = i) := by
    rw [show (1 : BitVec w) <<< i = BitVec.twoPow w i from (BitVec.twoPow_eq w i).symm, BitVec.getLsbD_twoPow]
    by_cases hij : j = i
    · subst hij; simp [h]
    · simp [hij, Ne.symm hij]
  rw [setBit]
  generalize (1 : BitVec w) <<< i = o at h1
  by_cases hij : j = i
  · subst hij
    cases b <;> simp [h1]
  · have h2 : o[j] = false := by simpa [hij, h] using h1
    cases b <;> simp [h2, hij, h]

/-- Bits set one after another. -/
theorem getLsbD_foldl_setBit {w : Nat} (f : Fin w → Bool) (k : Fin w) : ∀ (l : List (Fin w)) (x : BitVec w),
    (l.foldl (fun x i => setBit x i.val (f i)) x).getLsbD k.val = if k ∈ l then f k else x.getLsbD k.val
  | [], x => by simp
  | i :: l, x => by
    rw [List.foldl_cons, getLsbD_foldl_setBit f k l, getLsbD_setBit _ _ _ _ k.isLt]
    by_cases hk : k ∈ l
    · simp [hk]
    · by_cases hi : k = i
      · simp [hi]
      · simp [hk, hi, Fin.val_ne_of_ne hi]

end Sys2Proof.Machine
end

section
/-! PROOF. Lane arithmetic, moves, comparisons and predicates of a Course engine (05 R133 to R138, R143, R144). -/

namespace Sys2Proof.Machine

open Sys2Proof

section
variable {s : State} {e : Fin 8} {op : Byte} {dst a b n : BitVec 5} {p : Option (BitVec 3)} {k : Nat} {mask : BitVec 16}

/-- An instruction of one engine, its effect told in the state before its fetch. -/
theorem issueEng_falls {w : Word} {f g : Engine → Engine} (hx : s.executes (.engine e) w k = true) {j : Nat} (hk : j = k)
    (hf : f ((s.dev.fetched (.engine e)).engAt e) = g ((s.dev.fetched (.engine e)).engAt e)) :
    s.chip (fun m => issueEng m e w j f) = s.falls (.engine e) k fun d => d.onEng e g := by
  subst hk
  exact exec_eng s e w j f g hx hf

/-- A predicated instruction of two vectors. -/
theorem vec3_falls {f : Word → Word → Word → Word × Bool} {F : Fin 16 → Word × Bool}
    (hx : s.executes (.engine e) (encR op dst a b (shiftMod n p)) k = true) (hk : rowCycles op = k)
    (hm : (s.dev.engAt e).lanes (shiftMod n p) = mask)
    (hf : ∀ i : Fin 16, f ((s.dev.engAt e).vget dst)[i] ((s.dev.engAt e).vget a)[i] ((s.dev.engAt e).vget b)[i] = F i) :
    s.chip (fun m => vec3 m e op dst a b (shiftMod n p) f) =
      s.falls (.engine e) k fun d => d.onEng e fun g => g.write dst mask F := by
  refine issueEng_falls hx hk ?_
  simp only [fetched_lanes, fetched_vget, hm, hf]

/-- An unpredicated shift by an immediate. -/
theorem vecI_falls {f : Word → Nat → Word} (hx : s.executes (.engine e) (encI op dst a (n.setWidth 14)) 1 = true)
    (hk : rowCycles op = 1) :
    s.chip (fun m => vecI m e op dst a (n.setWidth 14) f) = s.falls (.engine e) 1 fun d => d.onEng e fun g =>
      g.write dst 0xFFFF fun i => (f ((s.dev.engAt e).vget a)[i] n.toNat, false) := by
  refine issueEng_falls hx hk ?_
  have hn : ((n.setWidth 14).extractLsb' 0 5).toNat = n.toNat := by
    rw [low5_toNat, BitVec.toNat_setWidth]
    omega
  simp only [fetched_vget, hn]

/-- A comparison into a predicate. -/
theorem vcmp_falls {f F : Word → Word → Bool} (hx : s.executes (.engine e) (encR op dst a b 0) 1 = true)
    (hk : rowCycles op = 1) (hf : ∀ x y, f x y = F x y) : ∃ r : BitVec 16,
      s.chip (fun m => vcmp m e op dst a b 0 f) = s.falls (.engine e) 1 (fun d => d.onEng e fun g => g.pput dst.toNat r) ∧
      ∀ i : Fin 16, r.getLsbD i.val = F ((s.dev.engAt e).vget a)[i] ((s.dev.engAt e).vget b)[i] := by
  refine ⟨(List.finRange 16).foldl (fun x i => setBit x i.val
    (f ((s.dev.engAt e).vget a)[i] ((s.dev.engAt e).vget b)[i])) 0, issueEng_falls hx hk ?_, fun i => ?_⟩
  · simp only [fetched_vget]
  · rw [getLsbD_foldl_setBit, if_pos (List.mem_finRange i), hf]

/-- An operation between predicates. -/
theorem pred2_falls {f : BitVec 16 → BitVec 16 → BitVec 16} {src : BitVec 5}
    (hx : s.executes (.engine e) (encR op dst a src 0) 1 = true) (hk : rowCycles op = 1) :
    s.chip (fun m => pred2 m e op dst a src 0 f) = s.falls (.engine e) 1 fun d => d.onEng e fun g =>
      g.pput dst.toNat (f ((s.dev.engAt e).pget a.toNat) ((s.dev.engAt e).pget src.toNat)) := by
  refine issueEng_falls hx hk ?_
  simp only [fetched_pget]

end

/-- Settles O21, each row's lanes by `vec3_falls`. -/
theorem vectorLaneArithmetic : Obligations.VectorLaneArithmetic := by
  unfold Obligations.VectorLaneArithmetic
  intro s e dst a b n p c g mask done all x y z two prod
  have hm (n : BitVec 5) : g.lanes (shiftMod n p) = mask := lanes_pred g n p
  have lanes2 (op : Byte) (i : Instr) (F : Word → Word → Word × Bool) {f : Word → Word → Word → Word × Bool}
      (hk : rowCycles op = 1) (hi : exec i s = .next (s.chip fun m => vec3 m e op dst a b (predMod p) f))
      (hf : ∀ d v w, f d v w = F v w) : two i op F := fun hx =>
    hi.trans (congrArg _ (vec3_falls hx hk (hm 0) fun i => hf _ _ _))
  have shift (op : Byte) (i : Instr) (f : Word → Nat → Word) (hk : rowCycles op = 1)
      (hi : exec i s = .next (s.chip fun m => vecI m e op dst a (n.setWidth 14) f))
      (hx : s.executes c (encI op dst a (n.setWidth 14)) 1 = true) :
      exec i s = .next (all 1 fun k => f (x k) n.toNat) :=
    hi.trans (congrArg _ (vecI_falls hx hk))
  have product (v w : Word) : vfmul (shiftMod n p) v w = prod v w := by
    simp only [vfmul, shiftMod_n, prod]
  refine ⟨lanes2 0x80 _ (fun v w => (v + w, false)) rfl rfl fun _ _ _ => rfl,
    lanes2 0x81 _ (fun v w => (v - w, false)) rfl rfl fun _ _ _ => rfl,
    lanes2 0x82 _ (fun v w => satSigned (v.toInt + w.toInt)) rfl rfl fun _ _ _ => rfl,
    lanes2 0x83 _ (fun v w => satUnsigned ((v.toNat : Int) + w.toNat)) rfl rfl fun _ _ _ => rfl,
    lanes2 0x84 _ (fun v w => satUnsigned ((v.toNat : Int) - w.toNat)) rfl rfl fun _ _ _ => rfl,
    ?vfmul, ?vfmulu, ?vfmac,
    lanes2 0x88 _ (fun v w => (if w.toInt < v.toInt then w else v, false)) rfl rfl ?vmin,
    lanes2 0x89 _ (fun v w => (if v.toInt < w.toInt then w else v, false)) rfl rfl ?vmax,
    lanes2 0x8A _ (fun v w => (if w.toNat < v.toNat then w else v, false)) rfl rfl ?vminu,
    lanes2 0x8B _ (fun v w => (if v.toNat < w.toNat then w else v, false)) rfl rfl ?vmaxu,
    lanes2 0x8C _ (fun v w => (v &&& w, false)) rfl rfl fun _ _ _ => rfl,
    lanes2 0x8D _ (fun v w => (v ||| w, false)) rfl rfl fun _ _ _ => rfl,
    lanes2 0x8E _ (fun v w => (v ^^^ w, false)) rfl rfl fun _ _ _ => rfl,
    ?vclu, shift 0x90 _ _ rfl rfl, shift 0x91 _ _ rfl rfl,
    shift 0x92 _ _ rfl rfl, ?vsplat, ?write⟩
  case vfmul => exact fun hx => congrArg _ (vec3_falls hx rfl (hm n) fun i => product _ _)
  case vfmulu =>
    refine fun hx => congrArg _ (vec3_falls hx rfl (hm n) fun i => ?_)
    simp only [vfmulu, shiftMod_n, x, y, g]
  case vfmac =>
    refine fun hx => congrArg _ (vec3_falls hx rfl (hm n) fun i => ?_)
    simp only [vfmac, product, x, y, z, g]
  case vmin => intro d v w; simp [sMin, sLt]
  case vmax => intro d v w; simp [sMax, sLt]
  case vminu => intro d v w; simp [uMin, uLt]
  case vmaxu => intro d v w; simp [uMax, uLt]
  case vclu => exact fun hx => congrArg _ (vec3_falls hx rfl (hm 0) fun i => rfl)
  case vsplat =>
    refine fun hx => congrArg _ (issueEng_falls hx rfl ?_)
    have hl := hm 0
    simp only [predMod, fetched_lanes, fetched_engGet]
    rw [hl]
  case write =>
    exact fun h w r m hd => ⟨vget_write_same h hd m w, fun hr => vget_write_ne h hr m w, q_write h dst m w⟩

/-- The item that VPOS names, read back from its word (R138). -/
theorem vposItem_toNat (item : BitVec 3) : ((item.setWidth 14).extractLsb' 0 3).toNat = item.toNat := by
  revert item; decide

/-- Settles O22: each row's work on the engine as its fetch leaves it. -/
theorem vectorMovesAndPredicates : Obligations.VectorMovesAndPredicates := by
  unfold Obligations.VectorMovesAndPredicates
  intro s e dst a b lane p item imm c g eng cmp prd
  have compare (op : Byte) (i : Instr) (F : Word → Word → Bool) {f : Word → Word → Bool} (hk : rowCycles op = 1)
      (hi : exec i s = .next (s.chip fun m => vcmp m e op dst a b 0 f)) (hf : ∀ x y, f x y = F x y) : cmp i op F := by
    intro hx
    obtain ⟨r, h, hr⟩ := vcmp_falls hx hk hf
    exact ⟨r, hi.trans (congrArg _ h), hr⟩
  refine ⟨fun hx => congrArg _ (issueEng_falls hx rfl rfl), ?vget, ?vset, ?vsel,
    compare 0x98 _ (fun x y => x == y) rfl rfl fun _ _ => rfl,
    compare 0x99 _ (fun x y => decide (x.toInt < y.toInt)) rfl rfl fun _ _ => rfl,
    compare 0x9A _ (fun x y => decide (x.toNat < y.toNat)) rfl rfl fun _ _ => rfl,
    compare 0x9B _ (fun x y => decide (x.toInt ≤ y.toInt)) rfl rfl fun x y => not_sLt y x,
    fun hx => congrArg _ (pred2_falls hx rfl), fun hx => congrArg _ (pred2_falls hx rfl),
    fun hx => congrArg _ (pred2_falls hx rfl), fun hx => congrArg _ (pred2_falls hx rfl), ?pmov, ?pget,
    ?vpos, ?vaccr, fun hx => congrArg _ (issueEng_falls hx rfl rfl), ?vsetidx⟩
  case vget =>
    refine fun hx => congrArg _ (issueEng_falls hx rfl ?_)
    simp only [Engine.onCore, fetched_vget]
  case vset =>
    refine fun hx => congrArg _ (issueEng_falls hx rfl ?_)
    simp only [fetched_vget, fetched_engGet]
  case vsel =>
    refine fun hx => congrArg _ (issueEng_falls hx rfl ?_)
    simp only [fetched_vget, fetched_pget]
  case pmov =>
    refine fun hx => congrArg _ (issueEng_falls hx rfl ?_)
    simp only [fetched_engGet, g]
  case pget =>
    refine fun hx => congrArg _ (issueEng_falls hx rfl ?_)
    simp only [Engine.onCore, fetched_pget, zx]
  case vpos =>
    intro hx
    refine congrArg Host.Outcome.next (issue_next s _ _ 1 0 _ _ hx ?_)
    simp only [State.fetched, State.any, fetched_scan, fetched_lanePlace, vposItem_toNat]
  case vaccr => exact fun hx => congrArg _ (issueEng_falls hx rfl rfl)
  case vsetidx =>
    refine fun hx => congrArg _ (issueEng_falls hx rfl ?_)
    simp only [fetched_engGet]

end Sys2Proof.Machine
end

section
/-! PROOF. Matrix, blending, uniformity, tables, quantisation and output of a patch (05 R149 to R155, R157, R159). -/

namespace Sys2Proof.Machine

open Sys2Proof

/-- The mode of VBLEND beside either predicate (R150). -/
theorem blendMode (mode : BitVec 3) (p : Option (BitVec 3)) : (shiftMod (mode.setWidth 5) p).extractLsb' 4 3 = mode := by
  cases p with
  | none => revert mode; decide
  | some q => revert mode q; decide

/-- One byte read is the byte there. -/
theorem leNat_loftByte (d : Dev) (a : Nat) : leNat (d.loftBytes a 1) = (cellGet d.loft.cells a).toNat := by
  simp [Dev.loftBytes, readBytes, leNat]

section
variable {s : State} {e : Fin 8} {dst a b : BitVec 5} {mode : BitVec 3} {p : Option (BitVec 3)} {mask : BitVec 16}

/-- An instruction whose row takes `k` cycles falls through with its effect. -/
theorem issue_falls {c : CoreId} {w : Word} {n k : Nat} {work : Chip → IOut} {f : Dev → Dev} (hk : n = k)
    (hx : s.executes c w k = true) (hw : work ((s.fetched c).dev, s.otp) = .next (f (s.fetched c).dev, s.otp)) :
    s.chip (fun m => issue m c w n 0 work) = s.falls c k f := by
  subst hk
  exact issue_next s c w n 0 work f hx hw

/-- The same, with what it traps. -/
theorem issue_traps {c : CoreId} {w : Word} {n k : Nat} {work : Chip → IOut} {code : Byte} {tval : Word} (hk : n = k)
    (hx : s.executes c w k = true) (hw : work ((s.fetched c).dev, s.otp) = .trap (s.fetched c).dev code tval) :
    s.chip (fun m => issue m c w n 0 work) = s.traps c k code tval := by
  subst hk
  exact issue_trap s c w n 0 work code tval hx hw

/-- VCMX (R149). -/
theorem exec_vcmx (hm : (s.dev.engAt e).lanes (predMod p) = mask)
    (hx : s.executes (.engine e) (encR 0xA8 dst a 0 (predMod p)) 4 = true) : exec (.vcmx e dst a p) s =
      .next (s.falls (.engine e) 4 fun d => d.onEng e fun g => g.write dst mask fun k =>
        let term (j : Nat) : Int :=
          (getN g.m (4 * d.laneE e k.val + j) 0).toInt * (g.vget (a + BitVec.ofNat 5 j))[k].toInt
        satSigned (Int.fdiv (term 0 + term 1 + term 2 + term 3 + 2048) 4096)) := by
  refine congrArg Host.Outcome.next (issue_falls rowCycles_A8 hx ?_)
  have hl : ((s.fetched (.engine e)).dev.engAt e).lanes (predMod p) = mask := (fetched_lanes ..).trans hm
  refine congrArg (fun d => IOut.next (d, s.otp)) (onEng_congr _ _ _ _ ?_)
  simp only [hl]

/-- VBLEND in the finish program traps (R159). -/
theorem exec_vblend_finish (hf : s.dev.inFinish e = true)
    (hx : s.executes (.engine e) (encR 0xA9 0 a b (shiftMod (mode.setWidth 5) p)) 2 = true) :
    exec (.vblend e a b mode p) s = .next (s.traps (.engine e) 2 0x21 (encR 0xA9 0 a b (shiftMod (mode.setWidth 5) p))) := by
  change Host.Outcome.next (s.chip fun m => vblendOp m e 0 a b (shiftMod (mode.setWidth 5) p)) = _
  unfold vblendOp
  refine congrArg Host.Outcome.next (issue_traps rowCycles_A9 hx ?_)
  have h : (s.fetched (.engine e)).dev.inFinish e = true := (fetched_inFinish ..).trans hf
  simp only [h, if_true]
  rfl

/-- VBLEND outside it (R150). -/
theorem exec_vblend (hm : (s.dev.engAt e).lanes (shiftMod (mode.setWidth 5) p) = mask) (hf : s.dev.inFinish e = false)
    (hx : s.executes (.engine e) (encR 0xA9 0 a b (shiftMod (mode.setWidth 5) p)) 2 = true) :
    exec (.vblend e a b mode p) s = .next (s.falls (.engine e) 2 fun d => d.onEng e fun g =>
      let put := ((List.finRange 16).filter fun k => mask.getLsbD k.val && (s.dev.laneWord e k.val).isSome).map fun k =>
        (16 * g.vidx.toNat + k.val, blend mode.toNat (g.accAt k.val) (g.vget a)[k] (g.vget b)[k])
      (g.onWork fun w => { w with acc := put.foldl (fun t x => cellSet t x.1 x.2.1) w.acc }).clamped
        (put.any fun x => x.2.2)) := by
  change Host.Outcome.next (s.chip fun m => vblendOp m e 0 a b (shiftMod (mode.setWidth 5) p)) = _
  unfold vblendOp
  refine congrArg Host.Outcome.next (issue_falls rowCycles_A9 hx ?_)
  have h : (s.fetched (.engine e)).dev.inFinish e = false := (fetched_inFinish ..).trans hf
  have hl : ((s.fetched (.engine e)).dev.engAt e).lanes (shiftMod (mode.setWidth 5) p) = mask := (fetched_lanes ..).trans hm
  have hw (k : Nat) : (s.fetched (.engine e)).dev.laneWord e k = s.dev.laneWord e k := fetched_laneWord ..
  simp only [h, hl, hw, blendMode, Bool.false_eq_true, if_false]
  exact congrArg (fun d => IOut.next (d, s.otp)) (onEng_congr _ _ _ _ rfl)

/-- VUNI outside the finish program traps (R159). -/
theorem exec_vuni_outside (hf : s.dev.inFinish e = false) (hx : s.executes (.engine e) (encR 0xAD dst a b 0) 4 = true) :
    exec (.vuni e dst a b) s = .next (s.traps (.engine e) 4 0x20 (encR 0xAD dst a b 0)) := by
  change Host.Outcome.next (s.chip fun m => vuniOp m e dst a b 0) = _
  unfold vuniOp
  refine congrArg Host.Outcome.next (issue_traps rowCycles_AD hx ?_)
  have h : (s.fetched (.engine e)).dev.inFinish e = false := (fetched_inFinish ..).trans hf
  simp only [h, Bool.not_false, if_true]
  rfl

/-- VUNI over a table without errors (R151). -/
theorem exec_vuni (hf : s.dev.inFinish e = true)
    (hr : s.dev.inRegion [3] (((s.dev.engAt e).core.get b).toNat, s.dev.scan.emitters) = true) (hc : s.dev.loftClean)
    (hx : s.executes (.engine e) (encR 0xAD dst a b 0) 4 = true) :
    exec (.vuni e dst a b) s = .next (s.falls (.engine e) 4 fun d => d.onEng e fun g => g.write dst 0xFFFF fun k =>
      match d.laneWord e k.val with
      | none => (0, false)
      | some n => satUnsigned ((((g.vget a)[k].toNat *
          (cellGet d.loft.cells (((s.dev.engAt e).core.get b).toNat + n)).toNat + 64) / 128 : Nat) : Int)) := by
  change Host.Outcome.next (s.chip fun m => vuniOp m e dst a b 0) = _
  unfold vuniOp
  refine congrArg Host.Outcome.next (issue_falls rowCycles_AD hx ?_)
  have h : (s.fetched (.engine e)).dev.inFinish e = true := (fetched_inFinish ..).trans hf
  have hb : ((s.fetched (.engine e)).dev.engAt e).core.get b = (s.dev.engAt e).core.get b := fetched_engGet ..
  have hr' : (s.fetched (.engine e)).dev.inRegion [3]
      (((s.dev.engAt e).core.get b).toNat, (s.fetched (.engine e)).dev.scan.emitters) = true := by
    simp only [State.fetched, State.any, fetched_inRegion, fetched_scan, hr]
  have hg := gather_clean (d := (s.fetched (.engine e)).dev) (fetched_clean hc _)
  simp only [h, hb, hr', Bool.not_true, Bool.false_eq_true, if_false, hg, leNat_loftByte] <;> rfl

/-- VLUT over a table without errors (R152). -/
theorem exec_vlut (ha : ((s.dev.engAt e).core.get b).toNat % 4 = 0)
    (hr : s.dev.inRegion [4] (((s.dev.engAt e).core.get b).toNat, 4100) = true) (hc : s.dev.loftClean)
    (hx : s.executes (.engine e) (encR 0xAE dst a b 0) 16 = true) :
    exec (.vlut e dst a b) s = .next (s.falls (.engine e) 16 fun d => d.onEng e fun g => g.write dst 0xFFFF fun k =>
      (d.lut ((s.dev.engAt e).core.get b).toNat (g.vget a)[k], false)) := by
  change Host.Outcome.next (s.chip fun m => vlutOp m e dst a b 0) = _
  unfold vlutOp
  refine congrArg Host.Outcome.next (issue_falls rowCycles_AE hx ?_)
  have hb : ((s.fetched (.engine e)).dev.engAt e).core.get b = (s.dev.engAt e).core.get b := fetched_engGet ..
  have hr' : (s.fetched (.engine e)).dev.inRegion [4] (((s.dev.engAt e).core.get b).toNat, 4100) = true :=
    (fetched_inRegion ..).trans hr
  have hg := gather_clean (d := (s.fetched (.engine e)).dev) (fetched_clean hc _)
  simp only [hb, ha, hr', ne_eq, not_true_eq_false, Bool.true_eq_false, or_self, if_false,
    hg]

/-- What VLUT leaves in a lane, written out. -/
theorem lut_eq (d : Dev) (base : Nat) (x : Word) : d.lut base x =
    let v := (unit16 x).1.toNat
    let t (j : Nat) : Int := (read32 d.loft.cells (base + 4 * j)).toInt
    if 1024 ≤ v / 64 then wordOf (t 1024) else wordOf (t (v / 64) + Int.fdiv ((t (v / 64 + 1) - t (v / 64)) * (v % 64) + 32) 64) := by
  simp only [Dev.lut, lutIndex, Int.natCast_emod]
  rfl

/-- VQNT and VOUT outside the finish program trap (R159). -/
theorem exec_vqnt_outside (hf : s.dev.inFinish e = false) (hx : s.executes (.engine e) (encR 0xAF dst a 0 0) 1 = true) :
    exec (.vqnt e dst a) s = .next (s.traps (.engine e) 1 0x20 (encR 0xAF dst a 0 0)) := by
  change Host.Outcome.next (s.chip fun m => vqntOp m e dst a 0 0) = _
  unfold vqntOp
  refine congrArg Host.Outcome.next (issue_traps rowCycles_AF hx ?_)
  have h : (s.fetched (.engine e)).dev.inFinish e = false := (fetched_inFinish ..).trans hf
  simp only [h, Bool.not_false, if_true]
  rfl

theorem exec_vout_outside (hf : s.dev.inFinish e = false) (hx : s.executes (.engine e) (encR 0xB0 0 a 0 0) 1 = true) :
    exec (.vout e a) s = .next (s.traps (.engine e) 1 0x20 (encR 0xB0 0 a 0 0)) := by
  change Host.Outcome.next (s.chip fun m => voutOp m e 0 a 0 0) = _
  unfold voutOp
  refine congrArg Host.Outcome.next (issue_traps rowCycles_B0 hx ?_)
  have h : (s.fetched (.engine e)).dev.inFinish e = false := (fetched_inFinish ..).trans hf
  simp only [h, Bool.not_false, if_true]
  rfl

/-- VQNT (R154). -/
theorem exec_vqnt (hf : s.dev.inFinish e = true) (hx : s.executes (.engine e) (encR 0xAF dst a 0 0) 1 = true) :
    exec (.vqnt e dst a) s = .next (s.falls (.engine e) 1 fun d => d.onEng e fun g => g.write dst 0xFFFF fun k =>
      (BitVec.ofNat 32 (((unit16 (g.vget a)[k]).1.toNat * (2 ^ s.dev.depthOf e - 1) + 32768) / 65536), false)) := by
  change Host.Outcome.next (s.chip fun m => vqntOp m e dst a 0 0) = _
  unfold vqntOp
  refine congrArg Host.Outcome.next (issue_falls rowCycles_AF hx ?_)
  have h : (s.fetched (.engine e)).dev.inFinish e = true := (fetched_inFinish ..).trans hf
  have hd : (s.fetched (.engine e)).dev.depthOf e = s.dev.depthOf e := fetched_depthOf ..
  simp only [h, hd, Bool.not_true, Bool.false_eq_true, if_false]

/-- VOUT (R155). -/
theorem exec_vout (hf : s.dev.inFinish e = true) (hx : s.executes (.engine e) (encR 0xB0 0 a 0 0) 1 = true) :
    exec (.vout e a) s = .next (s.falls (.engine e) 1 fun d => d.onEng e fun g =>
      let top : Int := 2 ^ s.dev.depthOf e - 1
      let on := (List.finRange 16).filter fun k => (s.dev.laneWord e k.val).isSome
      let put : List (Nat × BitVec 16) := on.map fun k =>
        (16 * g.vidx.toNat + k.val, BitVec.ofInt 16 (max 0 (min top (g.vget a)[k].toInt)))
      (g.onWork fun w => { w with words := (w.words.filter fun x => x.1 / 16 != g.vidx.toNat) ++ put }).clamped
        (on.any fun k => decide ((g.vget a)[k].toInt < 0) || decide (top < (g.vget a)[k].toInt))) := by
  change Host.Outcome.next (s.chip fun m => voutOp m e 0 a 0 0) = _
  unfold voutOp
  refine congrArg Host.Outcome.next (issue_falls rowCycles_B0 hx ?_)
  have h : (s.fetched (.engine e)).dev.inFinish e = true := (fetched_inFinish ..).trans hf
  have hd : (s.fetched (.engine e)).dev.depthOf e = s.dev.depthOf e := fetched_depthOf ..
  have hw (k : Nat) : (s.fetched (.engine e)).dev.laneWord e k = s.dev.laneWord e k := fetched_laneWord ..
  simp only [h, hd, hw, Bool.not_true, Bool.false_eq_true, if_false]
  exact congrArg (fun d => IOut.next (d, s.otp)) (onEng_congr _ _ _ _ rfl)

/-- PEND ends the invocation after its 12 cycles more (R157). -/
theorem exec_pend (hx : s.executes (.engine e) (encL 0xB1 0 0) 1 12 = true) : exec (.pend e) s =
    .next ((s.fetched (.engine e)).any fun d =>
      ((d.count (.engine e) (d.cyclesOf (.engine e) 1)).endInv e).endStep (.engine e)) := by
  change Host.Outcome.next (s.chip fun m => pendOp m e (encL 0xB1 0 0)) = _
  unfold pendOp
  rw [rowCycles_B1]
  exact congrArg Host.Outcome.next (issue_stop s _ _ 1 12 _ (fun d => d.endInv e) hx rfl)

end

/-- Settles O24. -/
theorem vectorPictureOperations : Obligations.VectorPictureOperations := by
  unfold Obligations.VectorPictureOperations
  intro s e dst a b mode p c g base mask clean emitters depth blendWord
  refine ⟨exec_vcmx (lanes_pred g 0 p), fun hx => ⟨fun hf => exec_vblend_finish hf hx, fun hf => ?vblend⟩,
    fun hx => ⟨fun hf => exec_vuni_outside hf hx, fun hf hr hc => exec_vuni hf hr hc hx⟩, fun hx ha hr hc => ?vlut,
    fun hx => ⟨fun hf => exec_vqnt_outside hf hx, fun hf => exec_vqnt hf hx⟩,
    fun hx => ⟨fun hf => exec_vout_outside hf hx, fun hf => exec_vout hf hx⟩, exec_pend⟩
  case vblend =>
    refine (exec_vblend (lanes_pred g _ p) hf hx).trans ?_
    simp only [emitters, List.filter_filter]
    rfl
  case vlut =>
    refine (exec_vlut ha hr hc hx).trans ?_
    simp only [lut_eq]
    rfl

end Sys2Proof.Machine
end

section
/-! PROOF. What stands on an engine after an instruction, and its accesses to memory and sources (05 R139, R142, R147 to R149,
R153). -/

namespace Sys2Proof.Machine

open Sys2Proof

/-! ### The engine after an instruction that falls through -/

section
variable (s : State) (c : CoreId) (n : Nat) (f : Dev → Dev) (e : Fin 8)

/-- Its work but for the flow and the counts of cycles. -/
theorem falls_engAt : ∃ k w, (s.falls c n f).dev.engAt e = { (f (s.fetched c).dev).engAt e with core := k, work := w } ∧
    w.map Work.uncounted = ((f (s.fetched c).dev).engAt e).work.map Work.uncounted := by
  rw [State.falls_dev]
  exact ended_engAt ..

theorem falls_vget (r : BitVec 5) : ((s.falls c n f).dev.engAt e).vget r = ((f (s.fetched c).dev).engAt e).vget r := by
  obtain ⟨k, w, h, -⟩ := falls_engAt s c n f e; rw [h]; rfl
theorem falls_pget (r : Nat) : ((s.falls c n f).dev.engAt e).pget r = ((f (s.fetched c).dev).engAt e).pget r := by
  obtain ⟨k, w, h, -⟩ := falls_engAt s c n f e; rw [h]; rfl
theorem falls_vidx : ((s.falls c n f).dev.engAt e).vidx = ((f (s.fetched c).dev).engAt e).vidx := by
  obtain ⟨k, w, h, -⟩ := falls_engAt s c n f e; rw [h]
theorem falls_matrix : ((s.falls c n f).dev.engAt e).m = ((f (s.fetched c).dev).engAt e).m := by
  obtain ⟨k, w, h, -⟩ := falls_engAt s c n f e; rw [h]
theorem falls_slotMem : ((s.falls c n f).dev.engAt e).slotMem = ((f (s.fetched c).dev).engAt e).slotMem := by
  obtain ⟨k, w, h, -⟩ := falls_engAt s c n f e; rw [h]

end

/-- Work told but for the cycles of its invocation is the work. -/
theorem work_of_uncounted {x : Option Work} {w : Work} (h : x.map Work.uncounted = some w.uncounted) :
    ∃ v, x = some v ∧ v.acc = w.acc ∧ v.words = w.words := by
  cases x with
  | none => cases h
  | some v =>
    have he : v.uncounted = w.uncounted := Option.some.inj h
    exact ⟨v, rfl, (congrArg Work.acc he :), (congrArg Work.words he :)⟩

section
variable {s : State} {e : Fin 8} {n : Nat} {f : Dev → Dev} {w : Work}

/-- The work of an engine after its instruction. -/
theorem falls_work (h : ((f (s.fetched (.engine e)).dev).engAt e).work = some w) :
    ∃ v, ((s.falls (.engine e) n f).dev.engAt e).work = some v ∧ v.acc = w.acc ∧ v.words = w.words := by
  obtain ⟨k, x, hx, hw⟩ := falls_engAt s (.engine e) n f e
  rw [h] at hw
  obtain ⟨v, rfl, ha⟩ := work_of_uncounted hw
  exact ⟨v, by rw [hx], ha⟩

/-- And after its fetch. -/
theorem fetched_workOf (h : (s.dev.engAt e).work = some w) :
    ∃ v, ((s.fetched (.engine e)).dev.engAt e).work = some v ∧ v.acc = w.acc ∧ v.words = w.words := by
  have hw := fetched_work s.dev (.engine e) e
  rw [h] at hw
  exact work_of_uncounted hw

end

/-! ### What is left of the lanes -/

section
variable {s : State} {e : Fin 8} {dst : BitVec 5} {n : Nat} {m : BitVec 16} {i : Instr}

/-- Lanes written under a mask: each enabled one has its result, the others and the other vectors stay. -/
theorem lanes_of_write (hd : dst.toNat < 16) {F : Dev → Engine → Fin 16 → Word × Bool}
    (h : exec i s = .next (s.falls (.engine e) n fun d => d.onEng e fun g => g.write dst m (F d g))) {f : Fin 16 → Word}
    (hf : ∀ k, (F (s.dev.fetched (.engine e)) ((s.dev.fetched (.engine e)).engAt e) k).1 = f k) :
    ∃ t, exec i s = .next t ∧ (∀ k : Fin 16, ((t.dev.engAt e).vget dst)[k] =
        if m.getLsbD k.val then f k else ((s.dev.engAt e).vget dst)[k]) ∧
      ∀ r : BitVec 5, r ≠ dst → (t.dev.engAt e).vget r = (s.dev.engAt e).vget r := by
  refine ⟨_, h, fun k => ?_, fun r hr => ?_⟩
  · rw [falls_vget, onEng_engAt_same, vget_write_same _ hd]
    simp only [State.fetched, State.any, hf, fetched_vget]
  · rw [falls_vget, onEng_engAt_same, vget_write_ne _ hr]
    exact fetched_vget ..

/-- A vector written whole. -/
theorem lanes_of_vput (hd : dst.toNat < 16) {X : Dev → Engine → Vec}
    (h : exec i s = .next (s.falls (.engine e) n fun d => d.onEng e fun g => g.vput dst (X d g))) {f : Fin 16 → Word}
    (hf : ∀ k : Fin 16, (X (s.dev.fetched (.engine e)) ((s.dev.fetched (.engine e)).engAt e))[k] =
      if m.getLsbD k.val then f k else ((s.dev.engAt e).vget dst)[k]) :
    ∃ t, exec i s = .next t ∧ (∀ k : Fin 16, ((t.dev.engAt e).vget dst)[k] =
        if m.getLsbD k.val then f k else ((s.dev.engAt e).vget dst)[k]) ∧
      ∀ r : BitVec 5, r ≠ dst → (t.dev.engAt e).vget r = (s.dev.engAt e).vget r := by
  refine ⟨_, h, fun k => ?_, fun r hr => ?_⟩
  · rw [falls_vget, onEng_engAt_same, vget_vput_same _ hd]
    exact hf k
  · rw [falls_vget, onEng_engAt_same, vget_vput_ne _ hr]
    exact fetched_vget ..

/-- A predicate written. -/
theorem pget_of_pput {r : BitVec 16} (hd : dst.toNat < 8)
    (h : exec i s = .next (s.falls (.engine e) n fun d => d.onEng e fun g => g.pput dst.toNat r)) :
    ∃ t, exec i s = .next t ∧ (t.dev.engAt e).pget dst.toNat = r := by
  refine ⟨_, h, ?_⟩
  rw [falls_pget, onEng_engAt_same, pget_pput _ hd]

/-- A scalar register of the engine written. -/
theorem get_of_put {V : Engine → Word} {v : Word}
    (h : exec i s = .next (s.falls (.engine e) n fun d => d.onEng e fun g => { g with core := g.core.put dst (V g) }))
    (hv : V ((s.dev.fetched (.engine e)).engAt e) = v) :
    ∃ t, exec i s = .next t ∧ (t.dev.engAt e).core.get dst = if dst = 0 then 0 else v := by
  refine ⟨_, h, ?_⟩
  rw [show ∀ t : State, (t.dev.engAt e).core = t.dev.coreAt (.engine e) from fun _ => rfl, falls_get, Dev.coreAt,
    onEng_engAt_same, Core.get_put, ← hv]
  rfl

end

/-- Every lane is enabled where no predicate is named (R135). -/
theorem allLanes : ∀ k : Fin 16, (0xFFFF : BitVec 16).getLsbD k.val = true := by decide

/-- The mask of one lane. -/
theorem oneLane : ∀ l k : Fin 16, ((1 : BitVec 16) <<< l.val).getLsbD k.val = decide (k = l) := by decide

/-! ### Entries of the accumulator and of the output -/

/-- Cells set one after another, each at its own lane. -/
theorem cellGet_foldl_cellSet {w : Nat} (b : Nat) (f : Fin 16 → BitVec w) (k : Fin 16) : ∀ (l : List (Fin 16)) (t : Cells w),
    cellWf t = true → cellGet (l.foldl (fun t i => cellSet t (b + i.val) (f i)) t) (b + k.val) =
      if k ∈ l then f k else cellGet t (b + k.val)
  | [], t, _ => by simp
  | i :: l, t, h => by
    rw [List.foldl_cons, cellGet_foldl_cellSet b f k l _ (cellSet_wf t _ _ h), cellGet_cellSet t _ _ _ h]
    by_cases hk : k ∈ l
    · simp [hk]
    · by_cases hi : k = i
      · simp [hi]
      · simp [hk, hi, Fin.val_ne_of_ne hi]

/-- A member found by its own value. -/
theorem find?_self {k : Fin 16} : ∀ {l : List (Fin 16)}, k ∈ l → (l.find? fun i => i == k) = some k
  | i :: l, h => by
    by_cases hi : i = k
    · simp [hi]
    · have hl : k ∈ l := (List.mem_cons.1 h).resolve_left (Ne.symm hi)
      simp [hi, find?_self hl]

/-- The word put out for a lane, once the words there were of its vector are gone. -/
theorem wordOut_put (j : Nat) (v : Fin 16 → BitVec 16) (k : Fin 16) (ws : List (Nat × BitVec 16)) {on : List (Fin 16)}
    (hk : k ∈ on) : wordOut ((ws.filter fun x => x.1 / 16 != j) ++ on.map fun i => (16 * j + i.val, v i)) (16 * j + k.val) =
      v k := by
  have hold : (ws.filter fun x => x.1 / 16 != j).find? (fun x => x.1 == 16 * j + k.val) = none := by
    rw [List.find?_eq_none]
    intro x hx hkey
    have hne : x.1 / 16 ≠ j := by simpa using (List.mem_filter.1 hx).2
    have heq : x.1 = 16 * j + k.val := by simpa using hkey
    omega
  have hnew : (on.map fun i : Fin 16 => (16 * j + i.val, v i)).find? (fun x => x.1 == 16 * j + k.val) =
      some (16 * j + k.val, v k) := by
    rw [List.find?_map]
    have hp : ((fun x : Nat × BitVec 16 => x.1 == 16 * j + k.val) ∘ fun i : Fin 16 => (16 * j + i.val, v i)) =
        fun i => i == k := by
      funext i
      simp [Fin.ext_iff]
    rw [hp, find?_self hk]
    rfl
  rw [wordOut, List.find?_append, hold, hnew]
  rfl

/-! ### Local store, parameters, tables and sources -/

/-- The numbers below a bound, in the library's words. -/
theorem upTo_eq_range : ∀ n, upTo n = List.range n
  | 0 => rfl
  | n + 1 => by rw [upTo, upTo_eq_range n, List.range_succ]

theorem vecBytes_length (x : Vec) : (vecBytes x).length = 64 := by
  simp [vecBytes, List.length_flatMap]

/-- Two bytes as a halfword, the first the lower. -/
theorem ofNat_leNat_two (x y : Byte) : BitVec.ofNat 16 (leNat [x, y]) = y ++ x := by
  apply BitVec.eq_of_toNat_eq
  have hx := x.isLt
  have hy := y.isLt
  simp only [leNat, BitVec.toNat_ofNat, BitVec.toNat_append]
  rw [← Nat.shiftLeft_add_eq_or_of_lt (by omega), Nat.shiftLeft_eq]
  omega

/-- The matrix that VMLD reads at an offset of the parameter block (R149). -/
def paramMatrix (x : BitVec 2048) (o : Nat) : Vector (BitVec 16) 16 :=
  Vector.ofFn fun k => byteAt x (o + 2 * k.val + 1) ++ byteAt x (o + 2 * k.val)

/-- Its halfwords in the 32 bytes loaded. -/
theorem paramMatrix_bytes (x : BitVec 2048) (o : Nat) : (Vector.ofFn fun k : Fin 16 => BitVec.ofNat 16
    (leNat ((((upTo 32).map fun j => byteAt x (o + j)).drop (2 * k.val)).take 2))) = paramMatrix x o := by
  unfold paramMatrix
  congr 1
  funext k
  have h2 : (((upTo 32).map fun j => byteAt x (o + j)).drop (2 * k.val)).take 2 =
      [byteAt x (o + 2 * k.val), byteAt x (o + 2 * k.val + 1)] := by
    have hk := k.isLt
    rw [upTo_eq_range]
    apply List.ext_getElem
    · simp; omega
    · intro j h h'
      have hj : j = 0 ∨ j = 1 := by simp at h'; omega
      rcases hj with rfl | rfl <;> simp [Nat.add_assoc]
  rw [h2, ofNat_leNat_two]

section
variable {s : State} {e : Fin 8} {dst a b : BitVec 5} {imm : BitVec 14} {i : Invocation}
  (hi : s.dev.invAt e = some i)
include hi

/-- VLD from the local store. -/
theorem exec_vld (hl : i.ls = true) (ha : ((s.dev.engAt e).core.get a + sx imm).toNat % 64 = 0)
    (hu : ((s.dev.engAt e).core.get a + sx imm).toNat + 64 ≤ 0x1000)
    (hx : s.executes (.engine e) (encI 0xA3 dst a imm) 2 = true) :
    exec (.vld e dst a imm) s = .next (s.falls (.engine e) 2 fun d => d.onEng e fun g => g.vput dst (vecOfBytes
      (readBytes (s.dev.engAt i.home).slotMem[i.slot.val] ((s.dev.engAt e).core.get a + sx imm).toNat 64))) := by
  have haddr : s.chip (fun m => vldOp m e dst a imm) = s.chip fun m =>
      issue m (.engine e) (encI 0xA3 dst a imm) (rowCycles 0xA3) 0 fun m =>
        match localLoad m.1 e ((s.dev.engAt e).core.get a + sx imm) 64 64 with
        | .error x => .trap x.2 x.1 ((s.dev.engAt e).core.get a + sx imm)
        | .ok x => .next (x.2.onEng e fun g => g.vput dst (vecOfBytes x.1), m.2) := chip_congr s _ _ rfl
  refine congrArg Host.Outcome.next (haddr.trans (issue_falls rowCycles_A3 hx ?_))
  obtain ⟨k, hk⟩ := fetched_inv (.engine e) hi
  have hload := engineLoad_slot (d := (s.fetched (.engine e)).dev) (i := { i with cycles := k }) hk hl hu
  have hm : ((s.fetched (.engine e)).dev.engAt i.home).slotMem = (s.dev.engAt i.home).slotMem := fetched_slotMem ..
  simp only [hm] at hload
  simp only [localLoad, ha, ne_eq, not_true_eq_false, if_false,
    if_neg (show ¬ 0x10000000 ≤ ((s.dev.engAt e).core.get a + sx imm).toNat by omega), hload]

/-- VST to it. -/
theorem exec_vst (hl : i.ls = true) (ha : ((s.dev.engAt e).core.get a + sx imm).toNat % 64 = 0)
    (hu : ((s.dev.engAt e).core.get a + sx imm).toNat + 64 ≤ 0x1000)
    (hx : s.executes (.engine e) (encI 0xA4 dst a imm) 2 = true) :
    exec (.vst e dst a imm) s = .next (s.falls (.engine e) 2 fun d => d.onEng i.home fun g =>
      { g with slotMem := upd g.slotMem i.slot fun t =>
        writeBytes t ((s.dev.engAt e).core.get a + sx imm).toNat (vecBytes ((s.dev.engAt e).vget dst)) }) := by
  have haddr : s.chip (fun m => vstOp m e dst a imm) = s.chip fun m =>
      issue m (.engine e) (encI 0xA4 dst a imm) (rowCycles 0xA4) 0 fun m =>
        match memStore m (.engine e) ((s.dev.engAt e).core.get a + sx imm) (vecBytes ((m.1.engAt e).vget dst)) with
        | .error x => .trap x.2 x.1 ((s.dev.engAt e).core.get a + sx imm)
        | .ok y => .next y := chip_congr s _ _ rfl
  refine congrArg Host.Outcome.next (haddr.trans (issue_falls rowCycles_A4 hx ?_))
  obtain ⟨k, hk⟩ := fetched_inv (.engine e) hi
  have hv : ((s.fetched (.engine e)).dev.engAt e).vget dst = (s.dev.engAt e).vget dst := fetched_vget ..
  have hstore := memStore_engine (m := ((s.fetched (.engine e)).dev, s.otp)) (i := { i with cycles := k })
    (bs := vecBytes ((s.dev.engAt e).vget dst)) (by rw [vecBytes_length]; exact ha) hk hl (by rw [vecBytes_length]; exact hu)
  simp only [hv, hstore]

/-- VMLD from the parameter block (R149). -/
theorem exec_vmld (h1 : 0x2000 ≤ ((s.dev.engAt e).core.get a + sx imm).toNat)
    (h2 : ((s.dev.engAt e).core.get a + sx imm).toNat + 32 ≤ 0x2100)
    (ha : ((s.dev.engAt e).core.get a + sx imm).toNat % 8 = 0) (hx : s.executes (.engine e) (encI 0xA7 0 a imm) 8 = true) :
    exec (.vmld e a imm) s = .next (s.falls (.engine e) 8 fun d => d.onEng e fun g =>
      { g with m := paramMatrix i.params (((s.dev.engAt e).core.get a + sx imm).toNat - 0x2000) }) := by
  have haddr : s.chip (fun m => vmldOp m e 0 a imm) = s.chip fun m =>
      issue m (.engine e) (encI 0xA7 0 a imm) (rowCycles 0xA7) 0 fun m =>
        match localLoad m.1 e ((s.dev.engAt e).core.get a + sx imm) 8 32 with
        | .error x => .trap x.2 x.1 ((s.dev.engAt e).core.get a + sx imm)
        | .ok x => .next (x.2.onEng e fun g => { g with m := (Vector.ofFn fun k => BitVec.ofNat 16
            (leNat ((x.1.drop (2 * k.val)).take 2))) }, m.2) := chip_congr s _ _ rfl
  refine congrArg Host.Outcome.next (haddr.trans (issue_falls rowCycles_A7 hx ?_))
  obtain ⟨k, hk⟩ := fetched_inv (.engine e) hi
  have hload : engineLoad (s.fetched (.engine e)).dev e ((s.dev.engAt e).core.get a + sx imm).toNat 32 = .ok
      ((upTo 32).map fun j => byteAt i.params (((s.dev.engAt e).core.get a + sx imm).toNat - 0x2000 + j),
        (s.fetched (.engine e)).dev) := by
    have hk' : (s.fetched (.engine e)).dev.invAt e = some { i with cycles := k } := hk
    simp only [engineLoad, hk', if_pos (And.intro h1 h2),
      if_neg (show ¬ ((s.dev.engAt e).core.get a + sx imm).toNat + 32 ≤ 0x1000 by omega)]
  simp only [localLoad, ha, ne_eq, not_true_eq_false, if_false,
    if_neg (show ¬ 0x10000000 ≤ ((s.dev.engAt e).core.get a + sx imm).toNat by omega), hload, paramMatrix_bytes]

end

/-- A sample is of the Loft alone. -/
theorem sample_loft {d d' : Dev} (h : d.loft = d'.loft) : d.sample = d'.sample := by
  unfold Dev.sample Dev.texelValue Dev.loftUe Dev.loftBytes
  rw [h]

/-- Four vector registers in a row written (R147). -/
def Engine.vputFour (g : Engine) (dst : BitVec 5) (x : Nat → Vec) : Engine :=
  (((g.vput (dst + BitVec.ofNat 5 0) (x 0)).vput (dst + BitVec.ofNat 5 1) (x 1)).vput (dst + BitVec.ofNat 5 2) (x 2)).vput
    (dst + BitVec.ofNat 5 3) (x 3)

theorem vget_vputFour (g : Engine) {dst : BitVec 5} (hd : dst.toNat < 13) (x : Nat → Vec) (c : Fin 4) :
    (g.vputFour dst x).vget (dst + BitVec.ofNat 5 c.val) = x c.val := by
  have put (g : Engine) (v : Vec) (m n : Nat) (hm : m < 4) (hn : n < 4) : (g.vput (dst + BitVec.ofNat 5 m) v).vget
      (dst + BitVec.ofNat 5 n) = if n = m then v else g.vget (dst + BitVec.ofNat 5 n) := by
    split
    · next h =>
      subst h
      refine vget_vput_same _ ?_ _
      simp only [BitVec.toNat_add, BitVec.toNat_ofNat]
      omega
    · next h =>
      refine vget_vput_ne _ (fun he => h ?_) _
      have := congrArg BitVec.toNat he
      simp only [BitVec.toNat_add, BitVec.toNat_ofNat] at this
      omega
  rw [Engine.vputFour, put _ _ 3 _ (by omega) c.isLt, put _ _ 2 _ (by omega) c.isLt, put _ _ 1 _ (by omega) c.isLt,
    put _ _ 0 _ (by omega) c.isLt]
  match c with
  | 0 => rfl
  | 1 => rfl
  | 2 => rfl
  | 3 => rfl

/-- The fields of VLDS's modifier. -/
theorem sampleMod_binding : ∀ (n : BitVec 2) (x y : Bool), (sampleMod n x y).extractLsb' 0 2 = n := by decide
theorem sampleMod_bilinear : ∀ (n : BitVec 2) (x y : Bool), (sampleMod n x y).getLsbD 2 = x := by decide

section
variable {s : State} {e : Fin 8} {dst a b : BitVec 5} (hc : s.dev.loftClean)
include hc

/-- VGATH from addresses of regions, of a Loft without errors (R153). -/
theorem exec_vgath (hr : ∀ k : Fin 16, s.dev.inRegion [1, 3, 4]
      (((s.dev.engAt e).core.get b).toNat + 4 * (((s.dev.engAt e).vget a)[k] : Word).toNat, 4) = true)
    (hx : s.executes (.engine e) (encR 0xA6 dst a b 0) 16 = true) :
    exec (.vgath e dst a b) s = .next (s.falls (.engine e) 16 fun d => d.onEng e fun g => g.write dst 0xFFFF fun k =>
      (read32 s.dev.loft.cells
        (((s.dev.engAt e).core.get b).toNat + 4 * (((s.dev.engAt e).vget a)[k] : Word).toNat), false)) := by
  change Host.Outcome.next (s.chip fun m => vgathOp m e dst a b 0) = _
  unfold vgathOp
  refine congrArg Host.Outcome.next (issue_falls rowCycles_A6 hx ?_)
  have hb : ((s.fetched (.engine e)).dev.engAt e).core.get b = (s.dev.engAt e).core.get b := fetched_engGet ..
  have hv : ((s.fetched (.engine e)).dev.engAt e).vget a = (s.dev.engAt e).vget a := fetched_vget ..
  have hl : (s.fetched (.engine e)).dev.loft = s.dev.loft := fetched_loft hc _
  have hg := gather_clean (d := (s.fetched (.engine e)).dev) (fetched_clean hc _)
  have hn : (((s.dev.engAt e).vget a).toList.map fun (x : Word) => (((s.dev.engAt e).core.get b).toNat + 4 * x.toNat, 4)).find?
      (fun r => !(s.fetched (.engine e)).dev.inRegion [1, 3, 4] r) = none := by
    rw [List.find?_eq_none]
    intro r hmem
    obtain ⟨x, hx, rfl⟩ := List.mem_map.1 hmem
    obtain ⟨j, hj, rfl⟩ := Vector.getElem_of_mem (Vector.mem_toList_iff.1 hx)
    simp only [State.fetched, State.any, fetched_inRegion]
    simpa using hr ⟨j, hj⟩
  simp only [hb, hv, hn, hg, hl]
  exact congrArg (fun d => IOut.next (d, s.otp)) (onEng_congr _ _ _ _ (by simp only [hv]))

/-- VLDS from a usable source, of a Loft without errors (R147, R148). -/
theorem exec_vlds {binding : BitVec 2} {bilinear clamp : Bool} {src : RunSource}
    (hs : s.dev.boundSource e binding.toNat = some src)
    (hx : s.executes (.engine e) (encR 0xA5 dst a b (sampleMod binding bilinear clamp)) (if bilinear then 32 else 16) = true) :
    exec (.vlds e dst a b binding bilinear clamp) s = .next (s.falls (.engine e) (if bilinear then 32 else 16) fun d =>
      d.onEng e fun g => g.vputFour dst fun c => Vector.ofFn fun k => s.dev.sample src (sampleMod binding bilinear clamp)
        ((s.dev.engAt e).vget a)[k] ((s.dev.engAt e).vget b)[k] c) := by
  change Host.Outcome.next (s.chip fun m => vldsOp m e dst a b (sampleMod binding bilinear clamp)) = _
  unfold vldsOp
  refine congrArg Host.Outcome.next (issue_falls (by simp only [sampleMod_bilinear]) hx ?_)
  have hs' : (s.fetched (.engine e)).dev.boundSource e binding.toNat = some src := (fetched_boundSource ..).trans hs
  have hv (r : BitVec 5) : ((s.fetched (.engine e)).dev.engAt e).vget r = (s.dev.engAt e).vget r := fetched_vget ..
  have hl : (s.fetched (.engine e)).dev.sample = s.dev.sample := sample_loft (fetched_loft hc _)
  have ht := touchAll_clean (d := (s.fetched (.engine e)).dev) (fetched_clean hc _)
  simp only [sampleMod_binding, hs', hv, ht, hl]
  rfl

end

end Sys2Proof.Machine
end

section
/-! PROOF. The rows of Profile P complete (05 R133 to R157). -/

namespace Sys2Proof.Machine

open Sys2Proof

theorem Engine.accAt_some {g : Engine} {w : Work} (h : g.work = some w) (k : Nat) :
    g.accAt k = cellGet w.acc (16 * g.vidx.toNat + k) := by
  rw [Engine.accAt, h]

section
variable {s : State} {e : Fin 8} {a b : BitVec 5} {n : Nat} {w : Work} (hw : (s.dev.engAt e).work = some w)
include hw

/-- Work changed by an instruction, beside Q. -/
theorem falls_onWork (F : Engine → Work → Work) (q : Engine → Bool) :
    let g := (s.fetched (.engine e)).dev.engAt e
    ∃ u v, u.acc = w.acc ∧ u.words = w.words ∧ v.acc = (F g u).acc ∧ v.words = (F g u).words ∧
      ((s.falls (.engine e) n fun d => d.onEng e fun g => (g.onWork (F g)).clamped (q g)).dev.engAt e).work = some v ∧
      ((s.falls (.engine e) n fun d => d.onEng e fun g => (g.onWork (F g)).clamped (q g)).dev.engAt e).vidx =
        (s.dev.engAt e).vidx := by
  obtain ⟨u, hu, hacc, hwords⟩ := fetched_workOf hw
  have hset : (((s.fetched (.engine e)).dev.onEng e fun g => (g.onWork (F g)).clamped (q g)).engAt e).work =
      some (F ((s.fetched (.engine e)).dev.engAt e) u) := by
    rw [onEng_engAt_same, Engine.clamped, Engine.onWork, hu]
    rfl
  obtain ⟨v, hv, ha, hs⟩ := falls_work (n := n) (f := fun d => d.onEng e fun g => (g.onWork (F g)).clamped (q g)) hset
  refine ⟨u, v, hacc, hwords, ha, hs, hv, ?_⟩
  rw [falls_vidx, onEng_engAt_same]
  exact fetched_vidx ..

/-- The accumulator after VBLEND outside the finish program (R150). -/
theorem vblend_accAt {mode : BitVec 3} {p : Option (BitVec 3)} {mask : BitVec 16}
    (hm : (s.dev.engAt e).lanes (shiftMod (mode.setWidth 5) p) = mask) (hf : s.dev.inFinish e = false)
    (hwf : cellWf w.acc = true)
    (hx : s.executes (.engine e) (encR 0xA9 0 a b (shiftMod (mode.setWidth 5) p)) 2 = true) :
    ∃ t, exec (.vblend e a b mode p) s = .next t ∧ ∀ k : Fin 16, (t.dev.engAt e).accAt k.val =
      if mask.getLsbD k.val && (s.dev.laneWord e k.val).isSome then
        (blend mode.toNat ((s.dev.engAt e).accAt k.val) ((s.dev.engAt e).vget a)[k] ((s.dev.engAt e).vget b)[k]).1
      else (s.dev.engAt e).accAt k.val := by
  refine ⟨_, exec_vblend hm hf hx, fun k => ?_⟩
  obtain ⟨u, v, hacc, -, hv, -, hwork, hvidx⟩ := falls_onWork (n := 2) hw (fun g w =>
    let put := ((List.finRange 16).filter fun k => mask.getLsbD k.val && (s.dev.laneWord e k.val).isSome).map fun k =>
      (16 * g.vidx.toNat + k.val, blend mode.toNat (g.accAt k.val) (g.vget a)[k] (g.vget b)[k])
    { w with acc := put.foldl (fun t x => cellSet t x.1 x.2.1) w.acc }) (fun g =>
    (((List.finRange 16).filter fun k => mask.getLsbD k.val && (s.dev.laneWord e k.val).isSome).map fun k =>
      (16 * g.vidx.toNat + k.val, blend mode.toNat (g.accAt k.val) (g.vget a)[k] (g.vget b)[k])).any fun x => x.2.2)
  refine (Engine.accAt_some hwork _).trans ?_
  have hvx : ((s.fetched (.engine e)).dev.engAt e).vidx = (s.dev.engAt e).vidx := fetched_vidx ..
  have hr (r : BitVec 5) : ((s.fetched (.engine e)).dev.engAt e).vget r = (s.dev.engAt e).vget r := fetched_vget ..
  have ha (j : Nat) : ((s.fetched (.engine e)).dev.engAt e).accAt j = (s.dev.engAt e).accAt j := fetched_accAt ..
  rw [hv, hvidx]
  simp only [hvx, hr, ha, hacc, List.foldl_map]
  rw [cellGet_foldl_cellSet _ (fun i : Fin 16 => (blend mode.toNat ((s.dev.engAt e).accAt i.val)
    ((s.dev.engAt e).vget a)[i] ((s.dev.engAt e).vget b)[i]).1) k _ _ hwf, Engine.accAt_some hw]
  simp only [List.mem_filter, List.mem_finRange, true_and]

/-- The words put out by VOUT in it (R155). -/
theorem vout_words (hf : s.dev.inFinish e = true) (hx : s.executes (.engine e) (encR 0xB0 0 a 0 0) 1 = true) :
    ∃ t, exec (.vout e a) s = .next t ∧ ∀ k : Fin 16, (s.dev.laneWord e k.val).isSome = true →
      ∃ w, (t.dev.engAt e).work = some w ∧ wordOut w.words (16 * (s.dev.engAt e).vidx.toNat + k.val) =
        BitVec.ofInt 16 (max 0 (min (2 ^ s.dev.depthOf e - 1) ((s.dev.engAt e).vget a)[k].toInt)) := by
  refine ⟨_, exec_vout hf hx, fun k hk => ?_⟩
  obtain ⟨u, v, -, hwords, -, hv, hwork, hvidx⟩ := falls_onWork (n := 1) hw (fun g w =>
    let put : List (Nat × BitVec 16) := ((List.finRange 16).filter fun k => (s.dev.laneWord e k.val).isSome).map fun k =>
      (16 * g.vidx.toNat + k.val, BitVec.ofInt 16 (max 0 (min (2 ^ s.dev.depthOf e - 1) (g.vget a)[k].toInt)))
    { w with words := (w.words.filter fun x => x.1 / 16 != g.vidx.toNat) ++ put }) (fun g =>
    ((List.finRange 16).filter fun k => (s.dev.laneWord e k.val).isSome).any fun k =>
      decide ((g.vget a)[k].toInt < 0) || decide ((2 ^ s.dev.depthOf e - 1 : Int) < (g.vget a)[k].toInt))
  refine ⟨v, hwork, ?_⟩
  have hvx : ((s.fetched (.engine e)).dev.engAt e).vidx = (s.dev.engAt e).vidx := fetched_vidx ..
  have hr (r : BitVec 5) : ((s.fetched (.engine e)).dev.engAt e).vget r = (s.dev.engAt e).vget r := fetched_vget ..
  rw [hv]
  simp only [hvx, hr]
  exact wordOut_put _ (fun i : Fin 16 =>
    BitVec.ofInt 16 (max 0 (min (2 ^ s.dev.depthOf e - 1) ((s.dev.engAt e).vget a)[i].toInt))) k _
    (List.mem_filter.2 ⟨List.mem_finRange k, hk⟩)

end

/-- Settles O56: each row's equation, and what it leaves of the engine. -/
theorem vectorInstructionsComplete : Obligations.VectorInstructionsComplete := by
  unfold Obligations.VectorInstructionsComplete
  intro s e dst a b n lane p q item imm big c g mask x y z lanes two pred cmp scalar product
  obtain ⟨vadd, vsub, vadds, vaddus, vsubus, vfmul, vfmulu, vfmac, vmin, vmax, vminu, vmaxu, vand, vor, vxor, vclu, vshli,
    vshri, vsari, vsplat, -⟩ := vectorLaneArithmetic s e dst a b n p
  obtain ⟨vli, vget, vset, vsel, vcmpeq, vcmplt, vcmpltu, vcmple, pand, por, pxor, pnot, pmov, pget, vpos, vaccr, vstep,
    vsetidx⟩ := vectorMovesAndPredicates s e dst a b lane q item big
  have masked (i : Instr) (w : Word) (k : Nat) (m : BitVec 16) (F : Dev → Engine → Fin 16 → Word × Bool)
      (f : Fin 16 → Word)
      (h : s.executes c w k = true →
        exec i s = .next (s.falls c k fun d => d.onEng e fun g => g.write dst m (F d g)))
      (hf : ∀ j, (F (s.dev.fetched c) ((s.dev.fetched c).engAt e) j).1 = f j) : lanes i w k m f :=
    fun hd hx => lanes_of_write hd (h hx) hf
  have filled (i : Instr) (w : Word) (k : Nat) (m : BitVec 16) (X : Engine → Vec) (f : Fin 16 → Word)
      (h : s.executes c w k = true → exec i s = .next (s.falls c k fun d => d.onEng e fun g => g.vput dst (X g)))
      (hf : ∀ j : Fin 16, (X ((s.dev.fetched c).engAt e))[j] = if m.getLsbD j.val then f j else z j) : lanes i w k m f :=
    fun hd hx => lanes_of_vput hd (X := fun _ => X) (h hx) hf
  have compared (i : Instr) (op : Byte) (f : Word → Word → Bool)
      (h : s.executes c (encR op dst a b 0) 1 = true → ∃ r : BitVec 16,
        exec i s = .next (s.falls c 1 fun d => d.onEng e fun g => g.pput dst.toNat r) ∧
        ∀ k : Fin 16, r.getLsbD k.val = f (g.vget a)[k] (g.vget b)[k]) : cmp i op f := by
    intro hx hd
    obtain ⟨r, hr, hbits⟩ := h hx
    obtain ⟨t, ht, hp⟩ := pget_of_pput hd hr
    exact ⟨t, ht, fun k => hp ▸ hbits k⟩
  refine ⟨masked _ _ _ _ _ _ vadd fun _ => rfl, masked _ _ _ _ _ _ vsub fun _ => rfl, masked _ _ _ _ _ _ vadds fun _ => rfl,
    masked _ _ _ _ _ _ vaddus fun _ => rfl, masked _ _ _ _ _ _ vsubus fun _ => rfl, masked _ _ _ _ _ _ vfmul fun _ => rfl,
    masked _ _ _ _ _ _ vfmulu fun _ => rfl, masked _ _ _ _ _ _ vfmac fun _ => rfl, masked _ _ _ _ _ _ vmin fun _ => rfl,
    masked _ _ _ _ _ _ vmax fun _ => rfl, masked _ _ _ _ _ _ vminu fun _ => rfl, masked _ _ _ _ _ _ vmaxu fun _ => rfl,
    masked _ _ _ _ _ _ vand fun _ => rfl, masked _ _ _ _ _ _ vor fun _ => rfl, masked _ _ _ _ _ _ vxor fun _ => rfl,
    masked _ _ _ _ _ _ vclu ?vclu, masked _ _ _ _ _ _ vshli fun _ => rfl, masked _ _ _ _ _ _ vshri fun _ => rfl,
    masked _ _ _ _ _ _ vsari fun _ => rfl, filled _ _ _ _ _ _ vli ?vli, masked _ _ _ _ _ _ vsplat fun _ => rfl,
    fun hx => get_of_put (vget hx) (congrArg (·[lane]) (fetched_vget ..)), filled _ _ _ _ _ _ vset ?vset,
    filled _ _ _ _ _ _ vsel ?vsel,
    compared _ _ (fun v w => v == w) vcmpeq,
    compared _ _ (fun v w => decide (v.toInt < w.toInt)) vcmplt,
    compared _ _ (fun v w => decide (v.toNat < w.toNat)) vcmpltu,
    compared _ _ (fun v w => decide (v.toInt ≤ w.toInt)) vcmple,
    fun hx hd => pget_of_pput hd (pand hx), fun hx hd => pget_of_pput hd (por hx),
    fun hx hd => pget_of_pput hd (pxor hx), fun hx hd => pget_of_pput hd (pnot hx),
    fun hx hd => pget_of_pput hd (pmov hx), fun hx => get_of_put (pget hx) (congrArg (·.setWidth 32) (fetched_pget ..)),
    masked _ _ _ _ _ _ vpos fun _ => rfl,
    filled _ _ _ _ _ _ vaccr ?vaccr, ?vstep, ?vsetidx, ?store, ?vmld, ?loft, ?vcmx, ?vblend, ?finish, exec_pend⟩
  case vclu =>
    intro j
    simp only [x, g]
    split <;> [rfl; (split <;> rfl)]
  case vli =>
    intro j
    simp only [allLanes, if_true, Fin.getElem_fin, Vector.getElem_replicate]
  case vset =>
    intro j
    simp only [c, fetched_vget, fetched_engGet, oneLane, Fin.getElem_fin, Vector.getElem_set, decide_eq_true_eq, Fin.ext_iff,
      eq_comm (a := lane.val), z, g]
  case vsel =>
    intro j
    simp only [c, fetched_vget, fetched_pget, allLanes, if_true, Fin.getElem_fin, Vector.getElem_ofFn, x, y, g]
  case vaccr =>
    intro j
    simp only [allLanes, if_true, Fin.getElem_fin, Vector.getElem_ofFn]
    exact fetched_accAt s.dev c e j.val
  case vstep =>
    intro hx
    refine ⟨_, vstep hx, ?_⟩
    rw [falls_vidx, onEng_engAt_same]
    exact congrArg (· + 1) (fetched_vidx ..)
  case vsetidx =>
    intro hx
    refine ⟨_, vsetidx hx, ?_⟩
    rw [falls_vidx, onEng_engAt_same]
    exact congrArg (·.setWidth 8) (fetched_engGet ..)
  case store =>
    intro i hi hl u slot hu ha hwf
    refine ⟨fun hd hx => lanes_of_vput hd (X := fun _ _ => vecOfBytes (slot s.dev)) (exec_vld hi hl ha hu hx) fun j => ?_,
      fun hx => ⟨_, exec_vst hi hl ha hu hx, ?_⟩⟩
    · simp only [allLanes, if_true, vecOfBytes, Fin.getElem_fin, Vector.getElem_ofFn]
    · have hmem : Memory.wf ((s.fetched c).dev.engAt i.home).slotMem[i.slot.val] = true := by
        rw [show ((s.fetched c).dev.engAt i.home).slotMem = (s.dev.engAt i.home).slotMem from fetched_slotMem ..]
        exact Dev.memWf_slot hwf i.home i.slot
      have hback := readBytes_writeBytes (vecBytes (g.vget dst)) ((s.fetched c).dev.engAt i.home).slotMem[i.slot.val] u hmem
      rw [vecBytes_length] at hback
      simp only [slot, falls_slotMem, onEng_engAt_same]
      exact (congrArg (readBytes · u 64) (upd_same _ i.slot _)).trans hback
  case vmld =>
    intro i hi u h1 h2 ha hx
    refine ⟨_, exec_vmld hi h1 h2 ha hx, fun k => ?_⟩
    rw [falls_matrix, onEng_engAt_same]
    simp only [paramMatrix, Fin.getElem_fin, Vector.getElem_ofFn]
    rfl
  case loft =>
    intro clean base
    refine ⟨fun hc hr => ?vgath, fun binding bilinear clamp src hc hs hd hx => ?vlds, fun hc ha hr => ?vlut,
      fun hc hf hr => ?vuni⟩
    case vgath => exact masked _ _ _ _ (fun _ _ => _) _ (fun hx => exec_vgath hc hr hx) fun _ => rfl
    case vlds =>
      refine ⟨_, exec_vlds hc hs hx, fun ch k => ?_⟩
      rw [falls_vget, onEng_engAt_same, vget_vputFour _ hd]
      simp only [Fin.getElem_fin, Vector.getElem_ofFn]
      rfl
    case vlut =>
      refine masked _ _ _ _ _ _ (fun hx => exec_vlut ha hr hc hx) fun j => ?_
      simp only [lut_eq, fetched_loft hc, fetched_vget]
      rfl
    case vuni =>
      refine masked _ _ _ _ _ _ (fun hx => exec_vuni hf hr hc hx) fun j => ?_
      simp only [fetched_loft hc, fetched_vget, fetched_laneWord]
      cases s.dev.laneWord e j.val <;> rfl
  case vcmx =>
    refine masked _ _ _ _ _ _ (exec_vcmx (lanes_pred g 0 p)) fun j => ?_
    simp only [fetched_matrix, fetched_laneE, fetched_vget]
    rfl
  case vblend =>
    intro w hf hw hwf hx
    exact vblend_accAt hw (lanes_pred g _ p) hf hwf hx
  case finish =>
    intro hf top
    have ht : ((2 : Int) ^ s.dev.depthOf e - 1) = (top : Int) := by
      have := Nat.one_le_two_pow (n := s.dev.depthOf e)
      simp only [top]
      push_cast [this]
      rfl
    refine ⟨masked _ _ _ _ _ _ (exec_vqnt hf) fun j => ?_, fun hw hx => ?_⟩
    · simp only [fetched_vget]
      rfl
    · obtain ⟨w, hw⟩ := Option.isSome_iff_exists.1 hw
      rw [← ht]
      exact vout_words hw hf hx

end Sys2Proof.Machine
end

section
/-! PROOF. Engines that take and drain patches, runs that complete, and engines that fail, stall or finish a copy (05 R156, 06
R170 to R173, R182 to R188). -/

namespace Sys2Proof.Machine

open Sys2Proof

section
variable {d : Dev} {e : Fin 8}

/-- An engine takes the patch that its queues give it (R171, R172). -/
theorem takePatch_takes {frame : BitVec 16} {p : Fin 256} {r : Run} (hp : d.nextPatch e = some (frame, p))
    (hr : d.course.runOf frame = some r) : d.takePatch e =
      let todo := r.contexts.filter fun x => x.mask.getLsbD p.val && !r.excluded.contains x.id
      let w : Work := { patch := p, frame := frame, acc := [], words := [], rest := todo,
                        finishDue := decide (r.finish.handle ≠ 0), epochs := [], inv := none }
      ((d.onRun frame fun r => r.dequeue p).onEng e fun g => { g with work := some w }).advance e := by
  simp only [Dev.takePatch, hp, hr]

/-- What the end of a drain makes free. -/
def Dev.drained (d : Dev) (e : Fin 8) : Dev := ((d.onEng e fun g => { g with drain := none }).advance e).purgeRuns

section
variable {x : Drain} (hx : (d.engAt e).drain = some x) (hs : (d.engAt e).svc ≠ 2)
include hx hs

/-- A drained patch of a context whose epoch has passed is discarded (R187). -/
theorem drainDone_stale {k : Fin 64} (hk : d.staleEpoch x = some k) : d.drainDone e =
    (Dev.event { d with course := { d.course with discard := satInc d.course.discard } } 0x0306
      (payN 0 k.val ||| payN 8 e.val ||| payN 16 x.patch.val ||| pay 24 x.frame)).drained e := by
  simp only [Dev.drainDone, hx, if_neg hs, hk, Dev.drained]

/-- Any other is written to the output frame of its run and done (R156, R173, R187). -/
theorem drainDone_fresh {r : Run} (hk : d.staleEpoch x = none) (hr : d.course.runOf x.frame = some r) {y : Dev} {b : Fin 2}
    (hb : b = if r.outFrame then 1 else 0)
    (hy : (d.loftWriteAll ((d.scan.patchLanes x.patch.val).flatMap fun l =>
      let a := frameBase r.outFrame + 2 * l.2
      [(a, (wordOut x.words l.1).setWidth 8), (a + 1, (wordOut x.words l.1).extractLsb' 8 8)])).onRun x.frame (fun r =>
        { r with done := setBit r.done x.patch.val true }) = y) : d.drainDone e =
    (Dev.closeLate (if y.scan.srcFrame[b] = x.frame then
      { y with scan := { y.scan with bitmap := upd y.scan.bitmap b fun m => setBit m x.patch.val true } }
      else y) x.frame).drained e := by
  subst hb
  simp only [Dev.drainDone, hx, if_neg hs, hk, hr, Dev.drained, hy]
  rfl

end

/-- A run with every patch done completes (R173). -/
theorem runComplete_completes (ha : d.course.active = true) (hc : d.course.complete = true) : d.runComplete =
    let y : Dev := { d with course := { d.course with active := false, late := false } }
    let z := (y.settleAll.closeCounts d.course.run).releaseHeld.trussPend 2
    if z.course.autoForce then z.autoCommit z.course.run.outFrame else z := by
  simp only [Dev.runComplete, ha, hc, Bool.and_self, if_true]

theorem runComplete_waits (h : d.course.active = false ∨ d.course.complete = false) : d.runComplete = d := by
  simp [Dev.runComplete, Bool.and_eq_true, and_iff_not_or_not, h]

/-- What an engine records of its self-test (R182). -/
def Dev.bistTold (d : Dev) (e : Fin 8) (sig : Word) (pass : Bool) : Dev :=
  d.onEng e fun g => { g with bistBusy := false, bistSig := sig, bistFail := !pass, bistFrame := d.course.run.frame }

section
variable {sig : Word} {pass : Bool} (hb : (d.engAt e).bistBusy = true)
include hb

/-- A self-test that passes, or one of an engine not in service, is recorded. -/
theorem bistDone_records (h : pass = true ∨ (d.engAt e).svc ≠ 0) : d.bistDone e sig pass = d.bistTold e sig pass := by
  have hn : (!pass && ((d.bistTold e sig pass).engAt e).inService) = false := by
    rw [Dev.bistTold, onEng_engAt_same, Engine.inService]
    rcases h with rfl | h
    · rfl
    · rw [beq_eq_false_iff_ne.2 h, Bool.and_false]
  rw [Dev.bistDone, if_pos hb]
  exact if_neg (Bool.eq_false_iff.1 hn)

/-- One that fails retires an engine in service. -/
theorem bistDone_retires (h : (d.engAt e).svc = 0) : d.bistDone e sig false =
    (((d.bistTold e sig false).event 0x0308 (payN 0 e.val ||| pay 16 sig)).retireEngine e 2 1 d.course.run.frame).advanceAll := by
  have hn : ((d.bistTold e sig false).engAt e).inService = true := by
    rw [Dev.bistTold, onEng_engAt_same, Engine.inService]
    exact beq_iff_eq.2 h
  have hc : ((d.bistTold e sig false).event 0x0308 (payN 0 e.val ||| pay 16 sig)).course.run.frame = d.course.run.frame := by
    rw [Dev.event_notices]
    rfl
  rw [Dev.bistDone, if_pos hb]
  exact (if_pos hn).trans (congrArg (fun f =>
    (((d.bistTold e sig false).event 0x0308 (payN 0 e.val ||| pay 16 sig)).retireEngine e 2 1 f).advanceAll) hc)

end

/-- A stalled engine is retired, and its patch goes back to a run that goes on (R183). -/
theorem engStall_retires {w : Work} (hw : (d.engAt e).work = some w) (hs : (d.engAt e).svc = 0) : d.engStall e =
    let y := (d.onEng e fun g => { g with work := none, core := { g.core with mode := .stopped } }).retireEngine e 2 2
      d.course.run.frame
    let z := if w.frame = d.course.run.frame ∨ d.course.lateForce = true then y.onRun w.frame fun r => y.enqueue r w.patch
      else { y with course := { y.course with dropped := satInc y.course.dropped } }
    z.advanceAll.purgeRuns := by
  have hi : (d.engAt e).inService = true := beq_iff_eq.2 hs
  have hf (f : Engine → Engine) : (d.onEng e f).course.run.frame = d.course.run.frame := rfl
  simp only [Dev.engStall, hw, hi, if_true, hf]

/-- The contents of an old slot reach the new one (R165, R185). -/
theorem copyDone_slot {c : Fin 64} {old k : Fin 8} (hc : (d.ctxAt c).copy = some (.slot old k))
    (hp : d.oldPending c = false) : d.copyDone c =
    let y := (d.freeSlot old k).onEng (d.ctxAt c).engine fun g =>
      { g with slotMem := upd g.slotMem (d.ctxAt c).slot fun _ => (d.engAt old).slotMem[k] }
    (y.onCtx c fun z => { z with copy := none, moving := false, state :=
      if y.course.active && y.invPending c y.course.run then .running else .ready }).advanceAll := by
  simp only [Dev.copyDone, hp, Bool.false_eq_true, if_false, hc]
  rfl

end

/-- Settles O32: each command is its operation on the device while the core die is up. -/
theorem courseEnginesAndRuns : Obligations.CourseEnginesAndRuns := by
  unfold Obligations.CourseEnginesAndRuns
  intro s e c sig hup g cs
  refine ⟨fun hn => next_core_same (if_neg (Bool.eq_false_iff.1 hn)),
    fun frame p r ht hp hr => next_core hup ((if_pos ht).trans (takePatch_takes (d := s.dev) hp hr)), ?drain,
    fun ha hc => next_core hup (by rw [runComplete_completes ha hc]),
    fun h => next_core_same (runComplete_waits h), ?bist,
    fun w hw hs => next_core hup (by rw [engStall_retires hw hs]),
    fun old k hc hp => next_core hup (by rw [copyDone_slot hc hp])⟩
  case drain =>
    intro x hx hs freed
    refine ⟨fun k hk => next_core hup (drainDone_stale (d := s.dev) hx hs hk),
      fun r hk hr => ?_⟩
    intro bytes b
    refine next_core (f := fun d => d.drainDone e) hup ?_
    extract_lets y
    have hy : (s.dev.loftWriteAll bytes).onRun x.frame (fun r => { r with done := setBit r.done x.patch.val true }) = y := rfl
    clear_value y
    exact drainDone_fresh hx hs hk hr rfl hy
  case bist =>
    intro hb told
    exact ⟨next_core hup (bistDone_records (d := s.dev) hb (.inl rfl)),
      fun h => next_core hup (bistDone_records (d := s.dev) hb (.inr h)),
      fun h => next_core hup (bistDone_retires (d := s.dev) hb h)⟩

end Sys2Proof.Machine
end

section
/-! PROOF. String channels: cycles, ramps, PWM periods, faults and restarts (09 R281, 10 R291 to R300, R312). -/

namespace Sys2Proof.Machine

open Sys2Proof

/-! ### One channel -/

section
variable (d : Dev) (ch : Fin 8)

@[simp] theorem onStr_str (f : StrChannel → StrChannel) : (d.onStr ch f).str[ch] = f d.str[ch] := upd_same ..

theorem onStr_str_ne {k : Fin 8} (h : k ≠ ch) (f : StrChannel → StrChannel) : (d.onStr ch f).str[k] = d.str[k] :=
  Vector.getElem_set_ne ch.isLt k.isLt fun x => h (Fin.ext x.symm)

/-- Two changes of a channel are one. -/
theorem onStr_onStr (f g : StrChannel → StrChannel) : (d.onStr ch f).onStr ch g = d.onStr ch fun c => g (f c) := by
  simp [Dev.onStr, upd]

/-- Changes that agree on the channel as it stands are one. -/
theorem onStr_congr {f g : StrChannel → StrChannel} (h : f d.str[ch] = g d.str[ch]) : d.onStr ch f = d.onStr ch g := by
  simp only [Dev.onStr, upd, h]

theorem onStr_id {f : StrChannel → StrChannel} (h : f d.str[ch] = d.str[ch]) : d.onStr ch f = d := by
  have h' : f d.str[ch.val] = d.str[ch.val] := h
  simp only [Dev.onStr, upd, Fin.getElem_fin, h', Vector.set_getElem_self]

/-- The channel by its number. -/
theorem getN_str : getN d.str ch.val StrChannel.reset = d.str[ch] := getN_of_lt _ ch.isLt _

/-- Whether a channel may run depends, of the channel, on its mode, its latch and its fault. -/
theorem mayRun_onStr {f : StrChannel → StrChannel} (hm : (f d.str[ch]).mode = d.str[ch].mode)
    (hl : (f d.str[ch]).latched = d.str[ch].latched) (hs : (f d.str[ch]).state = d.str[ch].state) :
    (d.onStr ch f).mayRun ch = d.mayRun ch := by
  have h := onStr_str d ch f
  simp only [Fin.getElem_fin] at h hm hl hs
  simp only [Dev.mayRun, h, hm, hl, hs]
  rfl

theorem mayRun_state (h : d.mayRun ch = true) : d.str[ch].state ≠ 3 := by
  intro h3
  have h3' : d.str[ch.val].state = 3 := h3
  simp [Dev.mayRun, h3'] at h

end

/-! ### Switching cycles (10 R291, R292, R299) -/

/-- What a cycle records of the shunt and of VSN. -/
def StrChannel.told (c : StrChannel) (now : Nat) (shunt : List (BitVec 11)) (v : BitVec 11) : StrChannel :=
  { c with vsn := v, sensed := (now, (shunt.map fun (x : BitVec 11) => x.toNat).sum, shunt.length) ::
    c.sensed.filter fun x => decide (now < x.1 + 1000) }

/-- A cycle of a running channel, before its faults are looked for. -/
def StrChannel.cycled (c : StrChannel) (ch now w : Nat) (shunt : List (BitVec 11)) (v : BitVec 11) : StrChannel :=
  let c := c.told now shunt v
  let c := StrChannel.overVoltage { c with irefNow := if c.mode = 1 then c.iref else c.irefNow } now v
  if w = 0 then { c with gate := false, cycleOn := 0 } else c.switch ch now w shunt

/-- A cycle changes no more than what the switch and the sense inputs decide. -/
theorem cycled_keeps (c : StrChannel) (ch now w : Nat) (shunt : List (BitVec 11)) (v : BitVec 11) :
    (c.cycled ch now w shunt v).mode = c.mode ∧ (c.cycled ch now w shunt v).latched = c.latched ∧
      (c.cycled ch now w shunt v).state = c.state := by
  unfold StrChannel.cycled
  split <;> exact ⟨rfl, rfl, rfl⟩

section
variable {d : Dev} {ch : Fin 8} {shunt : List (BitVec 11)} {v : BitVec 11}

/-- A channel that may not run only records what it sensed. -/
theorem switchingCycle_told (h : d.mayRun ch = false) :
    d.switchingCycle ch shunt v = d.onStr ch fun c => c.told d.now shunt v := by
  simp only [Dev.switchingCycle, h, Bool.false_and, Bool.false_eq_true, if_false]
  rfl

variable (hm : d.mayRun ch = true) (hs : d.str[ch].state ≠ 0)
include hm hs

/-- The channel after a cycle, before its faults. -/
theorem switchingCycle_cycled : d.switchingCycle ch shunt v =
    let t := d.onStr ch fun c => c.cycled ch.val d.now (d.gateWindow ch.val) shunt v
    if t.strQualifies ch .oc then t.strFault ch .oc
    else if t.str[ch].mode = 2 && decide (0 < d.gateWindow ch.val) && t.str[ch].armed && decide (t.str[ch].ov.toNat < v.toNat) &&
      !((shunt.drop 24).any t.str[ch].seen) then t.strFault ch .opened
    else (t.strProtect ch .ov).strProtect ch .short := by
  have hs' : (d.str[ch.val].state != 0) = true := bne_iff_ne.2 hs
  simp only [Dev.switchingCycle, hm, hs', Bool.and_self, if_true, onStr_onStr]
  rfl

end

/-! ### Faults (10 R299, R300) -/

@[simp] theorem event_str (d : Dev) (code : BitVec 16) (p : BitVec 64) : (d.event code p).str = d.str := by
  rw [Dev.event_notices]
@[simp] theorem event_prv (d : Dev) (code : BitVec 16) (p : BitVec 64) : (d.event code p).prv = d.prv := by
  rw [Dev.event_notices]

/-- A channel at its fault: GATE low, latched or with a restart due, and event 0x0701. -/
def Dev.faulted (d : Dev) (ch : Fin 8) (f : StrFault) (latch : Bool) (failed : BitVec 2) : Dev :=
  (d.onStr ch fun c => { c.mark f with
    state := 3, gate := false, armed := false, ocRun := 0, ovHold := false, lowSince := none, regThrough := false,
    latched := latch, failed := failed, faultAt := d.now, retryDue := if latch then none else some f }).event 0x0701
    (payN 0 ch.val ||| payN 4 f.code ||| payN 8 (if latch then 1 else 0) ||| pay 16 d.str[ch].vsn)

section
variable {d : Dev} {ch : Fin 8} {f : StrFault} (hs : d.str[ch].state ≠ 3)
include hs

theorem strFault_faulted : ∃ latch failed, d.strFault ch f = d.faulted ch f latch failed := by
  have hs' : d.str[ch.val].state ≠ 3 := hs
  exact ⟨_, _, if_neg hs'⟩

/-- A first fault latches without AUTORETRY. -/
theorem strFault_first (hl : d.str[ch].lastRetry = none) : d.strFault ch f = d.faulted ch f (!d.str[ch].autoretry) 0 := by
  have hs' : d.str[ch.val].state ≠ 3 := hs
  have hl' : d.str[ch.val].lastRetry = none := hl
  unfold Dev.strFault
  simp only [if_neg hs', hl', Bool.false_eq_true, if_false]
  rw [show (!d.str[ch.val].autoretry || (0 : BitVec 2) == 3) = !d.str[ch].autoretry from Bool.or_false _]
  rfl

/-- The same fault again within 100 ms of a restart counts, and latches the third time. -/
theorem strFault_again {t : Nat} (ha : d.str[ch].autoretry = true) (hl : d.str[ch].lastRetry = some (t, f))
    (ht : d.now ≤ t + 100000) :
    d.strFault ch f = d.faulted ch f (d.str[ch].failed + 1 == 3) (d.str[ch].failed + 1) := by
  have hs' : d.str[ch.val].state ≠ 3 := hs
  have hl' : d.str[ch.val].lastRetry = some (t, f) := hl
  have ha' : d.str[ch.val].autoretry = true := ha
  unfold Dev.strFault
  simp only [if_neg hs', hl', beq_self_eq_true, Bool.true_and, decide_eq_true ht, if_true, ha', Bool.not_true, Bool.false_or]
  rfl

end

theorem faulted_str (d : Dev) (ch : Fin 8) (f : StrFault) (latch : Bool) (failed : BitVec 2) :
    ((d.faulted ch f latch failed).str[ch]).state = 3 ∧ ((d.faulted ch f latch failed).str[ch]).gate = false ∧
      ((d.faulted ch f latch failed).str[ch]).oc = (d.str[ch].mark f).oc := by
  simp only [Dev.faulted, event_str, onStr_str, and_self]

/-! ### Cycles and their faults -/

section
variable {d : Dev} {ch : Fin 8} {shunt : List (BitVec 11)} {v : BitVec 11} {k : StrChannel}
  (hm : d.mayRun ch = true) (hs : d.str[ch].state ≠ 0)
  (hk : d.str[ch].cycled ch.val d.now (d.gateWindow ch.val) shunt v = k)
include hm hs hk

omit hs in
theorem cycled_mayRun : (d.onStr ch fun _ => k).mayRun ch = true ∧ k.state = d.str[ch].state := by
  obtain ⟨h1, h2, h3⟩ := cycled_keeps d.str[ch] ch.val d.now (d.gateWindow ch.val) shunt v
  rw [hk] at h1 h2 h3
  exact ⟨(mayRun_onStr d ch h1 h2 h3).trans hm, h3⟩

/-- Which conditions have lasted their time after a cycle. -/
theorem cycled_qualifies (f : StrFault) : (d.onStr ch fun _ => k).strQualifies ch f = match f with
    | .oc => decide (8 ≤ k.ocRun.toNat)
    | .ov => decide (400000 ≤ k.ovCycles d.now)
    | .short => match k.lowSince with | none => false | some t => decide (t + 1000 ≤ d.now)
    | .opened => false := by
  obtain ⟨hmay, hstate⟩ := cycled_mayRun hm hk
  have hx : (d.onStr ch fun _ => k).str[ch.val] = k := onStr_str ..
  have hne : (k.state != 0) = true := bne_iff_ne.2 (hstate ▸ hs)
  simp only [Dev.strQualifies, hmay, hx, hne, Bool.and_self, Bool.true_and]
  cases f <;> rfl

theorem switchingCycle_eq : d.switchingCycle ch shunt v =
    if (d.onStr ch fun _ => k).strQualifies ch .oc then (d.onStr ch fun _ => k).strFault ch .oc
    else if k.mode = 2 && decide (0 < d.gateWindow ch.val) && k.armed && decide (k.ov.toNat < v.toNat) &&
      !((shunt.drop 24).any k.seen) then (d.onStr ch fun _ => k).strFault ch .opened
    else ((d.onStr ch fun _ => k).strProtect ch .ov).strProtect ch .short := by
  have he : (d.onStr ch fun c => c.cycled ch.val d.now (d.gateWindow ch.val) shunt v) = d.onStr ch fun _ => k :=
    onStr_congr d ch hk
  rw [switchingCycle_cycled hm hs]
  simp only [he, onStr_str]

/-- A cycle that meets no fault's condition. -/
theorem switchingCycle_calm (hoc : k.ocRun.toNat < 8) (hop : k.mode ≠ 2 ∨ d.gateWindow ch.val = 0)
    (hov : k.ovCycles d.now < 400000) (hlow : k.lowSince = none) : d.switchingCycle ch shunt v = d.onStr ch fun _ => k := by
  have qualifies := cycled_qualifies hm hs hk
  have h1 : (d.onStr ch fun _ => k).strQualifies ch .oc = false := by rw [qualifies]; exact decide_eq_false (by omega)
  have h2 : (d.onStr ch fun _ => k).strQualifies ch .ov = false := by rw [qualifies]; exact decide_eq_false (by omega)
  have h3 : (d.onStr ch fun _ => k).strQualifies ch .short = false := by rw [qualifies]; simp only [hlow]
  have h4 : (decide (k.mode = 2) && decide (0 < d.gateWindow ch.val)) = false := by
    rcases hop with h | h
    · rw [decide_eq_false h, Bool.false_and]
    · rw [h, Bool.and_eq_false_iff]; exact .inr rfl
  rw [switchingCycle_eq hm hs hk, h1]
  simp only [h4, Bool.false_and, Bool.false_eq_true, if_false, Dev.strProtect, h2, h3]

/-- The eighth over-current cycle in a row is a fault. -/
theorem switchingCycle_overCurrent (hoc : 8 ≤ k.ocRun.toNat) :
    d.switchingCycle ch shunt v = (d.onStr ch fun _ => k).strFault ch .oc := by
  have h1 : (d.onStr ch fun _ => k).strQualifies ch .oc = true := by
    rw [cycled_qualifies hm hs hk]; exact decide_eq_true hoc
  rw [switchingCycle_eq hm hs hk, if_pos h1]

end

/-- An over-current is seen where a sample after the first 60 ns reaches 150 mV. -/
theorem firstSample_overCurrent (shunt : List (BitVec 11)) :
    (firstSample shunt overCurrent).isSome = true ↔ ∃ x ∈ shunt.drop 24, 1500 ≤ x.toNat := by
  simp only [firstSample, Option.isSome_map, List.findIdx?_isSome, List.any_eq_true, overCurrent, decide_eq_true_eq]

/-- Every LCLK cycle of a switching cycle can have GATE high in SUPPLY mode, but where a calibration step holds it low. -/
theorem gateWindow_supply {d : Dev} {ch : Fin 8} (hm : d.str[ch].mode = 1) (hc : d.calHolds ch.val = false) :
    d.gateWindow ch.val = d.str[ch].fswN.toNat := by
  unfold Dev.gateWindow
  simp only [getN_str, hc, hm, Bool.false_eq_true, if_false]
  rfl

section
variable {c : StrChannel} {now : Nat} {v : BitVec 11}

/-- Overvoltage of a channel that was under none: one cycle counts, far less than the millisecond. -/
theorem overVoltage_first (h : c.ovSpans = []) : (c.overVoltage now v).ovCycles now < 400000 := by
  have hn := c.fswN.isLt
  unfold StrChannel.ovCycles StrChannel.overVoltage
  simp only [h, List.filter_nil]
  split
  · simp
    omega
  · simp

theorem overVoltage_hold : (c.overVoltage now v).ovHold =
    (decide (c.ov.toNat < v.toNat) || (c.ovHold && decide (c.ov.toNat < v.toNat + 24))) := rfl

end

/-! ### Ramps and PWM periods (10 R292, R293, R296) -/

section
variable {d : Dev} {ch : Fin 8} (hm : d.mayRun ch = true)
include hm

theorem rampDone_runs (f : StrChannel → StrChannel) (h : (if d.str[ch].mode = 1 ∧ d.str[ch].state = 1 ∧
      d.str[ch].rampFrom + 1000 ≤ d.now then { d.str[ch] with state := 2 }
    else if d.str[ch].mode = 1 ∧ d.str[ch].state = 2 ∧ d.str[ch].rampFrom + 2000 ≤ d.now then
      { d.str[ch] with armed := true } else d.str[ch]) = f d.str[ch]) : d.rampDone ch = d.onStr ch f := by
  rw [Dev.rampDone, if_pos hm]
  exact onStr_congr d ch h

/-- A PWM period starts with the due duty, reference and factor. -/
theorem pwmStart_starts (h2 : d.str[ch].mode = 2) (hk : d.otKilled ch.val = false)
    (hp : d.str[ch].pwmsync = false ∨ d.str[ch].periodsLeft ≠ 0) : d.pwmStart ch =
      let w := (if d.str[ch].pwmsync then d.str[ch].dutyDue else d.str[ch].duty).toNat % 2 ^ d.str[ch].depth.toNat
      let t := d.onStr ch fun c =>
        { c with periodStart := d.now, dutyNow := BitVec.ofNat 16 w, irefNow := c.iref,
                 derateNow := if d.owned ch.val then 0x10000 else c.derate, state := 2, armed := true,
                 periodsLeft := c.periodsLeft - 1, gapNow := c.gap, gap := false }
      t.onStr ch fun c => { c with gate := t.gateRuns ch.val } := by
  have h2' : (d.str[ch.val].mode == 2) = true := beq_iff_eq.2 h2
  have hp' : (!d.str[ch.val].pwmsync || d.str[ch.val].periodsLeft != 0) = true := by
    rcases hp with h | h
    · have h' : d.str[ch.val].pwmsync = false := h
      rw [h']; rfl
    · have h' : (d.str[ch.val].periodsLeft != 0) = true := bne_iff_ne.2 h
      rw [h', Bool.or_true]
  simp only [Dev.pwmStart, hm, h2', hp', Bool.and_self, if_true, Dev.dutyOf, hk, Bool.false_eq_true, if_false]
  rfl

end

/-- None of a LAT-locked channel whose periods have all been. -/
theorem pwmStart_done {d : Dev} {ch : Fin 8} (hp : d.str[ch].pwmsync = true) (hl : d.str[ch].periodsLeft = 0) :
    d.pwmStart ch = d := by
  have hp' : d.str[ch.val].pwmsync = true := hp
  have hl' : d.str[ch.val].periodsLeft = 0 := hl
  simp [Dev.pwmStart, hp', hl']

/-! ### The end of a PWM period (09 R281) -/

section
variable (d : Dev) (ch : Fin 8) (f : PrvString → PrvString)

@[simp] theorem onPrvStr_str : (d.onPrvStr ch f).str = d.str := rfl
@[simp] theorem onPrvStr_strings : (d.onPrvStr ch f).prv.strings[ch] = f d.prv.strings[ch] := upd_same ..

end

theorem onStr_prv (d : Dev) (ch : Fin 8) (f : StrChannel → StrChannel) : (d.onStr ch f).prv = d.prv := rfl

theorem strFault_prv (d : Dev) (ch : Fin 8) (f : StrFault) : (d.strFault ch f).prv = d.prv := by
  unfold Dev.strFault
  simp only
  split
  · rfl
  · exact event_prv ..

/-- An event that rises at most once in a time, raised or not. -/
theorem eventLimited_cases (d : Dev) (code : BitVec 16) (i gap : Nat) (p : BitVec 64) :
    d.eventLimited code i gap p = d ∨ ∃ l, d.eventLimited code i gap p = Dev.event { d with eventTimes := l } code p := by
  by_cases h : (match lookupN d.eventTimes (code.toNat * 65536 + i) with
    | none => true
    | some t => decide (t + gap ≤ d.now)) = true
  · exact .inr ⟨_, if_pos h⟩
  · exact .inl (if_neg h)

/-- A verdict of a string that is no marker is an event alone. -/
theorem stringVerdict_prv {d : Dev} {ch : Fin 8} (hn : d.isMarker ch.val = false) (code : BitVec 16) :
    (d.stringVerdict ch code).prv = d.prv := by
  have he (p : BitVec 64) : (d.eventLimited code ch.val 1000000 p).prv = d.prv ∧
      (d.eventLimited code ch.val 1000000 p).isMarker ch.val = false := by
    rcases eventLimited_cases d code ch.val 1000000 p with h | ⟨l, h⟩
    · rw [h]
      exact ⟨rfl, hn⟩
    · rw [h, Dev.event_notices]
      exact ⟨rfl, hn⟩
  unfold Dev.stringVerdict
  simp only [(he _).2, Bool.false_and, Bool.false_eq_true, if_false]
  exact (he _).1

section
variable {d : Dev} {ch : Fin 8} {shunt vsn : List (BitVec 11)} (hm : d.mayRun ch = true) (h2 : d.str[ch].mode = 2)
  (hs : d.str[ch].state = 2) (hsh : d.shortTest ch.val = false)
include hm h2 hs hsh

/-- A period without tests clears their marks. -/
theorem pwmEnd_untested (ht : d.pwmTests ch.val = (false, false)) : d.pwmEnd ch shunt vsn =
    let t := d.onPrvStr ch fun p => { p with onTested := false, offTested := false, fails := satAdd p.fails 0 }
    t.onStr ch fun c => { c with gate := t.gateRuns ch.val } := by
  have h2' : (d.str[ch.val].mode == 2) = true := beq_iff_eq.2 h2
  have hs' : (d.str[ch.val].state == 2) = true := beq_iff_eq.2 hs
  have hsh' (f : PrvString → PrvString) : (d.onPrvStr ch f).shortTest ch.val = false := hsh
  simp only [Dev.pwmEnd, hm, h2', hs', Bool.and_self, if_true, ht, Bool.false_and, Bool.false_eq_true, if_false,
    Bool.or_false, hsh']

omit hsh in
/-- A period with its on-test alone proves the string on, or marks it open. -/
theorem pwmEnd_onTest (ht : d.pwmTests ch.val = (true, false)) (hn : d.isMarker ch.val = false) :
    let i := d.onInterval ch.val
    let on := (samples shunt (i.1 + 800) i.2).any d.str[ch].seen
    let p := (d.pwmEnd ch shunt vsn).prv.strings[ch]
    p.provenOn = on ∧ p.onTested = true ∧ p.offTested = false ∧ p.isOpen = (d.prv.strings[ch].isOpen || !on) := by
  intro i on p
  have h2' : (d.str[ch.val].mode == 2) = true := beq_iff_eq.2 h2
  have hs' : (d.str[ch.val].state == 2) = true := beq_iff_eq.2 hs
  have verdict (f : PrvString → PrvString) (code : BitVec 16) :
      ((d.onPrvStr ch f).stringVerdict ch code).prv = (d.onPrvStr ch f).prv :=
    stringVerdict_prv (d := d.onPrvStr ch f) hn code
  have hp : p = ((d.pwmEnd ch shunt vsn).prv).strings[ch] := rfl
  simp only [Dev.pwmEnd, hm, h2', hs', Bool.and_self, if_true, ht, Bool.true_and, Bool.false_and, Bool.false_eq_true, if_false,
    apply_ite Dev.prv, strFault_prv, onStr_prv, ite_self, verdict, onPrvStr_strings] at hp
  rw [hp]
  exact ⟨rfl, rfl, rfl, rfl⟩

end

/-! ### Restarts and inhibits (10 R297, R300, R312) -/

/-- A latched channel restarted. -/
def Dev.strRestarted (d : Dev) (ch : Fin 8) : Dev :=
  ((d.onStr ch fun c => { c with state := 0, latched := false, retries := 0, failed := 0, oc := false, short := false,
                                 ovFault := false, openFault := false, lastRetry := none,
                                 retryDue := none }).refreshChannel ch).event 0x0702 (payN 0 ch.val ||| payN 4 2)

section
variable {d : Dev} {ch : Fin 8}

theorem strRestart_latched {g : Bool} (ho : d.owned ch.val = g) (hl : d.str[ch].latched = true) :
    d.strRestart ch g = d.strRestarted ch := by
  have hl' : d.str[ch.val].latched = true := hl
  simp only [Dev.strRestart, ho, bne_self_eq_false, Bool.false_eq_true, if_false, hl', if_true]
  rfl

theorem strRestart_unlatched (ho : d.owned ch.val = false) (hl : d.str[ch].latched = false) : d.strRestart ch false = d := by
  have hl' : d.str[ch.val].latched = false := hl
  simp only [Dev.strRestart, ho, bne_self_eq_false, Bool.false_eq_true, if_false, hl']

theorem gableRestarts_other (h : d.owned ch.val = false ∨ d.gbl.lost ≠ 0) : d.gableRestarts ch = d := by
  unfold Dev.gableRestarts
  split
  · next hl =>
    have ho : d.owned ch.val = false := h.resolve_right (not_not_intro hl)
    simp [Dev.strRestart, ho]
  · rfl

/-- An automatic restart, due and not held. -/
theorem strRetry_due {f : StrFault} (hr : d.str[ch].retryDue = some f) (hs : d.str[ch].state = 3)
    (ht : d.str[ch].faultAt + 100000 ≤ d.now) (hi : d.inhibited ch.val = false) : d.strRetry ch =
      ((d.onStr ch fun c =>
        { c with state := 0, retries := if c.retries = 3 then 3 else c.retries + 1, lastRetry := some (d.now, f),
                 retryDue := none }).refreshChannel ch).event 0x0702 (payN 0 ch.val ||| payN 4 1) := by
  have hr' : d.str[ch.val].retryDue = some f := hr
  have hs' : d.str[ch.val].state = 3 := hs
  have ht' : d.str[ch.val].faultAt + 100000 ≤ d.now := ht
  simp only [Dev.strRetry, hr', hs', hi, decide_true, decide_eq_true ht', Bool.not_false, Bool.and_self, if_true]
  rfl

theorem strRetry_not (h : d.str[ch].retryDue = none ∨ d.inhibited ch.val = true ∨ d.now < d.str[ch].faultAt + 100000) :
    d.strRetry ch = d := by
  unfold Dev.strRetry
  simp only
  cases hr : d.str[ch.val].retryDue with
  | none => simp only
  | some f =>
    have hno : (decide (d.str[ch.val].faultAt + 100000 ≤ d.now) && !d.inhibited ch.val) = false := by
      rcases h with h | h | h
      · cases hr.symm.trans h
      · rw [h, Bool.not_true, Bool.and_false]
      · have h' : ¬ d.str[ch.val].faultAt + 100000 ≤ d.now := Nat.not_le.2 h
        rw [decide_eq_false h', Bool.false_and]
    simp only [Bool.and_assoc, hno, Bool.and_false, Bool.false_eq_true, if_false]

end

/-- The host's write of RESTART. -/
theorem exec_strRestart_host {s : State} {ch : Fin 8} (h : s.takesWrite (0x2006002C + 64 * ch.val) 1 = true) :
    exec (.strRestart ch false) s = .next (s.hosted fun d =>
      if d.owned ch.val then d.onStr ch StrChannel.refuse else d.strRestart ch false) := by
  have ha : 0x2006002C + 64 * ch.val = 0x20060000 + (64 * ch.val + 0x2C) := by omega
  have page : (0x20060000 + (64 * ch.val + 0x2C)) / 0x10000 = 0x2006 := by omega
  have offset : (0x20060000 + (64 * ch.val + 0x2C)) % 0x10000 = 64 * ch.val + 0x2C := by omega
  have hch : Fin.ofNat 8 ((64 * ch.val + 0x2C) / 64) = ch := Fin.ext (by simp only [Fin.val_ofNat]; omega)
  have hoff : (64 * ch.val + 0x2C) % 64 = 0x2C := by omega
  have hlt : 64 * ch.val + 0x2C < 0x200 := by omega
  refine congrArg Host.Outcome.next ((hostPut_takes h).trans ?_)
  rw [ha]
  simp only [regEffect, page, offset, Dev.strThmWrite, hlt, if_true, hch, hoff, Dev.strWrite]
  have hbit : (1 : Word).getLsbD 0 = true := by decide
  simp only [show ownedOffset 0x2C = true from rfl, Bool.and_true, hbit, if_true]
  rfl

end Sys2Proof.Machine
end

section
/-! PROOF. The string channels' rows (09 R281, 10 R291 to R300, R312). -/

namespace Sys2Proof.Machine

open Sys2Proof

/-! ### What a cycle leaves of its channel -/

section
variable {c : StrChannel} {ch now w : Nat} {shunt : List (BitVec 11)} {v : BitVec 11}

/-- Whether VSN holds GATE low (R299). -/
def StrChannel.above (c : StrChannel) (v : BitVec 11) : Bool :=
  decide (c.ov.toNat < v.toNat) || (c.ovHold && decide (c.ov.toNat < v.toNat + 24))

/-- A cycle with a window, whatever the mode. -/
theorem cycled_window (hw : w ≠ 0) : ((c.cycled ch now w shunt v).ovHold = c.above v ∧
    (c.cycled ch now w shunt v).gate = !c.above v ∧ (c.cycled ch now w shunt v).vsn = v ∧
    (c.cycled ch now w shunt v).sensed = (c.told now shunt v).sensed) ∧
    (c.cycled ch now w shunt v).ocRun = if (firstSample shunt overCurrent).isSome then
      (if c.ocRun = 15 then 15 else c.ocRun + 1) else 0 := by
  simp only [StrChannel.cycled, if_neg hw]
  exact ⟨⟨rfl, rfl, rfl, rfl⟩, rfl⟩

/-- One in SUPPLY mode takes the reference in force and the voltage loop's command (R291, R292). -/
theorem cycled_supply (h1 : c.mode = 1) (hw : w ≠ 0) : (c.cycled ch now w shunt v).irefNow = c.iref ∧
    (c.cycled ch now w shunt v).cycleOn = if c.above v then 0 else BitVec.ofNat 11 (gateCycles c.fswN.toNat w shunt
      (reaches (min c.iref.toNat (Config.voltageLoop ch c.loopDraws (c.target now) v.toNat).toNat) 0x10000)) := by
  simp only [StrChannel.cycled, if_neg hw, StrChannel.told, h1, if_true]
  refine ⟨rfl, ?_⟩
  simp only [StrChannel.switch, StrChannel.peak, StrChannel.overVoltage, if_true]
  rfl

/-- A channel with UV 0 is under no short test (R299). -/
theorem cycled_lowSince (huv : c.uv = 0) (hw : w ≠ 0) : (c.cycled ch now w shunt v).lowSince = none := by
  simp only [StrChannel.cycled, if_neg hw, StrChannel.told, StrChannel.switch, StrChannel.overVoltage, huv, bne_self_eq_false,
    Bool.and_false, Bool.false_and, Bool.false_eq_true, if_false]

/-- A first cycle above OV is far from the millisecond that makes a fault. -/
theorem cycled_ovCycles (h : c.ovSpans = []) : (c.cycled ch now w shunt v).ovCycles now < 400000 := by
  have ho := overVoltage_first (c := { c.told now shunt v with irefNow := if c.mode = 1 then c.iref else c.irefNow })
    (now := now) (v := v) h
  unfold StrChannel.cycled
  split
  · exact ho
  · exact ho

/-- A cycle without a window, under no overvoltage, only holds GATE low (R293). -/
theorem cycled_closed : (c.cycled ch now 0 shunt v).gate = false ∧ (c.cycled ch now 0 shunt v).cycleOn = 0 ∧
    (c.cycled ch now 0 shunt v).ocRun = c.ocRun ∧ (c.cycled ch now 0 shunt v).lowSince = c.lowSince :=
  ⟨rfl, rfl, rfl, rfl⟩

end

/-- Settles O35: each row's operation on its channel, and what it leaves. -/
theorem stringChannels : Obligations.StringChannels := by
  unfold Obligations.StringChannels
  intro s ch shunt vsn v f hup c may now next sensed calm below gated faulted restarted
  refine ⟨fun hn => next_core hup (switchingCycle_told hn), ?supply, ?eighth, ?string, ?ramp, ?pwm, ?unqualified, ?fault,
    ?pwmEnd, fun hr hs ht hi => next_core hup (strRetry_due hr hs ht hi), fun h => next_core_same (strRetry_not h), ?restart,
    ?gable, fun h => next_core_same (gableRestarts_other h), next_core hup rfl⟩
  case supply =>
    intro hm hs h1 hc hn hcalm peak
    obtain ⟨hsp, huv, hsh⟩ := hcalm
    have hw : s.dev.gateWindow ch.val = c.fswN.toNat := gateWindow_supply h1 hc
    have hw0 : c.fswN.toNat ≠ 0 := fun h => hn (BitVec.eq_of_toNat_eq h)
    have hno : (firstSample shunt overCurrent).isSome = false := by
      rw [Bool.eq_false_iff]
      intro h
      obtain ⟨x, hx, hge⟩ := (firstSample_overCurrent shunt).1 h
      have := hsh x (List.mem_of_mem_drop hx)
      omega
    obtain ⟨⟨hhold, hgate, hvsn, hsens⟩, hoc⟩ := cycled_window (c := c) (ch := ch.val) (now := now) (shunt := shunt) (v := v) hw0
    obtain ⟨hiref, hon⟩ := cycled_supply (ch := ch.val) (now := now) (shunt := shunt) (v := v) h1 hw0
    obtain ⟨hmode, -, hstate⟩ := cycled_keeps c ch.val now c.fswN.toNat shunt v
    rw [hno, if_neg Bool.false_ne_true] at hoc
    have hrun := switchingCycle_calm (k := c.cycled ch.val now c.fswN.toNat shunt v) hm hs (by rw [hw]) (by rw [hoc]; decide)
      (.inl (by rw [hmode, h1]; decide)) (cycled_ovCycles hsp) (cycled_lowSince huv hw0)
    have ht : (s.any fun d => d.onStr ch fun _ => c.cycled ch.val now c.fswN.toNat shunt v).dev.str[ch] =
      c.cycled ch.val now c.fswN.toNat shunt v := onStr_str ..
    refine ⟨_, next_core (g := fun d => d.onStr ch fun _ => c.cycled ch.val now c.fswN.toNat shunt v) hup hrun, ?_⟩
    rw [ht]
    refine ⟨hiref, hvsn, hsens, hstate, hoc, fun k hk => onStr_str_ne s.dev ch hk _, fun hb ho => ?_, fun hb => ?_⟩
    · have ha : c.above v = false := by
        rw [StrChannel.above, ho, Bool.false_and, Bool.or_false]
        exact decide_eq_false (Nat.not_lt.2 hb)
      exact ⟨by rw [hgate, ha]; rfl, by rw [hon, ha]; rfl⟩
    · have ha : c.above v = true := by
        rw [StrChannel.above, decide_eq_true (Nat.lt_of_not_le hb), Bool.true_or]
      exact ⟨by rw [hgate, ha]; rfl, by rw [hon, ha]; rfl, by rw [hhold, ha]⟩
  case eighth =>
    intro hm hs h1 hc hn ho hov
    have hw : s.dev.gateWindow ch.val = c.fswN.toNat := gateWindow_supply h1 hc
    have hw0 : c.fswN.toNat ≠ 0 := fun h => hn (BitVec.eq_of_toNat_eq h)
    obtain ⟨-, hoc⟩ := cycled_window (c := c) (ch := ch.val) (now := now) (shunt := shunt) (v := v) hw0
    obtain ⟨-, -, hstate⟩ := cycled_keeps c ch.val now c.fswN.toNat shunt v
    rw [(firstSample_overCurrent shunt).2 hov, if_pos rfl, ho] at hoc
    have hrun := switchingCycle_overCurrent (k := c.cycled ch.val now c.fswN.toNat shunt v) hm hs (by rw [hw])
      (by rw [hoc]; decide)
    have h3 : (s.dev.onStr ch fun _ => c.cycled ch.val now c.fswN.toNat shunt v).str[ch].state ≠ 3 := by
      rw [onStr_str, hstate]
      exact mayRun_state s.dev ch hm
    obtain ⟨latch, failed, hf⟩ := strFault_faulted (f := .oc) h3
    obtain ⟨hst, hg, hoc'⟩ := faulted_str (s.dev.onStr ch fun _ => c.cycled ch.val now c.fswN.toNat shunt v) ch .oc latch failed
    exact ⟨_, next_core (g := fun d =>
      (d.onStr ch fun _ => c.cycled ch.val now c.fswN.toNat shunt v).faulted ch .oc latch failed) hup (hrun.trans hf), hst, hoc', hg⟩
  case string =>
    intro hm hs h2 hw hcalm hb ho hl
    obtain ⟨hsp, -, -⟩ := hcalm
    obtain ⟨hgate, hon, hoc, hlow⟩ := cycled_closed (c := c) (ch := ch.val) (now := now) (shunt := shunt) (v := v)
    obtain ⟨-, -, hstate⟩ := cycled_keeps c ch.val now 0 shunt v
    have hrun := switchingCycle_calm (k := c.cycled ch.val now 0 shunt v) hm hs (by rw [hw]) (by rw [hoc, ho]; decide)
      (.inr hw) (cycled_ovCycles hsp) (hlow.trans hl)
    have ht : (s.any fun d => d.onStr ch fun _ => c.cycled ch.val now 0 shunt v).dev.str[ch] =
      c.cycled ch.val now 0 shunt v := onStr_str ..
    refine ⟨_, next_core (g := fun d => d.onStr ch fun _ => c.cycled ch.val now 0 shunt v) hup hrun, ?_⟩
    rw [ht]
    exact ⟨hgate, hon, hstate⟩
  case ramp =>
    intro hm h1
    refine ⟨fun h hr => next_core hup (rampDone_runs hm _ (if_pos ⟨h1, h, hr⟩)), fun h hr => ?_, fun h hr => ?_⟩
    · have no : ¬ (c.mode = 1 ∧ c.state = 1 ∧ c.rampFrom + 1000 ≤ now) := fun x => Nat.not_lt.2 x.2.2 hr
      have no2 : ¬ (c.mode = 1 ∧ c.state = 2 ∧ c.rampFrom + 2000 ≤ now) := fun x => absurd (h.symm.trans x.2.1) (by decide)
      exact next_core hup (rampDone_runs hm _ ((if_neg no).trans (if_neg no2)))
    · have no : ¬ (c.mode = 1 ∧ c.state = 1 ∧ c.rampFrom + 1000 ≤ now) := fun x => absurd (h.symm.trans x.2.1) (by decide)
      exact next_core hup (rampDone_runs hm _ ((if_neg no).trans (if_pos ⟨h1, h, hr⟩)))
  case pwm =>
    intro hm h2 hk w
    exact ⟨fun hp hl => next_core_same (pwmStart_done hp hl), fun hp => next_core hup (pwmStart_starts hm h2 hk hp)⟩
  case unqualified => exact fun h => next_core_same (if_neg (Bool.eq_false_iff.1 h))
  case fault =>
    intro hq h3
    have hrun : s.dev.strProtect ch f = s.dev.strFault ch f := if_pos hq
    refine ⟨fun ha hl => next_core hup (hrun.trans ?_), fun ha hl => next_core hup (hrun.trans ?_),
      fun t ha hl ht => next_core hup (hrun.trans (strFault_again h3 ha hl ht))⟩
    · rw [strFault_first h3 hl, ha]; rfl
    · rw [strFault_first h3 hl, ha]; rfl
  case pwmEnd =>
    intro hm h2 hs hsh
    refine ⟨fun ht => next_core hup (pwmEnd_untested hm h2 hs hsh ht), fun ht hn => ?_⟩
    intro i on
    exact ⟨_, congrArg Host.Outcome.next (s.core_up _ hup), pwmEnd_onTest hm h2 hs ht hn⟩
  case restart =>
    intro hw
    refine ⟨fun ho => (exec_strRestart_host hw).trans ?_, fun ho hl => (exec_strRestart_host hw).trans ?_,
      fun ho hl => (exec_strRestart_host hw).trans ?_⟩
    · exact congrArg Host.Outcome.next (State.any_congr (if_pos ho))
    · exact congrArg Host.Outcome.next (State.any_congr ((if_neg (Bool.eq_false_iff.1 ho)).trans (strRestart_latched ho hl)))
    · exact congrArg Host.Outcome.next (State.any_congr ((if_neg (Bool.eq_false_iff.1 ho)).trans (strRestart_unlatched ho hl)))
  case gable =>
    intro ho hl hg
    exact next_core hup ((if_pos hg).trans (strRestart_latched ho hl))

end Sys2Proof.Machine
end

section
/-! PROOF. Temperatures: what a publication, an update of the factors, a stale tile and a thermal shutdown each come to
(10 R301 to R311). -/

namespace Sys2Proof.Machine

open Sys2Proof

@[simp] theorem event_thm (d : Dev) (code : BitVec 16) (p : BitVec 64) : (d.event code p).thm = d.thm := by
  rw [Dev.event_notices]
@[simp] theorem event_trim (d : Dev) (code : BitVec 16) (p : BitVec 64) : (d.event code p).trim = d.trim := by
  rw [Dev.event_notices]

section
variable {d : Dev} {n : Fin 6}

@[simp] theorem onNtc_ntc (f : Ntc → Ntc) : (d.onNtc n f).thm.ntc[n] = f d.thm.ntc[n] := upd_same ..

/-- The temperature that an input's table gives a code (R302). -/
def Dev.ntcDegrees (d : Dev) (n : Fin 6) (code : BitVec 12) : BitVec 16 :=
  ntcTemp d.thm.lut[(if d.thm.ntc[n].table then 1 else 0 : Fin 2)] code

/-- A value inside its range, of an input without a fault that stays on its side of OT, is published without an event
(R301, R303, R305). -/
theorem ntcPublish_inRange {volts : Vector (Nat × Nat) 8} (hen : d.thm.ntc[n].en = true)
    (hcal : d.trim.active.getLsbD 24 = false) (hopen : d.thm.ntc[n].isOpen = false) (hshort : d.thm.ntc[n].isShort = false)
    (hlow : 32 ≤ (ntcMean volts).toNat) (hhigh : (ntcMean volts).toNat ≤ 4063)
    (hot : overTempNow d.thm.ntc[n].overTemp (d.ntcDegrees n (ntcMean volts)) d.thm.ntc[n].ot = d.thm.ntc[n].overTemp) :
    d.ntcPublish n volts = d.onNtc n fun x =>
      { x with code := ntcMean volts, temp := d.ntcDegrees n (ntcMean volts), openRun := 0, shortRun := 0, isOpen := false,
               isShort := false, valid := true, overTemp := d.thm.ntc[n].overTemp } := by
  have notOpen : decide (4064 ≤ (ntcMean volts).toNat) = false := decide_eq_false (by omega)
  have notShort : decide ((ntcMean volts).toNat ≤ 31) = false := decide_eq_false (by omega)
  simp only [Dev.ntcDegrees, Fin.getElem_fin] at hen hopen hshort hot ⊢
  have bits : ((0 : BitVec 4) == 10) = false := rfl
  simp only [Dev.ntcPublish, hen, hcal, hopen, hshort, notOpen, notShort, hot, bits, Bool.not_true, Bool.not_false, Bool.or_self,
    Bool.and_true, Bool.and_false, Bool.false_eq_true, if_true, if_false, bne_self_eq_false]

end

/-- With derating off every channel's factor is 1.0 (R307). -/
theorem derateUpdate_off {d : Dev} (h : d.thm.drtEn = false) (j : Fin 8) : (d.derateUpdate.str[j]).derate = 0x10000 := by
  have off : d.derateUpdate = d.noDerate := if_pos (by rw [h]; rfl)
  rw [off]
  simp [Dev.noDerate]

/-- A temperature that no capture renewed within 64 frames becomes stale (R304). -/
theorem tileStaleNow_old {d : Dev} {t : Fin 128} {age : Nat} (ha : (d.scan.tile t.val).tempAge = some age) (h64 : 64 < age)
    (hs : d.thm.tileStale.getLsbD t.val = false) :
    (d.tileStaleNow t).thm.tileStale = setBit d.thm.tileStale t.val true := by
  unfold Dev.tileStaleNow
  rw [ha]
  simp only [h64, hs, and_self, if_true, event_thm]

/-- The die's temperature below WARN, of a die that was not warned of, is taken without an event (R310). -/
theorem dieTemp_cool {d : Dev} {sensors : Vector (BitVec 16) 4} (hw : d.thm.warned = false)
    (hc : (sensors.toList.foldl (fun m y => if m.toInt < y.toInt then y else m) sensors[0]).toInt < d.thm.dieWarn.toInt) :
    d.dieTemp sensors =
      let temp := sensors.toList.foldl (fun m y => if m.toInt < y.toInt then y else m) sensors[0]
      Dev.calTemp { d with thm := { d.thm with
        dieTemp := temp, dieMax := if d.thm.dieMax.toInt < temp.toInt then temp else d.thm.dieMax, warned := false } } := by
  unfold Dev.dieTemp
  simp only [hw, Bool.false_eq_true, if_false, decide_eq_false (Int.not_le.2 hc), bne_self_eq_false]

/-- A die at 165 degrees goes down and is held there (R311). -/
theorem thermalShutdown_holds {d : Dev} (hoff : d.sys.mode ≠ .off) (hstby : d.sys.mode ≠ .standby) :
    d.thermalShutdown.coreUp = false ∧ d.thermalShutdown.sys.hold.thermal = true := by
  have held : d.thermalShutdown.sys.hold = { d.sys.hold with thermal := true } := by
    unfold Dev.thermalShutdown
    rw [if_neg (not_or.2 ⟨hoff, hstby⟩), Dev.beginReset_hold]
  constructor
  · simp [Dev.coreUp, held, ResetHold.clear]
  · rw [held]

end Sys2Proof.Machine
end

section
/-! PROOF. The rows of string channels, temperatures and calibration complete (09 R281, 10 R291 to R311, 14 R425 to R432). -/

namespace Sys2Proof.Machine

open Sys2Proof

section
variable {s : State} {ch : Fin 8} (hup : s.dev.coreUp = true)
include hup

/-- A PWM period of a channel without PWMSYNC starts with its duty (R293). -/
theorem exec_pwmPeriodStart_duty (hm : s.dev.mayRun ch = true) (h2 : s.dev.str[ch].mode = 2)
    (hk : s.dev.otKilled ch.val = false) (hp : s.dev.str[ch].pwmsync = false) :
    ∃ u, exec (.pwmPeriodStart ch) s = .next u ∧ (u.dev.str[ch]).periodStart = s.dev.now ∧ (u.dev.str[ch]).state = 2 ∧
      (u.dev.str[ch]).dutyNow = BitVec.ofNat 16 (s.dev.str[ch].duty.toNat % 2 ^ s.dev.str[ch].depth.toNat) ∧
      (u.dev.str[ch]).gap = false := by
  refine ⟨_, congrArg Host.Outcome.next (s.core_up _ hup), ?_⟩
  rw [State.any_dev, pwmStart_starts hm h2 hk (.inl hp), hp]
  simp only [onStr_str, Bool.false_eq_true, if_false, and_self]

/-- One that ends without a test clears the tests' marks (09 R281). -/
theorem exec_pwmPeriodEnd_untested {shunt vsn : List (BitVec 11)} (hm : s.dev.mayRun ch = true) (h2 : s.dev.str[ch].mode = 2)
    (hs : s.dev.str[ch].state = 2) (hsh : s.dev.shortTest ch.val = false) (ht : s.dev.pwmTests ch.val = (false, false)) :
    ∃ u, exec (.pwmPeriodEnd ch shunt vsn) s = .next u ∧ (u.dev.prv.strings[ch]).onTested = false ∧
      (u.dev.prv.strings[ch]).offTested = false := by
  refine ⟨_, congrArg Host.Outcome.next (s.core_up _ hup), ?_⟩
  rw [State.any_dev, pwmEnd_untested hm h2 hs hsh ht]
  simp only [onStr_prv, onPrvStr_strings, and_self]

/-- A first fault of a channel without AUTORETRY latches it off (R299, R300). -/
theorem exec_stringProtectTimeout_latches {f : StrFault} (hq : s.dev.strQualifies ch f = true) (h3 : s.dev.str[ch].state ≠ 3)
    (ha : s.dev.str[ch].autoretry = false) (hl : s.dev.str[ch].lastRetry = none) :
    ∃ u, exec (.stringProtectTimeout ch f) s = .next u ∧ (u.dev.str[ch]).state = 3 ∧ (u.dev.str[ch]).gate = false ∧
      (u.dev.str[ch]).latched = true ∧ (u.dev.str[ch]).retryDue = none := by
  have latches : s.dev.strProtect ch f = s.dev.faulted ch f true 0 := by
    rw [Dev.strProtect, if_pos hq, strFault_first h3 hl, ha]
    rfl
  refine ⟨_, congrArg Host.Outcome.next (s.core_up _ hup), ?_⟩
  rw [State.any_dev, latches]
  simp only [Dev.faulted, event_str, onStr_str, if_true, and_self]

end

/-- Settles O58: what each row's operation leaves, from the rows of O35 and O39 and the lemmas on temperatures. -/
theorem stringAndTrimCommandsComplete : Obligations.StringAndTrimCommandsComplete := by
  unfold Obligations.StringAndTrimCommandsComplete
  intro s ch shunt vsn v n volts t sensors w k code sense hup d c tr goes holds
  refine ⟨?cycle, ?ramp, exec_pwmPeriodStart_duty hup, exec_pwmPeriodEnd_untested hup,
    fun f => exec_stringProtectTimeout_latches hup, fun f hr hs ht hi => next_core hup (strRetry_due hr hs ht hi), ?restart,
    next_core hup rfl, ?ntc, ?derate, ?table, ?stale, fun hw hc => next_core hup (dieTemp_cool hw hc), ?shutdown,
    ⟨_, rfl, rfl⟩, ?run, ?step, ?stepEnd, fun hr ha he => next_core hup (Dev.calTimeout_due hr ha he), ?dac, ?apply,
    fun hw hr => exec_trimAbort hw (if_pos hr)⟩
  case cycle =>
    intro hm hs h1 hc hn hsp huv ho hsh hb
    obtain ⟨-, supply, -⟩ := stringChannels s ch shunt vsn v .oc hup
    obtain ⟨u, run, iref, vsn, -, state, -, -, gate, -⟩ := supply hm hs h1 hc hn ⟨hsp, huv, hsh⟩
    exact ⟨u, run, (gate hb ho).1, iref, vsn, state⟩
  case ramp =>
    intro hm h1 hs ht
    have regulates := rampDone_runs hm (fun x => { x with state := 2 }) (if_pos ⟨h1, hs, ht⟩)
    refine ⟨_, congrArg Host.Outcome.next (s.core_up _ hup), ?_⟩
    rw [State.any_dev, regulates]
    simp only [onStr_str]
  case restart =>
    intro hw ho hl
    refine (exec_strRestart_host hw).trans (congrArg Host.Outcome.next (State.any_congr ?_))
    exact (if_neg (Bool.eq_false_iff.1 ho)).trans (strRestart_latched ho hl)
  case ntc =>
    intro x lut hen hcal hopen hshort hlow hhigh hot
    refine ⟨_, congrArg Host.Outcome.next (s.core_up _ hup), ?_⟩
    rw [State.any_dev, ntcPublish_inRange hen hcal hopen hshort hlow hhigh hot]
    simp only [onNtc_ntc]
    exact ⟨trivial, rfl, trivial⟩
  case derate =>
    exact fun h => ⟨_, congrArg Host.Outcome.next (s.core_up _ hup), derateUpdate_off h⟩
  case table =>
    intro a hw inside
    have taken := Dev.drtAddrWrite_taken (d := s.dev.answering) inside
    exact ⟨_, exec_thmDrtAddrWrite hw, congrArg (fun d : Dev => d.thm.drtAddr) taken⟩
  case stale =>
    intro age ha h64 hs
    have old := tileStaleNow_old ha h64 hs
    refine ⟨_, congrArg Host.Outcome.next (s.core_up _ hup), ?_⟩
    change (s.dev.tileStaleNow t).thm.tileStale.getLsbD t.val = true
    rw [old, getLsbD_setBit _ _ _ _ t.isLt, if_pos rfl]
  case shutdown =>
    exact fun hoff hstby => ⟨_, rfl, thermalShutdown_holds hoff hstby⟩
  case run =>
    intro a r hq hm hr hi
    refine ⟨_, congrArg Host.Outcome.next (s.core_up _ hup), ?_⟩
    rw [State.any_dev, Dev.calStart_queued hup hq hm hr hi]
    simp only [event_trim, tr, d, and_self]
  case step =>
    intro hr hp hi hb he hk hw
    have starts := Dev.calStep_starts (d := s.dev) ⟨hr, hp, hi, hb, he⟩ hw
    rw [if_neg (Nat.not_lt.mpr hk)] at starts
    exact ⟨_, next_core (g := fun d => d.stepBegun k) hup starts, rfl, upd_same ..⟩
  case stepEnd =>
    intro hr ha ho hw hf hl ht
    have ends := Dev.calStepDone_not_last (d := s.dev) ⟨hr, ha, ho⟩ hw hf hl ht
    exact ⟨_, next_core (g := fun d => d.codeTaken k code) hup ends, upd_same .., rfl, rfl⟩
  case dac =>
    intro hw h
    exact ⟨_, exec_trmDacWrite (f := fun d => { d with trim := { d.trim with shadow := upd d.trim.shadow k fun _ => code } })
      hw (if_pos h), upd_same ..⟩
  case apply =>
    intro hw h
    refine ⟨_, exec_trimApply hw (f := fun d =>
      ({ d with trim := { d.trim.apply with lastEnd := 6 } } : Dev).event 0x0B05 (pay 0 d.trim.apply.gen)) (if_pos h), ?_⟩
    simp only [State.hosted, State.any_dev, event_trim]
    exact ⟨rfl, rfl⟩

end Sys2Proof.Machine
end
